-- ==== Sys2Proof/Word.lean ====
section
/-!
DEFINITION. The words of the ZP7240 (R4): bytes, register words, unit IDs and the sparse map that every large piece of
state is held in.
-/
namespace Sys2Proof

/-- One byte of memory. -/
abbrev Byte := BitVec 8
/-- A 16-bit word: a unit ID (R11), a phase in pu (R5), a counter ID (R267), an event code (R483). -/
abbrev Word16 := BitVec 16
/-- A 32-bit control-register word (R25). -/
abbrev Word32 := BitVec 32
/-- A 64-bit word: a sync-counter word (R267), a cycle number (R43). -/
abbrev Word64 := BitVec 64
/-- A byte string as the numbers 0 to 255, in order of address. -/
abbrev Bytes := List Nat
/-- A table from numbers to values that lists only the keys whose value differs from the table's default, with the
keys strictly rising. -/
abbrev Smap (α : Type) := List (Nat × α)

end Sys2Proof
end

