-- ==== Sys2Proof/Syntax.lean ====
section
/-!
DEFINITION. The commands of the block: one constructor per row of the opcode table, with the operands that its
sender, or the event itself, brings.
-/
namespace Sys2Proof

/-- The source of a synchronisation edge (R31). -/
inductive SyncSrc where
  | sync0 | syncIn
  deriving DecidableEq, Repr

/-- Who writes a register: a core of the application cluster, or a firmware processor, 13 × stack + index. -/
inductive Writer where
  | cluster (core : Fin 8)
  | firmware (i : Fin 26)
  deriving DecidableEq, Repr

/-- What a request does with a word of its bank (R317): a read; a write of the lanes of a mask with the word's 64 bytes; or such a write
as a read-modify-write, which holds the bank for 2 clk. -/
inductive BankAct where
  | read
  | write (lanes : BitVec 8) (b : Bytes)
  | modify (lanes : BitVec 8) (b : Bytes)
  deriving DecidableEq, Repr

/-- An access of another unit that meets one of the cluster at its bank of the shared store (R318 to R320): its source, the word in the bank,
what it does, and the clk after the cluster's in which it reaches the bank. -/
structure BankReq where
  u : BitVec 16
  word : BitVec 12
  act : BankAct
  delay : BitVec 10
  deriving DecidableEq, Repr

/-- What a cycle boundary samples from outside (R43): the Distributed Clocks time in ns, gPTP seconds and nanoseconds; and,
when the two stacks' version digests differ (R77), the Marrow of each stack that built the first differing block range
(R393); and the hash engine, 2 × stack + index, whose known-answer digest of this boundary is wrong (R413). -/
structure BoundaryIn where
  dcNs : BitVec 64
  gptpS : BitVec 48
  gptpNs : BitVec 32
  digestBad : Option (Fin 3 × Fin 3)
  katBad : Option (Fin 4)
  deriving DecidableEq, Repr

/-- Where a packed point fragment arrives (R51): a CSI-2 port and virtual channel, or an Ethernet port. -/
inductive PointSrc where
  | csi (p : Fin 8) (v : Fin 4)
  | udp (p : Fin 2)
  deriving DecidableEq, Repr

/-- How a TEST ends (R387): every step passed, or the step that failed with what its event reports (R395): the failing pattern
or word, the checker and whether it missed, the failing probes of the golden batch. -/
inductive TestRes where
  | pass
  | bist (w : BitVec 16)
  | march (w : BitVec 16)
  | inject (checker : BitVec 16) (missed : Bool)
  | golden (probes : BitVec 16)
  deriving DecidableEq, Repr

/-- The units that share a golden slot (R390). -/
inductive GoldKind where
  | pods | chards
  deriving DecidableEq, Repr

/-- What a golden batch showed (R392): all values equal, a placed centre or the generator block off, the Peas whose probes
differ each with its failing probes and those of them whose value read differs, or the failing probes of a Chard set. -/
inductive GoldRes where
  | pass
  | centre (probes : BitVec 16)
  | peas (l : List (Fin 17 × BitVec 16 × BitVec 16))
  | chard (probes : BitVec 16)
  deriving DecidableEq, Repr

/-- The MACsec tag of a received frame (R172): association number, packet number, and whether its ICV is right under the SAK of
that number. -/
structure SecTag where
  an : Fin 4
  pn : BitVec 32
  icvOk : Bool
  deriving DecidableEq, Repr

/-- What a received Ethernet frame carries (R171): an IPv4 UDP datagram, or anything else. -/
inductive EthData where
  | udp (dst : BitVec 32) (port : BitVec 16) (payload : Bytes)
  | other
  deriving DecidableEq, Repr

/-- A line of a brick cache (R153): a brick word by its pool word, or an index line by version slot and line number. -/
inductive CacheLine where
  | word (w : BitVec 32)
  | index (slot : Fin 3) (n : BitVec 32)
  deriving DecidableEq, Repr

/-- One self-collision test (R140): of two bound spheres, or of two body spheres. -/
inductive PairTest where
  | bound (a b : Fin 32)
  | body (a b : Fin 256)
  deriving DecidableEq, Repr

/-- One probe (R152): a field probe of a bound or body sphere, a capsule test of one with a capsule of the waypoint's set, or a group
of up to 4 self-collision tests. -/
inductive ProbeKind where
  | bound (b : Fin 32)
  | body (n : Fin 256)
  | boundCap (b : Fin 32) (i : BitVec 16)
  | bodyCap (n : Fin 256) (i : BitVec 16)
  | pairs (l : List PairTest)
  deriving DecidableEq, Repr

/-- What the array forms (R248): a matrix product, a convolution by its strides and paddings along dimensions 1 and 2 with dilation and
groups, or a transposed convolution of stride 2 with its paddings and groups. -/
inductive ArrayOp where
  | matmul
  | conv (sx sy : Fin 5) (px py : Fin 8) (dil : Fin 5) (groups : BitVec 13)
  | convT (px py : Fin 4) (groups : BitVec 13)
  deriving DecidableEq, Repr

/-- A mask of ATTENTION (R249). -/
inductive AttnMask where
  | none | causal
  | window (w : BitVec 13)
  | band (w : BitVec 13)
  deriving DecidableEq, Repr

/-- A function of ELEMENTWISE (R248); two operands for add and multiply. -/
inductive EwFn where
  | add | mul
  | clamp (lo hi : BitVec 32)
  | relu | gelu | silu | sigmoid | tanh | exp | quantise | dequantise
  deriving DecidableEq, Repr

/-- A normalisation: LAYER_NORM, RMS_NORM, or GROUP_NORM by its groups. -/
inductive NormFn where
  | layer | rms
  | group (n : Fin 65)
  deriving DecidableEq, Repr

/-- A reduction. -/
inductive RedFn where
  | sum | max | argmax
  deriving DecidableEq, Repr

/-- The operation of a tile task (R248), over the tensors A, B and C that its parameter block names. An array operation has its first k step,
their number, and the address of a bias by column; ATTENTION takes Q, K and its output from A, B and C, V from a descriptor of its own,
and a scale in FP32; GATHER and SCATTER name the indexed dimension. -/
inductive TileOp where
  | array (a : ArrayOp) (k0 kn : BitVec 17) (bias : Option (BitVec 40))
  | attention (v : BitVec 40) (scale : BitVec 32) (mask : AttnMask)
  | norm (f : NormFn) (eps : BitVec 32)
  | softmax
  | elementwise (f : EwFn)
  | reduce (f : RedFn)
  | gather (d : Fin 4)
  | scatter (d : Fin 4) (add : Bool)
  deriving DecidableEq, Repr

/-- What a model's output is for: nothing more than a tensor, seeds by their count (R256), a person mask of a stream with the signed image's
threshold (R258), or learned costs from a rank on (R257). -/
inductive TileRole where
  | plain
  | seed (count : BitVec 11)
  | mask (stream : Fin 32) (thr : BitVec 32)
  | cost (rank : BitVec 16)
  deriving DecidableEq, Repr

/-- A copy of weights that a tiling orders (R252): from a byte of the slot's weight set to an address, or to an offset of the Cob's local
memory. -/
structure WLoad where
  src : BitVec 32
  dst : BitVec 40
  len : BitVec 32
  here : Bool
  deriving DecidableEq, Repr

/-- What the tiling fixes for a tile task, which no table of the specification lays out (R251): its operation, the columns of dimension 0 and
the rows of the other dimensions that its output block covers, its role, and the weights that it loads; with the accumulators that an
upset of the array flips, by their number in the block. -/
structure TileOut where
  op : TileOp
  col : BitVec 24
  cols : BitVec 25
  row : BitVec 32
  rows : BitVec 33
  role : TileRole
  loads : List WLoad
  upset : List (BitVec 32 × BitVec 32)
  deriving DecidableEq, Repr

/-- One assembled row of a residual kernel whose formula the specification leaves to the model block (R216): kernel code, weight, residual,
and the Jacobian's entries by variable, each an (element, FRAC). -/
structure SolveRow where
  kernel : BitVec 8
  w : Int × Int
  r : Int × Int
  jac : List (BitVec 20 × (Int × Int))
  deriving DecidableEq, Repr

/-- What a schedule's tile map and operation list fix, whose layout only the Parsnips read (R219, R230): the elimination order, and the FRAC
of every value written back: A (lower triangle with its diagonal) and b by row; D and DINV by pivot; T, L and U by row and column; the
three substitution vectors by row; and the Jacobian of a REFINE problem. -/
structure SolveForm where
  vars : List (BitVec 20)
  fA : List (List Int)
  fB : List Int
  fD : List Int
  fR : List Int
  fT : List (List Int)
  fL : List (List Int)
  fU : List (List Int)
  fY : List Int
  fZ : List Int
  fX : List Int
  fJ : Int
  deriving DecidableEq, Repr

/-- What the front stage brings to one problem beyond what the state holds: the schedule's formats, the rows of the kernels of ESTIMATE and
BATCH at the initial iterate and after each step, the kernels' predictions by variable (R232), and, for an estimate, the first variable
of the newest state with the yaw that its increment is applied to (R218). -/
structure SolveOut where
  form : SolveForm
  rows : List (List SolveRow)
  pred : List (BitVec 20 × BitVec 32)
  newest : Option (BitVec 20 × BitVec 32)
  deriving DecidableEq, Repr

/-- What a completing task brings beyond what the state holds. -/
inductive Work where
  | plain
  | tile (o : TileOut)
  | solve (o : SolveOut)
  deriving DecidableEq, Repr

/-- The check that fails a task: the residual row, the checksums, the metadata, a write outside the window (R223, R259, R243, R310), or
a read of an address that finds an uncorrectable error (R324, R334). -/
inductive CheckFail where
  | residual (row : BitVec 32)
  | abft
  | sparseMeta
  | window
  | ue (a : BitVec 40)
  deriving DecidableEq, Repr

/-- A detected condition of R364: the verdict path lost, a Husk pair mismatch, a clock source not restored, the junction temperature, a
supply. -/
inductive SafeCause where
  | path | huskPair | clock | temperature | supply
  deriving DecidableEq, Repr


/-- What an SDO information request asks (R415): the list of objects, the description of one, or of one of its entries. -/
inductive InfoReq where
  | list
  | object (idx : BitVec 16)
  | entry (idx : BitVec 16) (sub : BitVec 8)
  deriving DecidableEq, Repr

/-- What the master does to slave-controller registers by EtherCAT frames, or what a frame meets there (R415, R424, R433): a SyncManager's
configuration, SYNC0 with its cycle time in ns, Distributed Clocks time, a receive error at a port, an ECC error of the ESC RAM. -/
inductive EscAcc where
  | sm (n : Fin 4) (start len : BitVec 16) (mailbox on : Bool)
  | sync0 (on : Bool) (ns : BitVec 32)
  | dcTime (valid : Bool)
  | rxError (p : Fin 2)
  | ramError (a : BitVec 16)
  deriving DecidableEq, Repr

/-- An FSoE master frame as the rules of FSoE judge it (R430): a step of the connection set-up with what it brings, safe data, or an error
with its reset reason. -/
inductive FsoeIn where
  | session
  | connection (id : BitVec 16)
  | parameter (wdMs par : BitVec 16)
  | data
  | error (reason : BitVec 8)
  deriving DecidableEq, Repr

/-- A file name of R431. -/
inductive FoeName where
  | zpfw | zpplan | zpwgt | zpprim | zpmodel | zpbbox | other
  deriving DecidableEq, Repr

/-- An access of the application cluster (R22): a load of up to 64 bytes, with the error that the read finds, corrected or not (R323,
R324, R334), or a store. -/
inductive BusOp where
  | load (a : BitVec 40) (n : BitVec 7) (err : Option Bool)
  | store (a : BitVec 40) (b : Bytes)
  deriving DecidableEq, Repr

/-- What the plan image ties to a gate beside its decrement, which no table of the image names: the end gates of the main selection, the
winner selection, the re-check and a background selection by its parameter block (R162, R210), the gates of slices (R229, R252, R309), an
end gate with the steps that the BATCH problem has accepted so far (R239), the head of the learned cost (R255, R257), and the release of
an invocation with an alternative tiling and its tile tasks (R253). -/
inductive GateRole where
  | selEnd | winEnd | recheckEnd | sliceStart
  | sliceEnd (iters : Fin 17)
  | bgSelEnd (p : BitVec 40)
  | costHead (k : Fin 16)
  | retile (k alt : Fin 16) (tiles : BitVec 28)
  deriving DecidableEq, Repr

/-- The commands (spec/opcode_table.json). -/
inductive Instr where
  /-- UCTL_ENABLE (R14). -/
  | uctlEnable
  /-- UCTL_DISABLE (R14). -/
  | uctlDisable
  /-- UCTL_TEST (R14). -/
  | uctlTest
  /-- UCTL_RETIRE (R14). -/
  | uctlRetire
  /-- UCTL_BAD_COMMAND (R28). -/
  | uctlBadCommand (c : Fin 3)
  /-- UCTL_UNIT_SELECT (R29). -/
  | uctlUnitSelect (u : BitVec 16)
  /-- UNIT_TEST_END (R14). -/
  | unitTestEnd (u : BitVec 16) (r : TestRes)
  /-- DRAIN_COMPLETE (R14). -/
  | drainComplete (u : BitVec 16)
  /-- SYNC_EDGE (R37). -/
  | syncEdge (src : SyncSrc) (dt : BitVec 32)
  /-- PHU_SRC_SELECT (R31). -/
  | phuSrcSelect (who : Writer) (src : SyncSrc)
  /-- PHU_SRC_OFF (R31). -/
  | phuSrcOff (who : Writer) (three : Bool)
  /-- CAPTURE_WINDOW_CLOSE (R37). -/
  | captureWindowClose
  /-- COAST_ENTRY (R37). -/
  | coastEntry
  /-- CYCLE_LOST (R37). -/
  | cycleLost
  /-- CYCLE_BOUNDARY (R40). -/
  | cycleBoundary (b : BoundaryIn)
  /-- GATE_ISSUE (R38). -/
  | gateIssue (roles : List GateRole)
  /-- HELD_GATE_ISSUE (R39). -/
  | heldGateIssue
  /-- STEP_IN_FALL (R45). -/
  | stepInFall (dt : BitVec 32)
  /-- BARRIER_FORWARD (R45). -/
  | barrierForward
  /-- BARRIER_RELEASE (R45). -/
  | barrierRelease
  /-- TC_SNAPSHOT_READ (R43). -/
  | tcSnapshotRead
  /-- TC_FLAGS_READ (R43). -/
  | tcFlagsRead
  /-- CSI_FRAME_START (R52). -/
  | csiFrameStart (p : Fin 8) (v : Fin 4) (num : BitVec 16) (bad : Bool)
  /-- CSI_LONG_PACKET (R52). -/
  | csiLongPacket (p : Fin 8) (v : Fin 4) (dt : BitVec 6) (payload : Bytes) (bad : Bool) (crcOk : Bool)
  /-- CSI_FRAME_END (R52). -/
  | csiFrameEnd (p : Fin 8) (v : Fin 4) (bad : Bool)
  /-- POINT_FRAGMENT (R54). -/
  | pointFragment (src : PointSrc) (b : Bytes)
  /-- FRAME_POSE_READY (R55). -/
  | framePoseReady (n : Fin 32)
  /-- FRAME_FUSION_DONE (R62). -/
  | frameFusionDone
  /-- VERSION_BUILD_DONE (R75). -/
  | versionBuildDone
  /-- FUSION_CUTOFF (R63). -/
  | fusionCutoff
  /-- STREAM_STALE (R59). -/
  | streamStale (n : Fin 32)
  /-- FOV_DECAY (R59). -/
  | fovDecay (n : Fin 32)
  /-- MASK_MISSING (R64). -/
  | maskMissing (n : Fin 32)
  /-- WORLD_STALE (R73). -/
  | worldStale
  /-- MODEL_INSTALL (R104). -/
  | modelInstall
  /-- MODEL_CANCEL (R107). -/
  | modelCancel
  /-- MODEL_STAGED (R104). -/
  | modelStaged
  /-- MODEL_SWITCH (R104). -/
  | modelSwitch (unstaged : BitVec 8)
  /-- PRIM_INSTALL (R120). -/
  | primInstall (njOk : Bool)
  /-- PRIM_CANCEL (R120). -/
  | primCancel
  /-- RELEASE_COPY (R273). -/
  | releaseCopy (stack : Fin 2) (level : Fin 4)
  /-- READY_STALL (R276). -/
  | readyStall (stack : Fin 2) (level : Fin 4)
  /-- HELD_DECREMENT (R268). -/
  | heldDecrement
  /-- SYNC_CTR_WRITE (R272). -/
  | syncCtrWrite (ctr : BitVec 16) (word : BitVec 64)
  /-- TASK_CLAIM (R277). -/
  | taskClaim (u : BitVec 16)
  /-- TASK_START (R283). -/
  | taskStart (u : BitVec 16)
  /-- TASK_COMPLETE (R279). -/
  | taskComplete (u : BitVec 16) (w : Work)
  /-- TASK_CHECK_FAIL (R279). -/
  | taskCheckFail (u : BitVec 16) (k : CheckFail)
  /-- BUDGET_OVERRUN (R284). -/
  | budgetOverrun (u : BitVec 16)
  /-- END_MISSED (R284). -/
  | endMissed (id : BitVec 32)
  /-- HUSK_SUPERVISION (R286). -/
  | huskSupervision (id : BitVec 32)
  /-- QUEUE_PUSH (R282). -/
  | queuePush (q : BitVec 20) (u : BitVec 16) (b : Bytes)
  /-- QUEUE_POP (R282). -/
  | queuePop (q : BitVec 20) (u : BitVec 16)
  /-- QUEUE_PUSH_RESUME (R282). -/
  | queuePushResume (q : BitVec 20)
  /-- QUEUE_STALL (R282). -/
  | queueStall (q : BitVec 20)
  /-- POD_BATCH_START (R157). -/
  | podBatchStart (g : Fin 64) (residue : Option (Fin 3))
  /-- PROBE_RETIRE (R152): at a waypoint, or at branch point `wp` − 32 of the stopping branch (R146). -/
  | probeRetire (g : Fin 64) (pea : Fin 17) (cand : Fin 64) (wp : Fin 40) (pr : ProbeKind) (residue : Option (Fin 3))
  /-- POD_BATCH_COMPLETE (R275). -/
  | podBatchComplete (g : Fin 64)
  /-- STEAL_REQUEST (R158). -/
  | stealRequest (g : Fin 64)
  /-- STEAL_SERVE (R159). -/
  | stealServe (g : Fin 64)
  /-- STEAL_REPLY (R158). -/
  | stealReply (g : Fin 64)
  /-- CACHE_REFILL_DONE (R155). -/
  | cacheRefillDone (g : Fin 64) (l : CacheLine)
  /-- ETH_FRAME_RX (R171). -/
  | ethFrameRx (p : Fin 2) (sec : Option SecTag) (ns : BitVec 64) (d : EthData)
  /-- INTENT_ADMIT (R178). -/
  | intentAdmit
  /-- INTENT_COMPILE_DONE (R182). -/
  | intentCompileDone
  /-- PUBLICATION (R429). -/
  | publication
  /-- DEPARTURE_COMMAND (R190). -/
  | departureCommand
  /-- SAK_INSTALL (R172). -/
  | sakInstall (p : Fin 2) (w : BitVec 32)
  /-- WEIGHT_INSTALL (R254). -/
  | weightInstall
  /-- WEIGHT_CANCEL (R254). -/
  | weightCancel
  /-- WEIGHT_CHECK_DONE (R254). -/
  | weightCheckDone
  /-- PLAN_INSTALL (R299). -/
  | planInstall
  /-- PLAN_CANCEL (R303). -/
  | planCancel
  /-- PLAN_VERIFY_DONE (R299): the kernels that the operation lists of the schedules use, by TASK_ID (R231). -/
  | planVerifyDone (kernels : List (BitVec 32 × List (BitVec 8)))
  /-- PLAN_SWITCH (R301). -/
  | planSwitch (unstaged : BitVec 8)
  /-- PARAM_EDIT (R307). -/
  | paramEdit (cycle : BitVec 64) (edits : List (BitVec 16 × BitVec 32))
  /-- BUS_ACCESS (R22). -/
  | busAccess (core : Fin 8) (op : BusOp) (rivals : List BankReq)
  /-- REGISTER_WRITE (R7). -/
  | registerWrite (who : Writer) (o : BitVec 40) (v : BitVec 32)
  /-- MEM_STALL_LIMIT (R321). -/
  | memStallLimit (u : BitVec 16) (clk : BitVec 32)
  /-- BGTEST_REGION_START (R327). -/
  | bgtestRegionStart (k : Fin 2)
  /-- BGTEST_REGION_DONE (R326). -/
  | bgtestRegionDone (k : Fin 2) (failed : Bool)
  /-- SECURE_WIPE_DONE (R329). -/
  | secureWipeDone (k : Fin 2)
  /-- DDR_SCRUB_TICK (R337). -/
  | ddrScrubTick (errs : List (BitVec 40 × Bool))
  /-- DDR_REFRESH (R335). -/
  | ddrRefresh (n : Fin 4) (twice : Bool) (hot : Bool)
  /-- DDR_RFM_REQUEST (R335). -/
  | ddrRfmRequest (n : Fin 4)
  /-- DDR_ZQ_CAL (R336). -/
  | ddrZqCal (n : Fin 4)
  /-- DDR_OSC_MEASURE (R336). -/
  | ddrOscMeasure (n : Fin 4) (drift : BitVec 16)
  /-- DDR_CHANNEL_FAIL (R336). -/
  | ddrChannelFail (n : Fin 4)
  /-- CHARD_PUSH (R350). -/
  | chardPush
  /-- CHARD_VERDICT (R355). -/
  | chardVerdict (u : BitVec 16) (clk : BitVec 32)
  /-- COMPARISON (R357). -/
  | comparison
  /-- PERMIT_B_TOGGLE (R362). -/
  | permitBToggle
  /-- FSOE_FRAME_RX (R430). -/
  | fsoeFrameRx (r : FsoeIn)
  /-- FSOE_WATCHDOG (R430). -/
  | fsoeWatchdog
  /-- HSK_STOP_REQUEST (R363). -/
  | hskStopRequest
  /-- HSK_STOP_RELEASE (R363). -/
  | hskStopRelease
  /-- SPARAM_UNLOCK (R369). -/
  | sparamUnlock (v : BitVec 32)
  /-- SPARAM_STAGE (R369). -/
  | sparamStage (sub : Fin 8) (v : BitVec 32)
  /-- SPARAM_CONFIRM (R369). -/
  | sparamConfirm (v : BitVec 32)
  /-- SPARAM_TIMEOUT (R370). -/
  | sparamTimeout
  /-- SAFE_STATE (R364). -/
  | safeState (c : SafeCause)
  /-- ROTATION_STEP (R388). -/
  | rotationStep
  /-- GOLDEN_SLOT_OPEN (R390). -/
  | goldenSlotOpen (k : GoldKind)
  /-- GOLDEN_BATCH_START (R390). -/
  | goldenBatchStart (u : BitVec 16)
  /-- GOLDEN_BATCH_DONE (R389). -/
  | goldenBatchDone (u : BitVec 16) (r : GoldRes)
  /-- GOLDEN_SLOT_CLOSE (R391). -/
  | goldenSlotClose (k : GoldKind)
  /-- CHECKPOINT (R407). -/
  | checkpoint
  /-- AL_STATE_REQUEST (R417). -/
  | alStateRequest (t : BitVec 4)
  /-- SM2_WATCHDOG (R417). -/
  | sm2Watchdog
  /-- SDO_UPLOAD (R422). -/
  | sdoUpload (idx : BitVec 16) (sub : BitVec 8) (complete : Bool)
  /-- SDO_DOWNLOAD (R422). -/
  | sdoDownload (idx : BitVec 16) (sub : BitVec 8) (complete : Bool) (b : Bytes) (ok : Bool)
  /-- SDO_INFO (R415). -/
  | sdoInfo (r : InfoReq)
  /-- DRIVER_OBJ_READ (R420). -/
  | driverObjRead (idx : BitVec 16) (sub : BitVec 8) (len : BitVec 32)
  /-- DRIVER_OBJ_WRITE (R420). -/
  | driverObjWrite (idx : BitVec 16) (sub : BitVec 8) (b : Bytes) (ok : Bool)
  /-- RXPDO_BUFFER_DONE (R427). -/
  | rxpdoBufferDone (b : Bytes)
  /-- FOE_WRITE_OPEN (R431). -/
  | foeWriteOpen (n : FoeName) (password : BitVec 32)
  /-- FOE_DATA (R431). -/
  | foeData (packet : BitVec 32) (b : Bytes)
  /-- FOE_READ (R431). -/
  | foeRead (n : FoeName) (password : BitVec 32)
  /-- ECAT_LINK_CHANGE (R415). -/
  | ecatLinkChange (p : Fin 2) (up : Bool)
  /-- SII_WRITE (R415). -/
  | siiWrite
  /-- STORE_PARAMETERS (R425). -/
  | storeParameters
  /-- RESTORE_DEFAULTS (R425). -/
  | restoreDefaults
  /-- DEVICE_RESET_COMMAND (R473). -/
  | deviceResetCommand
  /-- AON_PORST_LOW (R443). -/
  | aonPorstLow
  /-- AON_PORST_RELEASE (R13). -/
  | aonPorstRelease
  /-- PORST_LOW (R473). -/
  | porstLow
  /-- PORST_RELEASE (R475). -/
  | porstRelease (bootSel : Bool)
  /-- TAMPER (R500). -/
  | tamper (n : Fin 2)
  /-- POWER_FAIL (R496). -/
  | powerFail
  /-- IMU_DRDY (R452). -/
  | imuDrdy (dt : BitVec 32)
  /-- IMU_SAMPLE_DONE (R452). -/
  | imuSampleDone (b : Bytes)
  /-- I3C_IBI (R451). -/
  | i3cIbi (a : BitVec 7) (err : Option Bool)
  /-- SERDES_LOCK (R451). -/
  | serdesLock (p : Fin 2) (no : Bool)
  /-- TRST_LOW (R473). -/
  | trstLow
  /-- JTAG_IDCODE (R453). -/
  | jtagIdcode
  /-- JTAG_BYPASS (R453). -/
  | jtagBypass
  /-- JTAG_SAMPLE_PRELOAD (R453). -/
  | jtagSamplePreload (preload : Bytes)
  /-- JTAG_EXTEST (R453). -/
  | jtagExtest (preload : Bytes)
  /-- MONITOR_SAMPLE (R455). -/
  | monitorSample (temps : List (BitVec 16)) (rails : List (BitVec 16))
  /-- CAP_ESTIMATE (R472). -/
  | capEstimate (est : BitVec 16) (avg : Option (BitVec 16))
  /-- PMIC_VOLTAGE_DONE (R471). -/
  | pmicVoltageDone
  /-- CLK_FAIL (R464). -/
  | clkFail (src : Fin 5)
  /-- CLK_RESTORED (R464). -/
  | clkRestored (src : Fin 5) (dt : BitVec 32)
  /-- CLK_TIMEOUT (R465). -/
  | clkTimeout (src : Fin 5)
  /-- WATCH_OSC_FAIL (R465). -/
  | watchOscFail
  /-- REFCLK_STABLE (R462). -/
  | refclkStable
  /-- PLL_LOCK_CHECK (R462). -/
  | pllLockCheck (locks : BitVec 4) (imageOk : Bool) (osOk : Bool)
  /-- PSTATE_REQUEST (R469). -/
  | pstateRequest (v : Fin 2)
  /-- CPM_GATE_WRITE (R467). -/
  | cpmGateWrite (who : Writer) (v : BitVec 32)
  /-- FW_WATCHDOG (R482). -/
  | fwWatchdog (u : BitVec 16)
  /-- FW_INSTALL (R487). -/
  | fwInstall
  /-- FW_CANCEL (R488). -/
  | fwCancel
  /-- FW_END_PROBATION (R488). -/
  | fwEndProbation
  /-- FW_VERIFY_DONE (R487). -/
  | fwVerifyDone
  /-- FW_STAGED (R487). -/
  | fwStaged (failed : Option (BitVec 16))
  /-- FW_SWITCH (R487). -/
  | fwSwitch
  /-- PROBATION_END (R487). -/
  | probationEnd
  /-- FW_ROLLBACK (R488). -/
  | fwRollback
  /-- STORE_WRITE_DONE (R489). -/
  | storeWriteDone (ok : Bool)
  /-- UCODE_SWITCH_COMMAND (R492). -/
  | ucodeSwitchCommand
  /-- UCODE_CANCEL (R492). -/
  | ucodeCancel
  /-- UCODE_SWITCH (R492). -/
  | ucodeSwitch (unstaged : BitVec 8)
  /-- ATTEST_REQUEST (R499). -/
  | attestRequest
  /-- ATTEST_DONE (R499). -/
  | attestDone
  /-- LIFECYCLE_COMMAND (R498). -/
  | lifecycleCommand (b : Bytes)
  /-- PLAN_KEY_WRITE (R497). -/
  | planKeyWrite (key : Bytes)
  /-- PROVISIONING (R497). -/
  | provisioning
  /-- TELEMETRY_SNAPSHOT (R493). -/
  | telemetrySnapshot
  /-- AGING_CHECK (R494). -/
  | agingCheck (l : List (Fin 4 × Fin 4))
  /-- STEP_IN_RISE (R45). -/
  | stepInRise
  /-- UCODE_STAGED (R492). -/
  | ucodeStaged
  /-- APP_CLUSTER_RESET (R473). -/
  | appClusterReset
  /-- LANE_SYNC (R82). -/
  | laneSync (p : Fin 8) (on : Bool)
  /-- PCS_LOCK (R451). -/
  | pcsLock (p : Fin 2)
  /-- GPTP_SYNC (R173). -/
  | gptpSync (p : Fin 2) (on : Bool)
  /-- CSI_SHORT_PACKET (R52). -/
  | csiShortPacket (p : Fin 8) (dt : BitVec 6) (bad : Bool)
  /-- ESC_REGISTER_ACCESS (R424). -/
  | escRegisterAccess (a : EscAcc)
  deriving DecidableEq, Repr

end Sys2Proof
end

