-- ==== Sys2Proof/Decode.lean ====
section
/-!
DEFINITION. The words of commands. The rows of the opcode table give no bits: a command of this block reaches it as a register access,
an object access, a frame, an edge or a phase, and no word spells one.
-/
namespace Sys2Proof

/-- The command that a word of the opcode table spells: none, since no row gives bits. Log entry 42 (DESIGN CHOICE, safe). -/
def decodeTableWord (nbits w : Nat) : Option Instr :=
  match nbits, w with
  | _, _ => none

end Sys2Proof
end

