-- ==== Sys2Proof/Config.lean ====
section
/-!
DEFINITION. What one implementation fixes: the unit table of R9, the shapes of the register and object tables, and the
free values, constants without a body that stand for what the specification leaves open.
-/
namespace Sys2Proof.Config

/-- The free value of the specification's open results, by the serial number of its use: `State.freeCtr` counts the
uses. Nothing constrains it. Log entry 3 (DESIGN CHOICE, safe). -/
opaque free : Nat → Nat

/-- How far the Leek's sine table lies from the nearest Q1.30 value of sin t, within the bound of R99; the argument
is the angle in Q3.28. Log entry 4 (DESIGN CHOICE, safe). -/
opaque leekSinErr : Int → Int
/-- The same for the cosine. Log entry 4 (DESIGN CHOICE, safe). -/
opaque leekCosErr : Int → Int
/-- How far the Chard's CORDIC sine lies from the nearest value, within the bound of R352.
Log entry 4 (DESIGN CHOICE, safe). -/
opaque chardSinErr : Int → Int
/-- The same for the cosine. Log entry 4 (DESIGN CHOICE, safe). -/
opaque chardCosErr : Int → Int

/-- The quotient by an intrinsic parameter of 0, which R53 does not state. Log entry 22 (DESIGN CHOICE, safe). -/
opaque quotZero : Int → Int
/-- A waypoint whose sum with an offset leaves INT32, which R115 and R119 do not state.
Log entry 24 (DESIGN CHOICE, safe). -/
opaque sumOver : Int → Int
/-- The weight of a negative z, which R204 does not state. Log entry 31 (DESIGN CHOICE, safe). -/
opaque weightNeg : Nat → Nat
/-- How far, in ulp, a function of the Cobs' microcode lies from the nearest FP32 number, within the 2 ulp of R246; the arguments are the
number of the function and the operand. Log entry 69 (DESIGN CHOICE, unsafe). -/
opaque cobUlp : Nat → Nat → Int
/-- Fraction bits of the kernel formats into which the Parsnips convert weights (R236): 0 W_CLEAR, 1 W_SMOOTH, 2 W_LIMIT, 3 DAMP.
Log entry 70 (DESIGN CHOICE, unsafe). -/
opaque weightFrac : Nat → Int
/-- Output conversions of R245 that its table does not give, by destination format and accumulator.
Log entry 32 (DESIGN CHOICE, safe). -/
opaque convOpen : Nat → Nat → Nat
/-- Byte offsets that the part chooses within the world model's area for its tables and descriptors (R78): item 0 the descriptor, 1 to 4 the
tables in the order of R78, of slot 0 to 2; 5 the brick pool, 6 the fine occupancy, 7 and 8 the observer masks; and 9 the coarse occupancy
of stack 0 and 1, within the device area of DDR5. Log entry 23 (DESIGN CHOICE, safe). -/
opaque worldOff : Nat → Nat → Nat

/-- Bytes of an entry of a firmware image's section table, which R486 does not give. Log entry 59 (DESIGN CHOICE, unsafe). -/
opaque fwSectLen : Nat

/-- Bytes that a checkpoint of a cycle takes in the record ring, which R407 does not state.
Log entry 37 (DESIGN CHOICE, unsafe). -/
opaque ckptBytes : Nat → Nat

/-- One row of R9: class code, physical, target and spare counts for Stack 0 and Stack 1, and whether the class has a
spare pool. -/
structure ClassRow where
  code : Nat
  phys0 : Nat
  phys1 : Nat
  target : Nat
  spare : Nat
  pool : Bool
  deriving DecidableEq, Repr

/-- Access codes of R7. -/
inductive RegAcc where
  | ro | rw | wo | w1c | rwl
  deriving DecidableEq, Repr

/-- One row of a register table: `count` registers of 32 bits from `off` on, `stride` apart; `mask` holds the bits
that software can change (a reserved field reads 0, R6). -/
structure RegDef where
  off : Nat
  stride : Nat
  count : Nat
  acc : RegAcc
  reset : Nat
  mask : Nat
  deriving DecidableEq, Repr

/-- Object access codes of R420. -/
inductive ObjAcc where
  | ro | rw | wo | rwp | rws
  deriving DecidableEq, Repr

/-- Object data types of R421. -/
inductive ObjTy where
  | u8 | u16 | u32 | u64 | i8 | i16 | i32 | real32 | octets (n : Nat)
  deriving DecidableEq, Repr

/-- The stated range of an object (R422): a value outside it is refused with 0x0609_0030. -/
inductive Rng where
  | any
  | span (lo hi : Int)
  | orZero (lo hi : Int)
  | vals (l : List Int)
  | mult (m : Nat)
  | ddrMult (m : Nat)
  | laterCycle
  | real (lo hi : Nat)
  | multTo (m hi : Nat)
  | per (rule : Nat)
  deriving DecidableEq, Repr

/-- One row of an object table: sub-indices `sub` to `sub + n - 1` of the `idxN` objects from `idx` on. -/
structure ObjDef where
  idx : Nat
  idxN : Nat
  sub : Nat
  n : Nat
  ty : ObjTy
  acc : ObjAcc
  dflt : List Int
  rng : Rng
  plan : Bool
  deriving DecidableEq, Repr

end Sys2Proof.Config
end

