-- ==== Sys2Proof/Machine/Bits.lean ====
section
/-!
DEFINITION. Bit fields (R4), two's complement, little-endian byte strings, saturating counters and the sparse map's read and
write: the shared arithmetic of every block.
-/
namespace Sys2Proof.Machine

/-- Bits [lo + n - 1 : lo] of `x` (R4). -/
def field (x lo n : Nat) : Nat := (x >>> lo) % 2 ^ n

/-- Bit `i` of `x`. -/
def bit (x i : Nat) : Bool := x.testBit i

/-- `x` with bit `i` set. -/
def setBit (x i : Nat) : Nat := x ||| (1 <<< i)

/-- 1 for true, 0 for false. -/
def b2n (b : Bool) : Nat := if b then 1 else 0

/-- The two's complement number that the low `w` bits of `x` spell (R4). -/
def toSigned (w x : Nat) : Int :=
  let y := x % 2 ^ w
  if y < 2 ^ (w - 1) then (y : Int) else (y : Int) - (2 ^ w : Nat)

/-- The `w`-bit two's complement word of `i`. -/
def ofSigned (w : Nat) (i : Int) : Nat := (i % (2 ^ w : Nat)).toNat

/-- One more, staying at the largest `w`-bit value. -/
def satInc (w x : Nat) : Nat := min (x + 1) (2 ^ w - 1)

/-- `x` limited to `w` bits by saturation. -/
def sat (w x : Nat) : Nat := min x (2 ^ w - 1)

/-- One more, modulo `2 ^ w`. -/
def wrapInc (w x : Nat) : Nat := (x + 1) % 2 ^ w

/-- `n` bytes of `x`, the least significant first (R421). -/
def leBytes : Nat → Nat → Bytes
  | 0, _ => []
  | n + 1, x => x % 256 :: leBytes n (x / 256)

/-- The number that a little-endian byte string spells. -/
def ofLe : Bytes → Nat
  | [] => 0
  | b :: t => b + 256 * ofLe t

/-- `n` bytes of `x`, the most significant first. -/
def beBytes (n x : Nat) : Bytes := (leBytes n x).reverse

/-- The number that a big-endian byte string spells. -/
def ofBe (l : Bytes) : Nat := ofLe l.reverse

/-- `n` zero bytes. -/
def zeros (n : Nat) : Bytes := List.replicate n 0

/-- `l` cut or filled with zeros to exactly `n` bytes. -/
def fit (n : Nat) (l : Bytes) : Bytes := l.take n ++ zeros (n - l.length)

/-- Bytes `off` to `off + n - 1` of `l`, zeros beyond its end. -/
def slice (l : Bytes) (off n : Nat) : Bytes := fit n (l.drop off)

/-- The little-endian number of `n` bytes at `off` of `l`. -/
def getLe (l : Bytes) (off n : Nat) : Nat := ofLe (slice l off n)

/-- The signed little-endian number of `n` bytes at `off` of `l`. -/
def getLeS (l : Bytes) (off n : Nat) : Int := toSigned (8 * n) (getLe l off n)

/-- `l` with the bytes `v` in place of those at `off`; bytes beyond the end of `l` are dropped. -/
def putAt (l : Bytes) (off : Nat) (v : Bytes) : Bytes :=
  (l.take off ++ v ++ l.drop (off + v.length)).take l.length

/-- The ceiling of a / b. -/
def ceilDiv (a b : Nat) : Nat := if b = 0 then 0 else (a + b - 1) / b

/-- floor(log2 x), 0 at 0. -/
def log2 (x : Nat) : Nat := Nat.log2 x

/-- The least `r` with `x ≤ r * r`, by binary search over `fuel` bits. -/
def isqrtGo (x : Nat) : Nat → Nat → Nat
  | 0, r => r
  | n + 1, r => if (r + 2 ^ n) * (r + 2 ^ n) ≤ x then isqrtGo x n (r + 2 ^ n) else isqrtGo x n r

/-- The integer square root, rounded down. -/
def isqrt (x : Nat) : Nat := isqrtGo x (Nat.log2 x / 2 + 1) 0

/-- The integer square root, rounded up. -/
def isqrtUp (x : Nat) : Nat := if isqrt x * isqrt x = x then isqrt x else isqrt x + 1

/-- The value a sparse map holds at key `k`; `d` gives the value of a key it does not list. Log entry 2 (DESIGN CHOICE, unsafe). -/
def Smap.get {α : Type} (d : Nat → α) : Smap α → Nat → α
  | [], k => d k
  | (j, v) :: t, k => if k < j then d k else if k = j then v else Smap.get d t k

/-- The sparse map with `v` at key `k`, kept in canonical form. Log entry 2 (DESIGN CHOICE, unsafe). -/
def Smap.set {α : Type} [DecidableEq α] (d : Nat → α) : Smap α → Nat → α → Smap α
  | [], k, v => if v = d k then [] else [(k, v)]
  | (j, w) :: t, k, v =>
    if k < j then (if v = d k then (j, w) :: t else (k, v) :: (j, w) :: t)
    else if k = j then (if v = d k then t else (k, v) :: t)
    else (j, w) :: Smap.set d t k v

/-- Every key above `lo`, strictly rising, and no entry equal to its default. -/
def Smap.wfFrom {α : Type} [DecidableEq α] (d : Nat → α) : Nat → Smap α → Bool
  | _, [] => true
  | lo, (j, v) :: t => decide (lo ≤ j) && decide (v ≠ d j) && Smap.wfFrom d (j + 1) t

/-- The canonical form: keys strictly rising and no entry equal to its default. Log entry 2 (DESIGN CHOICE, unsafe). -/
def Smap.wf {α : Type} [DecidableEq α] (d : Nat → α) (m : Smap α) : Bool := Smap.wfFrom d 0 m

/-- The map changed at one key by a function. -/
def Smap.upd {α : Type} [DecidableEq α] (d : Nat → α) (m : Smap α) (k : Nat) (f : α → α) : Smap α :=
  Smap.set d m k (f (Smap.get d m k))

/-- The sum of a list. -/
def sumN (l : List Nat) : Nat := l.foldl (· + ·) 0

/-- The largest element, 0 of an empty list. -/
def maxN (l : List Nat) : Nat := l.foldl max 0

/-- Insertion into a list ordered by `le`, after every element not above it. -/
def insertBy {α : Type} (le : α → α → Bool) (x : α) : List α → List α
  | [] => [x]
  | y :: t => if le y x then y :: insertBy le x t else x :: y :: t

/-- Stable insertion sort. -/
def sortBy {α : Type} (le : α → α → Bool) (l : List α) : List α := l.foldl (fun acc x => insertBy le x acc) []

end Sys2Proof.Machine
end

