-- ==== Sys2Proof/Machine/Fp.lean ====
section
/-!
DEFINITION. FP32 arithmetic with round-to-nearest-even and subnormals kept (R147, R148, R203, R204, R257), and the rounding shifts of
fixed-point arithmetic (R85, R219).
-/
namespace Sys2Proof.Machine

/-- `x / 2 ^ n` rounded to nearest, halves up. -/
def rshUp (x : Int) (n : Nat) : Int := if n = 0 then x else (x + 2 ^ (n - 1)) / 2 ^ n

/-- `a / b` rounded to nearest, halves up, for positive `b`. -/
def divUp (a b : Int) : Int := (2 * a + b) / (2 * b)

/-- The ceiling of `a / b` for positive `b`. -/
def cdiv (a b : Int) : Int := -((-a) / b)

/-- `x` limited to the INT32 range. -/
def sat32 (x : Int) : Int := max (-2147483648) (min 2147483647 x)

/-- `m / 2 ^ n` rounded to nearest, ties to even. -/
def rne (m n : Nat) : Nat :=
  if n = 0 then m
  else
    let q := m / 2 ^ n
    let r := m % 2 ^ n
    if r * 2 < 2 ^ n then q else if 2 ^ n < r * 2 then q + 1 else q + q % 2

/-- NaN in canonical form (R198). -/
def fpNaN : Nat := 0x7FC00000
/-- Plus infinity. -/
def fpInf : Nat := 0x7F800000

/-- Whether the 32 bits spell a NaN. -/
def fpIsNaN (b : Nat) : Bool := decide (fpInf < b % 2 ^ 31)
/-- Whether the 32 bits spell an infinity. -/
def fpIsInf (b : Nat) : Bool := decide (b % 2 ^ 31 = fpInf)
/-- Whether the 32 bits spell a finite number. -/
def fpFin (b : Nat) : Bool := decide (b % 2 ^ 31 < fpInf)
/-- The sign bit. -/
def fpNeg (b : Nat) : Bool := decide (2 ^ 31 ≤ b % 2 ^ 32)

/-- A finite FP32 number is `m * 2 ^ (e - 149)`: the pair of the signed `m` and of `e`. -/
def fpDec (b : Nat) : Int × Nat :=
  let e := field b 23 8
  let f := field b 0 23
  let m : Nat := if e = 0 then f else f + 2 ^ 23
  (if fpNeg b then -(m : Int) else m, if e = 0 then 0 else e - 1)

/-- The bits of `m * 2 ^ (e - 149)` for a natural `m` and a possibly negative `e`, without sign. -/
def fpEncNat (m : Nat) (e : Int) : Nat :=
  if m = 0 then 0
  else
    let q : Int := max 0 ((Nat.log2 m : Int) + e - 23)
    let n := if e ≥ q then m * 2 ^ (e - q).toNat else rne m (q - e).toNat
    let b : Nat := if q = 0 then n else q.toNat * 2 ^ 23 + n
    min b fpInf

/-- The bits of the signed `m * 2 ^ (e - 149)`; zero is +0. -/
def fpEnc (m : Int) (e : Int) : Nat :=
  let b := fpEncNat m.natAbs e
  if m < 0 then b + 2 ^ 31 else b

/-- FP32 of `i * 2 ^ x`, rounded to nearest even. -/
def fpOfInt (i : Int) (x : Int) : Nat := fpEnc i (x + 149)

/-- FP32 sum. -/
def fpAdd (a b : Nat) : Nat :=
  if fpIsNaN a ∨ fpIsNaN b then fpNaN
  else if fpIsInf a then (if fpIsInf b ∧ fpNeg a ≠ fpNeg b then fpNaN else a)
  else if fpIsInf b then b
  else
    let (ma, ea) := fpDec a
    let (mb, eb) := fpDec b
    let e := min ea eb
    let s := ma * 2 ^ (ea - e) + mb * 2 ^ (eb - e)
    if s = 0 then (if fpNeg a ∧ fpNeg b then 2 ^ 31 else 0) else fpEnc s e

/-- FP32 product. -/
def fpMul (a b : Nat) : Nat :=
  let sg := if fpNeg a ≠ fpNeg b then 2 ^ 31 else 0
  if fpIsNaN a ∨ fpIsNaN b then fpNaN
  else if fpIsInf a ∨ fpIsInf b then (if a % 2 ^ 31 = 0 ∨ b % 2 ^ 31 = 0 then fpNaN else fpInf + sg)
  else
    let (ma, ea) := fpDec a
    let (mb, eb) := fpDec b
    fpEncNat (ma.natAbs * mb.natAbs) ((ea : Int) + eb - 149) + sg

/-- The negated number. -/
def fpNegate (a : Nat) : Nat := if fpNeg a then a - 2 ^ 31 else a + 2 ^ 31

/-- floor(x * 2 ^ n) of a finite number. -/
def fpFloor (b n : Nat) : Int :=
  let (m, e) := fpDec b
  m * 2 ^ (e + n) / 2 ^ 149

/-- x * 2 ^ n of a finite number rounded to nearest, halves up. -/
def fpRoundUp (b n : Nat) : Int :=
  let (m, e) := fpDec b
  rshUp (m * 2 ^ (e + n)) 149

/-- The key order of R197 for FP32 keys. -/
def ordFp (b : Nat) : Nat :=
  let b := b % 2 ^ 32
  if fpInf < b % 2 ^ 31 then 0xFFFFFFFF
  else
    let b := if b = 2 ^ 31 then 0 else b
    if b < 2 ^ 31 then b + 2 ^ 31 else 2 ^ 32 - 1 - b

/-- The key order of R197 for INT32 keys. -/
def ordInt (b : Nat) : Nat := (b + 2 ^ 31) % 2 ^ 32

/-- The key that an ordinal stands for, in the canonical form of R198. -/
def unOrdFp (o : Nat) : Nat :=
  if o = 0xFFFFFFFF then fpNaN else if 2 ^ 31 ≤ o then o - 2 ^ 31 else 2 ^ 32 - 1 - o

/-- Whether `lo ≤ x ≤ hi` as FP32 numbers; a NaN lies in no range. -/
def fpBetween (lo hi x : Nat) : Bool := !fpIsNaN x && decide (ordFp lo ≤ ordFp x) && decide (ordFp x ≤ ordFp hi)

end Sys2Proof.Machine
end

