-- ==== Sys2Proof/Machine/CobNum.lean ====
section
/-!
DEFINITION. The numbers of the neural engines: elements (R241), products and accumulation (R242), the checksums' comparison (R259), the
vector unit's functions and reductions (R246), and output conversion (R245).
-/
namespace Sys2Proof.Machine

/-! ### Formats (R241) -/

/-- Bits of an element. -/
def elemBits (fmt : Nat) : Nat :=
  match fmt with
  | 1 | 8 => 4
  | 4 => 16
  | 9 | 10 => 32
  | _ => 8

/-- Whether a format is an MX format. -/
def isMx (fmt : Nat) : Bool := decide (5 ≤ fmt ∧ fmt ≤ 8)

/-- Whether a format accumulates in INT32. -/
def isInt (fmt : Nat) : Bool := fmt == 0 || fmt == 1 || fmt == 10

/-- Whether a format may enter the array. -/
def arrayFmt (fmt : Nat) : Bool := decide (fmt ≤ 8)

/-- A small float format: mantissa bits, exponent bias, and the codes, without sign, of the largest finite value, of an overflow without
saturation, and of NaN. -/
structure FloatFmt where
  mant : Nat
  bias : Nat
  top : Nat
  ovf : Nat
  nan : Nat

/-- The float formats by code; an MX code has its elements' format. -/
def floatFmt (fmt : Nat) : FloatFmt :=
  match fmt with
  | 2 | 6 => ⟨3, 7, 0x7E, 0x7F, 0x7F⟩
  | 3 | 7 => ⟨2, 15, 0x7B, 0x7C, 0x7E⟩
  | 8 => ⟨1, 1, 7, 7, 7⟩
  | _ => ⟨7, 127, 0x7F7F, 0x7F80, 0x7FC0⟩

/-- The FP32 number, which is exact, of a code of `w` bits of a small float format. -/
def smallFp (f : FloatFmt) (w code : Nat) : Nat :=
  let c := code % 2 ^ (w - 1)
  let sg := if bit code (w - 1) then 2 ^ 31 else 0
  if f.top < c then (if c = f.ovf ∧ f.ovf ≠ f.nan then sg + fpInf else fpNaN)
  else
    let e := c / 2 ^ f.mant
    let m := c % 2 ^ f.mant
    sg + fpEncNat (if e = 0 then m else m + 2 ^ f.mant) (((max e 1 : Nat) : Int) - f.bias - f.mant + 149)

/-- The FP32 number of an element's code, before the scale of its block; MXINT8 elements carry their factor 2^-6. -/
def elemFp (fmt code : Nat) : Nat :=
  match fmt with
  | 0 => fpOfInt (toSigned 8 code) 0
  | 1 => fpOfInt (toSigned 4 code) 0
  | 5 => fpOfInt (toSigned 8 code) (-6)
  | 9 => code % 2 ^ 32
  | 10 => fpOfInt (toSigned 32 code) 0
  | f => smallFp (floatFmt f) (elemBits f) code

/-- The integer of an element's code. -/
def elemInt (fmt code : Nat) : Int := toSigned (elemBits fmt) code

/-- `b × 2^x`, rounded once. -/
def fpScale (b : Nat) (x : Int) : Nat :=
  if fpFin b then
    let (m, e) := fpDec b
    fpEncNat m.natAbs (e + x) + (if fpNeg b then 2 ^ 31 else 0)
  else b

/-! ### Products and sums (R242) -/

/-- One step of a product: the two elements as FP32 numbers, and their scale bytes, 127 where the format has none. -/
structure KStep where
  a : Nat
  b : Nat
  sa : Nat
  sb : Nat
  deriving DecidableEq, Repr

/-- The step of two zeros, which pads a block. -/
def KStep.zero : KStep := ⟨0, 0, 127, 127⟩

/-- The power of two of a step's scales. -/
def KStep.exp (x : KStep) : Int := (x.sa : Int) + x.sb - 254

/-- Whether a step makes its sum NaN: a NaN element or scale, or ∞ × 0. -/
def KStep.bad (x : KStep) : Bool :=
  fpIsNaN x.a || fpIsNaN x.b || x.sa == 255 || x.sb == 255 || (fpIsInf x.a && x.b % 2 ^ 31 == 0) || (fpIsInf x.b && x.a % 2 ^ 31 == 0)

/-- The infinity that a step's product is, by its sign. -/
def KStep.inf (x : KStep) : Option Bool := if fpIsInf x.a || fpIsInf x.b then some (fpNeg x.a != fpNeg x.b) else none

/-- The exact product of a step's finite elements, without scales, in units of 2^-298. -/
def KStep.prod (x : KStep) : Int :=
  let (ma, ea) := fpDec x.a
  let (mb, eb) := fpDec x.b
  ma * mb * 2 ^ (ea + eb)

/-- What steps sum to where a NaN or an infinity is among them. -/
def nonFinite (l : List KStep) : Option Nat :=
  let i := l.filterMap KStep.inf
  if l.any KStep.bad ∨ (i.contains true ∧ i.contains false) then some fpNaN
  else match i with
    | [] => none
    | n :: _ => some (if n then fpInf + 2 ^ 31 else fpInf)

/-- `m × 2^x` is beyond the FP32 range. -/
def beyond (m x : Int) : Bool := m != 0 && decide (128 ≤ (Nat.log2 m.natAbs : Int) + x)

/-- An FP32 accumulator and an exact `m × 2^x`, added with one rounding; a term beyond the FP32 range is ±∞. -/
def fpAddExact (acc : Nat) (m x : Int) : Nat :=
  if beyond m x then fpAdd acc (if m < 0 then fpInf + 2 ^ 31 else fpInf)
  else if !fpFin acc ∨ m = 0 then fpAdd acc 0
  else
    let (ma, ea) := fpDec acc
    let e := min ((ea : Int) - 149) x
    let s := ma * 2 ^ ((ea : Int) - 149 - e).toNat + m * 2 ^ (x - e).toNat
    if s = 0 then 0 else fpEnc s (e + 149)

/-- A block of up to 32 steps: the exact sum of the products is rounded once to FP32, scaled exactly, and added with one rounding. -/
def accBlock (acc : Nat) (l : List KStep) : Nat :=
  match nonFinite l with
  | some x => fpAdd acc x
  | none =>
    let r := fpEnc (l.foldl (fun t x => t + x.prod) 0) (-149)
    if fpIsInf r then fpAdd acc r
    else
      let (m, e) := fpDec r
      fpAddExact acc m ((e : Int) - 149 + (l.headD .zero).exp)

/-- One product added to the accumulator (BF16). -/
def accOne (acc : Nat) (x : KStep) : Nat :=
  match nonFinite [x] with
  | some y => fpAdd acc y
  | none => fpAddExact acc x.prod (x.exp - 298)

/-- Blocks of 32 steps, `n` at most. -/
def accBlocks : Nat → Nat → List KStep → Nat
  | 0, acc, _ => acc
  | n + 1, acc, l => if l.isEmpty then acc else accBlocks n (accBlock acc (l.take 32)) (l.drop 32)

/-- An FP32 accumulator over its steps in ascending k: block by block, or one product at a time where an operand is BF16.
Log entry 69 (DESIGN CHOICE, unsafe). -/
def accFloat (single : Bool) (l : List KStep) : Nat := if single then l.foldl accOne 0 else accBlocks l.length 0 l

/-! ### Checksums (R259) -/

/-- The exact product of a step with its scales, in units of 2^-600. -/
def KStep.full (x : KStep) : Int := x.prod * 2 ^ (x.exp + 302).toNat

/-- A finite FP32 number in units of 2^-600. -/
def fpFull (b : Nat) : Int := let (m, e) := fpDec b
  m * 2 ^ (e + 451)

/-- 2^-126 × 2^19 in units of 2^-600. -/
def tauLeast : Nat := 2 ^ 493

/-- Whether a row or column sum of FP32 accumulators passes against the checksum over its steps: within
τ = 2^-19 × Σ|a||b| + 2^-126, or the same non-finite value. Both sums are exact. Log entry 69 (DESIGN CHOICE, unsafe). -/
def checkFloat (accs : List Nat) (steps : List KStep) : Bool :=
  let sum : Int := steps.foldl (fun t x => t + x.full) 0
  let chk := match nonFinite steps with
    | some x => some x
    | none => if beyond sum (-600) then some (if sum < 0 then fpInf + 2 ^ 31 else fpInf) else none
  if accs.any (fun a => !fpFin a) then chk == some (accs.foldl fpAdd 0)
  else
    let mag : Nat := sumN (steps.map (fun x => x.full.natAbs))
    let got : Int := accs.foldl (fun t a => t + fpFull a) 0
    let d : Nat := (got - sum).natAbs
    chk.isNone && decide (d * 2 ^ 19 ≤ mag + tauLeast)

/-- Whether a row or column sum of INT32 accumulators passes: exact modulo 2^32. -/
def checkInt (accs : List Nat) (sum : Int) : Bool := sumN accs % 2 ^ 32 == ofSigned 32 sum

/-! ### The vector unit (R246) -/

/-- FP32 fused multiply-add: a × b + c with one rounding. -/
def fpFma (a b c : Nat) : Nat :=
  match nonFinite [⟨a, b, 127, 127⟩] with
  | some x => fpAdd c x
  | none =>
    let p := KStep.prod ⟨a, b, 127, 127⟩
    if !fpFin c ∨ p = 0 then fpAdd c (if fpNeg a != fpNeg b then 2 ^ 31 else 0)
    else
      let s := p * 2 ^ 302 + fpFull c
      if s = 0 then 0 else fpEnc s (-451)

/-- The larger of two FP32 numbers; a NaN wins. Log entry 69 (DESIGN CHOICE, unsafe). -/
def fpMax (a b : Nat) : Nat := if ordFp a < ordFp b then b else a

/-- The smaller of two FP32 numbers; a NaN wins. Log entry 69 (DESIGN CHOICE, unsafe). -/
def fpMin (a b : Nat) : Nat := if fpIsNaN a ∨ (ordFp a < ordFp b ∧ !fpIsNaN b) then a else b

/-- The functions of the vector unit. -/
inductive VecFn where
  | exp | sigmoid | tanh | gelu | silu | recip | rsqrt
  deriving DecidableEq, Repr

/-- One in the fixed-point scale 2^-256. -/
def fxOne : Int := 2 ^ 256

/-- ln 2 in units of 2^-256. -/
def fxLn2 : Int := (List.range 260).foldl (fun t k => t + fxOne / ((k + 1 : Nat) * 2 ^ (k + 1))) 0

/-- The first `n` terms of the exponential series of `r`, from term `k` on. -/
def fxSeries : Nat → Int → Int → Nat → Int
  | 0, _, _, _ => 0
  | n + 1, r, t, k => t + fxSeries n r (t * r / fxOne / ((k + 1 : Nat) : Int)) (k + 1)

/-- e^x for `x` in units of 2^-256, cut to ±1000: a mantissa in units of 2^-256 and a power of two. -/
def fxExp (x : Int) : Int × Int :=
  let x := max (-1000 * fxOne) (min (1000 * fxOne) x)
  let n := x / fxLn2
  (fxSeries 70 (x - n * fxLn2) fxOne 0, n)

/-- e^-|x| in units of 2^-256. -/
def fxDecay (x : Int) : Int :=
  let (m, n) := fxExp (-(x.natAbs : Int))
  m / 2 ^ (-n).toNat

/-- 1 / (1 + e^-x) in units of 2^-256. -/
def fxSigmoid (x : Int) : Int :=
  let d := fxDecay x
  (if x < 0 then d else fxOne) * fxOne / (fxOne + d)

/-- A finite FP32 number in units of 2^-256. -/
def fxOf (b : Nat) : Int := let (m, e) := fpDec b
  m * 2 ^ (e + 107)

/-- The FP32 number nearest to `v` in units of 2^-256. -/
def fxFp (v : Int) : Nat := fpOfInt v (-256)

/-- The real function at a finite number, rounded to FP32. -/
def vecReal (f : VecFn) (b : Nat) : Nat :=
  let x := fxOf b
  match f with
  | .exp => let (m, n) := fxExp x
    fpOfInt m (n - 256)
  | .sigmoid => fxFp (fxSigmoid x)
  | .tanh =>
    let d := fxDecay (2 * x)
    let t := (fxOne - d) * fxOne / (fxOne + d)
    fxFp (if x < 0 then -t else t)
  | .silu => fxFp (x * fxSigmoid x / fxOne)
  | .gelu =>
    let u := (x + x * x / fxOne * x / fxOne * 44715 / 1000000) * 79788456080286535587989211986876 / 10 ^ 32
    fxFp (x * fxSigmoid (2 * u) / fxOne)
  | .recip => if x = 0 then fpInf else fxFp (fxOne * fxOne / x)
  | .rsqrt => if x < 0 then fpNaN else if x = 0 then fpInf else fxFp ((isqrt (2 ^ 768 / x.toNat) : Nat) : Int)

/-- The limit of a function at ±∞. -/
def vecLimit (f : VecFn) (neg : Bool) : Nat :=
  match f with
  | .exp => if neg then 0 else fpInf
  | .sigmoid => if neg then 0 else 0x3F800000
  | .tanh => if neg then 0xBF800000 else 0x3F800000
  | .gelu | .silu => if neg then 0 else fpInf
  | .recip => if neg then 2 ^ 31 else 0
  | .rsqrt => if neg then fpNaN else 0

/-- A result of the vector unit: the microcode's tables hold it to 2 ulp, and how far it lies from the nearest number is not stated.
Log entry 69 (DESIGN CHOICE, unsafe). -/
def vecFn (f : VecFn) (k b : Nat) : Nat :=
  if fpIsNaN b then fpNaN
  else
    let v := if fpIsInf b then vecLimit f (fpNeg b) else vecReal f b
    if fpIsNaN v then fpNaN
    else
      let d := max (-2) (min 2 (Config.cobUlp k b))
      (max 0 (min (fpInf : Int) (((v % 2 ^ 31 : Nat) : Int) + d))).toNat + (if fpNeg v then 2 ^ 31 else 0)

/-- The function with its number among the tables. -/
def VecFn.at (f : VecFn) (b : Nat) : Nat :=
  vecFn f (match f with | .exp => 0 | .sigmoid => 1 | .tanh => 2 | .gelu => 3 | .silu => 4 | .recip => 5 | .rsqrt => 6) b

/-- One lane of a row: every 16th element, the first one at the head. -/
def laneGo (f : Nat → Nat → Nat) : Nat → Nat → List Nat → Nat
  | 0, acc, _ => acc
  | n + 1, acc, l => match l with
    | [] => acc
    | x :: _ => laneGo f n (f acc x) (l.drop 16)

/-- Neighbours combined. -/
def pairUp (f : Nat → Nat → Nat) : List Nat → List Nat
  | a :: b :: t => f a b :: pairUp f t
  | l => l

/-- A reduction over a row in its fixed order: 16 lanes in ascending order, then a tree; `z` stands for a lane without elements. -/
def reduceRow (f : Nat → Nat → Nat) (z : Nat) (l : List Nat) : Nat :=
  let lanes := (List.range 16).map (fun i => match l.drop i with
    | [] => z
    | x :: _ => laneGo f l.length x (l.drop (i + 16)))
  (pairUp f (pairUp f (pairUp f (pairUp f lanes)))).headD z

/-- The sum of a row. -/
def sumRow (l : List Nat) : Nat := reduceRow fpAdd 0 l
/-- The maximum of a row. -/
def maxRow (l : List Nat) : Nat := reduceRow fpMax (fpInf + 2 ^ 31) l

/-- The mean of a row. Log entry 69 (DESIGN CHOICE, unsafe). -/
def meanRow (l : List Nat) : Nat := fpMul (sumRow l) (VecFn.recip.at (fpOfInt (l.length : Int) 0))

/-- Softmax of a row: the maximum is subtracted before exp. Log entry 69 (DESIGN CHOICE, unsafe). -/
def softmaxRow (l : List Nat) : List Nat :=
  let m := maxRow l
  let e := l.map (fun x => VecFn.exp.at (fpAdd x (fpNegate m)))
  let r := VecFn.recip.at (sumRow e)
  e.map (fun x => fpMul x r)

/-- A row normalised: about its mean, or with `rms` without it. Log entry 69 (DESIGN CHOICE, unsafe). -/
def normRow (rms : Bool) (eps : Nat) (l : List Nat) : List Nat :=
  let l := if rms then l else
    let m := fpNegate (meanRow l)
    l.map (fun x => fpAdd x m)
  let r := VecFn.rsqrt.at (fpAdd (meanRow (l.map (fun x => fpMul x x))) eps)
  l.map (fun x => fpMul x r)

/-- The index of the largest element of a row, the lower one on ties. -/
def argMax (le : Nat → Nat → Bool) : Nat → Nat → Nat → List Nat → Nat
  | _, best, _, [] => best
  | i, best, v, x :: t => if le x v then argMax le (i + 1) best v t else argMax le (i + 1) i x t

/-! ### Output conversion (R245) -/

/-- A signed quotient by 2^n, to nearest with ties to even. -/
def rneInt (x : Int) (n : Nat) : Int := if x < 0 then -((rne x.natAbs n : Nat) : Int) else ((rne x.natAbs n : Nat) : Int)

/-- `x` limited to `w` bits two's complement. -/
def satW (w : Nat) (x : Int) : Int := max (-(2 ^ (w - 1) : Nat)) (min ((2 ^ (w - 1) : Nat) - 1) x)

/-- The code, without sign, of the finite `m × 2^(e − 149)` rounded to nearest even; it may pass the top of the format. -/
def floatCode (f : FloatFmt) (m : Nat) (e : Int) : Nat :=
  if m = 0 then 0
  else
    let low : Int := 150 - (f.bias : Int) - f.mant
    let q : Int := max low ((Nat.log2 m : Int) + e - f.mant)
    let n := if e ≥ q then m * 2 ^ (e - q).toNat else rne m (q - e).toNat
    if q = low then n else (q - low).toNat * 2 ^ f.mant + n

/-- FP32 bits, scaled by 2^-x, converted to a small float; `sat` saturates an overflow. -/
def toFloat (f : FloatFmt) (w : Nat) (sat : Bool) (b : Nat) (x : Int) : Nat :=
  let sg := if fpNeg b then 2 ^ (w - 1) else 0
  if fpIsNaN b then f.nan
  else
    let c := if fpIsInf b then f.top + 1 else floatCode f (fpDec b).1.natAbs ((fpDec b).2 - x)
    if c ≤ f.top then sg + c else if sat then sg + f.top else if f.ovf = f.nan then f.nan else sg + f.ovf

/-- An FP32 number × 2^n as an integer of `w` bits: to nearest even, saturating; 0 for a NaN. -/
def fpToInt (w b : Nat) (n : Nat) : Int :=
  if fpIsNaN b then 0
  else if fpIsInf b then satW w (if fpNeg b then -(2 ^ w : Nat) else (2 ^ w : Nat))
  else
    let (m, e) := fpDec b
    satW w (if 149 ≤ e + n then m * 2 ^ (e + n - 149) else rneInt m (149 - (e + n)))

/-- Largest exponent of an MX element format. -/
def mxTop (fmt : Nat) : Int := match fmt with | 6 => 8 | 7 => 15 | 8 => 2 | _ => 0

/-- floor(log2 |v|) of a finite number that is not 0. -/
def fpLog (b : Nat) : Int := let (m, e) := fpDec b
  (Nat.log2 m.natAbs : Int) + e - 149

/-- The scale byte of a block: 2^-127 for zeros, 0xFF where a NaN stands. -/
def mxScale (fmt : Nat) (l : List Nat) : Nat :=
  if l.any fpIsNaN then 0xFF
  else if l.any fpIsInf then 254
  else
    let l := l.filter (fun b => b % 2 ^ 31 != 0)
    match l with
    | [] => 0
    | b :: _ => (max 0 (min 254 (l.foldl (fun m x => max m (fpLog x)) (fpLog b) - mxTop fmt + 127))).toNat

/-- One element of an MX block under its scale byte. -/
def mxElem (fmt scale b : Nat) : Nat :=
  if scale = 0xFF then Config.convOpen fmt b
  else
    let x : Int := (scale : Int) - 127
    if fmt = 5 then
      if fpIsInf b then (if fpNeg b then 0x80 else 0x7F)
      else
        let (m, e) := fpDec b
        let sh : Int := (e : Int) - 149 - x + 6
        ofSigned 8 (satW 8 (if 0 ≤ sh then m * 2 ^ sh.toNat else rneInt m (-sh).toNat))
    else toFloat (floatFmt fmt) (elemBits fmt) true b x

/-- 4-bit elements in pairs, the even index in bits [3:0] (R241). -/
def packNibbles : List Nat → Bytes
  | [] => []
  | [a] => [a % 16]
  | a :: b :: t => (a % 16 + 16 * (b % 16)) :: packNibbles t

/-- The bytes of converted elements. -/
def packElems (fmt : Nat) (l : List Nat) : Bytes :=
  if elemBits fmt = 4 then packNibbles l else l.flatMap (leBytes (elemBits fmt / 8))

/-- A list in pieces of `w`, `n` at most. -/
def chunksOf {α : Type} (w : Nat) : Nat → List α → List (List α)
  | 0, _ => []
  | n + 1, l => if l.isEmpty then [] else l.take w :: chunksOf w n (l.drop w)

end Sys2Proof.Machine
end

