-- ==== Sys2Proof/Machine/Hash.lean ====
section
/-!
DEFINITION. SHA-256 (R3: every digest of the device), HMAC-SHA-256 (R495) and the CRC-32 of R176, on byte lists. The
specification names the functions; their definitions are those of the public standards (log entry 5).
-/
namespace Sys2Proof.Machine

/-- Word `i` of a packed row of `n` words, the first one the highest. -/
def packed (n x i : Nat) : Nat := field x (32 * (n - 1 - i)) 32

/-- The round constants as one number: the first 32 fraction bits of the cube roots of the first 64 primes. -/
def shaKeys : Nat :=
  0x428a2f9871374491b5c0fbcfe9b5dba53956c25b59f111f1923f82a4ab1c5ed5d807aa9812835b01243185be550c7dc372be5d7480deb1fe9bdc06a7c19bf174e49b69c1efbe47860fc19dc6240ca1cc2de92c6f4a7484aa5cb0a9dc76f988da983e5152a831c66db00327c8bf597fc7c6e00bf3d5a7914706ca63511429296727b70a852e1b21384d2c6dfc53380d13650a7354766a0abb81c2c92e92722c85a2bfe8a1a81a664bc24b8b70c76c51a3d192e819d6990624f40e3585106aa07019a4c1161e376c082748774c34b0bcb5391c0cb34ed8aa4a5b9cca4f682e6ff3748f82ee78a5636f84c878148cc7020890befffaa4506cebbef9a3f7c67178f2

/-- The initial hash value as one number: the first 32 fraction bits of the square roots of the first 8 primes. -/
def shaStart : Nat := 0x6a09e667bb67ae853c6ef372a54ff53a510e527f9b05688c1f83d9ab5be0cd19

/-- The exclusive-or of a word's rotations to the right by the given counts: each is a window of the word written twice. -/
def spins (x : Nat) (l : List Nat) : Nat := (l.foldl (fun acc n => acc ^^^ ((x * (2 ^ 32 + 1)) >>> n)) 0) % 2 ^ 32

/-- The next word of the message schedule from the sixteen before it, oldest first. -/
def nextWord (w : List Nat) : Nat :=
  let p := w.getD 1 0
  let q := w.getD 14 0
  (w.headD 0 + (spins p [7, 18] ^^^ (p / 8)) + w.getD 9 0 + (spins q [17, 19] ^^^ (q / 1024))) % 2 ^ 32

/-- Rounds `t` to 63, `n` of them, over the sliding sixteen words of the schedule and the eight working variables. -/
def shaRounds : Nat → List Nat → List Nat → List Nat
  | n + 1, w, [a, b, c, d, e, f, g, h] =>
    let x := h + spins e [6, 11, 25] + (g ^^^ (e &&& (f ^^^ g))) + packed 64 shaKeys (63 - n) + w.headD 0
    let y := spins a [2, 13, 22] + ((a &&& (b ||| c)) ||| (b &&& c))
    shaRounds n (w.drop 1 ++ [nextWord w]) [(x + y) % 2 ^ 32, a, b, c, (d + x) % 2 ^ 32, e, f, g]
  | _, _, v => v

/-- The big-endian words of a byte string, `n` of them. -/
def beWords : Nat → Bytes → List Nat
  | 0, _ => []
  | n + 1, l => ofBe (fit 4 l) :: beWords n (l.drop 4)

/-- The hash value `v` carried over `n` blocks of 64 bytes. -/
def shaOver : Nat → List Nat → Bytes → List Nat
  | 0, v, _ => v
  | n + 1, v, l =>
    let r := shaRounds 64 (beWords 16 l) v
    shaOver n (List.zipWith (fun x y => (x + y) % 2 ^ 32) v r) (l.drop 64)

/-- SHA-256 of a byte string, 32 bytes. Log entry 5 (PRESUMED, safe). -/
def sha256 (m : Bytes) : Bytes :=
  let n := m.length / 64 + (if m.length % 64 < 56 then 1 else 2)
  let msg := fit (64 * n - 8) (m ++ [128]) ++ beBytes 8 (8 * m.length)
  (shaOver n ((List.range 8).map (packed 8 shaStart)) msg).flatMap (beBytes 4)

/-- HMAC-SHA-256. Log entry 5 (PRESUMED, safe). -/
def hmac256 (key m : Bytes) : Bytes :=
  let k := fit 64 (if key.length ≤ 64 then key else sha256 key)
  sha256 (k.map (· ^^^ 0x5C) ++ sha256 (k.map (· ^^^ 0x36) ++ m))

/-- Eight steps of the reflected CRC-32. -/
def crcByte : Nat → Nat → Nat
  | 0, c => c
  | n + 1, c => crcByte n (if c % 2 = 1 then (c / 2) ^^^ 0xEDB88320 else c / 2)

/-- CRC-32 of a byte string (R176): reflected polynomial 0xEDB8_8320, initial value and final exclusive-or all ones.
Log entry 5 (PRESUMED, safe). -/
def crc32 (m : Bytes) : Nat := (m.foldl (fun c b => crcByte 8 (c ^^^ b)) 0xFFFFFFFF) ^^^ 0xFFFFFFFF

end Sys2Proof.Machine
end

