-- ==== Sys2Proof/Machine/ObjTable.lean ====
section
/-!
DEFINITION. The object dictionary (R425, R432 and the object tables of the other chapters): one row for each run of
sub-indices, with its type, access code (R420), default and stated range.
-/
namespace Sys2Proof.Machine
open Sys2Proof.Config

/-- The mapping words of 0x1600: 24 entries of 64 bits, 0x2004:01 upwards (R425). -/
def rxMap : List Int := (List.range 24).map (fun s => (0x20040040 + ((s + 1) * 256 : Nat) : Int))
/-- The mapping words of 0x1A00: 128 entries of 64 bits, 0x2003:01 upwards (R425). -/
def txMap : List Int := (List.range 128).map (fun s => (0x20030040 + ((s + 1) * 256 : Nat) : Int))
/-- The identity rotation in Q1.30, row-major (0x2210:14). -/
def identQ30 : List Int := [1073741824, 0, 0, 0, 1073741824, 0, 0, 0, 1073741824]

/-- Object rows, part 0. -/
def objRows0 : List ObjDef := [
  ⟨0x1000, 1, 0x0, 1, .u32, .ro, [0], .any, false⟩,
  ⟨0x1001, 1, 0x0, 1, .u8, .ro, [0], .any, false⟩,
  ⟨0x1008, 1, 0x0, 1, .octets 11, .ro, [0], .any, false⟩,
  ⟨0x1009, 1, 0x0, 1, .octets 2, .ro, [0], .any, false⟩,
  ⟨0x100A, 1, 0x0, 1, .octets 23, .ro, [0], .any, false⟩,
  ⟨0x1010, 1, 0x1, 1, .u32, .rw, [1], .span 1702257011 1702257011, false⟩,
  ⟨0x1011, 1, 0x1, 1, .u32, .rw, [1], .span 1684107116 1684107116, false⟩,
  ⟨0x1018, 1, 0x1, 4, .u32, .ro, [0], .any, false⟩,
  ⟨0x1600, 1, 0x0, 1, .u8, .ro, [24], .any, false⟩,
  ⟨0x1600, 1, 0x1, 24, .u32, .ro, rxMap, .any, false⟩,
  ⟨0x1700, 1, 0x0, 1, .u8, .ro, [5], .any, false⟩,
  ⟨0x1700, 1, 0x1, 5, .u32, .ro, [537264392, 537264648, 537264904, 537265168, 537265424], .any, false⟩,
  ⟨0x1A00, 1, 0x0, 1, .u8, .ro, [128], .any, false⟩,
  ⟨0x1A00, 1, 0x1, 128, .u32, .ro, txMap, .any, false⟩,
  ⟨0x1A01, 1, 0x0, 1, .u8, .rwp, [0], .multTo 8 160, false⟩,
  ⟨0x1B00, 1, 0x0, 1, .u8, .ro, [5], .any, false⟩,
  ⟨0x1B00, 1, 0x1, 5, .u32, .ro, [537329928, 537330184, 537330440, 537330704, 537330960], .any, false⟩,
  ⟨0x1C00, 1, 0x1, 4, .u8, .ro, [0], .any, false⟩,
  ⟨0x1C12, 1, 0x1, 2, .u16, .ro, [0], .any, false⟩,
  ⟨0x1C13, 1, 0x0, 1, .u8, .rwp, [2], .span 2 3, false⟩,
  ⟨0x1C32, 1, 0x1, 1, .u16, .ro, [2], .any, false⟩,
  ⟨0x1C32, 1, 0x2, 1, .u32, .ro, [1000000], .any, false⟩,
  ⟨0x1C33, 1, 0x1, 1, .u16, .ro, [2], .any, false⟩,
  ⟨0x1C33, 1, 0x2, 1, .u32, .ro, [1000000], .any, false⟩,
  ⟨0x2000, 1, 0x0, 1, .u8, .ro, [6], .any, false⟩]
/-- Object rows, part 1. -/
def objRows1 : List ObjDef := [
  ⟨0x2000, 1, 0x1, 1, .u16, .ro, [29248], .any, false⟩,
  ⟨0x2000, 1, 0x2, 1, .u8, .ro, [0], .any, false⟩,
  ⟨0x2000, 1, 0x3, 1, .u8, .ro, [176], .any, false⟩,
  ⟨0x2000, 1, 0x4, 1, .u64, .ro, [0], .any, false⟩,
  ⟨0x2000, 1, 0x5, 1, .u8, .ro, [0], .any, false⟩,
  ⟨0x2000, 1, 0x6, 1, .u64, .ro, [0], .any, false⟩,
  ⟨0x2001, 1, 0x0, 1, .u8, .ro, [12], .any, false⟩,
  ⟨0x2001, 1, 0x1, 1, .u8, .ro, [1], .any, false⟩,
  ⟨0x2001, 1, 0x2, 1, .u16, .ro, [0], .any, false⟩,
  ⟨0x2001, 1, 0x3, 1, .u8, .rwp, [3], .span 1 255, false⟩,
  ⟨0x2001, 1, 0x4, 1, .u16, .ro, [0], .any, false⟩,
  ⟨0x2001, 1, 0x5, 1, .u32, .ro, [0], .any, false⟩,
  ⟨0x2001, 1, 0x6, 1, .u32, .ro, [0], .any, false⟩,
  ⟨0x2001, 1, 0x7, 1, .u32, .ro, [0], .any, false⟩,
  ⟨0x2001, 1, 0x8, 2, .u32, .ro, [0], .any, false⟩,
  ⟨0x2001, 1, 0xA, 1, .u8, .ro, [0], .any, false⟩,
  ⟨0x2001, 1, 0xB, 1, .u16, .ro, [0], .any, false⟩,
  ⟨0x2001, 1, 0xC, 1, .u8, .rwp, [1], .span 0 1, false⟩,
  ⟨0x2002, 1, 0x0, 1, .u8, .ro, [6], .any, false⟩,
  ⟨0x2002, 1, 0x1, 1, .u16, .rwp, [0], .span 0 65535, false⟩,
  ⟨0x2002, 1, 0x2, 1, .u8, .ro, [0], .any, false⟩,
  ⟨0x2002, 1, 0x3, 1, .u16, .ro, [0], .any, false⟩,
  ⟨0x2002, 1, 0x4, 1, .u16, .ro, [0], .any, false⟩,
  ⟨0x2002, 1, 0x5, 1, .u32, .ro, [0], .any, false⟩,
  ⟨0x2002, 1, 0x6, 1, .u8, .ro, [0], .any, false⟩]
/-- Object rows, part 2. -/
def objRows2 : List ObjDef := [
  ⟨0x2003, 1, 0x1, 128, .u64, .ro, [0], .any, false⟩,
  ⟨0x2004, 1, 0x1, 24, .u64, .ro, [0], .any, false⟩,
  ⟨0x2005, 1, 0x1, 160, .u64, .ro, [0], .any, false⟩,
  ⟨0x2006, 2, 0x1, 3, .u8, .ro, [0], .any, false⟩,
  ⟨0x2006, 2, 0x4, 2, .u16, .ro, [0], .any, false⟩,
  ⟨0x2100, 1, 0x0, 1, .u8, .ro, [9], .any, false⟩,
  ⟨0x2100, 1, 0x1, 1, .u8, .rwp, [1], .span 0 2, false⟩,
  ⟨0x2100, 1, 0x2, 1, .u32, .rwp, [1000000], .span 250000 20000000, false⟩,
  ⟨0x2100, 1, 0x3, 1, .u16, .rwp, [64], .span 1 1024, false⟩,
  ⟨0x2100, 1, 0x4, 1, .u16, .rwp, [1024], .per 50, false⟩,
  ⟨0x2100, 1, 0x5, 1, .u8, .ro, [0], .any, false⟩,
  ⟨0x2100, 1, 0x6, 1, .u64, .ro, [0], .any, false⟩,
  ⟨0x2100, 1, 0x7, 1, .i32, .ro, [0], .any, false⟩,
  ⟨0x2100, 1, 0x8, 1, .u32, .ro, [0], .any, false⟩,
  ⟨0x2100, 1, 0x9, 1, .u8, .ro, [3], .any, false⟩,
  ⟨0x2101, 1, 0x0, 1, .u8, .ro, [7], .any, false⟩,
  ⟨0x2101, 1, 0x1, 1, .u8, .rwp, [0], .span 0 1, false⟩,
  ⟨0x2101, 1, 0x2, 1, .u8, .rwp, [1], .span 1 4, false⟩,
  ⟨0x2101, 1, 0x3, 1, .u8, .rwp, [0], .span 0 3, false⟩,
  ⟨0x2101, 1, 0x4, 1, .u16, .rwp, [90], .span 54 900, false⟩,
  ⟨0x2101, 1, 0x5, 1, .u64, .rwp, [0], .any, false⟩,
  ⟨0x2101, 1, 0x6, 1, .u8, .ro, [0], .any, false⟩,
  ⟨0x2101, 1, 0x7, 1, .i16, .ro, [0], .any, false⟩,
  ⟨0x2200, 1, 0x0, 1, .u8, .ro, [20], .any, false⟩,
  ⟨0x2200, 1, 0x1, 1, .u8, .rwp, [0], .span 0 1, false⟩]
/-- Object rows, part 3. -/
def objRows3 : List ObjDef := [
  ⟨0x2200, 1, 0x2, 1, .u16, .rwp, [58982], .span 32768 62258, false⟩,
  ⟨0x2200, 1, 0x3, 5, .i8, .rwp, [14, (-5), 8, 112, (-20)], .per 61, false⟩,
  ⟨0x2200, 1, 0x8, 3, .u16, .rwp, [107, 107, 54], .per 65, false⟩,
  ⟨0x2200, 1, 0xB, 3, .u16, .rwp, [167, 167, 17], .per 65, false⟩,
  ⟨0x2200, 1, 0xE, 2, .i16, .rwp, [0, 0], .any, false⟩,
  ⟨0x2200, 1, 0x10, 1, .u32, .rwp, [524288], .span 65536 1048576, false⟩,
  ⟨0x2200, 1, 0x11, 1, .u8, .rwp, [1], .span 0 1, false⟩,
  ⟨0x2200, 1, 0x12, 1, .u8, .rwp, [0], .span 0 1, false⟩,
  ⟨0x2200, 1, 0x13, 1, .u64, .ro, [0], .any, false⟩,
  ⟨0x2200, 1, 0x14, 1, .u32, .ro, [0], .any, false⟩,
  ⟨0x2201, 1, 0x0, 1, .u8, .ro, [5], .any, false⟩,
  ⟨0x2201, 1, 0x1, 1, .u16, .rwp, [100], .span 0 500, false⟩,
  ⟨0x2201, 1, 0x2, 1, .u16, .rwp, [20000], .span 0 60000, false⟩,
  ⟨0x2201, 1, 0x3, 1, .u16, .rwp, [500], .span 0 1500, false⟩,
  ⟨0x2201, 1, 0x4, 1, .u16, .rwp, [1500], .span 100 1500, false⟩,
  ⟨0x2201, 1, 0x5, 1, .u16, .ro, [0], .any, false⟩,
  ⟨0x2202, 1, 0x0, 1, .u8, .ro, [8], .any, false⟩,
  ⟨0x2202, 1, 0x1, 2, .u8, .rw, [10, 10], .span 1 255, false⟩,
  ⟨0x2202, 1, 0x3, 1, .u16, .rw, [64], .span 1 65535, false⟩,
  ⟨0x2202, 1, 0x4, 2, .u8, .rw, [8, 3], .span 1 255, false⟩,
  ⟨0x2202, 1, 0x6, 1, .u16, .rwp, [20], .span 1 1000, false⟩,
  ⟨0x2202, 1, 0x7, 1, .u16, .rwp, [47220], .span 1024 65535, false⟩,
  ⟨0x2202, 1, 0x8, 1, .u8, .rwp, [1], .span 0 1, false⟩,
  ⟨0x2210, 32, 0x0, 1, .u8, .ro, [34], .any, false⟩,
  ⟨0x2210, 32, 0x1, 1, .u8, .rw, [0], .span 0 1, false⟩]
/-- Object rows, part 4. -/
def objRows4 : List ObjDef := [
  ⟨0x2210, 32, 0x2, 3, .u8, .rwp, [0, 0, 0], .per 51, false⟩,
  ⟨0x2210, 32, 0x5, 1, .u8, .rwp, [0], .any, false⟩,
  ⟨0x2210, 32, 0x6, 2, .u8, .rwp, [0, 0], .span 0 1, false⟩,
  ⟨0x2210, 32, 0x8, 1, .u8, .rwp, [1], .span 1 4, false⟩,
  ⟨0x2210, 32, 0x9, 1, .u8, .rw, [16], .span 4 64, false⟩,
  ⟨0x2210, 32, 0xA, 2, .u16, .rwp, [0, 0], .per 82, false⟩,
  ⟨0x2210, 32, 0xC, 4, .i32, .rw, [0], .any, false⟩,
  ⟨0x2210, 32, 0x10, 1, .u8, .rw, [0], .per 83, false⟩,
  ⟨0x2210, 32, 0x11, 3, .i32, .rw, [0], .any, false⟩,
  ⟨0x2210, 32, 0x14, 9, .i32, .rw, identQ30, .any, false⟩,
  ⟨0x2210, 32, 0x1D, 1, .u16, .rw, [4000], .span 100 60000, false⟩,
  ⟨0x2210, 32, 0x1E, 1, .u8, .rw, [50], .span 1 255, false⟩,
  ⟨0x2210, 32, 0x1F, 1, .u16, .rw, [100], .per 83, false⟩,
  ⟨0x2210, 32, 0x20, 1, .u8, .rw, [50], .span 1 255, false⟩,
  ⟨0x2210, 32, 0x21, 1, .u8, .ro, [0], .any, false⟩,
  ⟨0x2210, 32, 0x22, 1, .u32, .ro, [0], .any, false⟩,
  ⟨0x2300, 1, 0x0, 1, .u8, .ro, [11], .any, false⟩,
  ⟨0x2300, 1, 0x1, 1, .u32, .ro, [0], .any, false⟩,
  ⟨0x2300, 1, 0x2, 1, .u64, .ro, [0], .any, false⟩,
  ⟨0x2300, 1, 0x3, 1, .u8, .ro, [0], .any, false⟩,
  ⟨0x2300, 1, 0x4, 1, .u16, .ro, [0], .any, false⟩,
  ⟨0x2300, 1, 0x5, 1, .u32, .ro, [0], .any, false⟩,
  ⟨0x2300, 1, 0x6, 1, .u32, .rw, [0], .mult 64, false⟩,
  ⟨0x2300, 1, 0x7, 1, .u64, .rw, [0], .laterCycle, false⟩,
  ⟨0x2300, 1, 0x8, 1, .u8, .wo, [0], .span 1 2, false⟩]
/-- Object rows, part 5. -/
def objRows5 : List ObjDef := [
  ⟨0x2300, 1, 0x9, 1, .u8, .ro, [0], .any, false⟩,
  ⟨0x2300, 1, 0xA, 1, .u8, .ro, [0], .any, false⟩,
  ⟨0x2300, 1, 0xB, 1, .u32, .ro, [0], .any, false⟩,
  ⟨0x2301, 1, 0x0, 1, .u8, .ro, [32], .any, false⟩,
  ⟨0x2301, 1, 0x1, 32, .i32, .ro, [0], .any, false⟩,
  ⟨0x2400, 1, 0x0, 1, .u8, .ro, [12], .any, false⟩,
  ⟨0x2400, 1, 0x1, 4, .u32, .ro, [0], .any, true⟩,
  ⟨0x2400, 1, 0x5, 1, .u16, .ro, [0], .any, true⟩,
  ⟨0x2400, 1, 0x6, 1, .u16, .ro, [0], .any, true⟩,
  ⟨0x2400, 1, 0x7, 1, .u8, .rw, [2], .span 1 8, false⟩,
  ⟨0x2400, 1, 0x8, 1, .u32, .ro, [0], .any, true⟩,
  ⟨0x2400, 1, 0x9, 1, .u32, .ro, [0], .any, false⟩,
  ⟨0x2400, 1, 0xA, 1, .u16, .ro, [0], .any, false⟩,
  ⟨0x2400, 1, 0xB, 1, .u32, .ro, [0], .any, false⟩,
  ⟨0x2400, 1, 0xC, 1, .u32, .ro, [0], .any, false⟩,
  ⟨0x2401, 1, 0x0, 1, .u8, .ro, [2], .any, false⟩,
  ⟨0x2401, 1, 0x1, 1, .u64, .rw, [0], .any, false⟩,
  ⟨0x2401, 1, 0x2, 1, .u64, .rw, [0], .any, false⟩,
  ⟨0x2402, 1, 0x0, 1, .u8, .ro, [32], .any, false⟩,
  ⟨0x2402, 1, 0x1, 32, .i32, .rw, [0], .span 0 2147483647, true⟩,
  ⟨0x2403, 1, 0x0, 1, .u8, .ro, [32], .any, false⟩,
  ⟨0x2403, 1, 0x1, 32, .i32, .rw, [0], .span 0 2147483647, true⟩,
  ⟨0x2404, 1, 0x0, 1, .u8, .ro, [32], .any, false⟩,
  ⟨0x2404, 1, 0x1, 32, .i32, .rw, [0], .span 0 2147483647, true⟩,
  ⟨0x2405, 1, 0x0, 1, .u8, .ro, [5], .any, false⟩]
/-- Object rows, part 6. -/
def objRows6 : List ObjDef := [
  ⟨0x2405, 1, 0x1, 1, .u64, .rw, [0], .mult 64, false⟩,
  ⟨0x2405, 1, 0x2, 1, .u32, .rw, [0], .span 1 65536, false⟩,
  ⟨0x2405, 1, 0x3, 1, .u8, .wo, [0], .span 1 2, false⟩,
  ⟨0x2405, 1, 0x4, 1, .u8, .ro, [0], .any, false⟩,
  ⟨0x2405, 1, 0x5, 1, .u32, .ro, [0], .any, false⟩,
  ⟨0x2500, 1, 0x0, 1, .u8, .ro, [15], .any, false⟩,
  ⟨0x2500, 1, 0x1, 1, .u16, .ro, [50], .any, false⟩,
  ⟨0x2500, 1, 0x2, 1, .u16, .ro, [10], .any, false⟩,
  ⟨0x2500, 1, 0x3, 1, .u16, .rw, [200], .span 0 1000, false⟩,
  ⟨0x2500, 1, 0x4, 1, .real32, .rw, [1065353216], .real 0 1232348160, false⟩,
  ⟨0x2500, 1, 0x5, 1, .real32, .rw, [1065353216], .real 0 1232348160, false⟩,
  ⟨0x2500, 1, 0x6, 1, .u8, .rwp, [0], .span 0 1, false⟩,
  ⟨0x2500, 1, 0x7, 1, .u8, .rwp, [1], .span 0 1, false⟩,
  ⟨0x2500, 1, 0x8, 1, .u8, .rwp, [1], .span 0 1, false⟩,
  ⟨0x2500, 1, 0x9, 1, .u8, .ro, [0], .any, false⟩,
  ⟨0x2500, 1, 0xA, 1, .u32, .ro, [0], .any, false⟩,
  ⟨0x2500, 1, 0xB, 1, .u32, .ro, [0], .any, false⟩,
  ⟨0x2500, 1, 0xC, 1, .u32, .ro, [0], .any, false⟩,
  ⟨0x2500, 1, 0xD, 1, .u16, .ro, [0], .any, false⟩,
  ⟨0x2500, 1, 0xE, 1, .u16, .ro, [0], .any, false⟩,
  ⟨0x2500, 1, 0xF, 1, .u32, .ro, [0], .any, false⟩,
  ⟨0x2501, 1, 0x0, 1, .u8, .ro, [32], .any, false⟩,
  ⟨0x2501, 1, 0x1, 32, .real32, .rw, [0], .real 0 1232348160, true⟩,
  ⟨0x2600, 1, 0x0, 1, .u8, .ro, [14], .any, false⟩,
  ⟨0x2600, 1, 0x1, 1, .u16, .rwp, [2000], .span 100 10000, false⟩]
/-- Object rows, part 7. -/
def objRows7 : List ObjDef := [
  ⟨0x2600, 1, 0x2, 1, .u16, .rwp, [10000], .per 194, false⟩,
  ⟨0x2600, 1, 0x3, 1, .u16, .rwp, [1000], .span 0 10000, false⟩,
  ⟨0x2600, 1, 0x4, 1, .u16, .rwp, [1000], .span 0 10000, false⟩,
  ⟨0x2600, 1, 0x5, 1, .u16, .rwp, [58982], .span 32768 62258, false⟩,
  ⟨0x2600, 1, 0x6, 1, .u8, .rwp, [0], .span 0 1, false⟩,
  ⟨0x2600, 1, 0x7, 1, .i16, .rwp, [(-1000)], .span (-10000) 10000, false⟩,
  ⟨0x2600, 1, 0x8, 1, .i16, .rwp, [5000], .per 194, false⟩,
  ⟨0x2600, 1, 0x9, 1, .u16, .rwp, [4096], .span 1024 8192, false⟩,
  ⟨0x2600, 1, 0xA, 1, .u16, .ro, [0], .any, false⟩,
  ⟨0x2600, 1, 0xB, 1, .u16, .ro, [0], .any, false⟩,
  ⟨0x2600, 1, 0xC, 1, .u16, .ro, [0], .any, false⟩,
  ⟨0x2600, 1, 0xD, 1, .u16, .ro, [0], .any, false⟩,
  ⟨0x2600, 1, 0xE, 1, .u32, .ro, [0], .any, false⟩,
  ⟨0x2601, 1, 0x0, 1, .u8, .ro, [4], .any, false⟩,
  ⟨0x2601, 1, 0x1, 3, .i32, .rw, [0], .any, false⟩,
  ⟨0x2601, 1, 0x4, 1, .i32, .rw, [0], .span (-843314857) 843314857, false⟩,
  ⟨0x2602, 1, 0x0, 1, .u8, .ro, [8], .any, false⟩,
  ⟨0x2602, 1, 0x1, 1, .u16, .rwp, [47210], .span 1024 65535, false⟩,
  ⟨0x2602, 1, 0x2, 1, .u32, .rwp, [0], .any, false⟩,
  ⟨0x2602, 1, 0x3, 1, .u32, .rwp, [4014475777], .span 3758096384 4026531839, false⟩,
  ⟨0x2602, 1, 0x4, 1, .u8, .rwp, [1], .span 0 1, false⟩,
  ⟨0x2602, 1, 0x5, 1, .u8, .rwp, [0], .span 0 1, false⟩,
  ⟨0x2602, 1, 0x6, 1, .u8, .rwp, [1], .span 0 1, false⟩,
  ⟨0x2602, 1, 0x7, 1, .u16, .rwp, [0], .span 0 65535, false⟩,
  ⟨0x2602, 1, 0x8, 1, .u8, .rwp, [0], .span 0 3, false⟩]
/-- Object rows, part 8. -/
def objRows8 : List ObjDef := [
  ⟨0x2603, 1, 0x0, 1, .u8, .ro, [12], .any, false⟩,
  ⟨0x2603, 1, 0x1, 1, .u32, .rwp, [0], .span 0 4294967294, false⟩,
  ⟨0x2603, 1, 0x2, 1, .u8, .rw, [10], .span 1 255, false⟩,
  ⟨0x2603, 1, 0x3, 1, .u8, .rwp, [3], .span 1 3, false⟩,
  ⟨0x2603, 1, 0x4, 1, .u8, .rwp, [5], .span 0 7, false⟩,
  ⟨0x2603, 1, 0x5, 6, .u32, .rw, [0], .any, true⟩,
  ⟨0x2603, 1, 0xB, 1, .u32, .ro, [0], .any, false⟩,
  ⟨0x2603, 1, 0xC, 1, .u8, .wo, [0], .span 1 1, false⟩,
  ⟨0x2604, 1, 0x0, 1, .u8, .ro, [6], .any, false⟩,
  ⟨0x2604, 1, 0x1, 1, .u16, .rw, [0], .span 0 4095, false⟩,
  ⟨0x2604, 1, 0x2, 1, .u32, .ro, [0], .any, false⟩,
  ⟨0x2604, 1, 0x3, 1, .u8, .ro, [0], .any, false⟩,
  ⟨0x2604, 1, 0x4, 1, .u32, .ro, [0], .any, false⟩,
  ⟨0x2604, 1, 0x5, 1, .u32, .ro, [0], .any, false⟩,
  ⟨0x2604, 1, 0x6, 1, .u32, .ro, [0], .any, false⟩,
  ⟨0x2700, 1, 0x0, 1, .u8, .ro, [12], .any, false⟩,
  ⟨0x2700, 1, 0x1, 1, .real32, .rw, [1098907648], .real 0 1315859240, false⟩,
  ⟨0x2700, 1, 0x2, 1, .u8, .rwp, [1], .span 0 1, false⟩,
  ⟨0x2700, 1, 0x3, 1, .u16, .ro, [0], .any, true⟩,
  ⟨0x2700, 1, 0x4, 1, .u32, .ro, [0], .any, false⟩,
  ⟨0x2700, 1, 0x5, 1, .u32, .ro, [0], .any, false⟩,
  ⟨0x2700, 1, 0x6, 1, .u32, .ro, [0], .any, false⟩,
  ⟨0x2700, 1, 0x7, 1, .u32, .ro, [0], .any, false⟩,
  ⟨0x2700, 1, 0x8, 1, .u32, .ro, [0], .any, false⟩,
  ⟨0x2700, 1, 0x9, 1, .u32, .ro, [0], .any, false⟩]
/-- Object rows, part 9. -/
def objRows9 : List ObjDef := [
  ⟨0x2700, 1, 0xA, 1, .u32, .ro, [4294967295], .any, false⟩,
  ⟨0x2700, 1, 0xB, 1, .real32, .ro, [2143289344], .any, false⟩,
  ⟨0x2700, 1, 0xC, 1, .u32, .ro, [0], .any, false⟩,
  ⟨0x2800, 1, 0x0, 1, .u8, .ro, [15], .any, false⟩,
  ⟨0x2800, 1, 0x1, 1, .u8, .rwp, [1], .span 0 1, false⟩,
  ⟨0x2800, 1, 0x2, 1, .u8, .rw, [0], .span 1 16, true⟩,
  ⟨0x2800, 1, 0x3, 1, .u64, .rw, [0], .any, true⟩,
  ⟨0x2800, 1, 0x4, 1, .u16, .rw, [0], .any, true⟩,
  ⟨0x2800, 1, 0x5, 1, .real32, .rw, [0], .real 562036736 1065353216, true⟩,
  ⟨0x2800, 1, 0x6, 1, .real32, .rw, [0], .real 0 1232348160, true⟩,
  ⟨0x2800, 1, 0x7, 1, .real32, .rw, [0], .real 0 1232348160, true⟩,
  ⟨0x2800, 1, 0x8, 1, .u16, .ro, [0], .any, false⟩,
  ⟨0x2800, 1, 0x9, 1, .u16, .ro, [0], .any, false⟩,
  ⟨0x2800, 1, 0xA, 1, .u16, .ro, [0], .any, false⟩,
  ⟨0x2800, 1, 0xB, 1, .u32, .ro, [0], .any, false⟩,
  ⟨0x2800, 1, 0xC, 1, .u8, .rw, [1], .span 0 1, false⟩,
  ⟨0x2800, 1, 0xD, 1, .u32, .ro, [0], .any, false⟩,
  ⟨0x2800, 1, 0xE, 1, .u32, .ro, [0], .any, false⟩,
  ⟨0x2800, 1, 0xF, 1, .u32, .ro, [0], .any, false⟩,
  ⟨0x2801, 1, 0x0, 1, .u8, .ro, [7], .any, false⟩,
  ⟨0x2801, 1, 0x1, 1, .u8, .rw, [0], .span 1 16, true⟩,
  ⟨0x2801, 1, 0x2, 1, .u64, .rw, [0], .any, true⟩,
  ⟨0x2801, 1, 0x3, 1, .u16, .rw, [0], .any, true⟩,
  ⟨0x2801, 1, 0x4, 1, .real32, .rw, [0], .real 562036736 1065353216, true⟩,
  ⟨0x2801, 1, 0x5, 1, .u8, .ro, [255], .any, false⟩]
/-- Object rows, part 10. -/
def objRows10 : List ObjDef := [
  ⟨0x2801, 1, 0x6, 1, .u16, .ro, [0], .any, false⟩,
  ⟨0x2801, 1, 0x7, 1, .u16, .ro, [0], .any, false⟩,
  ⟨0x2900, 1, 0x0, 1, .u8, .ro, [11], .any, false⟩,
  ⟨0x2900, 1, 0x1, 1, .u8, .rw, [1], .span 0 1, false⟩,
  ⟨0x2900, 1, 0x2, 1, .u8, .rwp, [0], .span 0 1, false⟩,
  ⟨0x2900, 1, 0x3, 1, .real32, .rw, [1065353216], .real 0 1232348160, false⟩,
  ⟨0x2900, 1, 0x4, 1, .u32, .ro, [0], .any, false⟩,
  ⟨0x2900, 1, 0x5, 1, .u32, .ro, [0], .any, false⟩,
  ⟨0x2900, 1, 0x6, 1, .u32, .ro, [0], .any, false⟩,
  ⟨0x2900, 1, 0x7, 1, .u32, .ro, [0], .any, false⟩,
  ⟨0x2900, 1, 0x8, 1, .u8, .ro, [0], .any, false⟩,
  ⟨0x2900, 1, 0x9, 1, .u32, .ro, [0], .any, false⟩,
  ⟨0x2900, 1, 0xA, 1, .u16, .ro, [0], .any, false⟩,
  ⟨0x2900, 1, 0xB, 1, .u32, .ro, [0], .any, false⟩,
  ⟨0x2901, 1, 0x0, 1, .u8, .ro, [7], .any, false⟩,
  ⟨0x2901, 1, 0x1, 1, .u8, .rw, [0], .span 0 15, false⟩,
  ⟨0x2901, 1, 0x2, 1, .u64, .rw, [0], .mult 64, false⟩,
  ⟨0x2901, 1, 0x3, 1, .u32, .rw, [0], .span 64 4294967232, false⟩,
  ⟨0x2901, 1, 0x4, 1, .u8, .wo, [0], .span 1 2, false⟩,
  ⟨0x2901, 1, 0x5, 1, .u8, .ro, [0], .any, false⟩,
  ⟨0x2901, 1, 0x6, 1, .u64, .ro, [0], .any, false⟩,
  ⟨0x2901, 1, 0x7, 1, .u32, .ro, [0], .any, false⟩,
  ⟨0x2A00, 1, 0x0, 1, .u8, .ro, [12], .any, false⟩,
  ⟨0x2A00, 1, 0x1, 1, .u8, .rwp, [1], .span 0 1, false⟩,
  ⟨0x2A00, 1, 0x2, 1, .u8, .rwp, [1], .span 0 1, false⟩]
/-- Object rows, part 11. -/
def objRows11 : List ObjDef := [
  ⟨0x2A00, 1, 0x3, 1, .u16, .rwp, [1024], .span 64 65535, false⟩,
  ⟨0x2A00, 1, 0x4, 1, .u64, .rwp, [0], .ddrMult 1048576, false⟩,
  ⟨0x2A00, 1, 0x5, 1, .u32, .ro, [0], .any, false⟩,
  ⟨0x2A00, 1, 0x6, 1, .u32, .ro, [0], .any, false⟩,
  ⟨0x2A00, 1, 0x7, 1, .u32, .ro, [0], .any, false⟩,
  ⟨0x2A00, 1, 0x8, 1, .u32, .ro, [0], .any, false⟩,
  ⟨0x2A00, 1, 0x9, 1, .u32, .ro, [0], .any, false⟩,
  ⟨0x2A00, 1, 0xA, 1, .u16, .ro, [0], .any, false⟩,
  ⟨0x2A00, 1, 0xB, 1, .u32, .ro, [0], .any, false⟩,
  ⟨0x2A00, 1, 0xC, 1, .u32, .ro, [0], .any, false⟩,
  ⟨0x2B00, 1, 0x0, 1, .u8, .ro, [15], .any, false⟩,
  ⟨0x2B00, 1, 0x1, 1, .u64, .rw, [0], .mult 128, false⟩,
  ⟨0x2B00, 1, 0x2, 1, .u32, .rw, [0], .span 7984 16785072, false⟩,
  ⟨0x2B00, 1, 0x3, 1, .u64, .rw, [0], .laterCycle, false⟩,
  ⟨0x2B00, 1, 0x4, 1, .u8, .wo, [0], .span 1 2, false⟩,
  ⟨0x2B00, 1, 0x5, 1, .u8, .ro, [0], .any, false⟩,
  ⟨0x2B00, 1, 0x6, 1, .u8, .ro, [0], .any, false⟩,
  ⟨0x2B00, 1, 0x7, 1, .u32, .ro, [0], .any, false⟩,
  ⟨0x2B00, 1, 0x8, 1, .u64, .ro, [0], .any, false⟩,
  ⟨0x2B00, 1, 0x9, 1, .u64, .ro, [0], .any, false⟩,
  ⟨0x2B00, 1, 0xA, 1, .u16, .ro, [0], .any, false⟩,
  ⟨0x2B00, 1, 0xB, 1, .u32, .ro, [0], .any, false⟩,
  ⟨0x2B00, 1, 0xC, 1, .u16, .rwp, [4096], .span 1024 16384, false⟩,
  ⟨0x2B00, 1, 0xD, 1, .u32, .ro, [0], .any, false⟩,
  ⟨0x2B00, 1, 0xE, 1, .u32, .ro, [0], .any, false⟩]
/-- Object rows, part 12. -/
def objRows12 : List ObjDef := [
  ⟨0x2B00, 1, 0xF, 1, .u64, .ro, [0], .any, false⟩,
  ⟨0x2C00, 1, 0x0, 1, .u8, .ro, [14], .any, false⟩,
  ⟨0x2C00, 1, 0x1, 1, .u16, .rwp, [6400], .vals [4800, 5600, 6400], false⟩,
  ⟨0x2C00, 1, 0x2, 1, .u8, .rwp, [16], .vals [8, 16, 24, 32], false⟩,
  ⟨0x2C00, 1, 0x3, 1, .u8, .rwp, [1], .span 1 2, false⟩,
  ⟨0x2C00, 1, 0x4, 1, .u16, .rwp, [1414], .span 16 65535, false⟩,
  ⟨0x2C00, 1, 0x5, 1, .u8, .rwp, [1], .span 0 1, false⟩,
  ⟨0x2C00, 1, 0x6, 1, .u8, .rwp, [72], .span 16 93, false⟩,
  ⟨0x2C00, 1, 0x7, 1, .u8, .rwp, [1], .span 0 1, false⟩,
  ⟨0x2C00, 1, 0x8, 1, .u8, .rwp, [16], .span 4 255, false⟩,
  ⟨0x2C00, 1, 0x9, 1, .u8, .ro, [0], .any, false⟩,
  ⟨0x2C00, 1, 0xA, 1, .u32, .ro, [0], .any, false⟩,
  ⟨0x2C00, 1, 0xB, 1, .u16, .rwp, [128], .span 64 2048, false⟩,
  ⟨0x2C00, 1, 0xC, 1, .u32, .ro, [0], .any, false⟩,
  ⟨0x2C00, 1, 0xD, 1, .u32, .ro, [0], .any, false⟩,
  ⟨0x2C00, 1, 0xE, 1, .u32, .ro, [0], .any, false⟩,
  ⟨0x2C01, 1, 0x0, 1, .u8, .ro, [10], .any, false⟩,
  ⟨0x2C01, 1, 0x1, 5, .u32, .ro, [0], .any, false⟩,
  ⟨0x2C01, 1, 0x6, 5, .u32, .ro, [0], .any, false⟩,
  ⟨0x2C02, 1, 0x0, 1, .u8, .ro, [65], .any, false⟩,
  ⟨0x2C02, 1, 0x1, 1, .u8, .ro, [0], .any, false⟩,
  ⟨0x2C02, 1, 0x2, 64, .u64, .ro, [0], .any, false⟩,
  ⟨0x2D00, 1, 0x0, 1, .u8, .ro, [12], .any, false⟩,
  ⟨0x2D00, 1, 0x1, 1, .u8, .rwp, [0], .span 0 1, false⟩,
  ⟨0x2D00, 1, 0x2, 1, .u8, .rw, [0], .span 0 1, false⟩]
/-- Object rows, part 13. -/
def objRows13 : List ObjDef := [
  ⟨0x2D00, 1, 0x3, 1, .u8, .rwp, [1], .span 1 3, false⟩,
  ⟨0x2D00, 1, 0x4, 1, .u64, .rwp, [0], .ddrMult 1048576, false⟩,
  ⟨0x2D00, 1, 0x5, 1, .u32, .rwp, [10240], .span 1024 65536, false⟩,
  ⟨0x2D00, 1, 0x6, 1, .u32, .rwp, [10000], .span 1000 1000000, false⟩,
  ⟨0x2D00, 1, 0x7, 1, .u16, .rwp, [47230], .span 1024 65535, false⟩,
  ⟨0x2D00, 1, 0x8, 1, .u8, .rwp, [0], .span 0 1, false⟩,
  ⟨0x2D00, 1, 0x9, 1, .u64, .ro, [0], .any, false⟩,
  ⟨0x2D00, 1, 0xA, 1, .u32, .ro, [0], .any, false⟩,
  ⟨0x2D00, 1, 0xB, 1, .u64, .ro, [0], .any, false⟩,
  ⟨0x2D00, 1, 0xC, 1, .u16, .ro, [0], .any, false⟩,
  ⟨0x2D01, 1, 0x0, 1, .u8, .ro, [1], .any, false⟩,
  ⟨0x2D01, 1, 0x1, 1, .octets 48, .ro, [0], .any, false⟩,
  ⟨0x2E00, 1, 0x0, 1, .u8, .ro, [10], .any, false⟩,
  ⟨0x2E00, 1, 0x1, 3, .i16, .ro, [0], .any, false⟩,
  ⟨0x2E00, 1, 0x4, 5, .u16, .ro, [0], .any, false⟩,
  ⟨0x2E00, 1, 0x9, 1, .i16, .ro, [0], .any, false⟩,
  ⟨0x2E00, 1, 0xA, 1, .u32, .ro, [0], .any, false⟩,
  ⟨0x2E01, 1, 0x0, 1, .u8, .ro, [24], .any, false⟩,
  ⟨0x2E01, 1, 0x1, 8, .u8, .rwp, [4], .vals [1, 2, 4], false⟩,
  ⟨0x2E01, 1, 0x9, 8, .u16, .rwp, [4500], .span 80 4500, false⟩,
  ⟨0x2E01, 1, 0x11, 8, .u8, .rwp, [0], .span 0 1, false⟩,
  ⟨0x2E02, 1, 0x0, 1, .u8, .ro, [7], .any, false⟩,
  ⟨0x2E02, 1, 0x1, 1, .u8, .rwp, [0], .span 0 1, false⟩,
  ⟨0x2E02, 1, 0x2, 1, .u16, .rwp, [10000], .span 1000 24000, false⟩,
  ⟨0x2E02, 1, 0x3, 1, .u8, .rwp, [0], .any, false⟩]
/-- Object rows, part 14. -/
def objRows14 : List ObjDef := [
  ⟨0x2E02, 1, 0x4, 1, .u8, .rwp, [16], .span 1 64, false⟩,
  ⟨0x2E02, 1, 0x5, 1, .u16, .rwp, [125], .span 125 10000, false⟩,
  ⟨0x2E02, 1, 0x6, 1, .u16, .ro, [0], .any, false⟩,
  ⟨0x2E02, 1, 0x7, 1, .u32, .ro, [0], .any, false⟩,
  ⟨0x2E03, 1, 0x0, 1, .u8, .ro, [3], .any, false⟩,
  ⟨0x2E03, 1, 0x1, 1, .u16, .rwp, [12500], .span 1000 12500, false⟩,
  ⟨0x2E03, 1, 0x2, 1, .u8, .rwp, [96], .span 8 119, false⟩,
  ⟨0x2E03, 1, 0x3, 1, .u32, .ro, [0], .any, false⟩,
  ⟨0x2E04, 1, 0x0, 1, .u8, .ro, [3], .any, false⟩,
  ⟨0x2E04, 1, 0x1, 1, .u8, .rwp, [1], .span 0 1, false⟩,
  ⟨0x2E04, 1, 0x2, 1, .u8, .rwp, [200], .span 25 200, false⟩,
  ⟨0x2E04, 1, 0x3, 1, .u8, .rwp, [1], .span 0 1, false⟩,
  ⟨0x2F00, 1, 0x0, 1, .u8, .ro, [13], .any, false⟩,
  ⟨0x2F00, 1, 0x1, 1, .u8, .rw, [0], .span 0 2, false⟩,
  ⟨0x2F00, 1, 0x2, 1, .u16, .rwp, [550], .span 100 550, false⟩,
  ⟨0x2F00, 1, 0x3, 1, .u8, .rw, [0], .span 0 1, false⟩,
  ⟨0x2F00, 1, 0x4, 1, .u8, .ro, [2], .any, false⟩,
  ⟨0x2F00, 1, 0x5, 1, .u8, .ro, [0], .any, false⟩,
  ⟨0x2F00, 1, 0x6, 1, .u16, .ro, [0], .any, false⟩,
  ⟨0x2F00, 1, 0x7, 1, .u16, .ro, [0], .any, false⟩,
  ⟨0x2F00, 1, 0x8, 1, .u16, .ro, [0], .any, false⟩,
  ⟨0x2F00, 1, 0x9, 1, .u32, .ro, [0], .any, false⟩,
  ⟨0x2F00, 1, 0xA, 1, .u32, .ro, [0], .any, false⟩,
  ⟨0x2F00, 1, 0xB, 1, .u8, .ro, [0], .any, false⟩,
  ⟨0x2F00, 1, 0xC, 1, .u16, .ro, [0], .any, false⟩]
/-- Object rows, part 15. -/
def objRows15 : List ObjDef := [
  ⟨0x2F00, 1, 0xD, 1, .u8, .ro, [0], .any, false⟩,
  ⟨0x2F01, 1, 0x0, 1, .u8, .ro, [1], .any, false⟩,
  ⟨0x2F01, 1, 0x1, 1, .u8, .wo, [0], .span 1 1, false⟩,
  ⟨0x4000, 1, 0x0, 1, .u8, .ro, [9], .any, false⟩,
  ⟨0x4000, 1, 0x1, 1, .u16, .rws, [50], .span 1 500, false⟩,
  ⟨0x4000, 1, 0x2, 1, .u16, .rws, [10], .span 0 200, false⟩,
  ⟨0x4000, 1, 0x3, 1, .u16, .rws, [20], .span 0 499, false⟩,
  ⟨0x4000, 1, 0x4, 1, .u32, .rws, [0], .orZero 10000 5000000, false⟩,
  ⟨0x4000, 1, 0x5, 1, .u8, .rws, [12], .span 2 15, false⟩,
  ⟨0x4000, 1, 0x6, 1, .u8, .rws, [3], .span 2 15, false⟩,
  ⟨0x4000, 1, 0x7, 1, .u16, .rws, [4096], .span 256 65535, false⟩,
  ⟨0x4000, 1, 0x8, 1, .u8, .rws, [1], .span 0 1, false⟩,
  ⟨0x4000, 1, 0x9, 1, .u16, .ro, [0], .any, true⟩,
  ⟨0x4001, 1, 0x0, 1, .u8, .ro, [6], .any, false⟩,
  ⟨0x4001, 1, 0x1, 1, .u32, .wo, [0], .any, false⟩,
  ⟨0x4001, 1, 0x2, 1, .u32, .wo, [0], .any, false⟩,
  ⟨0x4001, 1, 0x3, 1, .u32, .ro, [0], .any, false⟩,
  ⟨0x4001, 1, 0x4, 1, .u8, .ro, [0], .any, false⟩,
  ⟨0x4001, 1, 0x5, 1, .u8, .ro, [0], .any, false⟩,
  ⟨0x4001, 1, 0x6, 1, .u32, .ro, [0], .any, false⟩,
  ⟨0x4002, 1, 0x0, 1, .u8, .ro, [6], .any, false⟩,
  ⟨0x4002, 1, 0x1, 1, .u8, .ro, [0], .any, false⟩,
  ⟨0x4002, 1, 0x2, 1, .u8, .ro, [0], .any, false⟩,
  ⟨0x4002, 1, 0x3, 1, .u32, .ro, [0], .any, false⟩,
  ⟨0x4002, 1, 0x4, 1, .u64, .ro, [0], .any, false⟩]
/-- Object rows, part 16. -/
def objRows16 : List ObjDef := [
  ⟨0x4002, 1, 0x5, 1, .u32, .ro, [0], .any, false⟩,
  ⟨0x4002, 1, 0x6, 1, .u32, .ro, [0], .any, false⟩,
  ⟨0x4100, 1, 0x0, 1, .u8, .ro, [13], .any, false⟩,
  ⟨0x4100, 1, 0x1, 1, .u8, .rwp, [3], .span 2 15, false⟩,
  ⟨0x4100, 1, 0x2, 1, .u16, .rwp, [4096], .span 256 65535, false⟩,
  ⟨0x4100, 1, 0x3, 1, .u8, .rwp, [2], .span 1 8, false⟩,
  ⟨0x4100, 1, 0x4, 1, .u16, .rwp, [512], .orZero 64 65535, false⟩,
  ⟨0x4100, 1, 0x5, 1, .u16, .rwp, [1311], .span 256 4096, false⟩,
  ⟨0x4100, 1, 0x6, 1, .u16, .rwp, [6554], .span 0 58981, false⟩,
  ⟨0x4100, 1, 0x7, 1, .u32, .ro, [0], .any, false⟩,
  ⟨0x4100, 1, 0x8, 1, .u16, .ro, [0], .any, false⟩,
  ⟨0x4100, 1, 0x9, 1, .u32, .ro, [0], .any, false⟩,
  ⟨0x4100, 1, 0xA, 1, .u32, .ro, [0], .any, false⟩,
  ⟨0x4100, 1, 0xB, 1, .u8, .ro, [0], .any, false⟩,
  ⟨0x4100, 1, 0xC, 1, .u32, .ro, [0], .any, false⟩,
  ⟨0x4100, 1, 0xD, 1, .u8, .ro, [0], .any, false⟩,
  ⟨0x4101, 1, 0x0, 1, .u8, .ro, [7], .any, false⟩,
  ⟨0x4101, 1, 0x1, 1, .u16, .rw, [0], .any, false⟩,
  ⟨0x4101, 1, 0x2, 1, .u8, .ro, [0], .any, false⟩,
  ⟨0x4101, 1, 0x3, 1, .u8, .ro, [0], .any, false⟩,
  ⟨0x4101, 1, 0x4, 1, .u64, .ro, [0], .any, false⟩,
  ⟨0x4101, 1, 0x5, 1, .u8, .ro, [0], .any, false⟩,
  ⟨0x4101, 1, 0x6, 1, .u64, .ro, [0], .any, false⟩,
  ⟨0x4101, 1, 0x7, 1, .u8, .ro, [0], .any, false⟩,
  ⟨0x5000, 1, 0x0, 1, .u8, .ro, [11], .any, false⟩]
/-- Object rows, part 17. -/
def objRows17 : List ObjDef := [
  ⟨0x5000, 1, 0x1, 1, .u64, .rw, [0], .mult 128, false⟩,
  ⟨0x5000, 1, 0x2, 1, .u32, .rw, [0], .span 7984 8388608, false⟩,
  ⟨0x5000, 1, 0x3, 1, .u64, .rw, [0], .laterCycle, false⟩,
  ⟨0x5000, 1, 0x4, 1, .u8, .wo, [0], .span 1 3, false⟩,
  ⟨0x5000, 1, 0x5, 1, .u8, .ro, [0], .any, false⟩,
  ⟨0x5000, 1, 0x6, 1, .u8, .ro, [0], .any, false⟩,
  ⟨0x5000, 1, 0x7, 1, .u32, .rw, [10000], .span 1000 10000000, false⟩,
  ⟨0x5000, 1, 0x8, 1, .u64, .ro, [0], .any, false⟩,
  ⟨0x5000, 1, 0x9, 1, .u64, .ro, [0], .any, false⟩,
  ⟨0x5000, 1, 0xA, 1, .u32, .ro, [0], .any, false⟩,
  ⟨0x5000, 1, 0xB, 1, .u8, .rwp, [4], .span 2 255, false⟩,
  ⟨0x5001, 1, 0x0, 1, .u8, .ro, [4], .any, false⟩,
  ⟨0x5001, 1, 0x1, 1, .u8, .rw, [0], .span 0 16, false⟩,
  ⟨0x5001, 1, 0x2, 1, .u64, .rw, [0], .laterCycle, false⟩,
  ⟨0x5001, 1, 0x3, 1, .u8, .wo, [0], .span 1 2, false⟩,
  ⟨0x5001, 1, 0x4, 1, .u8, .ro, [0], .any, false⟩,
  ⟨0x5002, 1, 0x0, 1, .u8, .ro, [6], .any, false⟩,
  ⟨0x5002, 1, 0x1, 1, .octets 32, .rw, [0], .any, false⟩,
  ⟨0x5002, 1, 0x2, 1, .u8, .wo, [0], .span 1 1, false⟩,
  ⟨0x5002, 1, 0x3, 1, .u8, .ro, [0], .any, false⟩,
  ⟨0x5002, 1, 0x4, 1, .octets 17344, .ro, [0], .any, false⟩,
  ⟨0x5002, 1, 0x5, 1, .octets 32, .ro, [0], .any, false⟩,
  ⟨0x5002, 1, 0x6, 1, .octets 7888, .ro, [0], .any, false⟩,
  ⟨0x5003, 1, 0x0, 1, .u8, .ro, [6], .any, false⟩,
  ⟨0x5003, 1, 0x1, 1, .u8, .ro, [0], .any, false⟩]
/-- Object rows, part 18. -/
def objRows18 : List ObjDef := [
  ⟨0x5003, 1, 0x2, 1, .octets 7928, .wo, [0], .any, false⟩,
  ⟨0x5003, 1, 0x3, 1, .octets 32, .wo, [0], .any, false⟩,
  ⟨0x5003, 1, 0x4, 1, .u8, .rws, [0], .span 0 1, false⟩,
  ⟨0x5003, 1, 0x5, 1, .u8, .ro, [0], .any, false⟩,
  ⟨0x5003, 1, 0x6, 1, .u32, .ro, [0], .any, false⟩,
  ⟨0x5004, 1, 0x0, 1, .u8, .ro, [5], .any, false⟩,
  ⟨0x5004, 1, 0x1, 1, .u16, .ro, [0], .any, false⟩,
  ⟨0x5004, 1, 0x2, 1, .u32, .ro, [0], .any, false⟩,
  ⟨0x5004, 1, 0x3, 1, .u64, .ro, [0], .any, false⟩,
  ⟨0x5004, 1, 0x4, 1, .u8, .ro, [0], .any, false⟩,
  ⟨0x5004, 1, 0x5, 1, .u32, .ro, [0], .any, false⟩]

/-- The object table. -/
def objTable : List ObjDef := objRows0 ++ objRows1 ++ objRows2 ++ objRows3 ++ objRows4 ++ objRows5 ++ objRows6 ++ objRows7 ++ objRows8 ++ objRows9 ++ objRows10 ++ objRows11 ++ objRows12 ++ objRows13 ++ objRows14 ++ objRows15 ++ objRows16 ++ objRows17 ++ objRows18

/-- Whether the row covers sub-index `sub` of object `idx`. -/
def objCovers (o : ObjDef) (idx sub : Nat) : Bool :=
  decide (o.idx ≤ idx) && decide (idx < o.idx + o.idxN) && decide (o.sub ≤ sub) && decide (sub < o.sub + o.n)

/-- The row of a sub-index; none where it does not exist (R422, R424). -/
def objFind (idx sub : Nat) : Option ObjDef := objTable.find? (fun o => objCovers o idx sub)

/-- Whether any row names the object. -/
def objExists (idx : Nat) : Bool := objTable.any (fun o => decide (o.idx ≤ idx) && decide (idx < o.idx + o.idxN))

/-- The key of a sub-index in the object maps. -/
def objKey (idx sub : Nat) : Nat := idx * 256 + sub

/-- The default of a sub-index, from its row: one default for the run, or one for each of its sub-indices. -/
def objDefault (idx sub : Nat) : Int :=
  match objFind idx sub with
  | some o => if o.dflt.length = 1 then o.dflt.headD 0 else o.dflt.getD (sub - o.sub) 0
  | none => 0

/-- The default by key. -/
def objDefaultK (k : Nat) : Int := objDefault (k / 256) (k % 256)

end Sys2Proof.Machine
end

