-- ==== Sys2Proof/Machine/Registers.lean ====
section
/-!
DEFINITION. The control registers of every block (R24, R25, R48, R80, R82, R168, R192, R212, R238, R261, R288, R290,
R339, R341, R372, R374, R411, R413, R434, R477, R502): the offset of each from 0x22_0000_0000 (the Husk window of R22
at 0x1_0000_0000), and its row: stride, count, access code, reset value and writable bits.
-/
namespace Sys2Proof.Machine
open Sys2Proof.Config

/-- UCTL_ID. -/
def Reg.uctlId : Nat := 0x0
/-- UCTL_CTRL. -/
def Reg.uctlCtrl : Nat := 0x8
/-- UCTL_UNIT_SEL. -/
def Reg.uctlUnitSel : Nat := 0x10
/-- UCTL_UNIT_CMD. -/
def Reg.uctlUnitCmd : Nat := 0x18
/-- UCTL_UNIT_STAT. -/
def Reg.uctlUnitStat : Nat := 0x20
/-- UCTL_EVENT. -/
def Reg.uctlEvent : Nat := 0x28
/-- UCTL_CLASS_CNT. -/
def Reg.uctlClassCnt : Nat := 0x100
/-- UCTL_DISMAP. -/
def Reg.uctlDismap : Nat := 0x200
/-- UCTL_DISMAP_45. -/
def Reg.uctlDismap45 : Nat := 0x2b4
/-- PHU_CTRL. -/
def Reg.phuCtrl : Nat := 0x1000000
/-- PHU_CYCLE_DECL. -/
def Reg.phuCycleDecl : Nat := 0x1000004
/-- PHU_TOL. -/
def Reg.phuTol : Nat := 0x1000008
/-- PHU_STAT. -/
def Reg.phuStat : Nat := 0x1000010
/-- PHU_PHASE. -/
def Reg.phuPhase : Nat := 0x1000014
/-- PHU_ERR. -/
def Reg.phuErr : Nat := 0x1000018
/-- PHU_PERIOD. -/
def Reg.phuPeriod : Nat := 0x100001c
/-- PHU_EVENT. -/
def Reg.phuEvent : Nat := 0x1000020
/-- PHU_TC_CYCLE_LO. -/
def Reg.phuTcCycleLo : Nat := 0x1000040
/-- PHU_TC_CYCLE_HI. -/
def Reg.phuTcCycleHi : Nat := 0x1000044
/-- PHU_TC_DC_LO. -/
def Reg.phuTcDcLo : Nat := 0x1000048
/-- PHU_TC_DC_HI. -/
def Reg.phuTcDcHi : Nat := 0x100004c
/-- PHU_TC_GPTP_NS. -/
def Reg.phuTcGptpNs : Nat := 0x1000050
/-- PHU_TC_GPTP_S_LO. -/
def Reg.phuTcGptpSLo : Nat := 0x1000054
/-- PHU_TC_GPTP_S_HI. -/
def Reg.phuTcGptpSHi : Nat := 0x1000058
/-- PHU_TC_FLAGS. -/
def Reg.phuTcFlags : Nat := 0x100005c
/-- PHU_BAR_CTRL. -/
def Reg.phuBarCtrl : Nat := 0x1000080
/-- PHU_BAR_CYCLE_LO. -/
def Reg.phuBarCycleLo : Nat := 0x1000084
/-- PHU_BAR_CYCLE_HI. -/
def Reg.phuBarCycleHi : Nat := 0x1000088
/-- PHU_BAR_STAT. -/
def Reg.phuBarStat : Nat := 0x100008c
/-- MRW_CTRL. -/
def Reg.mrwCtrl : Nat := 0x400000
/-- MRW_CUTOFF. -/
def Reg.mrwCutoff : Nat := 0x400004
/-- MRW_LO_A. -/
def Reg.mrwLoA : Nat := 0x400008
/-- MRW_LO_B. -/
def Reg.mrwLoB : Nat := 0x40000c
/-- MRW_FINE_DIM. -/
def Reg.mrwFineDim : Nat := 0x400010
/-- MRW_COARSE_DIM. -/
def Reg.mrwCoarseDim : Nat := 0x400014
/-- MRW_Z0. -/
def Reg.mrwZ0 : Nat := 0x400018
/-- MRW_POOL_SIZE. -/
def Reg.mrwPoolSize : Nat := 0x40001c
/-- MRW_MARGIN_A. -/
def Reg.mrwMarginA : Nat := 0x400020
/-- MRW_MARGIN_B. -/
def Reg.mrwMarginB : Nat := 0x400024
/-- MRW_FF_A. -/
def Reg.mrwFfA : Nat := 0x400028
/-- MRW_FF_B. -/
def Reg.mrwFfB : Nat := 0x40002c
/-- MRW_EVENT. -/
def Reg.mrwEvent : Nat := 0x400030
/-- MRW_STREAM_CFG. -/
def Reg.mrwStreamCfg : Nat := 0x400100
/-- MRW_STREAM_LIM. -/
def Reg.mrwStreamLim : Nat := 0x400104
/-- MRW_STREAM_STAT. -/
def Reg.mrwStreamStat : Nat := 0x400108
/-- MRW_STREAM_REJ. -/
def Reg.mrwStreamRej : Nat := 0x40010c
/-- MRW_VDESC. -/
def Reg.mrwVdesc : Nat := 0x400300
/-- MRW_VERSION_LO. -/
def Reg.mrwVersionLo : Nat := 0x400304
/-- MRW_VERSION_HI. -/
def Reg.mrwVersionHi : Nat := 0x400308
/-- MRW_STAT. -/
def Reg.mrwStat : Nat := 0x40030c
/-- MRW_POOL_FREE. -/
def Reg.mrwPoolFree : Nat := 0x400310
/-- MRW_MARGIN. -/
def Reg.mrwMargin : Nat := 0x400314
/-- MRW_ORG. -/
def Reg.mrwOrg : Nat := 0x400318
/-- MRW_DIGEST. -/
def Reg.mrwDigest : Nat := 0x40031c
/-- POD_CTRL. -/
def Reg.podCtrl : Nat := 0x500000
/-- POD_MARGIN. -/
def Reg.podMargin : Nat := 0x500004
/-- POD_SOFT. -/
def Reg.podSoft : Nat := 0x500008
/-- POD_WINDOW. -/
def Reg.podWindow : Nat := 0x50000c
/-- POD_EVENT. -/
def Reg.podEvent : Nat := 0x500010
/-- POD_CYC_BATCH. -/
def Reg.podCycBatch : Nat := 0x500014
/-- POD_CYC_CLEAR. -/
def Reg.podCycClear : Nat := 0x500018
/-- POD_CYC_BLOCKED. -/
def Reg.podCycBlocked : Nat := 0x50001c
/-- POD_CYC_UNKNOWN. -/
def Reg.podCycUnknown : Nat := 0x500020
/-- POD_CYC_UTIL. -/
def Reg.podCycUtil : Nat := 0x500024
/-- POD_OVERRUN. -/
def Reg.podOverrun : Nat := 0x500028
/-- POD_STAT. -/
def Reg.podStat : Nat := 0x500100
/-- POD_STEAL. -/
def Reg.podSteal : Nat := 0x500104
/-- PEA_HIT. -/
def Reg.peaHit : Nat := 0x500108
/-- PEA_MISS. -/
def Reg.peaMiss : Nat := 0x50010c
/-- ETH_CTRL. -/
def Reg.ethCtrl : Nat := 0xd00000
/-- ETH_UDP. -/
def Reg.ethUdp : Nat := 0xd00004
/-- ETH_IPV4. -/
def Reg.ethIpv4 : Nat := 0xd00008
/-- ETH_MCAST. -/
def Reg.ethMcast : Nat := 0xd0000c
/-- ETH_OWN_ID. -/
def Reg.ethOwnId : Nat := 0xd00010
/-- ETH_PUB. -/
def Reg.ethPub : Nat := 0xd00014
/-- ETH_PEER_TIME. -/
def Reg.ethPeerTime : Nat := 0xd00018
/-- ETH_PEER_TOL. -/
def Reg.ethPeerTol : Nat := 0xd0001c
/-- ETH_CUTOFF. -/
def Reg.ethCutoff : Nat := 0xd00020
/-- ETH_CYL_Z. -/
def Reg.ethCylZ : Nat := 0xd00024
/-- ETH_SET_SIZE. -/
def Reg.ethSetSize : Nat := 0xd00028
/-- ETH_SITE_X. -/
def Reg.ethSiteX : Nat := 0xd00030
/-- ETH_SITE_Y. -/
def Reg.ethSiteY : Nat := 0xd00034
/-- ETH_SITE_Z. -/
def Reg.ethSiteZ : Nat := 0xd00038
/-- ETH_SITE_YAW. -/
def Reg.ethSiteYaw : Nat := 0xd0003c
/-- ETH_EVENT. -/
def Reg.ethEvent : Nat := 0xd00040
/-- ETH_PEER_CNT. -/
def Reg.ethPeerCnt : Nat := 0xd00044
/-- ETH_ADMIT. -/
def Reg.ethAdmit : Nat := 0xd00048
/-- ETH_SET_USE. -/
def Reg.ethSetUse : Nat := 0xd0004c
/-- ETH_RING_DROP. -/
def Reg.ethRingDrop : Nat := 0xd00050
/-- ETH_PORT_STAT. -/
def Reg.ethPortStat : Nat := 0xd00100
/-- ETH_MACSEC. -/
def Reg.ethMacsec : Nat := 0xd00104
/-- ETH_RX_CNT. -/
def Reg.ethRxCnt : Nat := 0xd00108
/-- ETH_SEC_ERR. -/
def Reg.ethSecErr : Nat := 0xd0010c
/-- ETH_OTHER. -/
def Reg.ethOther : Nat := 0xd00110
/-- ETH_SAK0. -/
def Reg.ethSak0 : Nat := 0xd00120
/-- ETH_SAK1. -/
def Reg.ethSak1 : Nat := 0xd00160
/-- RAD_CTRL. -/
def Reg.radCtrl : Nat := 0x800000
/-- RAD_INV_LAMBDA. -/
def Reg.radInvLambda : Nat := 0x800004
/-- RAD_EVENT. -/
def Reg.radEvent : Nat := 0x800008
/-- RAD_CYC_ENTRIES. -/
def Reg.radCycEntries : Nat := 0x80000c
/-- RAD_CYC_MASKED. -/
def Reg.radCycMasked : Nat := 0x800010
/-- RAD_CYC_DUP. -/
def Reg.radCycDup : Nat := 0x800014
/-- RAD_CYC_VALID. -/
def Reg.radCycValid : Nat := 0x800018
/-- RAD_CYC_TIE. -/
def Reg.radCycTie : Nat := 0x80001c
/-- RAD_WIN_ID. -/
def Reg.radWinId : Nat := 0x800020
/-- RAD_WIN_KEY. -/
def Reg.radWinKey : Nat := 0x800024
/-- RAD_CONFLICT_TOT. -/
def Reg.radConflictTot : Nat := 0x800028
/-- RAD_SCAN. -/
def Reg.radScan : Nat := 0x800100
/-- PSN_CTRL. -/
def Reg.psnCtrl : Nat := 0x700000
/-- PSN_EVENT. -/
def Reg.psnEvent : Nat := 0x700004
/-- PSN_CYC_REFINE. -/
def Reg.psnCycRefine : Nat := 0x700008
/-- PSN_CYC_FLAGS. -/
def Reg.psnCycFlags : Nat := 0x70000c
/-- PSN_CYC_ITER. -/
def Reg.psnCycIter : Nat := 0x700010
/-- PSN_EST_STAT. -/
def Reg.psnEstStat : Nat := 0x700014
/-- PSN_BG_STAT. -/
def Reg.psnBgStat : Nat := 0x700018
/-- PSN_CHK_FAIL. -/
def Reg.psnChkFail : Nat := 0x70001c
/-- PSN_DL_MISS. -/
def Reg.psnDlMiss : Nat := 0x700020
/-- PSN_UNIT. -/
def Reg.psnUnit : Nat := 0x700100
/-- COB_CTRL. -/
def Reg.cobCtrl : Nat := 0x600000
/-- COB_LEARN_W. -/
def Reg.cobLearnW : Nat := 0x600004
/-- COB_EVENT. -/
def Reg.cobEvent : Nat := 0x600008
/-- COB_CYC_TILES. -/
def Reg.cobCycTiles : Nat := 0x60000c
/-- COB_CYC_RERUN. -/
def Reg.cobCycRerun : Nat := 0x600010
/-- COB_CYC_MACS. -/
def Reg.cobCycMacs : Nat := 0x600014
/-- COB_ABFT_FAIL. -/
def Reg.cobAbftFail : Nat := 0x600018
/-- COB_DL_MISS. -/
def Reg.cobDlMiss : Nat := 0x60001c
/-- COB_SEED_STAT. -/
def Reg.cobSeedStat : Nat := 0x600020
/-- COB_UNIT. -/
def Reg.cobUnit : Nat := 0x600100
/-- ONION_CTRL. -/
def Reg.onionCtrl : Nat := 0x100000
/-- ONION_STAT. -/
def Reg.onionStat : Nat := 0x100004
/-- ONION_EVENT. -/
def Reg.onionEvent : Nat := 0x100008
/-- ONION_CYC_REL. -/
def Reg.onionCycRel : Nat := 0x10000c
/-- ONION_CYC_TASKS. -/
def Reg.onionCycTasks : Nat := 0x100010
/-- ONION_CYC_FAIL. -/
def Reg.onionCycFail : Nat := 0x100014
/-- ONION_READY_SEL. -/
def Reg.onionReadySel : Nat := 0x100018
/-- ONION_READY_STAT. -/
def Reg.onionReadyStat : Nat := 0x10001c
/-- ONION_SLOT_SEL. -/
def Reg.onionSlotSel : Nat := 0x100020
/-- ONION_SLOT_STAT. -/
def Reg.onionSlotStat : Nat := 0x100024
/-- ONION_HELD. -/
def Reg.onionHeld : Nat := 0x100028
/-- SSC_CTRL. -/
def Reg.sscCtrl : Nat := 0xb00000
/-- SSC_MT_CTRL. -/
def Reg.sscMtCtrl : Nat := 0xb00004
/-- SSC_EVENT. -/
def Reg.sscEvent : Nat := 0xb00008
/-- SSC_MT_POS. -/
def Reg.sscMtPos : Nat := 0xb00100
/-- SSC_MT_PASS. -/
def Reg.sscMtPass : Nat := 0xb00104
/-- SSC_CE. -/
def Reg.sscCe : Nat := 0xb00108
/-- SSC_UE. -/
def Reg.sscUe : Nat := 0xb0010c
/-- SSC_UE_ADDR. -/
def Reg.sscUeAddr : Nat := 0xb00110
/-- SSC_RETIRED. -/
def Reg.sscRetired : Nat := 0xb00114
/-- SSC_STALL_MAX. -/
def Reg.sscStallMax : Nat := 0xb00118
/-- SSC_SEC_STAT. -/
def Reg.sscSecStat : Nat := 0xb0011c
/-- DDR_CTRL. -/
def Reg.ddrCtrl : Nat := 0xc00000
/-- DDR_CFG. -/
def Reg.ddrCfg : Nat := 0xc00004
/-- DDR_SCRUB. -/
def Reg.ddrScrub : Nat := 0xc00008
/-- DDR_EVENT. -/
def Reg.ddrEvent : Nat := 0xc0000c
/-- DDR_CAP. -/
def Reg.ddrCap : Nat := 0xc00010
/-- DDR_STAT. -/
def Reg.ddrStat : Nat := 0xc00100
/-- DDR_CE. -/
def Reg.ddrCe : Nat := 0xc00104
/-- DDR_UE. -/
def Reg.ddrUe : Nat := 0xc00108
/-- DDR_UE_ADDR_LO. -/
def Reg.ddrUeAddrLo : Nat := 0xc0010c
/-- DDR_UE_ADDR_HI. -/
def Reg.ddrUeAddrHi : Nat := 0xc00110
/-- DDR_DRIFT. -/
def Reg.ddrDrift : Nat := 0xc00114
/-- DDR_SCRUB_POS. -/
def Reg.ddrScrubPos : Nat := 0xc00118
/-- CHD_STAT. -/
def Reg.chdStat : Nat := 0x900000
/-- CHD_CYC_CLK. -/
def Reg.chdCycClk : Nat := 0x900004
/-- CHD_AGREE. -/
def Reg.chdAgree : Nat := 0x900008
/-- CHD_DISAGREE. -/
def Reg.chdDisagree : Nat := 0x90000c
/-- CHD_MISSING. -/
def Reg.chdMissing : Nat := 0x900010
/-- CHD_WINDOW. -/
def Reg.chdWindow : Nat := 0x900014
/-- CHD_LAST_DIS. -/
def Reg.chdLastDis : Nat := 0x900018
/-- CHD_LAST_CAUSE. -/
def Reg.chdLastCause : Nat := 0x90001c
/-- CHD_UNIT. -/
def Reg.chdUnit : Nat := 0x900100
/-- HSK_PERMIT. -/
def Reg.hskPermit : Nat := 0x100000000
/-- HSK_HORIZON. -/
def Reg.hskHorizon : Nat := 0x100000004
/-- HSK_SEG_CYCLE_LO. -/
def Reg.hskSegCycleLo : Nat := 0x100000008
/-- HSK_SEG_DIGEST. -/
def Reg.hskSegDigest : Nat := 0x10000000c
/-- HSK_STOP. -/
def Reg.hskStop : Nat := 0x100000010
/-- HSK_PARAM_CRC. -/
def Reg.hskParamCrc : Nat := 0x100000014
/-- HSK_EVENT. -/
def Reg.hskEvent : Nat := 0x100000018
/-- DET_CTRL. -/
def Reg.detCtrl : Nat := 0x1100000
/-- DET_EVENT. -/
def Reg.detEvent : Nat := 0x1100004
/-- DET_SEED. -/
def Reg.detSeed : Nat := 0x1100010
/-- DET_PROV. -/
def Reg.detProv : Nat := 0x1100020
/-- DET_CHAIN. -/
def Reg.detChain : Nat := 0x1100040
/-- DET_REC_ADDR_LO. -/
def Reg.detRecAddrLo : Nat := 0x1100060
/-- DET_REC_ADDR_HI. -/
def Reg.detRecAddrHi : Nat := 0x1100064
/-- DET_REC_SIZE. -/
def Reg.detRecSize : Nat := 0x1100068
/-- DET_REC_STAT. -/
def Reg.detRecStat : Nat := 0x110006c
/-- DET_NONDET_CNT. -/
def Reg.detNondetCnt : Nat := 0x1100070
/-- ECAT_CTRL. -/
def Reg.ecatCtrl : Nat := 0xe00000
/-- ECAT_AL. -/
def Reg.ecatAl : Nat := 0xe00004
/-- ECAT_EVENT. -/
def Reg.ecatEvent : Nat := 0xe00008
/-- ECAT_RXPDO. -/
def Reg.ecatRxpdo : Nat := 0xe0000c
/-- ECAT_FSOE. -/
def Reg.ecatFsoe : Nat := 0xe00010
/-- ECAT_FOE. -/
def Reg.ecatFoe : Nat := 0xe00014
/-- ECAT_PORT. -/
def Reg.ecatPort : Nat := 0xe00100
/-- CPM_CTRL. -/
def Reg.cpmCtrl : Nat := 0xa00000
/-- CPM_CAP. -/
def Reg.cpmCap : Nat := 0xa00004
/-- CPM_GATE. -/
def Reg.cpmGate : Nat := 0xa00008
/-- CPM_STAT. -/
def Reg.cpmStat : Nat := 0xa0000c
/-- CPM_POWER. -/
def Reg.cpmPower : Nat := 0xa00010
/-- CPM_CLK_STAT. -/
def Reg.cpmClkStat : Nat := 0xa00014
/-- CPM_RST_CAUSE. -/
def Reg.cpmRstCause : Nat := 0xa00018
/-- CPM_BOOT. -/
def Reg.cpmBoot : Nat := 0xa0001c
/-- CPM_EVENT. -/
def Reg.cpmEvent : Nat := 0xa00020
/-- CPM_DVFS_CNT. -/
def Reg.cpmDvfsCnt : Nat := 0xa00024
/-- SVC_CTRL. -/
def Reg.svcCtrl : Nat := 0x1300000
/-- SVC_EVENT. -/
def Reg.svcEvent : Nat := 0x1300004
/-- SVC_SEQ. -/
def Reg.svcSeq : Nat := 0x1300008
/-- SVC_TRACE_LO. -/
def Reg.svcTraceLo : Nat := 0x130000c
/-- SVC_TRACE_HI. -/
def Reg.svcTraceHi : Nat := 0x1300010
/-- SVC_FW. -/
def Reg.svcFw : Nat := 0x1300014
/-- SVC_LC. -/
def Reg.svcLc : Nat := 0x1300018
/-- SVC_BBOX. -/
def Reg.svcBbox : Nat := 0x130001c
/-- CSI_CTRL. -/
def Reg.csiCtrl : Nat := 0xf00000
/-- CSI_RATE. -/
def Reg.csiRate : Nat := 0xf00004
/-- CSI_STAT. -/
def Reg.csiStat : Nat := 0xf00008
/-- CSI_ERR. -/
def Reg.csiErr : Nat := 0xf0000c
/-- QMGR_CTRL. -/
def Reg.qmgrCtrl : Nat := 0x200000
/-- QMGR_QTAB_LO. -/
def Reg.qmgrQtabLo : Nat := 0x200008
/-- QMGR_QTAB_HI. -/
def Reg.qmgrQtabHi : Nat := 0x20000c
/-- QMGR_EVENT. -/
def Reg.qmgrEvent : Nat := 0x200010
/-- QMGR_QSEL. -/
def Reg.qmgrQsel : Nat := 0x200014
/-- QMGR_QSTAT. -/
def Reg.qmgrQstat : Nat := 0x200018
/-- QMGR_CYC_PUSH. -/
def Reg.qmgrCycPush : Nat := 0x20001c
/-- QMGR_CYC_STALL. -/
def Reg.qmgrCycStall : Nat := 0x200020
/-- QMGR_CACHE. -/
def Reg.qmgrCache : Nat := 0x200024
/-- HSH_STAT. -/
def Reg.hshStat : Nat := 0x1200000

/-- Register rows, part 0. -/
def regRows0 : List RegDef := [
  ⟨Reg.uctlId, 0, 1, .ro, 0x0, 0x0⟩,
  ⟨Reg.uctlCtrl, 0, 1, .rwl, 0x1, 0x1⟩,
  ⟨Reg.uctlUnitSel, 0, 1, .rw, 0x0, 0xffff⟩,
  ⟨Reg.uctlUnitCmd, 0, 1, .wo, 0x0, 0x0⟩,
  ⟨Reg.uctlUnitStat, 0, 1, .ro, 0xffff0000, 0x0⟩,
  ⟨Reg.uctlEvent, 0, 1, .w1c, 0x0, 0x3⟩,
  ⟨Reg.uctlClassCnt, 4, 17, .ro, 0x0, 0x0⟩,
  ⟨Reg.uctlDismap, 4, 45, .ro, 0xffffffff, 0x0⟩,
  ⟨Reg.uctlDismap45, 0, 1, .ro, 0x1fffffff, 0x0⟩,
  ⟨Reg.phuCtrl, 0, 1, .rwl, 0x0, 0x3⟩,
  ⟨Reg.phuCycleDecl, 0, 1, .rwl, 0xf4240, 0xffffffff⟩,
  ⟨Reg.phuTol, 0, 1, .rwl, 0x4000040, 0xffffffff⟩,
  ⟨Reg.phuStat, 0, 1, .ro, 0x0, 0x0⟩,
  ⟨Reg.phuPhase, 0, 1, .ro, 0x0, 0x0⟩,
  ⟨Reg.phuErr, 0, 1, .ro, 0x0, 0x0⟩,
  ⟨Reg.phuPeriod, 0, 1, .ro, 0x0, 0x0⟩,
  ⟨Reg.phuEvent, 0, 1, .w1c, 0x0, 0x1ff⟩,
  ⟨Reg.phuTcCycleLo, 0, 1, .ro, 0x0, 0x0⟩,
  ⟨Reg.phuTcCycleHi, 0, 1, .ro, 0x0, 0x0⟩,
  ⟨Reg.phuTcDcLo, 0, 1, .ro, 0x0, 0x0⟩,
  ⟨Reg.phuTcDcHi, 0, 1, .ro, 0x0, 0x0⟩,
  ⟨Reg.phuTcGptpNs, 0, 1, .ro, 0x0, 0x0⟩,
  ⟨Reg.phuTcGptpSLo, 0, 1, .ro, 0x0, 0x0⟩,
  ⟨Reg.phuTcGptpSHi, 0, 1, .ro, 0x0, 0x0⟩]
/-- Register rows, part 1. -/
def regRows1 : List RegDef := [
  ⟨Reg.phuTcFlags, 0, 1, .ro, 0x0, 0x0⟩,
  ⟨Reg.phuBarCtrl, 0, 1, .rwl, 0x5a000, 0xfff331⟩,
  ⟨Reg.phuBarCycleLo, 0, 1, .rwl, 0x0, 0xffffffff⟩,
  ⟨Reg.phuBarCycleHi, 0, 1, .rwl, 0x0, 0xffffffff⟩,
  ⟨Reg.phuBarStat, 0, 1, .ro, 0x0, 0x0⟩,
  ⟨Reg.mrwCtrl, 0, 1, .rwl, 0xc, 0xf⟩,
  ⟨Reg.mrwCutoff, 0, 1, .rwl, 0xe666, 0xffff⟩,
  ⟨Reg.mrwLoA, 0, 1, .rwl, 0xefb0800, 0xffffff00⟩,
  ⟨Reg.mrwLoB, 0, 1, .rwl, 0x70ec0000, 0xffff0000⟩,
  ⟨Reg.mrwFineDim, 0, 1, .rwl, 0x361ac6b, 0x3fffffff⟩,
  ⟨Reg.mrwCoarseDim, 0, 1, .rwl, 0x1129ca7, 0x3fffffff⟩,
  ⟨Reg.mrwZ0, 0, 1, .rwl, 0x0, 0xffffffff⟩,
  ⟨Reg.mrwPoolSize, 0, 1, .rwl, 0x80000, 0xffffffff⟩,
  ⟨Reg.mrwMarginA, 0, 1, .rwl, 0x6401f4, 0xffffffff⟩,
  ⟨Reg.mrwMarginB, 0, 1, .rwl, 0x5dc4e20, 0xffffffff⟩,
  ⟨Reg.mrwFfA, 0, 1, .rwl, 0xa0a0040, 0xffffffff⟩,
  ⟨Reg.mrwFfB, 0, 1, .rwl, 0x8030014, 0xffffffff⟩,
  ⟨Reg.mrwEvent, 0, 1, .w1c, 0x0, 0x7ff⟩,
  ⟨Reg.mrwStreamCfg, 16, 32, .rwl, 0x1000, 0xffe3ffff⟩,
  ⟨Reg.mrwStreamLim, 16, 32, .rwl, 0x643232, 0xffffffff⟩,
  ⟨Reg.mrwStreamStat, 16, 32, .ro, 0x0, 0x0⟩,
  ⟨Reg.mrwStreamRej, 16, 32, .ro, 0x0, 0x0⟩,
  ⟨Reg.mrwVdesc, 32, 2, .ro, 0x0, 0x0⟩,
  ⟨Reg.mrwVersionLo, 32, 2, .ro, 0x0, 0x0⟩]
/-- Register rows, part 2. -/
def regRows2 : List RegDef := [
  ⟨Reg.mrwVersionHi, 32, 2, .ro, 0x0, 0x0⟩,
  ⟨Reg.mrwStat, 32, 2, .ro, 0x0, 0x0⟩,
  ⟨Reg.mrwPoolFree, 32, 2, .ro, 0x0, 0x0⟩,
  ⟨Reg.mrwMargin, 32, 2, .ro, 0x0, 0x0⟩,
  ⟨Reg.mrwOrg, 32, 2, .ro, 0x0, 0x0⟩,
  ⟨Reg.mrwDigest, 32, 2, .ro, 0x0, 0x0⟩,
  ⟨Reg.podCtrl, 0, 1, .rwl, 0xc, 0xe⟩,
  ⟨Reg.podMargin, 0, 1, .rwl, 0x32000a, 0xffffffff⟩,
  ⟨Reg.podSoft, 0, 1, .rwl, 0xc8, 0xffff⟩,
  ⟨Reg.podWindow, 0, 1, .ro, 0x0, 0x0⟩,
  ⟨Reg.podEvent, 0, 1, .w1c, 0x0, 0x3f⟩,
  ⟨Reg.podCycBatch, 0, 1, .ro, 0x0, 0x0⟩,
  ⟨Reg.podCycClear, 0, 1, .ro, 0x0, 0x0⟩,
  ⟨Reg.podCycBlocked, 0, 1, .ro, 0x0, 0x0⟩,
  ⟨Reg.podCycUnknown, 0, 1, .ro, 0x0, 0x0⟩,
  ⟨Reg.podCycUtil, 0, 1, .ro, 0x0, 0x0⟩,
  ⟨Reg.podOverrun, 0, 1, .ro, 0x0, 0x0⟩,
  ⟨Reg.podStat, 16, 64, .ro, 0x0, 0x0⟩,
  ⟨Reg.podSteal, 16, 64, .ro, 0x0, 0x0⟩,
  ⟨Reg.peaHit, 16, 64, .ro, 0x0, 0x0⟩,
  ⟨Reg.peaMiss, 16, 64, .ro, 0x0, 0x0⟩,
  ⟨Reg.ethCtrl, 0, 1, .rwl, 0xd0, 0xf3⟩,
  ⟨Reg.ethUdp, 0, 1, .rwl, 0xb86ab874, 0xffffffff⟩,
  ⟨Reg.ethIpv4, 0, 1, .rwl, 0x0, 0xffffffff⟩]
/-- Register rows, part 3. -/
def regRows3 : List RegDef := [
  ⟨Reg.ethMcast, 0, 1, .rwl, 0xef480a01, 0xffffffff⟩,
  ⟨Reg.ethOwnId, 0, 1, .rwl, 0x0, 0xffffffff⟩,
  ⟨Reg.ethPub, 0, 1, .rwl, 0x50a, 0x7ff⟩,
  ⟨Reg.ethPeerTime, 0, 1, .rwl, 0x7d02710, 0xffffffff⟩,
  ⟨Reg.ethPeerTol, 0, 1, .rwl, 0x3e803e8, 0xffffffff⟩,
  ⟨Reg.ethCutoff, 0, 1, .rwl, 0xe666, 0xffff⟩,
  ⟨Reg.ethCylZ, 0, 1, .rwl, 0x1388fc18, 0xffffffff⟩,
  ⟨Reg.ethSetSize, 0, 1, .rwl, 0x1000, 0xffff⟩,
  ⟨Reg.ethSiteX, 0, 1, .rwl, 0x0, 0xffffffff⟩,
  ⟨Reg.ethSiteY, 0, 1, .rwl, 0x0, 0xffffffff⟩,
  ⟨Reg.ethSiteZ, 0, 1, .rwl, 0x0, 0xffffffff⟩,
  ⟨Reg.ethSiteYaw, 0, 1, .rwl, 0x0, 0xffffffff⟩,
  ⟨Reg.ethEvent, 0, 1, .w1c, 0x0, 0xff⟩,
  ⟨Reg.ethPeerCnt, 0, 1, .ro, 0x0, 0x0⟩,
  ⟨Reg.ethAdmit, 0, 1, .ro, 0x0, 0x0⟩,
  ⟨Reg.ethSetUse, 0, 1, .ro, 0x0, 0x0⟩,
  ⟨Reg.ethRingDrop, 0, 1, .ro, 0x0, 0x0⟩,
  ⟨Reg.ethPortStat, 64, 2, .ro, 0x0, 0x0⟩,
  ⟨Reg.ethMacsec, 64, 2, .rwl, 0x8, 0xffff003f⟩,
  ⟨Reg.ethRxCnt, 64, 2, .ro, 0x0, 0x0⟩,
  ⟨Reg.ethSecErr, 64, 2, .ro, 0x0, 0x0⟩,
  ⟨Reg.ethOther, 64, 2, .ro, 0x0, 0x0⟩,
  ⟨Reg.ethSak0, 4, 8, .wo, 0x0, 0x0⟩,
  ⟨Reg.ethSak1, 4, 8, .wo, 0x0, 0x0⟩]
/-- Register rows, part 4. -/
def regRows4 : List RegDef := [
  ⟨Reg.radCtrl, 0, 1, .rwl, 0x1, 0x1⟩,
  ⟨Reg.radInvLambda, 0, 1, .rwl, 0x41800000, 0xffffffff⟩,
  ⟨Reg.radEvent, 0, 1, .w1c, 0x0, 0x1f⟩,
  ⟨Reg.radCycEntries, 0, 1, .ro, 0x0, 0x0⟩,
  ⟨Reg.radCycMasked, 0, 1, .ro, 0x0, 0x0⟩,
  ⟨Reg.radCycDup, 0, 1, .ro, 0x0, 0x0⟩,
  ⟨Reg.radCycValid, 0, 1, .ro, 0x0, 0x0⟩,
  ⟨Reg.radCycTie, 0, 1, .ro, 0x0, 0x0⟩,
  ⟨Reg.radWinId, 0, 1, .ro, 0xffffffff, 0x0⟩,
  ⟨Reg.radWinKey, 0, 1, .ro, 0x7fc00000, 0x0⟩,
  ⟨Reg.radConflictTot, 0, 1, .ro, 0x0, 0x0⟩,
  ⟨Reg.radScan, 4, 10, .ro, 0x0, 0x0⟩,
  ⟨Reg.psnCtrl, 0, 1, .rwl, 0x3, 0x3⟩,
  ⟨Reg.psnEvent, 0, 1, .w1c, 0x0, 0xff⟩,
  ⟨Reg.psnCycRefine, 0, 1, .ro, 0x0, 0x0⟩,
  ⟨Reg.psnCycFlags, 0, 1, .ro, 0x0, 0x0⟩,
  ⟨Reg.psnCycIter, 0, 1, .ro, 0x0, 0x0⟩,
  ⟨Reg.psnEstStat, 0, 1, .ro, 0xff, 0x0⟩,
  ⟨Reg.psnBgStat, 0, 1, .ro, 0xff, 0x0⟩,
  ⟨Reg.psnChkFail, 0, 1, .ro, 0x0, 0x0⟩,
  ⟨Reg.psnDlMiss, 0, 1, .ro, 0x0, 0x0⟩,
  ⟨Reg.psnUnit, 4, 18, .ro, 0x0, 0x0⟩,
  ⟨Reg.cobCtrl, 0, 1, .rwl, 0x1, 0x3⟩,
  ⟨Reg.cobLearnW, 0, 1, .rwl, 0x3f800000, 0xffffffff⟩]
/-- Register rows, part 5. -/
def regRows5 : List RegDef := [
  ⟨Reg.cobEvent, 0, 1, .w1c, 0x0, 0x1ff⟩,
  ⟨Reg.cobCycTiles, 0, 1, .ro, 0x0, 0x0⟩,
  ⟨Reg.cobCycRerun, 0, 1, .ro, 0x0, 0x0⟩,
  ⟨Reg.cobCycMacs, 0, 1, .ro, 0x0, 0x0⟩,
  ⟨Reg.cobAbftFail, 0, 1, .ro, 0x0, 0x0⟩,
  ⟨Reg.cobDlMiss, 0, 1, .ro, 0x0, 0x0⟩,
  ⟨Reg.cobSeedStat, 0, 1, .ro, 0x0, 0x0⟩,
  ⟨Reg.cobUnit, 4, 136, .ro, 0x0, 0x0⟩,
  ⟨Reg.onionCtrl, 65536, 2, .rwl, 0x3, 0x3⟩,
  ⟨Reg.onionStat, 65536, 2, .ro, 0x0, 0x0⟩,
  ⟨Reg.onionEvent, 65536, 2, .w1c, 0x0, 0xff⟩,
  ⟨Reg.onionCycRel, 65536, 2, .ro, 0x0, 0x0⟩,
  ⟨Reg.onionCycTasks, 65536, 2, .ro, 0x0, 0x0⟩,
  ⟨Reg.onionCycFail, 65536, 2, .ro, 0x0, 0x0⟩,
  ⟨Reg.onionReadySel, 65536, 2, .rw, 0x0, 0x1f03⟩,
  ⟨Reg.onionReadyStat, 65536, 2, .ro, 0x0, 0x0⟩,
  ⟨Reg.onionSlotSel, 65536, 2, .rw, 0x0, 0xffff⟩,
  ⟨Reg.onionSlotStat, 65536, 2, .ro, 0x0, 0x0⟩,
  ⟨Reg.onionHeld, 65536, 2, .ro, 0x0, 0x0⟩,
  ⟨Reg.sscCtrl, 0, 1, .rwl, 0x1001, 0xff01⟩,
  ⟨Reg.sscMtCtrl, 0, 1, .rwl, 0x48, 0x7f⟩,
  ⟨Reg.sscEvent, 0, 1, .w1c, 0x0, 0x7ff⟩,
  ⟨Reg.sscMtPos, 64, 2, .ro, 0x0, 0x0⟩,
  ⟨Reg.sscMtPass, 64, 2, .ro, 0x0, 0x0⟩]
/-- Register rows, part 6. -/
def regRows6 : List RegDef := [
  ⟨Reg.sscCe, 64, 2, .ro, 0x0, 0x0⟩,
  ⟨Reg.sscUe, 64, 2, .ro, 0x0, 0x0⟩,
  ⟨Reg.sscUeAddr, 64, 2, .ro, 0x0, 0x0⟩,
  ⟨Reg.sscRetired, 64, 2, .ro, 0x0, 0x0⟩,
  ⟨Reg.sscStallMax, 64, 2, .ro, 0x0, 0x0⟩,
  ⟨Reg.sscSecStat, 64, 2, .ro, 0x0, 0x0⟩,
  ⟨Reg.ddrCtrl, 0, 1, .rwl, 0x7, 0x7⟩,
  ⟨Reg.ddrCfg, 0, 1, .rwl, 0x210, 0xff1⟩,
  ⟨Reg.ddrScrub, 0, 1, .rwl, 0x586, 0xffff⟩,
  ⟨Reg.ddrEvent, 0, 1, .w1c, 0x0, 0xf⟩,
  ⟨Reg.ddrCap, 0, 1, .ro, 0x0, 0x0⟩,
  ⟨Reg.ddrStat, 64, 4, .ro, 0x0, 0x0⟩,
  ⟨Reg.ddrCe, 64, 4, .ro, 0x0, 0x0⟩,
  ⟨Reg.ddrUe, 64, 4, .ro, 0x0, 0x0⟩,
  ⟨Reg.ddrUeAddrLo, 64, 4, .ro, 0x0, 0x0⟩,
  ⟨Reg.ddrUeAddrHi, 64, 4, .ro, 0x0, 0x0⟩,
  ⟨Reg.ddrDrift, 64, 4, .ro, 0x0, 0x0⟩,
  ⟨Reg.ddrScrubPos, 64, 4, .ro, 0x0, 0x0⟩,
  ⟨Reg.chdStat, 0, 1, .ro, 0xc0, 0x0⟩,
  ⟨Reg.chdCycClk, 0, 1, .ro, 0x0, 0x0⟩,
  ⟨Reg.chdAgree, 0, 1, .ro, 0x0, 0x0⟩,
  ⟨Reg.chdDisagree, 0, 1, .ro, 0x0, 0x0⟩,
  ⟨Reg.chdMissing, 0, 1, .ro, 0x0, 0x0⟩,
  ⟨Reg.chdWindow, 0, 1, .ro, 0x0, 0x0⟩]
/-- Register rows, part 7. -/
def regRows7 : List RegDef := [
  ⟨Reg.chdLastDis, 0, 1, .ro, 0x0, 0x0⟩,
  ⟨Reg.chdLastCause, 0, 1, .ro, 0xffff0000, 0x0⟩,
  ⟨Reg.chdUnit, 4, 6, .ro, 0x0, 0x0⟩,
  ⟨Reg.hskPermit, 0, 1, .ro, 0x0, 0x0⟩,
  ⟨Reg.hskHorizon, 0, 1, .ro, 0x0, 0x0⟩,
  ⟨Reg.hskSegCycleLo, 0, 1, .ro, 0x0, 0x0⟩,
  ⟨Reg.hskSegDigest, 0, 1, .ro, 0x0, 0x0⟩,
  ⟨Reg.hskStop, 0, 1, .wo, 0x0, 0x0⟩,
  ⟨Reg.hskParamCrc, 0, 1, .ro, 0x0, 0x0⟩,
  ⟨Reg.hskEvent, 0, 1, .w1c, 0x0, 0x3ff⟩,
  ⟨Reg.detCtrl, 0, 1, .rwl, 0x0, 0xf⟩,
  ⟨Reg.detEvent, 0, 1, .w1c, 0x0, 0x1f⟩,
  ⟨Reg.detSeed, 4, 4, .ro, 0x0, 0x0⟩,
  ⟨Reg.detProv, 4, 8, .ro, 0x0, 0x0⟩,
  ⟨Reg.detChain, 4, 8, .ro, 0x0, 0x0⟩,
  ⟨Reg.detRecAddrLo, 0, 1, .rwl, 0x0, 0xffffffff⟩,
  ⟨Reg.detRecAddrHi, 0, 1, .rwl, 0x0, 0xffffffff⟩,
  ⟨Reg.detRecSize, 0, 1, .rwl, 0x2800, 0xffffffff⟩,
  ⟨Reg.detRecStat, 0, 1, .ro, 0x0, 0x0⟩,
  ⟨Reg.detNondetCnt, 0, 1, .ro, 0x0, 0x0⟩,
  ⟨Reg.ecatCtrl, 0, 1, .rwl, 0x301, 0xff01⟩,
  ⟨Reg.ecatAl, 0, 1, .ro, 0x1, 0x0⟩,
  ⟨Reg.ecatEvent, 0, 1, .w1c, 0x0, 0x3ff⟩,
  ⟨Reg.ecatRxpdo, 0, 1, .ro, 0x0, 0x0⟩]
/-- Register rows, part 8. -/
def regRows8 : List RegDef := [
  ⟨Reg.ecatFsoe, 0, 1, .ro, 0x0, 0x0⟩,
  ⟨Reg.ecatFoe, 0, 1, .ro, 0x0, 0x0⟩,
  ⟨Reg.ecatPort, 64, 2, .ro, 0x0, 0x0⟩,
  ⟨Reg.cpmCtrl, 0, 1, .rwl, 0x0, 0x303⟩,
  ⟨Reg.cpmCap, 0, 1, .rwl, 0x226, 0xffff⟩,
  ⟨Reg.cpmGate, 0, 1, .rwl, 0x0, 0x3fff⟩,
  ⟨Reg.cpmStat, 0, 1, .ro, 0x0, 0x0⟩,
  ⟨Reg.cpmPower, 0, 1, .ro, 0x0, 0x0⟩,
  ⟨Reg.cpmClkStat, 0, 1, .ro, 0x0, 0x0⟩,
  ⟨Reg.cpmRstCause, 0, 1, .ro, 0x0, 0x0⟩,
  ⟨Reg.cpmBoot, 0, 1, .ro, 0x0, 0x0⟩,
  ⟨Reg.cpmEvent, 0, 1, .w1c, 0x0, 0xff⟩,
  ⟨Reg.cpmDvfsCnt, 0, 1, .ro, 0x0, 0x0⟩,
  ⟨Reg.svcCtrl, 0, 1, .rwl, 0x4, 0xff⟩,
  ⟨Reg.svcEvent, 0, 1, .w1c, 0x0, 0x3fff⟩,
  ⟨Reg.svcSeq, 0, 1, .ro, 0x0, 0x0⟩,
  ⟨Reg.svcTraceLo, 0, 1, .rw, 0x0, 0xffffffff⟩,
  ⟨Reg.svcTraceHi, 0, 1, .rw, 0x0, 0xffffffff⟩,
  ⟨Reg.svcFw, 0, 1, .ro, 0x0, 0x0⟩,
  ⟨Reg.svcLc, 0, 1, .ro, 0x0, 0x0⟩,
  ⟨Reg.svcBbox, 0, 1, .ro, 0x0, 0x0⟩,
  ⟨Reg.csiCtrl, 256, 8, .rwl, 0x4, 0x7⟩,
  ⟨Reg.csiRate, 256, 8, .rwl, 0x1194, 0x1fff⟩,
  ⟨Reg.csiStat, 256, 8, .ro, 0x0, 0x0⟩]
/-- Register rows, part 9. -/
def regRows9 : List RegDef := [
  ⟨Reg.csiErr, 256, 8, .ro, 0x0, 0x0⟩,
  ⟨Reg.qmgrCtrl, 0, 1, .rwl, 0x400, 0xffff⟩,
  ⟨Reg.qmgrQtabLo, 0, 1, .rwl, 0x0, 0xfff00000⟩,
  ⟨Reg.qmgrQtabHi, 0, 1, .rwl, 0x0, 0xff⟩,
  ⟨Reg.qmgrEvent, 0, 1, .w1c, 0x0, 0x3⟩,
  ⟨Reg.qmgrQsel, 0, 1, .rw, 0x0, 0xfffff⟩,
  ⟨Reg.qmgrQstat, 0, 1, .ro, 0x0, 0x0⟩,
  ⟨Reg.qmgrCycPush, 0, 1, .ro, 0x0, 0x0⟩,
  ⟨Reg.qmgrCycStall, 0, 1, .ro, 0x0, 0x0⟩,
  ⟨Reg.qmgrCache, 0, 1, .ro, 0x0, 0x0⟩,
  ⟨Reg.hshStat, 4, 4, .ro, 0x0, 0x0⟩]

/-- The register table. -/
def regTable : List RegDef := regRows0 ++ regRows1 ++ regRows2 ++ regRows3 ++ regRows4 ++ regRows5 ++ regRows6 ++ regRows7 ++ regRows8 ++ regRows9

/-- Whether the row covers offset `off`. -/
def regCovers (r : RegDef) (off : Nat) : Bool :=
  if r.count = 1 then off == r.off
  else decide (r.off ≤ off) && decide ((off - r.off) % r.stride = 0) && decide ((off - r.off) / r.stride < r.count)

/-- The row of the register at offset `off`; none where no block defines the offset (R24). -/
def regFind (off : Nat) : Option RegDef := regTable.find? (fun r => regCovers r off)

/-- The reset value of the register at `off`. -/
def regReset (off : Nat) : BitVec 32 :=
  match regFind off with
  | some r => BitVec.ofNat 32 r.reset
  | none => 0

end Sys2Proof.Machine
end

