-- ==== Sys2Proof/Machine/State.lean ====
section
/-!
DEFINITION. The state of the ZP7240: every piece of state the specification gives the device, block by block, and the
state right after reset.
-/
namespace Sys2Proof.Machine

/-! ### Outcomes -/

/-- Why the machine stops. No meaning of this model ends in a fault on a well-formed command. -/
inductive Fault where
  /-- Raised by `Machine.step` on a command whose operands no sender can form (`Instr.wf` fails): a byte string of the
  wrong length, a number outside its field. Safe: the hardware never meets such a command. -/
  | illFormed
  deriving DecidableEq, Repr

/-- Why a command has no meaning. -/
inductive Refusal where
  /-- Raised by an arm of `Machine.exec` for a command this model gives no meaning yet. Safe. -/
  | notModelled (mnemonic : String)
  deriving DecidableEq, Repr

/-- The answer that the last command gave to its sender: the data or refusal of a bus access (R22, R23), of an SDO or
driver access (R312, R422), of a queue operation (R282), of a FoE packet (R431), of a JTAG instruction (R453). -/
inductive Resp where
  | none
  | busData (v : Nat)
  | busOk
  | busError
  | sdoData (b : Bytes)
  | sdoOk
  | sdoAbort (code : Nat)
  | noMailbox
  | drv (code : Int) (data : Bytes)
  | foeAck
  | foeError (code : Nat)
  | foeData (b : Bytes)
  | jtag (v : Nat)
  | entry (b : Bytes)
  | empty
  | infoList (l : List Nat)
  deriving DecidableEq, Repr

/-! ### Event record (R483) -/

/-- One event record. -/
structure EvRec where
  cycle : Nat
  phase : Nat
  unit : Nat
  code : Nat
  d0 : Nat
  d1 : Nat
  d2 : Nat
  d3 : Nat
  seq : Nat
  deriving DecidableEq, Repr

/-- One black-box entry (R495): number, type, cycle, the two bodies, chain and tag. -/
structure BoxEntry where
  bseq : Nat
  btype : Nat
  cycle : Nat
  body1 : Bytes
  body2 : Bytes
  chain : Bytes
  tag : Bytes
  deriving DecidableEq, Repr

/-! ### Tasks (R264) -/

/-- A task descriptor of R264, decoded; `resvBad` says that a reserved field is not 0. -/
structure Desc where
  opId : Nat
  cls : Nat
  suspend : Bool
  rerunEn : Bool
  stackSel : Nat
  crit : Nat
  taskId : Nat
  param : Nat
  doneCtr : Nat
  failCtr : Nat
  outQueue : Nat
  startBy : Nat
  endBy : Nat
  endCyc : Nat
  budget : Nat
  arg0 : Nat
  arg1 : Nat
  resvBad : Bool
  deriving DecidableEq, Repr

/-- A released task: its descriptor copy, the number of its release, its release cycle (R273), the stack it was
released to, the copy of the parameter section it uses (R308), its run state (R279, R283), the counter that released it,
the world version, model generation and weight generation current at its release (R75, R105, R254), the invocation of its model (R255),
and the result slot of its warm start that was valid at its release, 0 for none (R228). -/
structure Task where
  desc : Desc
  rid : Nat
  cycle : Nat
  stack : Nat
  byHusk : Bool
  pcopy : Nat
  rerun : Bool
  excl : Option Nat
  began : Bool
  startCycle : Nat
  startPhase : Nat
  lateChecked : Bool
  resumed : Bool
  ueRegion : Option Nat
  ctr : Nat
  ver : Nat
  gen : Nat
  wgen : Nat
  inv : Nat
  warm : Nat
  deriving DecidableEq, Repr

/-! ### One clk -/

/-- What acts at most once in a clk: the PHU's issue of up to 8 gates (R39), a release engine (R273), a unit's claim (R277), a
steal port (R159). -/
inductive ClkAct where
  | gates
  | engine (k : Nat)
  | claim (u : Nat)
  | steal (v : Nat)
  deriving DecidableEq, Repr

/-- What the cluster's accesses of one clk have made of a bank (R318, R320): the bank, 512 × stack + bank, the word in it, the cores, and the
64 bytes from before a write of this clk. -/
structure BankUse where
  bank : Nat
  word : Nat
  cores : List Nat
  before : Option Bytes
  deriving DecidableEq, Repr

/-- What the commands of the present clk have done that a later one of the same clk must know: the tick of that clk, the bits that
events set in W1C registers in it (R7), the decrements that each counter has applied (R268), the words that those counters
held before them (R291), the counters that have released (R269), what has acted that acts once, and the banks that the cluster has used.
Commands between which no time passes act in one clk. -/
structure ClkSt where
  tick : Nat
  w1c : Smap Nat
  dec : Smap Nat
  words : List (Nat × Nat)
  rel : List Nat
  acts : List ClkAct
  banks : List BankUse
  deriving DecidableEq, Repr

/-- A clk in which nothing has happened. -/
def ClkSt.none : ClkSt := { tick := 0, w1c := [], dec := [], words := [], rel := [], acts := [], banks := [] }

/-! ### Units (R12) -/

/-- The unit states of R12. -/
inductive UState where
  | offline | test | active | draining | spare | retired
  deriving DecidableEq, Repr

/-- A physical unit: its state and ENABLE_PENDING (R12), the substitute that R16 moved (R29), its two task slots
(R277), its window of counted fault cycles (R380), strikes (R381), the cycle of its last counted fault, golden
deferrals (R391), last TEST (R388, 0x4101), a retirement that waits for its boundary with its reason (R381), the last
golden outcome (R392), a strike of R383 that waits for its drain, whether a lasting fault waits for the boundary, and the batch whose probes a
Pea, Leek or brick cache held in execution as it began to drain, by evaluation and number (R14). -/
structure UnitRec where
  st : UState
  ep : Bool
  subst : Nat
  exec : Option Task
  pref : Option Task
  faults : List Nat
  strikes : Nat
  lastFault : Nat
  goldDefer : Nat
  lastTest : Nat
  lastResult : Nat
  retireFor : Nat
  goldBad : Bool
  strikeDue : Bool
  actDue : Bool
  drain : Option (Nat × Nat)
  deriving DecidableEq, Repr

/-- A unit that holds nothing and is OFFLINE (R13). Log entry 7 (DESIGN CHOICE, unsafe). -/
def UnitRec.off : UnitRec :=
  { st := .offline, ep := false, subst := 0xFFFF, exec := none, pref := none, faults := [], strikes := 0,
    lastFault := 0, goldDefer := 0, lastTest := 0, lastResult := 0, retireFor := 0, goldBad := false,
    strikeDue := false, actDue := false, drain := none }

/-! ### Phase unit (R31 to R50) -/

/-- The phase-unit states of R36. -/
inductive PhuSt where
  | off | acquire | track | locked | miss | coast | lost
  deriving DecidableEq, Repr

/-- Barrier stages of R45. -/
inductive BarSt where
  | idle | ready | released
  deriving DecidableEq, Repr

/-- The time-correspondence registers of R43. -/
structure Tc where
  cycle : Nat
  dc : Nat
  gptpS : Nat
  gptpNs : Nat
  dcValid : Bool
  gptpValid : Bool
  deriving DecidableEq, Repr

/-- The phase unit: state, accumulator in 2^-32 pu (R33), increment, average period in ticks, whether an increment is
held, the tick of the last accepted edge, the last in-range period of ACQUIRE, the window whose edge is taken, the
boundaries so far, the capture ticks of the edges that wait for an alignment (R40), the cycle number that a release loads (R45), the counts of R37, the cycle and phase at which MISS and COAST were entered, edges since ACQUIRE, the phase
error at the last edge, the boundary that is due, whether this is the clk of a boundary, a hard alignment in progress with its tick, cycle number and phase
status (R36, R40), the last publication's status (R50), the time correspondence and its frozen copy (R43), and the
barrier (R45): its stage, the two balls, the ticks of a launch and of a fall that waits, the launch whose return is still to be measured
and the deviation last measured. -/
structure Phu where
  st : PhuSt
  src : Nat
  acc : Nat
  inc : Nat
  pAvg : Nat
  held : Bool
  lastEdge : Option Nat
  lastPeriod : Nat
  inRange : Bool
  usedWin : Option Nat
  bcount : Nat
  waitEdge : List Nat
  cycleLoad : Option Nat
  inTol : Nat
  outTol : Nat
  missCycle : Nat
  coastCycle : Nat
  edges : Nat
  err : Int
  boundaryDue : Bool
  atBound : Bool
  aligning : Option Nat
  everTracked : Bool
  cycle : Nat
  status : Nat
  pubStatus : Nat
  gatesDone : Nat
  gateQ : List (Nat × Nat)
  tc : Tc
  tcFrozen : Option Tc
  gptpS : Nat
  gptpNs : Nat
  bar : BarSt
  stepIn : Bool
  stepOut : Bool
  launchTick : Option Nat
  fallTick : Option Nat
  returnFrom : Option Nat
  returnDev : Int
  deriving DecidableEq, Repr

/-! ### Scheduling (R264 to R292) -/

/-- A decrement that waits in an Onion's input buffer (R268): counter, source unit (0xFFFF for a gate) and stamp. -/
structure Decr where
  ctr : Nat
  src : Nat
  stamp : Nat
  deriving DecidableEq, Repr

/-- A release that waits for its engine (R273): the counter, its release cycle and tick, what is current at the release for its tasks (world
version, model and weight generations, parameter copy), the copy of its descriptors, and how many an engine has placed. -/
structure Release where
  ctr : Nat
  cycle : Nat
  tick : Nat
  ver : Nat
  gen : Nat
  wgen : Nat
  pcopy : Nat
  stack : Nat
  level : Nat
  next : Nat
  descs : List Desc
  deriving DecidableEq, Repr

/-- A push that stalls on a full queue (R282): queue, pushing unit and entry, the tick at which it stalled, the tick from
which its clk count in this cycle, whether it is reported in this cycle, the decrements that follow the entry (R275, R279),
and whether the entry ends the unit's task or batch. -/
structure Stall where
  queue : Nat
  unit : Nat
  entry : Bytes
  ticks : Nat
  since : Nat
  reported : Bool
  after : List Decr
  ends : Bool
  deriving DecidableEq, Repr

/-- The scheduling state: sync-counter words (R267), the Onions' input buffers and the tick at which their decrements were held, releases waiting by engine, ready
lists by (class × 2 + stack) × 4 + level (R274), the QMGR's cache of HEAD and TAIL, most recent first (R282), stalled
pushes, the release number series, the running counts of the cycle (R288, R290), the deepest list and buffer of the
cycle, the engines that stall with the tick of each, the running totals of 0x2A00, and whether a slice of the SUSPEND tasks runs
(R229, R252, R309). -/
structure Sched where
  ctrs : Smap (BitVec 64)
  held0 : List Decr
  held1 : List Decr
  heldTick : Nat
  rels : List Release
  ready : Smap (List Task)
  qcache : List (Nat × Nat × Nat)
  stalls : List Stall
  nextRid : Nat
  relCnt : Smap Nat
  taskCnt : Smap Nat
  missCnt : Smap Nat
  overCnt : Smap Nat
  high : Smap Nat
  highLast : Smap Nat
  heldMax : Smap Nat
  stalledEng : Smap Nat
  stallReported : List Nat
  pushes : Nat
  stallClk : Nat
  misses : Nat
  overTotal : Nat
  missTotal : Nat
  disarmTotal : Nat
  superTotal : Nat
  slice : Bool
  deriving DecidableEq, Repr

/-! ### Plan image (R293 to R315) -/

/-- A region of a plan image (R297). -/
structure Region where
  loc : Nat
  carry : Bool
  zero : Bool
  size : Nat
  addr : Nat
  deriving DecidableEq, Repr

/-- A model slot of a plan image (R298). -/
structure Slot where
  wdigest : Bytes
  tiling : Nat
  allowKb : Nat
  dlGate : Nat
  used : Bool
  stream : Bool
  adaptable : Bool
  nalt : Nat
  serveCyc : Nat
  deriving DecidableEq, Repr

/-- An edit entry of a plan image (R307). -/
structure EditEntry where
  id : Nat
  width : Nat
  kind : Nat
  off : Nat
  lo : Nat
  hi : Nat
  deriving DecidableEq, Repr

/-- A plan image as the installer holds it after relocation (R294 to R299): the header fields, gates, counter words,
queue records, minimums, slots, regions, settings and edits, and the parameter blocks of the MAIN EVAL_FAMILIES and of the
re-check (R305), the tile tasks of each model slot (R255), the output address of each SOLVE task with its block (R228), and the Husk's
copy of TASK_ID, END_BY and END_CYC of the tasks of levels 0 and 1 (R286). The image stands in the plan banks: the offset of its bank within each stack, the start and length of the first copy
of the parameter section in it, the distance to the second copy, and the section's address fields that point into the section itself
(R295, R308). -/
structure Plan where
  grade : Nat
  structural : Bool
  imageId : Nat
  modelDigest : Bytes
  dtUs : Nat
  ctrPlan : Nat
  queuePlan : Nat
  evalStart : Nat
  evalEnd : Nat
  minPods : Nat
  gates : List (Nat × Nat)
  ctrWords : List Nat
  queues : List Bytes
  mins : List Nat
  slots : List Slot
  regions : List Region
  settings : List (Nat × Nat × Nat)
  edits : List EditEntry
  base : Nat
  paramOff : Nat
  paramLen : Nat
  copyOff : Nat
  relocs : List Nat
  digest : Bytes
  mainEval : Option Nat
  recheck : Option Nat
  tiles : List Nat
  solves : List (Nat × Nat)
  ends : List (Nat × Nat × Nat)
  deriving DecidableEq, Repr

/-- An accepted edit list (R307). -/
structure EditList where
  cycle : Nat
  notBefore : Nat
  edits : List (Nat × Nat)
  deriving DecidableEq, Repr

/-- Installation status codes shared by plan, model, microcode (0x2B00:05, 0x2300:09, 0x5001:04). -/
inductive Inst where
  | idle | verifying | staged | deferred | refused
  deriving DecidableEq, Repr

/-- The standing program: the running image and the one being installed with its switch cycle, the status, last
refusal reason and deferrals (R300, R302), the plan generation, the boundary count at staging, which of the two banks of each stack runs and which of
its parameter copies is current (R308), pending edit lists, and the counts of 0x2B00. -/
structure PlanSt where
  run : Option Plan
  pend : Option Plan
  pendSwitch : Nat
  pendAddr : Nat
  pendLen : Nat
  lateStage : Bool
  status : Inst
  reason : Nat
  deferrals : Nat
  gen : Nat
  bank : Nat
  copy : Nat
  edits : List EditList
  abandoned : Nat
  editsApplied : Nat
  everInstalled : Bool
  stagedAt : Nat
  deriving DecidableEq, Repr

/-! ### Memory (R316 to R343) -/

/-- A DDR5 channel (R336, R341). -/
structure Chan where
  sc0 : Bool
  sc1 : Bool
  trained : Bool
  ref2x : Bool
  ce : Nat
  ue : Nat
  ueAddr : Nat
  drift : Int
  scrubPos : Nat
  refreshes : Nat
  rfms : Nat
  zqs : Nat
  deriving DecidableEq, Repr

/-- The background test of a stack (R326, R327): the place of the region taken last, counted from region 0 of bank 0 over the bank
spares to the pool, and whether its test runs. -/
structure BgTest where
  place : Nat
  busy : Bool
  deriving DecidableEq, Repr

/-- On-chip memory and DDR5: all bytes of the physical map by address (R22), words with an uncorrectable error
(stack × 2^21 + word index, R324), DDR5 bursts with one, the retired places and the spares in use (R325, both by stack × 132,160 +
place), whether the spares are out, the background test's region, next place, out-of-turn regions, regions tested ahead in this pass
and passes, errors per region (R384), counts per stack (R339), wipes, the cause of a running wipe (R329), the service-processor
marks, whether the first correctable error of the cycle is taken, longest stalls of this cycle and the last, channels, listed pages
(0x2C02), pages with one bad read, and the layout offsets (0x2C01). -/
structure Mem where
  bytes : List Host.Cell
  ueWords : List Nat
  ueBursts : List Nat
  retired : List Nat
  remap : Smap Nat
  sparesOut : Bool
  bg0 : BgTest
  bg1 : BgTest
  pos0 : Nat
  pos1 : Nat
  turn0 : List Nat
  turn1 : List Nat
  early0 : List Nat
  early1 : List Nat
  pass0 : Nat
  pass1 : Nat
  regionCe : Smap (List Nat)
  ce0 : Nat
  ce1 : Nat
  ue0 : Nat
  ue1 : Nat
  ueAddr0 : Nat
  ueAddr1 : Nat
  wipes0 : Nat
  wipes1 : Nat
  wiping0 : Nat
  wiping1 : Nat
  svcMask0 : Nat
  svcMask1 : Nat
  ceRaised : Bool
  stall0 : Nat
  stall1 : Nat
  stallLast0 : Nat
  stallLast1 : Nat
  ch0 : Chan
  ch1 : Chan
  ch2 : Chan
  ch3 : Chan
  pages : List Nat
  pageHits : List Nat
  areas : List Nat
  held : List (Nat × Nat)
  deriving DecidableEq, Repr

/-! ### Diagnostics (R377 to R396) -/

/-- Diagnostics: counts of 0x4100, the rotation entry (R388), the cycles with a latched disagreement, cycles since the
last rotation, open golden slots, unit select of 0x4101 and start-up injection result. -/
structure Diag where
  lasting : Nat
  goldFails : Nat
  goldSheds : Nat
  injection : Nat
  rotations : Nat
  rotNext : Nat
  podSlot : Bool
  chardSlot : Bool
  goldRun : List Nat
  goldChards : List Nat
  poolShort : Bool
  huskFail : Bool
  deriving DecidableEq, Repr

/-! ### Event logs (R483 to R485, R495) -/

/-- Logs: records raised and not yet stamped, next SEQ, log rings of the two stacks (newest last), the log copy, the
lost records, black box entries (newest last), next BSEQ, newest CHAIN, the cause of
the last final entry, how many of each ring have been copied, and by unit ID the log rings of the firmware processors that write
no stack's events (R484, R485). -/
structure Logs where
  buf : List EvRec
  seq : Nat
  ring0 : List EvRec
  ring1 : List EvRec
  copied0 : Nat
  copied1 : Nat
  copy : List EvRec
  lost0 : Nat
  lost1 : Nat
  overruns : Nat
  box : List BoxEntry
  bseq : Nat
  chain : Bytes
  lastCause : Nat
  own : Smap (List EvRec)
  deriving DecidableEq, Repr


/-! ### Verdict and permit (R344 to R376) -/

/-- A committed segment with its stopping branch (R347, R348): generation cycle, CAND_ID, key, waypoints and branch
points by joint, Δt, joints, B, PIN, generations, NONDET, SEG_DIGEST (R355), and the cycles from its waypoint 0 to T0 of the present
cycle (R115). -/
structure Seg where
  gen : Nat
  candId : Nat
  key : Nat
  wp : List (List Int)
  branch : List (List Int)
  dtUs : Nat
  nj : Nat
  b : Nat
  pin : Nat
  planGen : Nat
  modelGen : Nat
  nondet : Bool
  digest : Bytes
  age : Nat
  deriving DecidableEq, Repr

/-- The winner of a cycle's re-check (R350): its record, key, and the Leek whose Pod wrote the re-check record. -/
structure Winner where
  candId : Nat
  key : Nat
  addr : Nat
  leek : Nat
  nondet : Bool
  deriving DecidableEq, Repr

/-- A Chard verdict as R355 lists it, with the unit that gave it. -/
structure Verdict where
  unit : Nat
  candId : Nat
  cycle : Nat
  clear : Bool
  place : Nat
  capsule : Nat
  cause : Nat
  digest : Bytes
  clk : Nat
  deriving DecidableEq, Repr

/-- The safety parameters 0x4000:01 to :08 (R376). -/
structure SParams where
  mP : Nat
  mS : Nat
  mC : Nat
  tB : Nat
  b : Nat
  disCount : Nat
  disWindow : Nat
  fsoeReq : Nat
  deriving DecidableEq, Repr

/-- The procedure status of 0x4001:04. -/
inductive SpStatus where
  | locked | unlocked | confirmed | refused
  deriving DecidableEq, Repr

/-- The Husk: safety lock (R368), permit and grant for the next cycle (R360), lapse cause (R366), executing segment and the
one committed this cycle (R347), the cycle's winner, Chard stack and verdict (R350), outcome code of R428, the window of
disagreements (R359), publications with condition 8 failing (R360), stop request and RUN_ENABLE (R363), output pins
(R362, R364), the first permitted cycle, safety parameters in force, staged and confirmed (R369), and the sets
applied. -/
structure Safety where
  lock : Bool
  permit : Bool
  grant : Bool
  cause : Nat
  exe : Option Seg
  next : Option Seg
  winner : Option Winner
  pushed : Bool
  chardStack : Nat
  noChard : Bool
  verdict : Option Verdict
  compared : Bool
  published : Bool
  outcome : Nat
  segNew : Bool
  disCycles : List Nat
  blockRun : Nat
  stopReq : Bool
  runEnable : Bool
  permitA : Bool
  permitB : Bool
  faultN : Bool
  pwrKill : Bool
  firstCycle : Nat
  par : SParams
  staged : List (Nat × Nat)
  confirmed : Option (Nat × SParams)
  spStatus : SpStatus
  spReason : Nat
  unlockCycle : Nat
  applied : Nat
  safeState : Bool
  deriving DecidableEq, Repr

/-! ### Object dictionary and EtherCAT (R415 to R435) -/

/-- The AL states of R417. -/
inductive AlSt where
  | init | preop | boot | safeop | op
  deriving DecidableEq, Repr

/-- The FSoE connection states of 0x2002:02. -/
inductive FsSt where
  | reset | session | connection | parameter | data
  deriving DecidableEq, Repr

/-- A SyncManager's configuration as the master wrote it (R424): start, length, mailbox mode, enable. -/
structure SmCfg where
  start : Nat
  len : Nat
  mailbox : Bool
  on : Bool
  deriving DecidableEq, Repr

/-- The FSoE slave (R430). -/
structure Fsoe where
  st : FsSt
  wdMs : Nat
  connId : Nat
  resets : Nat
  reason : Nat
  sample0 : Nat
  sample1 : Nat
  mframe : Bytes
  sframe : Bytes
  deriving DecidableEq, Repr

/-- A completed SM2 buffer (R426, R427, R430): the tick in which it was completed, the robot state record that it brings, and the FSoE master
frame. In replay the recorded state and the live frame stand apart (R408). -/
structure RxIn where
  tick : Nat
  state : Option Bytes
  frame : Option Bytes
  deriving DecidableEq, Repr

/-- An open FoE transfer (R431): file 1 to 6, target address, room, next packet, bytes stored. -/
structure FoeX where
  file : Nat
  base : Nat
  room : Nat
  packet : Nat
  got : Nat
  deriving DecidableEq, Repr

/-- The object dictionary and the EtherCAT slave: AL state, code and error flag (R417), object values as written, in
force and as stored in eMRAM, RW writes that wait for the next boundary with the tick of each (R423), the
SM2 buffers completed since the last latch, the last of each clk that counts (R427), the records of R426 and R428, the stale run (R427), counts of 0x2001, ports, SyncManagers
and SYNC0 as the master configured them, whether Distributed Clocks hold a synchronised time (R43), FSoE and FoE. -/
structure Od where
  al : AlSt
  alCode : Nat
  alErr : Bool
  obj : Smap Int
  force : Smap Int
  stored : Smap Int
  pendW : List (Nat × Nat × Int × Nat)
  rxSeen : Bool
  rxQ : List RxIn
  rx : Bytes
  rxValid : Bool
  odomValid : Bool
  stale : Bool
  staleRun : Nat
  staleRaised : Bool
  latches : Nat
  tx : Bytes
  txExt : Bytes
  txWrites : Nat
  lastCarried : Option Seg
  jShortGen : Nat
  aborts : Nat
  err0 : Nat
  err1 : Nat
  lost0 : Nat
  lost1 : Nat
  link0 : Bool
  link1 : Bool
  phyReset : Bool
  sm0 : SmCfg
  sm1 : SmCfg
  sm2 : SmCfg
  sm3 : SmCfg
  sync0 : Bool
  sync0Ns : Nat
  dcSync : Bool
  fsoe : Fsoe
  foe : Option FoeX
  foeStatus : Nat
  foeErr : Nat
  foeFile : Nat
  foeBytes : Nat
  deriving DecidableEq, Repr

/-! ### Clocks, power and reset (R461 to R479) -/

/-- Power domains and boot (R473, R475). -/
inductive BootSt where
  /-- AON_PORST_N is low. -/
  | aonReset
  /-- The always-on domain runs; PORST_N holds the main domain in reset. -/
  | mainReset
  /-- The boot sequence runs. -/
  | booting
  /-- A boot that stopped (R475). -/
  | stopped
  /-- Boot-time recovery (R474). -/
  | recovery
  /-- In service. -/
  | up
  deriving DecidableEq, Repr

/-- Clock and power control: domain state, DVFS point and ceilings (R471, R472), a step up that waits for the PMIC, the point whose core voltage stands and the tick
at which a change of it was asked for (R455),
power estimates in 0.1 W, power state (R468) and request, failed sources with the tick of failure (R464), clock status
bits (R478), reset cause, boot step, lock attempts, the counts of 0x2F00, BOOT_SEL as sampled (R474), and whether the OS image loads
(R475). -/
structure Cpm where
  boot : BootSt
  point : Nat
  capCeil : Nat
  tempHold : Bool
  upTo : Option Nat
  volt : Nat
  voltAt : Option Nat
  avg : Nat
  peak : Nat
  peakCur : Nat
  coolMs : Nat
  watch : Bool
  failed : List (Nat × Nat)
  refOk : Bool
  watchOk : Bool
  pllLock : Nat
  cause : Nat
  step : Nat
  bootMs : Nat
  lockTries : Nat
  dvfsCnt : Nat
  fails : Nat
  bootTick : Nat
  appUp : Bool
  bootSel : Bool
  aonTick : Nat
  osOk : Bool
  deriving DecidableEq, Repr

/-! ### Pins (R436 to R459) -/

/-- Instructions of the TAP (R453). -/
inductive TapIr where
  | idcode | bypass | sample | extest
  deriving DecidableEq, Repr

/-- Pins and board interfaces (R450 to R459): the temperatures and rails last read and the five dies' temperatures, excluded sensors,
consecutive readings beyond each threshold by die or rail, warnings in force, the highest temperature and the supply warnings since
power-on; the IMU read with its edge, the samples and ignored edges of the cycle, of the last one and since power-on; in-band
interrupts and I3C errors; links and gPTP by port; and the test port. -/
structure Pins where
  temps : List Int
  rails : List Nat
  dieT : List Int
  excluded : List Nat
  warnRun : Smap Nat
  limitRun : Smap Nat
  supWarnRun : Smap Nat
  supLimitRun : Smap Nat
  warn : List Nat
  supWarn : List Nat
  tMax : Int
  supWarns : Nat
  imuBusy : Bool
  imuCycle : Nat
  imuPhase : Nat
  imuLast : Option Nat
  imuCur : Nat
  imuCnt : Nat
  imuIgn : Nat
  imuMiss : Nat
  imuSample : Bytes
  ibi : Nat
  lastIbi : Nat
  i3cErrs : Nat
  pcs0 : Bool
  pcs1 : Bool
  gptp0 : Bool
  gptp1 : Bool
  tapIr : TapIr
  bscan : Bytes
  deriving DecidableEq, Repr

/-! ### Service life (R480 to R504) -/

/-- Update states of 0x5000:05. -/
inductive FwSt where
  | idle | verifying | staging | staged | probation | writing | refused | rolledBack
  deriving DecidableEq, Repr

/-- What a firmware image header gives (R486). -/
structure FwImage where
  version : Nat
  minVersion : Nat
  ucode : List Nat
  len : Nat
  deriving DecidableEq, Repr

/-- The state word of an image-store copy (R489). -/
inductive StoreSt where
  | empty | writing | valid
  deriving DecidableEq, Repr

/-- Service life: the running, old and pending images (R487), update state, probation end, store copies (R489), the
anti-rollback floor, microcode revisions by class (R492), life cycle (R497), plan-signing key,
tamper flags and count (R500), attestation (R499), device keys, serial number, grade fuse, the boot count, the writes of
the eMRAM's records area (R480), and the firmware key, whose SHA-256 is fused (R486). -/
structure Svc where
  run : FwImage
  old : Option FwImage
  pend : Option FwImage
  pendAddr : Nat
  pendLen : Nat
  fwSt : FwSt
  reason : Nat
  switchCycle : Nat
  probEnd : Nat
  rollbackBy : Option Nat
  store0 : StoreSt
  store1 : StoreSt
  img0 : FwImage
  img1 : FwImage
  stagedAt : Nat
  repair : Option Nat
  writingStack : Nat
  retries : Nat
  floor : Nat
  bank : Nat
  ucode : List Nat
  ucClass : Nat
  ucSwitch : Nat
  ucStatus : Inst
  ucDefer : Nat
  life : Nat
  lifePend : Option (Nat × Bytes)
  ucRev : Nat
  ucStagedAt : Nat
  planKey : Option Bytes
  tamper : Nat
  tamperCnt : Nat
  report : Bytes
  reportSt : Nat
  idKey : Bytes
  attKey : Bytes
  haveKeys : Bool
  serial : Nat
  grade : Nat
  bootCnt : Nat
  aged : List Nat
  sinceSnap : Nat
  writes : Nat
  tamperAction : Nat
  boxKey : Bytes
  fwKey : Bytes
  deriving DecidableEq, Repr


/-! ### Collision checking (R133 to R170) -/

/-- A contiguous range of queued batches of one evaluation: release number, first batch, count (R157). -/
structure BRange where
  rid : Nat
  lo : Nat
  n : Nat
  deriving DecidableEq, Repr

/-- What one retired probe showed (R139 to R141): waypoint, sphere, clearance if it has one, whether it decides and is a field
probe, whether it fails and counts as UNKNOWN, its cause bits, and its issue clk. -/
structure ProbeOut where
  wp : Nat
  sphere : Nat
  clear : Option Int
  field : Bool
  fails : Bool
  soft : Bool
  cause : Nat
  clk : Nat
  deriving DecidableEq, Repr

/-- A test of a place (R133, R134, R152): a field probe of a sphere, a capsule test of one with the capsule of that number in the waypoint's
set, or a self-collision test of two; spheres by their numbers of R150. -/
inductive Test where
  | field (n : Nat)
  | cap (n i : Nat)
  | pair (a b : Nat)
  deriving DecidableEq, Repr

/-- The accumulators of one candidate (R142 to R151): its place in the batch, the tests retired, each with its place (a waypoint, or 32 + a
branch point), and what the judged probes showed. -/
structure CandAcc where
  cand : Nat
  tests : List (Nat × Test)
  outs : List ProbeOut
  deriving DecidableEq, Repr

/-- The batch that a Pod's Leek holds in execution: its evaluation, batch number, criticality, whether it is golden, its
candidates' accumulators, and the candidates whose records are written. -/
structure Batch where
  rid : Nat
  num : Nat
  level : Nat
  golden : Bool
  acc : List CandAcc
  written : List Nat
  deriving DecidableEq, Repr

/-- A line that a brick cache asks for (R155): the line, the tick and the Pea of its first miss, and whether a Pea waits for it. -/
structure Miss where
  line : Nat
  tick : Nat
  pea : Nat
  demand : Bool
  deriving DecidableEq, Repr

/-- A Pod: its list of batches (R157), batches left stealable by a fault (R161), the batch in execution, its steal port of tick and thief
(R159), the victim that its own steal request has reached, the reply on its way with whether it is BUSY, the ring steps taken,
whether a BUSY came in this round, and whether it stays idle (R158); batches stolen by it and from it, cache hits and misses in
the cycle (R168); the lines of its brick cache, most recently used first, the refills outstanding, the demand misses that wait for a
free one, and the lines that the Leek has named for a prefetch (R153, R155). -/
structure Pod where
  list : List BRange
  left : List BRange
  exec : Option Batch
  port : List (Nat × Nat)
  asking : Option Nat
  reply : Option (List BRange)
  replyBusy : Bool
  asked : Nat
  busy : Bool
  idle : Bool
  stolen : Nat
  given : Nat
  hits : Nat
  misses : Nat
  lines : List Nat
  refills : List Miss
  waits : List Miss
  pre : List Nat
  deriving DecidableEq, Repr

/-- An evaluation under way: its task, batch count, batches completed, the stack to which it is confined (R264, R350), whether it has
started, whether its issue has ended early (R165), whether it is the MAIN evaluation or a re-check, its verdict counts, and its
failure. -/
structure Eval where
  task : Task
  total : Nat
  done : Nat
  only : Option Nat
  started : Bool
  exited : Bool
  main : Bool
  recheck : Bool
  clear : Nat
  blocked : Nat
  unknown : Nat
  outside : Nat
  deriving DecidableEq, Repr

/-- The Pods: evaluations, Pods by g, the Leek whose batch wrote a candidate's record, by 2 × CAND_ID, plus 1 in a re-check (R350,
R393); the counts of the cycle (R168), the candidates of the family evaluations and those of them CLEAR (R163), whether this cycle
counted an overrun, whether the MAIN evaluation of the cycle completed and its lists went to selection (R162), the stack to
which re-checks are confined (R350), the records of the MAIN evaluation in the order written, as runs of address and count (R150), and
whether event 0x0505 was raised in this cycle. -/
structure PodSt where
  evals : List Eval
  pods : Smap Pod
  doneWho : Smap Nat
  cycBatch : Nat
  cycStolen : Nat
  cycClear : Nat
  cycBlocked : Nat
  cycUnknown : Nat
  cycOutside : Nat
  probeClk : Nat
  famDone : Nat
  famClear : Nat
  overrun : Bool
  handed : Bool
  onlyStack : Option Nat
  parts : List (Nat × Nat)
  outsideSaid : Bool
  deriving DecidableEq, Repr



/-! ### World model (R51 to R83) -/

/-- A pose: rotation, row-major in Q1.30, and translation in Q15.16 m (R84). -/
structure Pose where
  r : List Int
  t : List Int
  deriving DecidableEq, Repr

/-- Stream states of R59. -/
inductive StrSt where
  | off | wait | fresh | stale | decayed
  deriving DecidableEq, Repr

/-- A frame: its stream, counter, time in pu since cycle 0 (R44), capture stamp as tick and in pu, size, pixels or points,
integrity, whether it comes from CSI-2 with frame number 0 and no header, its pose, its person mask if present, and whether the
cut-off of the cycle after its capture has passed with its mask missing (R64). -/
structure Frame where
  stream : Nat
  counter : Nat
  width32 : Bool
  numbered : Bool
  time : Int
  tick : Nat
  stamp : Nat
  data : Bytes
  corrupt : Bool
  fp : Bytes
  pose : Option Pose
  mask : Option Bytes
  maskLate : Bool
  deriving DecidableEq, Repr

/-- A CSI-2 frame that is open on a virtual channel (R52), or the fragments of a point frame so far (R54). -/
structure OpenFrame where
  port : Nat
  vc : Nat
  num : Nat
  hdr : Option Bytes
  data : Bytes
  corrupt : Bool
  deriving DecidableEq, Repr

/-- Fragments of one point frame: counter, time, count, and those received by index (R54). -/
structure PointAsm where
  counter : Nat
  timeNs : Nat
  count : Nat
  parts : List (Nat × Bytes)
  corrupt : Bool
  deriving DecidableEq, Repr

/-- A sensor stream (R59): state, counts, the values of the last frame that passed tests 1 to 6 (R56), scene changes and
the run of equal fingerprints since (R58), the point frame being assembled, and frames that wait for their pose with the cycle
they arrived in (R55). -/
structure Stream where
  st : StrSt
  goodRun : Nat
  age : Nat
  rej : Nat
  lastCnt : Option Nat
  lastTime : Option Int
  lastFp : Option Bytes
  lastPose : Option Pose
  sceneVox : Nat
  eqRun : Nat
  asm : Option PointAsm
  waiting : List (Frame × Nat)
  deriving DecidableEq, Repr

/-- A stream that is OFF. -/
def Stream.off : Stream :=
  { st := .off, goodRun := 0, age := 0, rej := 0, lastCnt := none, lastTime := none, lastFp := none, lastPose := none,
    sceneVox := 0, eqRun := 0, asm := none, waiting := [] }

/-- One level: box in bricks, its voxels by key, and the voxels with a PERSON flag (R61, R64, R65). An unlisted voxel is
UNKNOWN. -/
structure Level where
  ox : Int
  oy : Int
  nx : Nat
  ny : Nat
  nz : Nat
  z0 : Int
  occ : Smap Int
  person : Smap Bool
  deriving DecidableEq, Repr

/-- A frozen version (R75, R78): number, slot, base, both levels, margin, obstacle threshold, flags, the pool words of its bricks (one more
than the index, by brick), bricks without a word (R76), digest, and whether a result of R404 has entered it (R405). -/
structure WVer where
  version : Nat
  slot : Nat
  base : Nat
  fine : Level
  coarse : Level
  margin : Nat
  lOcc : Int
  marginLimit : Bool
  words : Smap Nat
  noWord : List Nat
  digest : Bytes
  nondet : Bool
  deriving DecidableEq, Repr

/-- Both levels with their observer masks (R60). -/
structure WBuild where
  fine : Level
  coarse : Level
  maskF : Smap Nat
  maskC : Smap Nat
  deriving DecidableEq, Repr

/-- The link poses of a boundary (R55): its cycle, the poses, and whether the Leek of each stack composed them (R98). -/
structure PoseRec where
  cycle : Nat
  poses : List Pose
  on0 : Bool
  on1 : Bool
  deriving DecidableEq, Repr

/-- The world: occupancy under construction and its margin, observer masks (R60), what the version under construction started from with
the sweeps and frames it has taken since (R63), its pool words (R76), whether one has started to build, frozen versions, whether any
version froze and whether the boxes are placed (R67), base of the version under construction, inputs waiting for fusion (R63), whether a
result of R404 has entered it (R405), whether the
cut-off of this cycle has passed and BUILD_DONE, deferrals, whether 0x0209 is raised, streams, CSI-2 open frames, error
counts and lanes, link poses of the last 64 boundaries, late masks, and whether the two stacks' copies have come apart (R77). -/
structure World where
  fine : Level
  coarse : Level
  h : Nat
  maskF : Smap Nat
  maskC : Smap Nat
  start : WBuild
  sweeps : List Nat
  fused : List Frame
  words : Smap Nat
  begun : Bool
  cur : WVer
  prev : WVer
  haveVer : Bool
  placed : Bool
  base : Nat
  inputs : List Frame
  nondet : Bool
  cut : Bool
  done : Bool
  noWord : List Nat
  defers : Nat
  staleRaised : Bool
  streams : Smap Stream
  csiOpen : List OpenFrame
  lanes : Smap Bool
  poses : List PoseRec
  lateMasks : Nat
  apart : Bool
  deriving DecidableEq, Repr

/-! ### Robot model (R84 to R110) -/

/-- A joint entry (R88). -/
structure Joint where
  typ : Nat
  parent : Nat
  flags : Nat
  tOrg : List Int
  rOrg : List Int
  qMin : Int
  qMax : Int
  vMax : Nat
  aMax : Nat
  jMax : Nat
  fkSlack : Nat
  deriving DecidableEq, Repr

/-- A bound sphere (R90). -/
structure Bound where
  link : Nat
  first : Nat
  n : Nat
  c : List Int
  r : Int
  deriving DecidableEq, Repr

/-- A body sphere (R90). -/
structure Sphere where
  c : List Int
  r : Int
  deriving DecidableEq, Repr

/-- A capsule of the diverse model (R93). -/
structure Capsule where
  link : Nat
  p0 : List Int
  p1 : List Int
  r : Int
  deriving DecidableEq, Repr

/-- A robot model (R86), with the bound-pair list of R135. -/
structure Model where
  planar : Bool
  joints : List Joint
  bounds : List Bound
  spheres : List Sphere
  pairs : List (Nat × Nat)
  bpairs : List (Nat × Nat)
  levers : List Nat
  caps : List Capsule
  vDecl : Nat
  digest : Bytes
  deriving DecidableEq, Repr

/-- The model installer and the latched robot state: current and older bank, pending model (R104) with the boundary count at staging, whether it is tied to a
plan image (R106), status, reason, deferrals, generation, whether the last switch changed NJ, latched positions (R97),
joints outside their limits (R103), whether the next boundary is the first after power-on or a switch, the images of the current and the
staged model, which of a Leek's two banks is the current one, and what the banks of each Leek hold by unit ID (R104). -/
structure ModelSt where
  cur : Option Model
  old : Option Model
  pend : Option Model
  pendAddr : Nat
  pendSwitch : Nat
  stagedAt : Nat
  structural : Bool
  status : Inst
  reason : Nat
  deferrals : Nat
  gen : Nat
  latched : List Int
  outside : List Nat
  fresh : Bool
  img : Bytes
  pendImg : Bytes
  bank : Nat
  banks : Smap (Bytes × Bytes)
  deriving DecidableEq, Repr

/-! ### Candidates (R111 to R132) -/

/-- Candidate inputs latched for the cycle: base trajectory and whether it is missing (R115), seed buffer address and count
(R122), survivor records (R123), shortfalls; the primitive table (R120); whether the survivors of this cycle are all
reassigned; events already raised in the cycle; the counts of 0x2400; and whether the cycle's latch is still due. -/
structure CandSt where
  base : List (List Int)
  noBase : Bool
  seedAddr : Nat
  seedCount : Nat
  short2 : Nat
  surv : List Bytes
  short3 : Nat
  primAddr : Nat
  primN : Nat
  primPend : Option (Nat × Nat)
  primStatus : Nat
  dropSurv : Bool
  raised : List Nat
  generated : Nat
  genLast : Nat
  seedsLast : Nat
  reassignedLast : Nat
  noBaseCycles : Nat
  latchDue : Bool
  seedNd : Bool
  survNd : Bool
  deriving DecidableEq, Repr

/-! ### Peers (R171 to R194) -/

/-- An entry of the Krytan receive ring (R178). -/
structure RingEnt where
  ns : Nat
  port : Nat
  frame : Bytes
  deriving DecidableEq, Repr

/-- Peer slot states of R180. -/
inductive SlotSt where
  | empty | live | standing
  deriving DecidableEq, Repr

/-- A peer slot (R180): state, the frame it holds, gaps, age at the last compile. -/
structure PeerSlot where
  st : SlotSt
  frame : Bytes
  gaps : Nat
  age : Nat
  deriving DecidableEq, Repr

/-- An empty slot. -/
def PeerSlot.none : PeerSlot := { st := .empty, frame := [], gaps := 0, age := 0 }

/-- A compiled capsule in world Q15.16 m (R184). -/
structure WCap where
  a : List Int
  b : List Int
  r : Int
  deriving DecidableEq, Repr

/-- A MACsec receive SA (R172): association number, key words, next packet number. -/
structure Sa where
  an : Nat
  key : List Nat
  nextPn : Nat
  deriving DecidableEq, Repr

/-- An Ethernet port (R172): SAK words written, the SAs of the receive channel and of the transmit channel, and the association number under
which it transmits. -/
structure EthPort where
  sak : List Nat
  sas : List Sa
  tx : List Sa
  txAn : Nat
  deriving DecidableEq, Repr

/-- How MACsec protects a frame sent (R172): association number, packet number, the words of the SAK that the cipher suite uses, and whether
the data are confidential. -/
structure TxSec where
  an : Nat
  pn : Nat
  key : List Nat
  conf : Bool
  deriving DecidableEq, Repr

/-- A Krytan frame sent (R188): port, 802.1Q priority, protection, and UDP payload. -/
structure TxFrame where
  port : Nat
  pcp : Nat
  sec : Option TxSec
  payload : Bytes
  deriving DecidableEq, Repr

/-- A compile that has completed (R182): its cycle, its t_b in ns, the site transform's registers, and the capsules of each waypoint before
culling. -/
structure Compiled where
  cycle : Nat
  tb : Nat
  site : List Nat
  raw : List (List WCap)
  deriving DecidableEq, Repr

/-- The peers: receive ring, slots, counts of the cycle and of the last one, duplicates dropped since power-on, reasons of the cycle, the
compiled sets by release cycle (R186), t_b of the present cycle (R182), the bytes that the set of the coming cycle and of this one use, late
admission for this cycle and for the next, whether admission of this cycle is done, the cycle and t_b of the compile under way and the last
one completed, ports, the next publication SEQ, the last one, the frames since its counter in eMRAM was rewritten and that counter (R190),
and the frames sent by the last publication. -/
structure PeerSt where
  ring : List RingEnt
  slots : Smap PeerSlot
  dropCyc : Nat
  admitted : Nat
  rejected : Nat
  admitLast : Nat
  rejectLast : Nat
  dups : Nat
  rejReasons : Smap Nat
  sets : List (Nat × List (List WCap))
  setUse : Nat
  setLast : Nat
  tb : Nat
  lateCyc : Bool
  lateNext : Bool
  admitDone : Bool
  compiling : Option (Nat × Nat)
  compiled : Option Compiled
  port0 : EthPort
  port1 : EthPort
  pubSeq : Nat
  pubLast : Nat
  pubFrames : Nat
  pubStore : Nat
  sent : List TxFrame
  deriving DecidableEq, Repr

/-! ### Selection (R195 to R214) -/

/-- A selection under way (R206, R208): parameter block, cycle, level and counts, whether its lists and how many records of the partial lists are scanned, whether the scan is complete, c_min as an ordinal once the minimum is
known, the entries that the locals have taken from the key table, whether Select is complete, and whether a Radish has left service
since, so that the selection starts again (R209). -/
structure SelRun where
  param : Nat
  cycle : Nat
  level : Nat
  entries : Nat
  masked : Nat
  collapsed : Nat
  conflicts : Nat
  stale : Nat
  nondet : Bool
  lists : Bool
  parts : Nat
  scanned : Bool
  cmin : Option Nat
  taken : List (Nat × Nat)
  selected : Bool
  again : Bool
  deriving DecidableEq, Repr

/-- Selection: runs under way, the main selection's results of this cycle and of the last by number, winner ID and key of this
cycle, entries scanned by Radish, overruns, whether the main or winner selection ended or was lost in this cycle, and the runs
discarded at an end gate by parameter block and cycle. -/
structure SelSt where
  runs : List SelRun
  cyc : Smap Nat
  last : Smap Nat
  winId : Nat
  winKey : Nat
  scan : Smap Nat
  overruns : Nat
  mainDone : Bool
  mainNondet : Bool
  winDone : Bool
  lostMain : Bool
  lostWin : Bool
  dead : List (Nat × Nat)
  deriving DecidableEq, Repr

/-! ### Solver (R215 to R240) -/

/-- The solver: counts of the cycle by register offset (R238), by-Parsnip counts, problems and pivots regularised in the
cycle (0x0803), the pivots of the last one (R240), the last estimate's status and what it was at the boundary, the BATCH problem's, the
weights whose conversion saturated (R236), and, newest first, the result slots that became valid: output address, slot 1 or 2, and tick
(R228, R234). -/
structure PsnSt where
  cyc : Smap Nat
  unitBusy : Smap Nat
  unitSolves : Smap Nat
  regProblems : Nat
  regPivots : Nat
  estMiss : Nat
  estIters : Nat
  estStatus : Nat
  estReg : Nat
  bgStatus : Nat
  bgIters : Nat
  bgCycle : Nat
  pivLast : Nat
  estLast : Nat
  badW : List Nat
  slots : List (Nat × Nat × Nat)
  deriving DecidableEq, Repr

/-! ### Neural engines (R241 to R263) -/

/-- An invocation of a model (R252, R255): its number, slot, cycle and tick of its first release, how many tile tasks it has, the parameter
blocks of those released, the number completed, the indices out of range so far (R250), whether an alternative tiling runs (R253), and
whether it has failed. -/
structure Invoke where
  id : Nat
  slot : Nat
  cycle : Nat
  tick : Nat
  total : Nat
  seen : List Nat
  done : Nat
  bad : Nat
  nondet : Bool
  failed : Bool
  deriving DecidableEq, Repr

/-- Neural engines: counts of the cycle, by-Cob counts, weight sets (R254): digest in force by slot, pending set with slot, address and
bytes, the one under check by slot, address and length, status, generation, the sets so far by slot, generation, address and length, and
what stands at a destination of their loads by address, slot and generation (R252); slots without weights (R314), whether the learned cost is missing in this cycle,
c_L by rank (R257) and whether it came from an alternative tiling (R253), slots whose next invocation takes one with its tile tasks, the
latest invocations of each slot with the number of the last one begun, and the cycles whose seeds came from an alternative tiling. -/
structure CobSt where
  cyc : Smap Nat
  unitBusy : Smap Nat
  unitTiles : Smap Nat
  weights : Smap Bytes
  wPend : Option (Nat × Nat × Bytes)
  wCheck : Option (Nat × Nat × Nat)
  wStatus : Nat
  wGen : Nat
  noWeights : List Nat
  costMissing : Bool
  cl : List (Nat × Nat)
  costNd : Bool
  retiled : List (Nat × Nat)
  wSets : List (Nat × Nat × Nat × Nat)
  loaded : List (Nat × Nat × Nat)
  invs : List Invoke
  nextInv : Nat
  seedNd : List Nat
  deriving DecidableEq, Repr


/-! ### Determinism (R397 to R414) -/

/-- What an input record brings back in replay beyond its content (R408): the frame that was fused, the ring entry that was admitted, the
model or the primitive table that was installed. -/
inductive InWhat where
  | plain
  | frame (f : Frame)
  | entry (e : RingEnt)
  | model (m : Model)
  | prims (a n : Nat)
  | weights (a n : Nat)
  deriving DecidableEq, Repr

/-- An input record of R401, with its content. -/
structure InRec where
  typ : Nat
  source : Nat
  cycle : Nat
  phase : Nat
  content : Bytes
  what : InWhat := .plain
  deriving DecidableEq, Repr

/-- A checkpoint (R407): the world with its stream states, the peer slots, the bytes of the CARRY regions by address, the executing
segment, and the PHU cycle number. -/
structure Ckpt where
  cycle : Nat
  world : World
  slots : Smap PeerSlot
  carry : List (Nat × Bytes)
  exe : Option Seg
  deriving DecidableEq, Repr

/-- One record of the record ring (R406): an input record of the cycle that consumed it, the chain of a cycle, or a checkpoint. -/
inductive RingRec where
  | input (consumed : Nat) (r : InRec)
  | chain (cycle : Nat) (d : Bytes)
  | ckpt (k : Ckpt)
  deriving DecidableEq, Repr

/-- Determinism: records collected for the coming boundary, D of the current cycle (R400), whether the
next one starts from zeros, the digest that D of the current cycle continues and its records, the
sampled map of R19, the provenance digest (R402), results with NONDET, the record ring, whether recording runs,
boundaries since the last checkpoint and whether one is due at this boundary, the stream's sequence number and the datagrams that left at this boundary, one more than the cycle
whose drop was reported last, replay with its last recorded cycle and whether that has passed, whether the run has diverged,
and known-answer counts (R413). -/
structure Det where
  recs : List InRec
  chain : Bytes
  chainZero : Bool
  base : Bytes
  cur : List InRec
  dismap : List Bool
  prov : Bytes
  nondet : Nat
  ring : List RingRec
  recording : Bool
  sinceCkpt : Nat
  ckptDue : Bool
  streamSeq : Nat
  streamed : List TxFrame
  dropCyc : Nat
  replay : Bool
  replayEnd : Nat
  replayDone : Bool
  diverged : Bool
  katPass : Smap Nat
  katFail : List Nat
  deriving DecidableEq, Repr

/-! ### The state -/

/-- The machine: the queue of waiting commands, the tick count of R33, what the present clk has done, unit records by unit ID (R11), control registers
as written and as in force since the last boundary, CMD_RESULT of the selected unit (R29), the blocks, the last answer,
and the serial number of the next free value. -/
structure State where
  pending : List Instr
  now : Nat
  clk : ClkSt
  units : Smap UnitRec
  regs : Smap (BitVec 32)
  regsF : Smap (BitVec 32)
  cmdResult : Nat
  phu : Phu
  sched : Sched
  plan : PlanSt
  mem : Mem
  world : World
  model : ModelSt
  cand : CandSt
  pod : PodSt
  peers : PeerSt
  sel : SelSt
  psn : PsnSt
  cob : CobSt
  diag : Diag
  logs : Logs
  safety : Safety
  det : Det
  od : Od
  cpm : Cpm
  pins : Pins
  svc : Svc
  resp : Resp
  freeCtr : Nat
  deriving DecidableEq, Repr

/-! ### Reset -/

/-- No time correspondence (R48). -/
def Tc.zero : Tc := { cycle := 0, dc := 0, gptpS := 0, gptpNs := 0, dcValid := false, gptpValid := false }

/-- The PHU after reset: OFF, no increment, cycle number 0 (R36, R48, R50).
Log entry 7 (DESIGN CHOICE, unsafe); Log entry 10 (PRESUMED, unsafe). -/
def Phu.reset : Phu :=
  { st := .off, src := 0, acc := 0, inc := 0, pAvg := 0, held := false, lastEdge := none, lastPeriod := 0,
    inRange := false, usedWin := none, bcount := 0, waitEdge := [], cycleLoad := none, inTol := 0, outTol := 0, missCycle := 0, coastCycle := 0, edges := 0,
    err := 0, boundaryDue := false, atBound := false, aligning := none, everTracked := false, cycle := 0, status := 3, pubStatus := 3,
    gatesDone := 0, gateQ := [], tc := .zero, tcFrozen := none, gptpS := 0,
    gptpNs := 0, bar := .idle, stepIn := false, stepOut := false, launchTick := none, fallTick := none,
    returnFrom := none, returnDev := 0 }

/-- Scheduling after reset: every counter disarmed (R291), nothing released. Log entry 7 (DESIGN CHOICE, unsafe). -/
def Sched.reset : Sched :=
  { ctrs := [], held0 := [], held1 := [], heldTick := 0, rels := [], ready := [], qcache := [], stalls := [], nextRid := 0,
    relCnt := [], taskCnt := [], missCnt := [], overCnt := [], high := [], highLast := [], heldMax := [],
    stalledEng := [], stallReported := [], pushes := 0, stallClk := 0, misses := 0, overTotal := 0, missTotal := 0,
    disarmTotal := 0, superTotal := 0, slice := false }

/-- No plan image (R301). Log entry 7 (DESIGN CHOICE, unsafe). -/
def PlanSt.reset : PlanSt :=
  { run := none, pend := none, pendSwitch := 0, pendAddr := 0, pendLen := 0, lateStage := false, status := .idle,
    reason := 0, deferrals := 0, gen := 0, bank := 0, copy := 0, edits := [], abandoned := 0, editsApplied := 0,
    everInstalled := false, stagedAt := 0 }

/-- A channel before training (R342). -/
def Chan.reset : Chan :=
  { sc0 := false, sc1 := false, trained := false, ref2x := false, ce := 0, ue := 0, ueAddr := 0, drift := 0,
    scrubPos := 0, refreshes := 0, rfms := 0, zqs := 0 }

/-- Memory after reset: no byte listed, no region retired, no channel trained (R339, R341). Log entry 8 (DESIGN CHOICE, unsafe). -/
def Mem.reset : Mem :=
  { bytes := [], ueWords := [], ueBursts := [], retired := [], remap := [], sparesOut := false, bg0 := ⟨0, false⟩,
    bg1 := ⟨0, false⟩, pos0 := 0, pos1 := 0, turn0 := [], turn1 := [], early0 := [], early1 := [], pass0 := 0,
    pass1 := 0, regionCe := [], ce0 := 0, ce1 := 0, ue0 := 0, ue1 := 0, ueAddr0 := 0, ueAddr1 := 0, wipes0 := 0, wipes1 := 0,
    wiping0 := 0, wiping1 := 0, svcMask0 := 0, svcMask1 := 0, ceRaised := false, stall0 := 0, stall1 := 0, stallLast0 := 0,
    stallLast1 := 0, ch0 := .reset, ch1 := .reset, ch2 := .reset, ch3 := .reset, pages := [], pageHits := [], areas := [], held := [] }

/-- A Pod that holds nothing. -/
def Pod.empty : Pod :=
  { list := [], left := [], exec := none, port := [], asking := none, reply := none, replyBusy := false, asked := 0, busy := false,
    idle := false, stolen := 0, given := 0, hits := 0, misses := 0, lines := [], refills := [], waits := [], pre := [] }

/-- No evaluation. -/
def PodSt.reset : PodSt :=
  { evals := [], pods := [], doneWho := [], cycBatch := 0, cycStolen := 0, cycClear := 0, cycBlocked := 0, cycUnknown := 0,
    cycOutside := 0, probeClk := 0, famDone := 0, famClear := 0, overrun := false, handed := false, onlyStack := none, parts := [],
    outsideSaid := false }

/-- Diagnostics after reset (R396). Log entry 7 (DESIGN CHOICE, unsafe). -/
def Diag.reset : Diag :=
  { lasting := 0, goldFails := 0, goldSheds := 0, injection := 0, rotations := 0, rotNext := 0,
    podSlot := false, chardSlot := false, goldRun := [], goldChards := [],
    poolShort := false, huskFail := false }

/-- Logs after reset: SEQ 0 (R483). Log entry 7 (DESIGN CHOICE, unsafe); Log entry 8 (DESIGN CHOICE, unsafe). -/
def Logs.reset : Logs :=
  { buf := [], seq := 0, ring0 := [], ring1 := [], copied0 := 0, copied1 := 0, copy := [], lost0 := 0, lost1 := 0, overruns := 0,
    box := [], bseq := 0, chain := List.replicate 16 0, lastCause := 0, own := [] }

/-- The defaults of 0x4000:01 to :08 (R376). -/
def SParams.default : SParams :=
  { mP := 50, mS := 10, mC := 20, tB := 0, b := 12, disCount := 3, disWindow := 4096, fsoeReq := 1 }

/-- The Husk after reset: no lock, no permit, every output low (R368, R449). Log entry 7 (DESIGN CHOICE, unsafe). -/
def Safety.reset : Safety :=
  { lock := false, permit := false, grant := false, cause := 0, exe := none,
    next := none, winner := none, pushed := false, chardStack := 0, noChard := false, verdict := none,
    compared := false, published := false, outcome := 5, segNew := false, disCycles := [], blockRun := 0,
    stopReq := false, runEnable := false, permitA := false, permitB := false, faultN := false,
    pwrKill := false, firstCycle := 0, par := .default, staged := [], confirmed := none, 
    spStatus := .locked, spReason := 0, unlockCycle := 0, applied := 0, safeState := false }

/-- Determinism after reset: D is 32 zero bytes (R400). Log entry 7 (DESIGN CHOICE, unsafe). -/
def Det.reset : Det :=
  { recs := [], chain := List.replicate 32 0, chainZero := true, base := List.replicate 32 0, cur := [], dismap := [], prov := List.replicate 32 0, nondet := 0, ring := [],
    recording := false, sinceCkpt := 0, ckptDue := false, streamSeq := 0, streamed := [], dropCyc := 0, replay := false, replayEnd := 0,
    replayDone := false, diverged := false, katPass := [], katFail := [] }

/-- A SyncManager nobody has configured. -/
def SmCfg.off : SmCfg := { start := 0, len := 0, mailbox := false, on := false }

/-- The FSoE slave in Reset (R432). -/
def Fsoe.reset : Fsoe :=
  { st := .reset, wdMs := 0, connId := 0, resets := 0, reason := 0, sample0 := 0, sample1 := 0,
    mframe := List.replicate 7 0, sframe := List.replicate 7 0 }

/-- The object dictionary after reset: AL state INIT, every object at its default (R417, R432).
Log entry 7 (DESIGN CHOICE, unsafe); Log entry 8 (DESIGN CHOICE, unsafe). -/
def Od.reset : Od :=
  { al := .init, alCode := 0, alErr := false, obj := [], force := [], stored := [], pendW := [],
    rxSeen := false, rxQ := [], rx := List.replicate 192 0, rxValid := false, odomValid := false,
    stale := false, staleRun := 0, staleRaised := false, latches := 0, tx := List.replicate 1024 0, txExt := [],
    txWrites := 0, lastCarried := none, jShortGen := 0, aborts := 0, err0 := 0, err1 := 0, lost0 := 0, lost1 := 0,
    link0 := false, link1 := false, phyReset := true, sm0 := .off, sm1 := .off, sm2 := .off, sm3 := .off,
    sync0 := false, sync0Ns := 0, dcSync := false, fsoe := .reset, foe := none, foeStatus := 0, foeErr := 0, foeFile := 0,
    foeBytes := 0 }

/-- Clocks after reset: everything held in reset, point 0, Run (R478). Log entry 7 (DESIGN CHOICE, unsafe). -/
def Cpm.reset : Cpm :=
  { boot := .aonReset, point := 0, capCeil := 0, tempHold := false, upTo := none, volt := 0, voltAt := none, avg := 0, peak := 0,
    peakCur := 0, coolMs := 0, watch := false, failed := [], refOk := false,
    watchOk := false, pllLock := 0, cause := 0, step := 0, bootMs := 0, lockTries := 0, dvfsCnt := 0, fails := 0,
    bootTick := 0, appUp := false, bootSel := false, aonTick := 0, osOk := true }

/-- Pins after reset. Log entry 7 (DESIGN CHOICE, unsafe); Log entry 10 (PRESUMED, unsafe). -/
def Pins.reset : Pins :=
  { temps := [], rails := [], dieT := [], excluded := [], warnRun := [], limitRun := [], supWarnRun := [], supLimitRun := [], warn := [],
    supWarn := [], tMax := 0, supWarns := 0, imuBusy := false, imuCycle := 0, imuPhase := 0, imuLast := none, imuCur := 0, imuCnt := 0,
    imuIgn := 0, imuMiss := 0, imuSample := [], ibi := 0, lastIbi := 0, i3cErrs := 0, pcs0 := false, pcs1 := false, gptp0 := false,
    gptp1 := false, tapIr := .idcode, bscan := [] }

/-- No firmware image. Log entry 20 (DESIGN CHOICE, unsafe). -/
def FwImage.none : FwImage := { version := 0, minVersion := 0, ucode := List.replicate 17 0, len := 0 }

/-- Service life of a part in OPERATIONAL with one VALID image in each store (log entries 20, 21).
Log entry 7 (DESIGN CHOICE, unsafe); Log entry 20 (DESIGN CHOICE, unsafe); Log entry 21 (DESIGN CHOICE, unsafe). -/
def Svc.reset : Svc :=
  { run := .none, old := Option.none, pend := Option.none, pendAddr := 0, pendLen := 0, fwSt := .idle, reason := 0,
    switchCycle := 0, probEnd := 0, rollbackBy := Option.none, store0 := .valid, store1 := .valid, img0 := .none, img1 := .none,
    stagedAt := 0, repair := Option.none, writingStack := 0, retries := 0, floor := 0, bank := 0, ucode := List.replicate 17 0, ucClass := 0,
    ucSwitch := 0, ucStatus := .idle, ucDefer := 0, life := 2, lifePend := Option.none, ucRev := 0, ucStagedAt := 0,
    planKey := some (List.replicate 32 0), tamper := 0, tamperCnt := 0, report := [],
    reportSt := 0, idKey := List.replicate 32 0, attKey := List.replicate 7888 0, haveKeys := true, serial := 0,
    grade := 0, bootCnt := 0, aged := [], sinceSnap := 0, writes := 0, tamperAction := 0,
    boxKey := List.replicate 32 0, fwKey := List.replicate 32 0 }

/-- The fine level at power-on: origin 0 and every voxel UNKNOWN (R67, R80). -/
def Level.fine0 : Level := { ox := 0, oy := 0, nx := 107, ny := 107, nz := 54, z0 := 0, occ := [], person := [] }

/-- The coarse level at power-on. -/
def Level.coarse0 : Level := { ox := 0, oy := 0, nx := 167, ny := 167, nz := 17, z0 := 0, occ := [], person := [] }

/-- The version that reads use before the first freeze: every voxel UNKNOWN (R67). -/
def WVer.zero : WVer :=
  { version := 0, slot := 0, base := 2 ^ 64 - 1, fine := .fine0, coarse := .coarse0, margin := 0, lOcc := 8, marginLimit := false, words := [],
    noWord := [], digest := List.replicate 32 0, nondet := false }

/-- The world at power-on (R67). -/
def World.reset : World :=
  { fine := .fine0, coarse := .coarse0, h := 0, maskF := [], maskC := [], start := ⟨.fine0, .coarse0, [], []⟩, sweeps := [], fused := [],
    words := [], begun := false, cur := .zero, prev := .zero, haveVer := false,
    placed := false, base := 2 ^ 64 - 1, inputs := [], nondet := false, cut := false, done := false, noWord := [], defers := 0,
    staleRaised := false, streams := [], csiOpen := [], lanes := [], poses := [], lateMasks := 0, apart := false }

/-- No robot model (R110). Log entry 7 (DESIGN CHOICE, unsafe). -/
def ModelSt.reset : ModelSt :=
  { cur := none, old := none, pend := none, pendAddr := 0, pendSwitch := 0, stagedAt := 0, structural := false, status := .idle,
    reason := 0, deferrals := 0, gen := 0, latched := [], outside := [], fresh := true,
    img := [], pendImg := [], bank := 0, banks := [] }

/-- No candidate inputs (R132). Log entry 7 (DESIGN CHOICE, unsafe). -/
def CandSt.reset : CandSt :=
  { base := [], noBase := true, seedAddr := 0, seedCount := 0, short2 := 0, surv := [], short3 := 0, primAddr := 0,
    primN := 0, primPend := none, primStatus := 0, dropSurv := false, raised := [], generated := 0, genLast := 0,
    seedsLast := 0, reassignedLast := 0, noBaseCycles := 0, latchDue := false, seedNd := false, survNd := false }

/-- No peer, empty ring (R194). Log entry 7 (DESIGN CHOICE, unsafe); Log entry 8 (DESIGN CHOICE, unsafe). -/
def PeerSt.reset : PeerSt :=
  { ring := [], slots := [], dropCyc := 0, admitted := 0, rejected := 0, admitLast := 0, rejectLast := 0, dups := 0, rejReasons := [], sets := [], setUse := 0,
    setLast := 0, tb := 0, lateCyc := false, lateNext := false, admitDone := false, compiling := none, compiled := none,
    port0 := { sak := [], sas := [], tx := [], txAn := 0 }, port1 := { sak := [], sas := [], tx := [], txAn := 0 }, pubSeq := 0, pubLast := 0, pubFrames := 0, pubStore := 0, sent := [] }

/-- No selection (R212). -/
def SelSt.reset : SelSt :=
  { runs := [], cyc := [], last := [], winId := 0xFFFFFFFF, winKey := 0x7FC00000, scan := [], overruns := 0, mainDone := false,
    mainNondet := false, winDone := false, lostMain := false, lostWin := false, dead := [] }

/-- The solver after reset (R238). -/
def PsnSt.reset : PsnSt :=
  { cyc := [], unitBusy := [], unitSolves := [], regProblems := 0, regPivots := 0, estMiss := 0, estIters := 0,
    estStatus := 0xFF, estReg := 0, bgStatus := 0xFF, bgIters := 0, bgCycle := 0, pivLast := 0, estLast := 0xFF, badW := [], slots := [] }

/-- The neural engines after reset (R261). -/
def CobSt.reset : CobSt :=
  { cyc := [], unitBusy := [], unitTiles := [], weights := [], wPend := none, wCheck := none, wStatus := 0, wGen := 0,
    noWeights := [], costMissing := false, cl := [], costNd := false, retiled := [], wSets := [], loaded := [], invs := [], nextInv := 0, seedNd := [] }

/-- The machine right after reset: AON_PORST_N low, nothing powered up yet, every unit OFFLINE (R13), every register and
object at its reset value or default, no byte of memory listed, an empty queue. -/
def State.reset : State :=
  { pending := [], now := 0, clk := .none, units := [], regs := [], regsF := [], cmdResult := 0, phu := .reset, sched := .reset,
    plan := .reset, mem := .reset, world := .reset, model := .reset, cand := .reset, pod := .reset,
    peers := .reset, sel := .reset, psn := .reset, cob := .reset, diag := .reset, logs := .reset, safety := .reset, det := .reset, od := .reset,
    cpm := .reset, pins := .reset, svc := .reset, resp := .none, freeCtr := 0 }

end Sys2Proof.Machine
end

