-- ==== Sys2Proof/Machine/Ops.lean ====
section
/-!
DEFINITION. The named operations over State that every block shares: registers as written and in force, object values,
bytes of memory, the phase, and free values.
-/
namespace Sys2Proof.Machine
open Sys2Proof.Config

/-! ### Registers -/

/-- The register word as last written. -/
def regGet (s : State) (off : Nat) : Nat := (Smap.get regReset s.regs off).toNat

/-- The register word in force: the value at the last boundary, for a register whose change takes effect at a boundary. -/
def regF (s : State) (off : Nat) : Nat := (Smap.get regReset s.regsF off).toNat

/-- Hardware or firmware sets a register word. -/
def regSet (s : State) (off v : Nat) : State :=
  { s with regs := Smap.set regReset s.regs off (BitVec.ofNat 32 v) }

/-- Firmware loads a register at boot or on an object's behalf, in force at once. -/
def regLoad (s : State) (off v : Nat) : State :=
  { s with regs := Smap.set regReset s.regs off (BitVec.ofNat 32 v),
           regsF := Smap.set regReset s.regsF off (BitVec.ofNat 32 v) }

/-- Bits [lo + n - 1 : lo] of a register are set to `v`, the rest kept. -/
def regField (s : State) (off lo n v : Nat) : State :=
  let old := regGet s off
  let m := 2 ^ lo * (2 ^ n - 1)
  regSet s off ((old - (old &&& m)) + (v % 2 ^ n) * 2 ^ lo)

/-- A saturating 32-bit counter register rises by one. -/
def regCount (s : State) (off : Nat) : State := regSet s off (satInc 32 (regGet s off))

/-! ### The clk -/

/-- What the present clk has done: nothing when time has passed since. Log entry 66 (DESIGN CHOICE, unsafe). -/
def clkNow (s : State) : ClkSt := if s.clk.tick = s.now then s.clk else { ClkSt.none with tick := s.now }

/-! ### Objects -/

/-- An object value as last written. -/
def objGet (s : State) (idx sub : Nat) : Int := Smap.get objDefaultK s.od.obj (objKey idx sub)

/-- The object value in force. -/
def objF (s : State) (idx sub : Nat) : Int := Smap.get objDefaultK s.od.force (objKey idx sub)

/-- The object value in force as a natural number. -/
def objN (s : State) (idx sub : Nat) : Nat := (objF s idx sub).toNat

/-- The object value as written, as a natural number. -/
def objW (s : State) (idx sub : Nat) : Nat := (objGet s idx sub).toNat

/-- Stores an object value as written. -/
def objSet (s : State) (idx sub : Nat) (v : Int) : State :=
  { s with od := { s.od with obj := Smap.set objDefaultK s.od.obj (objKey idx sub) v } }

/-- Stores an object value as written and in force. -/
def objPut (s : State) (idx sub : Nat) (v : Int) : State :=
  { s with od := { s.od with obj := Smap.set objDefaultK s.od.obj (objKey idx sub) v,
                             force := Smap.set objDefaultK s.od.force (objKey idx sub) v } }

/-- Puts a written value in force. -/
def objApply (s : State) (idx sub : Nat) : State :=
  { s with od := { s.od with force := Smap.set objDefaultK s.od.force (objKey idx sub) (objGet s idx sub) } }

/-- A write of the records area of eMRAM (R480). -/
def recordWrite (s : State) : State := { s with svc := { s.svc with writes := s.svc.writes + 1 } }

/-! ### Memory bytes -/

/-- What a byte of memory that nothing has written reads as: 0. Log entry 2 (DESIGN CHOICE, unsafe). -/
def byteDefault (_ : Nat) : Byte := 0

/-- One byte of the physical map. Log entry 2 (DESIGN CHOICE, unsafe). -/
def memGet (s : State) (a : Nat) : Nat := (Smap.get byteDefault s.mem.bytes a).toNat

/-- The canonical form of memory: addresses strictly rising, no listed byte equal to the default. Log entry 2 (DESIGN CHOICE, unsafe). -/
def Memory.wf (m : List Host.Cell) : Bool := Smap.wf byteDefault m

/-- Writes one byte into a cell list. Log entry 2 (DESIGN CHOICE, unsafe). -/
def cellSet (m : List Host.Cell) (a b : Nat) : List Host.Cell := Smap.set byteDefault m a (BitVec.ofNat 8 b)

/-- Writes a byte string into a cell list, from address `a` upwards. -/
def cellPut : List Host.Cell → Nat → Bytes → List Host.Cell
  | m, _, [] => m
  | m, a, b :: t => cellPut (cellSet m a b) (a + 1) t

/-- Writes one byte of the physical map. -/
def memSet (s : State) (a b : Nat) : State := { s with mem := { s.mem with bytes := cellSet s.mem.bytes a b } }

/-- The numbers of a list that lie outside the whole 64-byte words of a write of `n` bytes at `a`, counted from `base`. -/
def uncovered (base a n : Nat) (l : List Nat) : List Nat :=
  if l.isEmpty then l else l.filter (fun x => !(decide (a ≤ base + 64 * x) && decide (base + 64 * x + 64 ≤ a + n)))

/-- Writes a byte string. A write that covers a whole word or burst makes it good again (R324, R334). -/
def memPut (s : State) (a : Nat) (l : Bytes) : State :=
  { s with mem := { s.mem with bytes := cellPut s.mem.bytes a l
                               ueWords := uncovered 0x2000000000 a l.length s.mem.ueWords
                               ueBursts := uncovered 0 a l.length s.mem.ueBursts } }

/-- Reads `n` bytes. -/
def memBytes (s : State) (a n : Nat) : Bytes := (List.range n).map (fun i => memGet s (a + i))

/-- Reads a little-endian number of `n` bytes. -/
def memLe (s : State) (a n : Nat) : Nat := ofLe (memBytes s a n)

/-- Reads a signed little-endian number of `n` bytes. -/
def memLeS (s : State) (a n : Nat) : Int := toSigned (8 * n) (memLe s a n)

/-- Writes a little-endian number of `n` bytes. -/
def memPutLe (s : State) (a n v : Nat) : State := memPut s a (leBytes n v)

/-- Start of the shared store of a stack in the physical map (R22). -/
def ssBase (stack : Nat) : Nat := 0x2000000000 + stack * 0x8000000

/-- An address of a shared store, at the same offset in the store of a stack. -/
def ownStore (stack a : Nat) : Nat := if a < ssBase 0 then a else ssBase stack + (a - ssBase 0) % 0x8000000

/-- First offset of the secure region (R22, R328). -/
def secureOff : Nat := 0x7F00000

/-- Fitted DDR5 bytes by DDR_CFG (R332, R342): 16 data components × density × ranks. -/
def ddrBytes (s : State) : Nat :=
  let c := regF s Reg.ddrCfg
  2 ^ 31 * (8 * (field c 4 4 % 4 + 1)) * (field c 0 1 + 1)

/-- Whether `n` bytes at `a` lie within the fitted DDR5 (R22). -/
def inDdr (s : State) (a n : Nat) : Bool := decide (a + n ≤ ddrBytes s)

/-! ### Clock sources -/

/-- Whether a clock source is failed: 1 REFCLK, 2 PLL_ARITH, 3 PLL_APP, 4 PLL_MEM, 5 PLL_IO, 6 watch oscillator
(R476); a failed REFCLK counts for every PLL (R464). -/
def srcFailed (s : State) (src : Nat) : Bool :=
  s.cpm.failed.any (fun p => p.1 == src || (p.1 == 1 && decide (2 ≤ src) && decide (src ≤ 5)))

/-! ### Phase -/

/-- The phase in pu: the integer part of the accumulator (R33). -/
def phase (s : State) : Nat := s.phu.acc / 2 ^ 32

/-- Whether the phase runs (R36): in TRACK to LOST, and in ACQUIRE on a held increment; not while PLL_ARITH is failed (R464). -/
def phaseRuns (s : State) : Bool :=
  !srcFailed s 2 &&
  match s.phu.st with
  | .off => false
  | .acquire => s.phu.held
  | _ => true

/-- Cycle loss (R37): LOST, or ACQUIRE with a running phase. -/
def cycleLoss (s : State) : Bool :=
  match s.phu.st with
  | .lost => true
  | .acquire => s.phu.held
  | _ => false

/-- Whether the state of R36 publishes and commits. -/
def publishes (s : State) : Bool :=
  match s.phu.st with
  | .locked | .miss | .coast => true
  | _ => false

/-- The phase status that R36 stamps; while OFF, for which its table gives none, 3. Log entry 67 (DESIGN CHOICE, unsafe). -/
def phuStatus : PhuSt → Nat
  | .off | .acquire | .lost => 3
  | .track => 2
  | .locked | .miss => 0
  | .coast => 1

/-- The state code of R36. -/
def phuCode : PhuSt → Nat
  | .off => 0 | .acquire => 1 | .track => 2 | .locked => 3 | .miss => 4 | .coast => 5 | .lost => 6

/-- Time passes by `dt` ticks: the tick count rises and a running phase advances (R33); a wrap makes the boundary due.
Log entry 1 (DESIGN CHOICE, safe); Log entry 6 (DEDUCED, safe). -/
def advance (s : State) (dt : Nat) : State :=
  if phaseRuns s then
    let t := s.phu.acc + s.phu.inc * dt
    { s with now := s.now + dt,
             phu := { s.phu with acc := t % 2 ^ 48, boundaryDue := s.phu.boundaryDue || decide (2 ^ 48 ≤ t),
                                 atBound := s.phu.atBound && decide (dt = 0) } }
  else { s with now := s.now + dt }

/-- The phase has reached `g` in this cycle: when it still stands below, time passes until it does.
Log entry 6 (DEDUCED, safe). -/
def reachPhase (s : State) (g : Nat) : State :=
  if phase s < g ∧ phaseRuns s ∧ 0 < s.phu.inc ∧ !s.phu.boundaryDue then
    advance s (ceilDiv (g * 2 ^ 32 - s.phu.acc) s.phu.inc)
  else s

/-- Ticks that one clk adds (R33): by grade and DVFS point (R471). Log entry 1 (DESIGN CHOICE, safe). -/
def ticksPerClk (s : State) : Nat :=
  match s.cpm.point with
  | 0 => if s.svc.grade = 0 then 9 else 10
  | 1 => 12
  | _ => 18

/-- The next clk. Log entry 66 (DESIGN CHOICE, unsafe). -/
def nextClk (s : State) : State := advance s (ticksPerClk s)

/-- The clk in which something acts that acts once in a clk: the present one, or the next where it has acted in this one.
Log entry 66 (DESIGN CHOICE, unsafe). -/
def ownClk (s : State) (a : ClkAct) : State :=
  let s := if (clkNow s).acts.contains a then nextClk s else s
  let c := clkNow s
  { s with clk := { c with acts := a :: c.acts } }

/-- Frequency of CLK_ARITH in MHz (R471). -/
def arithMHz (s : State) : Nat := 9000 / ticksPerClk s

/-! ### Determinism -/

/-- DET_STRICT (R404): DET_CTRL.STRICT in force. -/
def detStrict (s : State) : Bool := bit (regF s Reg.detCtrl) 0

/-- The records that the ring holds as consumed by a cycle (R406). -/
def ringOf (s : State) (c : Nat) : List InRec :=
  s.det.ring.filterMap (fun x => match x with | .input n r => if n = c then some r else none | _ => none)

/-- The recorded outcomes and choices of this cycle, which replay imposes (R408): the cycle that consumes them is the next.
Log entry 51 (DESIGN CHOICE, unsafe). -/
def imposedRecs (s : State) (typ : Nat) : List InRec :=
  if s.det.replay && !s.det.replayDone then (ringOf s (s.phu.cycle + 1)).filter (fun r => r.typ == typ) else []

/-- Whether replay imposes a timing outcome of an event code in this cycle, with given data words 0 where one is named.
Log entry 51 (DESIGN CHOICE, unsafe). -/
def imposed (s : State) (code : Nat) (d0 : Option Nat) : Bool :=
  (imposedRecs s 8).any (fun r => getLe r.content 10 2 == code && (match d0 with | some d => getLe r.content 12 4 == d | none => true))

/-- Whether replay imposes a gate's timing outcome of an event code at the present phase. Log entry 51 (DESIGN CHOICE, unsafe). -/
def imposedAt (s : State) (code : Nat) : Bool :=
  (imposedRecs s 8).any (fun r => getLe r.content 10 2 == code && r.phase == phase s)

/-! ### Free values and answers -/

/-- The next free value and the state that has used it. Log entry 3 (DESIGN CHOICE, safe). -/
def takeFree (s : State) : Nat × State := (Config.free s.freeCtr, { s with freeCtr := s.freeCtr + 1 })

/-- `n` free bytes. Log entry 3 (DESIGN CHOICE, safe); Log entry 36 (DESIGN CHOICE, safe). -/
def takeFreeBytes (s : State) (n : Nat) : Bytes × State :=
  ((List.range n).map (fun i => Config.free (s.freeCtr + i) % 256), { s with freeCtr := s.freeCtr + n })

/-- The trace points that are on (R485, R503). -/
def traceMask (s : State) : Nat := regGet s Reg.svcTraceHi * 2 ^ 32 + regGet s Reg.svcTraceLo

/-- The command's answer. -/
def answer (s : State) (r : Resp) : State := { s with resp := r }

/-- An SM2 buffer is complete: of those completed in earlier clk only the last still counts (R427). -/
def rxPush (s : State) (tick : Nat) (state frame : Option Bytes) : State :=
  { s with od := { s.od with rxQ := (s.od.rxQ.filter (fun x => x.tick != s.now)).getLast?.toList ++ [{ tick := tick, state := state, frame := frame }] } }

/-! ### Power -/

/-- Whether the main domain runs: out of reset and not powered off (R364, R473). Log entry 15 (DEDUCED, safe). -/
def mainUp (s : State) : Bool :=
  !s.safety.safeState &&
  match s.cpm.boot with
  | .aonReset | .mainReset => false
  | _ => true

/-- Whether the always-on domain runs. Log entry 15 (DEDUCED, safe). -/
def aonUp (s : State) : Bool :=
  !s.safety.safeState && (match s.cpm.boot with | .aonReset => false | _ => true)

/-- Whether the logic fed by PLL_ARITH runs: engines, shared store, Onions, QMGR, PHU (R461). Log entry 15 (DEDUCED, safe). -/
def arithUp (s : State) : Bool := mainUp s && !srcFailed s 2

/-- Whether the logic fed by PLL_IO runs: firmware processors, hash engines, EtherCAT, Ethernet, CSI-2, xSPI, I3C and
IMU (R461). Log entry 15 (DEDUCED, safe). -/
def ioUp (s : State) : Bool := mainUp s && !srcFailed s 5

/-- Whether the application cluster runs (R461, R475). Log entry 15 (DEDUCED, safe). -/
def appUp (s : State) : Bool := mainUp s && s.cpm.appUp && !srcFailed s 3

end Sys2Proof.Machine
end

