-- ==== Sys2Proof/Machine/Flags.lean ====
section
/-!
DEFINITION. Events (R379, R393, R483): raising an event sets its bit in its block's EVENT register and holds its record for the
end of the command, where the records take their SEQ; the reactions of the event codes; and the black box (R495).
-/
namespace Sys2Proof.Machine

/-! ### EVENT registers -/

/-- The EVENT registers that an event code sets, each with its bit: PHU_EVENT (R49), MRW_EVENT (R81), POD_EVENT (R169),
ETH_EVENT (R193), RAD_EVENT (R213), PSN_EVENT (R239), COB_EVENT (R262), ONION_EVENT (R289), QMGR_EVENT (R290), SSC_EVENT
(R340), DDR_EVENT (R342), HSK_EVENT (R375), DET_EVENT (R412), ECAT_EVENT (R435), CPM_EVENT (R478), SVC_EVENT (R503). -/
def eventBits (code stack : Nat) : List (Nat × Nat) :=
  let i := code % 256 - 1
  match code / 256 with
  | 0x01 => [(Reg.phuEvent, i)]
  | 0x02 => [(Reg.mrwEvent, i)]
  | 0x05 => [(Reg.podEvent, i)]
  | 0x06 => [(Reg.ethEvent, i)]
  | 0x07 => [(Reg.radEvent, i)]
  | 0x08 => [(Reg.psnEvent, i)]
  | 0x09 => [(Reg.cobEvent, i)]
  | 0x0A => if i < 8 then [(Reg.onionEvent + 0x10000 * stack, i)] else [(Reg.qmgrEvent, i - 8)]
  | 0x0C => if 4 ≤ i ∧ i < 8 then [(Reg.sscEvent, i), (Reg.ddrEvent, i - 4)] else [(Reg.sscEvent, i)]
  | 0x0D => [(Reg.hskEvent, i)]
  | 0x0F => [(Reg.detEvent, i)]
  | 0x10 => [(Reg.ecatEvent, i)]
  | 0x12 => [(Reg.cpmEvent, i)]
  | 0x13 => if i < 14 then [(Reg.svcEvent, i)] else []
  | _ => []

/-- A hardware event sets a bit of a W1C register, and the clk keeps it (R7). -/
def w1cSet (s : State) (o i : Nat) : State :=
  let c := clkNow s
  { regSet s o (setBit (regGet s o) i) with clk := { c with w1c := Smap.upd (fun _ => 0) c.w1c o (fun m => setBit m i) } }

/-- A software write of `v` to a W1C register: a bit that an event has set in the same clk stays (R7). -/
def w1cClear (s : State) (o v : Nat) : State :=
  let old := regGet s o
  regSet s o (old - (old &&& v) + (old &&& v &&& Smap.get (fun _ => 0) (clkNow s).w1c o))

/-- Sets the bits of an event in its EVENT registers. -/
def setEventBits (s : State) (l : List (Nat × Nat)) : State := l.foldl (fun s p => w1cSet s p.1 p.2) s

/-- Raises an event with four data words; `stack` chooses the ONION block of 0x0A01 to 0x0A08 (R288). -/
def raiseX (s : State) (stack code unit d0 d1 d2 d3 : Nat) : State :=
  let r : EvRec := { cycle := s.phu.cycle % 2 ^ 48, phase := phase s, unit := unit, code := code, d0 := d0 % 2 ^ 32,
                     d1 := d1 % 2 ^ 32, d2 := d2 % 2 ^ 32, d3 := d3 % 2 ^ 32, seq := 0 }
  setEventBits { s with logs := { s.logs with buf := s.logs.buf ++ [r] } } (eventBits code stack)

/-- Raises an event with two data words. -/
def raise (s : State) (code unit d0 d1 : Nat) : State := raiseX s 0 code unit d0 d1 0 0

/-- Raises an event of an Onion on a stack. -/
def raiseOnion (s : State) (stack code unit d0 d1 : Nat) : State := raiseX s stack code unit d0 d1 0 0

/-- Trace point `i` writes its record for the processor that executes it; its data words are free. Log entry 41 (DESIGN CHOICE, unsafe). -/
def tracePoint (s : State) (u i : Nat) : State :=
  let n := s.freeCtr
  raiseX { s with freeCtr := n + 4 } 0 (0x1380 + i) u (Config.free n) (Config.free (n + 1)) (Config.free (n + 2)) (Config.free (n + 3))

/-- The trace points that a firmware processor meets in its work: which of those that are on is free (R485).
Log entry 41 (DESIGN CHOICE, unsafe). -/
def tracePoints (s : State) (u : Nat) : State :=
  if traceMask s = 0 then s
  else
    let (f, s) := takeFree s
    ((List.range 64).filter (fun i => bit (traceMask s) i && bit f i)).foldl (fun s i => tracePoint s u i) s

/-! ### Reactions -/

/-- The reactions of R379. -/
inductive Reaction where
  | n | f | c | k | d | s
  deriving DecidableEq, Repr

/-- The reaction of an event (R393, R394, R410, R433, R501). -/
def reaction (code d1 : Nat) : Reaction :=
  match code with
  | 0x0207 | 0x0701 | 0x0802 | 0x0901 | 0x0A05 | 0x0A08 | 0x0B07 | 0x0D01 | 0x0E05 | 0x0E09 | 0x0F05 | 0x1009
  | 0x1302 => .f
  | 0x0A06 => if d1 % 2 ^ 16 = 0xFFFF then .n else .f
  | 0x0C01 => .c
  | 0x0C04 | 0x0E08 => .d
  | 0x0C0A => if d1 = 0 then .f else .n
  | 0x0D02 => .k
  | 0x0D03 => if d1 = 3 then .f else .n
  | 0x0D06 => .s
  | _ => .n

/-- Whether a record also enters the black box (R484). -/
def boxed (r : EvRec) : Bool :=
  match reaction r.code r.d1 with
  | .f | .k | .s | .d => true
  | _ => false

/-- The 32 bytes of an event record (R483). -/
def evBytes (r : EvRec) : Bytes :=
  leBytes 6 r.cycle ++ leBytes 2 r.phase ++ leBytes 2 r.unit ++ leBytes 2 r.code ++ leBytes 4 r.d0 ++ leBytes 4 r.d1 ++
    leBytes 4 r.d2 ++ leBytes 4 r.d3 ++ leBytes 4 r.seq

/-! ### Black box -/

/-- Bytes 0 to 95 of an entry (R495). -/
def boxHead (bseq btype cycle : Nat) (b1 b2 : Bytes) : Bytes :=
  leBytes 4 bseq ++ [btype] ++ zeros 3 ++ leBytes 8 cycle ++ fit 32 b1 ++ fit 48 b2

/-- All 128 bytes of an entry. -/
def boxBytes (e : BoxEntry) : Bytes := boxHead e.bseq e.btype e.cycle e.body1 e.body2 ++ e.chain ++ e.tag

/-- Entries that each ring holds (R495). -/
def boxCap : Nat := 32768

/-- The entry that an append makes: chained and tagged (R495, R501). Bytes of the bodies that the specification does not give are free
(log entry 3). Log entry 3 (DESIGN CHOICE, safe); Log entry 21 (DESIGN CHOICE, unsafe). -/
def boxEntry (s : State) (btype : Nat) (b1 b2 f : Bytes) : BoxEntry :=
  let b1 := fit 32 (b1 ++ (f.take 32).drop b1.length)
  let b2 := fit 48 (b2 ++ (f.drop 32).drop b2.length)
  let head := boxHead s.logs.bseq btype s.phu.cycle b1 b2
  let chain := (sha256 (s.logs.chain ++ head)).take 16
  { bseq := s.logs.bseq, btype := btype, cycle := s.phu.cycle, body1 := b1, body2 := b2, chain := chain
    tag := (hmac256 s.svc.boxKey (head ++ chain)).take 16 }

/-- Both rings take an entry; the oldest is overwritten when they are full. -/
def boxPush (s : State) (e : BoxEntry) : State :=
  let l := s.logs
  let box := if l.box.length < boxCap then l.box else l.box.drop 1
  { s with logs := { l with box := box ++ [e], bseq := (l.bseq + 1) % 2 ^ 32, chain := e.chain } }

/-- Appends an entry to both rings; one that is overwritten raises event 0x130A (R495). Log entry 59 (DESIGN CHOICE, unsafe). -/
def boxAdd (s : State) (btype : Nat) (b1 b2 : Bytes) : State :=
  let (f, s) := takeFreeBytes s 80
  let e := boxEntry s btype b1 b2 f
  if s.logs.box.length < boxCap then boxPush s e else raise (boxPush s e) 0x130A 0xFFFF (s.logs.box.headD e).bseq 0

/-! ### Stamping -/

/-- Order of the records of one clk: ascending UNIT, then ascending CODE (R483). -/
def evLe (a b : EvRec) : Bool := decide (a.unit < b.unit) || (a.unit == b.unit && decide (a.code ≤ b.code))

/-- Records that a log ring holds (R484). -/
def ringCap : Nat := 2048

/-- The stack whose ring takes a record: the stack bit of its unit, Stack 0 for the device. Log entry 9 (DEDUCED, unsafe). -/
def evStack (r : EvRec) : Nat := if r.unit = 0xFFFF then 0 else field r.unit 10 1

/-- Whether a record is a trace point's (R485). -/
def isTrace (code : Nat) : Bool := decide (0x1380 ≤ code) && decide (code < 0x13C0)

/-- The unit ID of the lowest-ID service processor of a stack (R482, R484). -/
def svcLowest (s : State) (k : Nat) : Nat :=
  0x5800 + 1024 * k + ((List.range 13).find? (bit (if k = 0 then s.mem.svcMask0 else s.mem.svcMask1))).getD 0

/-- Writes one stamped record into its ring; a full ring loses its oldest record. A trace record goes into the ring of the processor that
wrote it (R485). Log entry 9 (DEDUCED, unsafe). -/
def ringAdd (s : State) (r : EvRec) : State :=
  let l := s.logs
  if isTrace r.code ∧ svcLowest s (evStack r) ≠ r.unit then
    let old := Smap.get (fun _ => []) l.own r.unit
    { s with logs := { l with own := Smap.set (fun _ => []) l.own r.unit ((old ++ [r]).drop (old.length + 1 - ringCap)) } }
  else if evStack r = 0 then
    if ringCap ≤ l.ring0.length then
      { s with logs := { l with ring0 := l.ring0.drop 1 ++ [r], copied0 := l.copied0 - 1,
                                lost0 := l.lost0 + (if l.copied0 = 0 then 1 else 0) } }
    else { s with logs := { l with ring0 := l.ring0 ++ [r] } }
  else
    if ringCap ≤ l.ring1.length then
      { s with logs := { l with ring1 := l.ring1.drop 1 ++ [r], copied1 := l.copied1 - 1,
                                lost1 := l.lost1 + (if l.copied1 = 0 then 1 else 0) } }
    else { s with logs := { l with ring1 := l.ring1 ++ [r] } }

/-- Stamps one record with the next SEQ, writes it into its ring and, by its reaction, into the black box. -/
def stamp (s : State) (r : EvRec) : State :=
  let r := { r with seq := s.logs.seq }
  let s := ringAdd { s with logs := { s.logs with seq := (s.logs.seq + 1) % 2 ^ 32 } } r
  if boxed r then boxAdd s 1 (evBytes r) [] else s

/-- Stamps every held record, those of one command counting as raised in one clk. Log entry 62 (DEDUCED, unsafe). -/
def stampAll (s : State) : State :=
  let l := sortBy evLe s.logs.buf
  l.foldl stamp { s with logs := { s.logs with buf := [] } }

end Sys2Proof.Machine
end

