-- ==== Sys2Proof/Machine/Units.lean ====
section
/-!
DEFINITION. Units, their IDs and pools (R9 to R11), the unit state machine (R12 to R18), the disabled-unit map (R19), the UCTL
registers computed from the units (R29, R30), and what a unit's departure from service brings with it (R16, R382).
-/
namespace Sys2Proof.Machine
open Sys2Proof.Config

/-! ### The units -/

/-- The table of R9. -/
def classTable : List ClassRow := [
  ⟨0x00, 544, 544, 512, 32, true⟩, ⟨0x01, 32, 32, 32, 0, false⟩, ⟨0x02, 32, 32, 32, 0, false⟩,
  ⟨0x03, 68, 68, 64, 4, true⟩, ⟨0x04, 9, 9, 8, 1, true⟩, ⟨0x05, 5, 5, 4, 1, true⟩, ⟨0x06, 3, 3, 2, 1, true⟩,
  ⟨0x07, 3, 3, 2, 1, true⟩, ⟨0x08, 1, 1, 1, 0, false⟩, ⟨0x09, 1, 1, 1, 0, false⟩, ⟨0x0A, 8, 8, 8, 0, false⟩,
  ⟨0x0B, 13, 13, 12, 1, true⟩, ⟨0x0C, 2, 2, 2, 0, false⟩, ⟨0x0D, 6, 8, 8, 0, false⟩, ⟨0x0E, 2, 2, 2, 0, false⟩,
  ⟨0x0F, 8, 0, 8, 0, false⟩, ⟨0x10, 0, 1, 1, 0, false⟩]

/-- Class, stack and index of a unit ID (R11). -/
def idClass (u : Nat) : Nat := field u 11 5
/-- Stack of a unit ID. -/
def idStack (u : Nat) : Nat := field u 10 1
/-- Index of a unit ID. -/
def idIndex (u : Nat) : Nat := field u 0 10

/-- The unit ID of a class, stack and index (R11). -/
def unitId (cls stack idx : Nat) : Nat := cls * 2048 + stack * 1024 + idx

/-- Physical units of a class on a stack (R9). -/
def physCount (cls stack : Nat) : Nat :=
  match classTable.find? (fun r => r.code == cls) with
  | some r => if stack = 0 then r.phys0 else r.phys1
  | none => 0

/-- Whether a class has a spare pool (R9, R382). -/
def hasPool (cls : Nat) : Bool :=
  match classTable.find? (fun r => r.code == cls) with
  | some r => r.pool
  | none => false

/-- Whether an ID names a physical unit (R11). -/
def unitExists (u : Nat) : Bool := decide (u < 0x10000) && decide (idIndex u < physCount (idClass u) (idStack u))

/-- The units of a class on a stack, ascending. -/
def classUnits (cls stack : Nat) : List Nat := (List.range (physCount cls stack)).map (unitId cls stack)

/-- Every physical unit in ascending ID order (R19). -/
def allUnits : List Nat :=
  (List.range 17).flatMap (fun c => classUnits c 0 ++ classUnits c 1)

/-- The Husk's unit ID (R11). -/
def huskId : Nat := 0x8400

/-- The Pod of a Pea, Leek or brick cache: 32 × stack + Pod index. -/
def podOf (u : Nat) : Nat := 32 * idStack u + (if idClass u = 0 then idIndex u / 17 else idIndex u)

/-- The pool of a unit: the Pod's Peas, or the class on its stack (R9, R14). -/
def poolUnits (u : Nat) : List Nat :=
  if idClass u = 0 then (List.range 17).map (fun i => unitId 0 (idStack u) (idIndex u / 17 * 17 + i))
  else classUnits (idClass u) (idStack u)

/-- The pool's target: units ACTIVE when the pool is whole; the physical count for a class without a pool (R14). -/
def poolTarget (u : Nat) : Nat :=
  if idClass u = 0 then 16
  else match classTable.find? (fun r => r.code == idClass u) with
    | some r => if r.pool then r.target else physCount (idClass u) (idStack u)
    | none => 0

/-! ### Records -/

/-- The record of a unit. -/
def unitDefault (_ : Nat) : UnitRec := .off

/-- A unit's record. -/
def unitOf (s : State) (u : Nat) : UnitRec := Smap.get unitDefault s.units u

/-- A unit's state. -/
def unitSt (s : State) (u : Nat) : UState := (unitOf s u).st

/-- Replaces a unit's record. -/
def unitSet (s : State) (u : Nat) (r : UnitRec) : State := { s with units := Smap.set unitDefault s.units u r }

/-- Changes a unit's record. -/
def unitUpd (s : State) (u : Nat) (f : UnitRec → UnitRec) : State := unitSet s u (f (unitOf s u))

/-- Whether a unit is ACTIVE. -/
def isActive (s : State) (u : Nat) : Bool := unitSt s u == .active

/-- Units of a list in a state. -/
def countIn (s : State) (l : List Nat) (st : UState) : Nat := (l.filter (fun u => unitSt s u == st)).length

/-- ACTIVE units of a class on a stack. -/
def activeCount (s : State) (cls stack : Nat) : Nat := countIn s (classUnits cls stack) .active

/-- The lowest-ID unit of a list in a state. -/
def lowestIn (s : State) (l : List Nat) (st : UState) : Option Nat := l.find? (fun u => unitSt s u == st)

/-- Whether Pod g is in service: its Leek and its brick cache ACTIVE and at least one of its Peas ACTIVE (R157, R161). -/
def podInService (s : State) (g : Nat) : Bool :=
  let k := g / 32
  let p := g % 32
  isActive s (unitId 1 k p) && isActive s (unitId 2 k p) &&
    (List.range 17).any (fun i => isActive s (unitId 0 k (17 * p + i)))

/-- Whether a unit of Pod g is DRAINING (R158). -/
def podDraining (s : State) (g : Nat) : Bool :=
  let dr := fun u => unitSt s u == .draining
  dr (unitId 1 (g / 32) (g % 32)) || dr (unitId 2 (g / 32) (g % 32)) || (List.range 17).any (fun i => dr (unitId 0 (g / 32) (17 * (g % 32) + i)))

/-- Whether the Leek, the brick cache and a Pea of Pod g are each ACTIVE or DRAINING. -/
def podUp (s : State) (g : Nat) : Bool :=
  let up := fun u => unitSt s u == .draining || unitSt s u == .active
  up (unitId 1 (g / 32) (g % 32)) && up (unitId 2 (g / 32) (g % 32)) && (List.range 17).any (fun i => up (unitId 0 (g / 32) (17 * (g % 32) + i)))

/-- The Pods in service, ascending. -/
def podsInService (s : State) : List Nat := (List.range 64).filter (podInService s)

/-! ### State codes and the transition table -/

/-- The state code of R12. -/
def ustCode : UState → Nat
  | .offline => 0 | .test => 1 | .active => 2 | .draining => 3 | .spare => 4 | .retired => 5

/-- The events of R14. -/
inductive UEvent where
  | enable | disable | test | retire | pass | fail | fault | drained | subst
  deriving DecidableEq, Repr

/-- The table of R14: state and ENABLE_PENDING after an event; `room` says that the pool's ACTIVE count is below its
target. An event not listed for a state changes nothing. -/
def unitNext (e : UEvent) (room : Bool) (st : UState) (ep : Bool) : UState × Bool :=
  match st, e with
  | .offline, .enable => (.test, true)
  | .offline, .test => (.test, false)
  | .offline, .retire => (.retired, false)
  | .test, .enable => (.test, true)
  | .test, .disable => (.test, false)
  | .test, .pass => if ep then (if room then (.active, false) else (.spare, false)) else (.offline, false)
  | .test, .fail => (.offline, false)
  | .active, .disable => (.draining, false)
  | .active, .fault => (.offline, false)
  | .draining, .enable => (.draining, true)
  | .draining, .disable => (.draining, false)
  | .draining, .drained => if ep then (.test, true) else (.offline, false)
  | .draining, .fault => (.offline, false)
  | .spare, .subst => (.test, true)
  | .spare, .test => (.test, true)
  | .spare, .disable => (.offline, false)
  | .spare, .retire => (.retired, false)
  | st, _ => (st, ep)

/-- Whether every pool with spares holds a SPARE (R382). -/
def poolsWhole (s : State) : Bool :=
  (List.range 64).all (fun g => ((List.range 17).any (fun i => unitSt s (unitId 0 (g / 32) (17 * (g % 32) + i)) == .spare))) &&
  [3, 4, 5, 6, 7, 0x0B].all (fun c => [0, 1].all (fun k => (classUnits c k).any (fun u => unitSt s u == .spare)))

/-- The batch whose work a Pea, Leek or brick cache holds: the one that its Pod has in execution (R14). -/
def podHolds (s : State) (u : Nat) : Option (Nat × Nat) :=
  if idClass u ≤ 2 then (Smap.get (fun _ => Pod.empty) s.pod.pods (podOf u)).exec.map (fun b => (b.rid, b.num)) else none

/-- Applies an event of R14 to a unit; a change of state sets UCTL_EVENT.STATE_CHG (R30), an entry to TEST clears the
window count (R380), an entry to DRAINING notes the work held in execution, and a pool that holds a SPARE again may clear bit 0 of the degraded status (R382). The Husk stays
in TEST when its test fails (R13). -/
def unitEvent (s : State) (u : Nat) (e : UEvent) : State :=
  let r := unitOf s u
  let room := decide (countIn s (poolUnits u) .active < poolTarget u)
  let (st, ep) := if u = huskId ∧ e = .fail then (UState.test, true) else unitNext e room r.st r.ep
  let faults := if st = .test ∧ r.st ≠ .test then [] else r.faults
  let held := if st ≠ .draining then none else if r.st = .draining then r.drain else podHolds s u
  let s1 := unitSet s u { r with st := st, ep := ep, faults := faults, drain := held }
  let s2 := if st = r.st then s1 else w1cSet s1 Reg.uctlEvent 0
  if st = .spare ∧ s2.diag.poolShort ∧ poolsWhole s2 then { s2 with diag := { s2.diag with poolShort := false } } else s2

/-- Whether R16 substitutes: UCTL_CTRL.AUTO_SUBST (R27). -/
def autoSubst (s : State) : Bool := bit (regGet s Reg.uctlCtrl) 0

/-- The service-processor mark of a firmware processor passes to the lowest-ID ACTIVE one of its stack without it (R482). -/
def svcDepart (s : State) (u : Nat) : State :=
  let m := if idStack u = 0 then s.mem.svcMask0 else s.mem.svcMask1
  if idClass u = 0x0B ∧ bit m (idIndex u) then
    match (classUnits 0x0B (idStack u)).find? (fun v => isActive s v && !bit m (idIndex v)) with
    | some v =>
      let m := m - 2 ^ idIndex u + 2 ^ idIndex v
      { s with mem := if idStack u = 0 then { s.mem with svcMask0 := m } else { s.mem with svcMask1 := m } }
    | none => s
  else s

/-- What a unit's departure from ACTIVE brings in the same clk: the substitution of R16, SUBST_ID (R29), and event
0x0E08 when its pool holds no SPARE (R382). -/
def substitute (s : State) (u : Nat) : State :=
  match lowestIn s (poolUnits u) .spare with
  | some sp =>
    if autoSubst s then
      unitUpd (unitEvent s sp .subst) u (fun r => { r with subst := sp })
    else unitUpd s u (fun r => { r with subst := 0xFFFF })
  | none =>
    let s := unitUpd s u (fun r => { r with subst := 0xFFFF })
    if hasPool (idClass u) then
      { raise s 0x0E08 0xFFFF (idClass u * 256 + idStack u * 16) (activeCount s (idClass u) (idStack u)) with
        diag := { s.diag with poolShort := true } }
    else s

/-- A Radish has left service: every selection under way starts again (R209). -/
def selAgain (s : State) (u : Nat) : State :=
  if idClass u = 5 then { s with sel := { s.sel with runs := s.sel.runs.map (fun r => { r with again := true }) } } else s

/-- Event 0x0503: a Pod stays in service with fewer than 16 ACTIVE Peas, its spare used up (R167). -/
def peaShort (s : State) (u : Nat) : State :=
  let g := podOf u
  let n := countIn s (poolUnits u) .active
  if idClass u = 0 ∧ podInService s g ∧ n < 16 ∧ (lowestIn s (poolUnits u) .spare).isNone ∧ (lowestIn s (poolUnits u) .test).isNone then
    raise s 0x0503 (unitId 1 (g / 32) (g % 32)) (n * 256 + g) 0
  else s

/-- A unit departs from ACTIVE: its substitution, the mark of a service processor, and the selections of a Radish.
Log entry 19 (DEDUCED, unsafe). -/
def departed (s : State) (u : Nat) : State := selAgain (svcDepart (substitute s u) u) u

/-- DISABLE applied to a unit (R14): an ACTIVE unit starts draining and R16 substitutes. Log entry 19 (DEDUCED, unsafe). -/
def disableUnit (s : State) (u : Nat) : State :=
  let was := unitSt s u
  let s := unitEvent s u .disable
  if was = .active then peaShort (departed s u) u else s

/-- Writes of the UCTL command codes by firmware or cluster once accepted. -/
def applyCmd (s : State) (u : Nat) (cmd : Nat) : State :=
  match cmd with
  | 1 => unitEvent s u .enable
  | 2 => disableUnit s u
  | 3 => unitEvent s u .test
  | _ => unitEvent s u .retire

/-- Event 0x0E02 and the black-box entry of a retirement (R381, R481, R495). -/
def retireRecord (s : State) (u reason : Nat) : State :=
  let s := raise (recordWrite s) 0x0E02 u u reason
  boxAdd s 6 [] []

/-! ### Refusals -/

/-- The minimum ACTIVE count of the running plan image for a class and stack (R17, R294). -/
def planMin (s : State) (cls stack : Nat) : Nat :=
  match s.plan.run with
  | some p => p.mins.getD (2 * cls + stack) 0
  | none => 0

/-- MIN_PODS of the running plan image. -/
def minPods (s : State) : Nat :=
  match s.plan.run with
  | some p => p.minPods
  | none => 0

/-- Whether a DISABLE of the unit would take its Pod out of service: a Leek, a brick cache, or the last ACTIVE Pea of a
Pod in service (R17). -/
def takesPod (s : State) (u : Nat) : Bool :=
  podInService s (podOf u) &&
  (idClass u == 1 || idClass u == 2 || (idClass u == 0 && decide (countIn s (poolUnits u) .active = 1)))

/-- Whether R17 refuses a DISABLE for the plan image's minimums. -/
def belowMin (s : State) (u : Nat) : Bool :=
  isActive s u &&
  (decide (activeCount s (idClass u) (idStack u) < planMin s (idClass u) (idStack u) + 1 ∧
      0 < planMin s (idClass u) (idStack u)) ||
   (takesPod s u && decide ((podsInService s).length < minPods s + 1 ∧ 0 < minPods s)))

/-- CMD_RESULT of a UCTL command (R29): the lowest reason that applies (R505); 0 accepts. `cluster` marks a command
from the application cluster, which a protected class refuses (R17). Codes 1 ENABLE, 2 DISABLE, 3 TEST, 4 RETIRE.
Log entry 19 (DEDUCED, unsafe). -/
def cmdJudge (s : State) (cluster : Bool) (u cmd : Nat) : Nat :=
  let st := unitSt s u
  if !unitExists u then (if 5 ≤ cmd then 3 else 4)
  else if cluster ∧ (idClass u = 7 ∨ idClass u = 0x10) ∧ cmd ≤ 4 then 1
  else if cmd = 2 ∧ belowMin s u then 2
  else if 5 ≤ cmd then 3
  else if cmd = 4 ∧ (st = .active ∨ st = .draining ∨ st = .test) then 3
  else if cmd = 3 ∧ (st = .active ∨ st = .draining) then 3
  else if st = .retired then 4
  else 0

/-- A UCTL command from firmware or the Husk, outside the cluster's registers: a refused one sets REFUSED (R30) and changes nothing
else; answers whether it was accepted. -/
def firmwareCmd (s : State) (u cmd : Nat) : Bool × State :=
  if cmdJudge s false u cmd = 0 then (true, applyCmd s u cmd) else (false, w1cSet s Reg.uctlEvent 1)

/-- A UCTL command from the cluster to the selected unit (R28, R29): CMD_RESULT and, when refused, REFUSED are set. -/
def clusterCmd (s : State) (cmd : Nat) : State :=
  let u := regGet s Reg.uctlUnitSel
  let res := cmdJudge s true u cmd
  let s := { s with cmdResult := res }
  if res = 0 then
    let was := unitSt s u
    let s := applyCmd s u cmd
    if cmd = 4 ∧ was ≠ .retired ∧ unitSt s u = .retired then retireRecord s u 4 else s
  else w1cSet s Reg.uctlEvent 1

/-! ### Model banks (R104) -/

/-- The banks of a Leek: bank 0 and bank 1 of its local memory. -/
def banksOf (s : State) (u : Nat) : Bytes × Bytes := Smap.get (fun _ => ([], [])) s.model.banks u

/-- A Leek's banks with an image in place of what its current (`pend` 0) or its pending bank (`pend` 1) held. -/
def bankPut (s : State) (u pend : Nat) (b : Bytes) : State :=
  let x := banksOf s u
  let y := if (s.model.bank + pend) % 2 = 0 then (b, x.2) else (x.1, b)
  { s with model := { s.model with banks := Smap.set (fun _ => ([], [])) s.model.banks u y } }

/-- The staged image is copied into a Leek's pending bank (R104). -/
def bankCopy (s : State) (u : Nat) : State := bankPut s u 1 s.model.pendImg

/-- A Leek that has passed its TEST loads the current model, and while one is staged both banks (R107). -/
def bankLoad (s : State) (u : Nat) : State :=
  let s := bankPut s u 0 s.model.img
  if s.model.pend.isSome then bankCopy s u else s

/-! ### Registers computed from the units -/

/-- The disabled-unit map, bit n for the n-th unit (R19). -/
def disMap (s : State) : List Bool := allUnits.map (fun u => !isActive s u)

/-- Bits of a list as a number, the first the least significant. -/
def ofBits : List Bool → Nat
  | [] => 0
  | b :: t => b2n b + 2 * ofBits t

/-- UCTL_DISMAP_w. -/
def dismapWord (s : State) (w : Nat) : Nat := ofBits (((disMap s).drop (32 * w)).take 32)

/-- UCTL_UNIT_STAT (R29). -/
def unitStat (s : State) : Nat :=
  let u := regGet s Reg.uctlUnitSel
  if unitExists u then
    let r := unitOf s u
    r.subst * 2 ^ 16 + s.cmdResult * 2 ^ 8 + b2n r.ep * 8 + ustCode r.st
  else 0xFFFF * 2 ^ 16 + s.cmdResult * 2 ^ 8

/-- UCTL_CLASS_CNT_c (R30). -/
def classCnt (s : State) (c : Nat) : Nat :=
  let n := fun k st => countIn s (classUnits c k) st
  n 1 .spare * 2 ^ 26 + n 1 .active * 2 ^ 16 + n 0 .spare * 2 ^ 10 + n 0 .active

/-- UCTL_ID (R26). -/
def uctlIdWord (s : State) : Nat := 0x7240 * 2 ^ 16 + s.svc.grade % 2 * 2 ^ 8 + 0xB0

/-! ### Local memories (R23) -/

/-- Start of a unit's local window. -/
def winBase (u : Nat) : Nat := 0x2100000000 + idClass u * 2 ^ 28 + idStack u * 2 ^ 27 + idIndex u * 2 ^ 20

/-- A march over a unit's local memory destroys what it held (R387), weights among it. Log entry 40 (DESIGN CHOICE, unsafe). -/
def localLost (s : State) (u : Nat) : State :=
  if idClass u = 0 ∨ 6 < idClass u then s
  else
    let out := fun (a : Nat) => decide (a < winBase u) || decide (winBase u + 0x100000 ≤ a)
    { s with mem := { s.mem with bytes := s.mem.bytes.filter (fun c => out c.1) }
             cob := { s.cob with loaded := s.cob.loaded.filter (fun x => out x.1) } }

end Sys2Proof.Machine
end

