-- ==== Sys2Proof/Machine/Tensor.lean ====
section
/-!
DEFINITION. What the Parsnips and Cobs read from memory before a task begins: tensor descriptors and why one is refused (R241, R247), and the
problem descriptor with its refusal (R233).
-/
namespace Sys2Proof.Machine

/-- A tensor descriptor (R247). -/
structure Tensor where
  magic : Nat
  fmt : Nat
  rank : Nat
  loc : Nat
  sparse : Bool
  sat : Bool
  dim : List Nat
  stride : List Nat
  qmul : Int
  base : Nat
  scale : Nat
  meta' : Nat
  qscale : Nat
  qsh : Nat
  deriving DecidableEq, Repr

/-- The descriptor at an address. -/
def tensorAt (s : State) (a : Nat) : Tensor :=
  let b := memBytes s a 64
  let fl := getLe b 7 1
  { magic := getLe b 0 4, fmt := getLe b 4 1, rank := getLe b 5 1, loc := getLe b 6 1, sparse := bit fl 0, sat := bit fl 1
    dim := (List.range 4).map (fun i => getLe b (8 + 4 * i) 4), stride := (List.range 3).map (fun i => getLe b (24 + 4 * i) 4)
    qmul := getLeS b 36 4, base := getLe b 40 8, scale := getLe b 48 8, meta' := getLe b 56 4, qscale := getLe b 60 2 * 65536,
    qsh := getLe b 62 1 }

/-- Elements of a tensor. -/
def Tensor.size (t : Tensor) : Nat := t.dim.foldl (· * ·) 1

/-- Bytes of one row; a 2:4 tensor stores half of its values (R243). -/
def rowBytes (t : Tensor) : Nat :=
  let n := t.dim.headD 1
  ceilDiv ((if t.sparse then n / 2 else n) * elemBits t.fmt) 8

/-- Bytes from the base to the end of the last row. -/
def rowsSpan (t : Tensor) : Nat :=
  sumN (((List.range 3).filter (fun i => decide (i + 1 < t.rank))).map (fun i => (t.dim.getD (i + 1) 1 - 1) * t.stride.getD i 0)) +
    rowBytes t

/-- Bytes from the base to the end of the values, or of the 2:4 metadata, a nibble per group, where that lies behind them. -/
def tensorSpan (t : Tensor) : Nat := max (rowsSpan t) (if t.sparse then t.meta' + ceilDiv (t.size / 4) 2 else 0)

/-- Whether `n` bytes at `a` lie within a location and outside the secure regions. -/
def locHolds (s : State) (loc a n : Nat) : Bool :=
  match loc with
  | 0 => decide (ssBase 0 ≤ a ∧ a + n ≤ ssBase 0 + secureOff)
  | 1 => decide (ssBase 1 ≤ a ∧ a + n ≤ ssBase 1 + secureOff)
  | 2 => inDdr s a n
  | 3 => decide (a + n ≤ 262144)
  | _ => false

/-- Whether a tensor, with its scale array, lies within its location and outside the secure regions. -/
def tensorFits (s : State) (t : Tensor) : Bool :=
  locHolds s t.loc t.base (tensorSpan t) && (!isMx t.fmt || locHolds s t.loc t.scale (ceilDiv t.size 32))

/-- Why a tensor descriptor is refused, the lowest reason first (R247, R505); 0 accepts. -/
def tensorReject (s : State) (t : Tensor) : Nat :=
  if 11 ≤ t.fmt ∨ t.magic ≠ 0x54454E53 ∨ t.rank = 0 ∨ 4 < t.rank then 1
  else if t.dim.any (fun d => decide (d = 0 ∨ 2 ^ 24 < d)) ∨ 2 ^ 32 < t.size then 2
  else if t.base % 64 ≠ 0 ∨ ((List.range 3).any (fun i => decide (i + 1 < t.rank ∧ t.stride.getD i 0 % 64 ≠ 0))) ∨
      !tensorFits s t then 3
  else if (isMx t.fmt ∧ t.dim.headD 1 % 32 ≠ 0) ∨ (t.sparse ∧ t.dim.headD 1 % 4 ≠ 0) then 4
  else 0

/-- Descriptors of the partial tensors of a reduce task: a table of 64 bytes each, in ascending K range.
Log entry 69 (DESIGN CHOICE, unsafe). -/
def partialAddrs (s : State) (param : Nat) : List Nat := (List.range (memLe s (param + 20) 4)).map (fun i => memLe s (param + 24) 8 + 64 * i)

/-- Addresses of the descriptors that a Cob task's parameter block names (R304). -/
def cobTensors (s : State) (opId param : Nat) : List Nat :=
  match opId with
  | 0x0401 => [memLe s (param + 24) 8, memLe s (param + 32) 8, memLe s (param + 40) 8]
  | 0x0402 => memLe s (param + 32) 8 :: partialAddrs s param
  | _ => []

/-- Address of the schedule of a problem descriptor at `a` (R233). -/
def schedOf (s : State) (a : Nat) : Nat := memLe s (a + 8) 8

/-- Whether a problem descriptor fails its task at start: CLASS differs from the schedule's, or ITER_MAX is 0 or above 16. -/
def problemBad (s : State) (a : Nat) : Bool :=
  memGet s (a + 4) != memGet s (schedOf s a + 6) || memGet s (a + 6) == 0 || decide (16 < memGet s (a + 6))

/-- The event with which a task of class 0x03 or 0x04 fails at its start, with its two data words (R233, R247). -/
def startReject (s : State) (d : Desc) : Option (Nat × Nat × Nat) :=
  if d.cls = 3 then
    match ((cobTensors s d.opId d.param).map (fun a => tensorReject s (tensorAt s a))).filter (· != 0) with
    | [] => none
    | l => some (0x0907, l.foldl min 255, memGet s (d.param + 16))
  else if d.cls = 4 then
    if problemBad s (d.param + 16) then some (0x0808, 6, 0) else none
  else none

end Sys2Proof.Machine
end

