-- ==== Sys2Proof/Machine/Sched.lean ====
section
/-!
DEFINITION. Task scheduling and queues: descriptors (R264, R266), sync counters (R267 to R272, R506), releases and ready lists
(R273 to R276), claiming (R277, R278), the ends of a task (R279), recall (R280), queues (R281, R282) and the dealing of
evaluations to Pods (R157, R275).
-/
namespace Sys2Proof.Machine

/-! ### Descriptors -/

/-- A descriptor of 64 bytes, decoded (R264). -/
def descOf (b : Bytes) : Desc :=
  let fl := getLe b 3 1
  let oq := getLe b 20 4
  { opId := getLe b 0 2, cls := getLe b 2 1, suspend := bit fl 5, rerunEn := bit fl 4, stackSel := field fl 2 2,
    crit := field fl 0 2, taskId := getLe b 4 4, param := getLe b 8 8, doneCtr := getLe b 16 2,
    failCtr := getLe b 18 2, outQueue := oq % 2 ^ 20, startBy := getLe b 24 2, endBy := getLe b 26 2,
    endCyc := getLe b 28 1, budget := getLe b 30 2, arg0 := getLe b 32 8, arg1 := getLe b 40 8,
    resvBad := decide (field fl 6 2 ≠ 0) || decide (oq / 2 ^ 20 ≠ 0) || decide (getLe b 29 1 ≠ 0) ||
      (slice b 48 16).any (· != 0) }

/-- The classes whose released tasks wait in ready lists (R274). -/
def readyClass (c : Nat) : Bool := c == 3 || c == 4 || c == 5 || c == 6 || c == 7 || c == 0x0B || c == 0x0C

/-- Why the Onion refuses a descriptor (R266, R287), the lowest reason first; 0 accepts. -/
def descReject (d : Desc) (byHusk : Bool) : Nat :=
  if !(readyClass d.cls || d.cls == 1) then 1
  else if d.cls = 7 ∧ !byHusk then 2
  else if d.stackSel = 3 ∧ d.cls ≠ 1 then 3
  else if 8 < d.endCyc ∨ d.budget = 0 then 4
  else if d.resvBad then 5
  else 0

/-! ### Sync counters -/

/-- A counter word (R267). -/
def ctrGet (s : State) (n : Nat) : Nat := (Smap.get (fun _ => (0 : BitVec 64)) s.sched.ctrs n).toNat

/-- ARMED of a counter word. -/
def ctrArmed (w : Nat) : Bool := bit w 63
/-- MODE; 3 acts as 0. -/
def ctrMode (w : Nat) : Nat := if field w 61 2 = 3 then 0 else field w 61 2
/-- RELOAD. -/
def ctrReload (w : Nat) : Nat := field w 16 16
/-- COUNT. -/
def ctrCount (w : Nat) : Nat := field w 0 16

/-- The word with ARMED cleared. -/
def ctrDisarm (w : Nat) : Nat := w % 2 ^ 63

/-- The word with another COUNT. -/
def ctrWithCount (w c : Nat) : Nat := w - ctrCount w + c % 2 ^ 16

/-- A counter is never ARMED with COUNT 0 (R506). -/
def ctrNorm (w : Nat) : Nat := if ctrArmed w ∧ ctrCount w = 0 then ctrDisarm w else w

/-- Stores a counter word under R506. -/
def ctrSet (s : State) (n w : Nat) : State :=
  { s with sched := { s.sched with
      ctrs := Smap.set (fun _ => (0 : BitVec 64)) s.sched.ctrs n (BitVec.ofNat 64 (ctrNorm w)) } }

/-- Counters below this belong to the installed plan image (R272). -/
def ctrPlan (s : State) : Nat :=
  match s.plan.run with
  | some p => p.ctrPlan
  | none => 0

/-- EVAL_END of the running image. -/
def evalEndPu (s : State) : Nat := match s.plan.run with | some p => p.evalEnd | none => 0

/-- A map of counts, read. -/
def cnt (m : Smap Nat) (k : Nat) : Nat := Smap.get (fun _ => 0) m k
/-- A map of counts, one more at `k`. -/
def cntUp (m : Smap Nat) (k : Nat) : Smap Nat := Smap.set (fun _ => 0) m k (cnt m k + 1)
/-- A map of counts with another value at `k`. -/
def cntPut (m : Smap Nat) (k v : Nat) : Smap Nat := Smap.set (fun _ => 0) m k v

/-- What one clk of decrements has done so far: the state, decrements applied by counter, counters released, and the
decrements that must wait (R268, R269). -/
structure ClkAcc where
  st : State
  used : Smap Nat
  rel : List Nat
  wait : List Decr

/-- One decrement in one clk (R268 to R270). -/
def decOne (a : ClkAcc) (d : Decr) : ClkAcc :=
  if 4 ≤ cnt a.used d.ctr ∨ a.wait.any (fun x => x.ctr == d.ctr) then { a with wait := a.wait ++ [d] }
  else
    let w := ctrGet a.st d.ctr
    let used := cntUp a.used d.ctr
    if !ctrArmed w then
      let s := { a.st with sched := { a.st.sched with disarmTotal := satInc 32 a.st.sched.disarmTotal } }
      { a with st := raiseOnion s (field w 60 1) 0x0A02 (if d.src = 0xFFFF then 0xFFFF else d.src) d.ctr d.src, used := used }
    else if ctrCount w = 1 then
      if a.rel.contains d.ctr then { a with wait := a.wait ++ [d] }
      else
        let w' := if ctrMode w = 0 then ctrDisarm (ctrWithCount w 0) else ctrWithCount w (ctrReload w)
        { a with st := ctrSet a.st d.ctr w', used := used, rel := a.rel ++ [d.ctr] }
    else { a with st := ctrSet a.st d.ctr (ctrWithCount w (ctrCount w - 1)), used := used }

/-- Order of decrements that are no gates: ascending source unit ID (R268). -/
def decLe (a b : Decr) : Bool := decide (a.src ≤ b.src)

/-- The stack whose Onion holds a counter: its LSTACK (R288). -/
def ctrStack (s : State) (n : Nat) : Nat := field (ctrGet s n) 60 1

/-- A release takes its place among those that wait: behind all but the ones of greater counter ID that fell in the same clk (R273). -/
def relInsert (l : List Release) (r : Release) : List Release :=
  let later := fun (x : Release) => x.tick == r.tick && x.next == 0 && decide (r.ctr < x.ctr)
  l.filter (fun x => !later x) ++ [r] ++ l.filter later

/-- Queues the release of a counter for the engine of its stack and of the level of its first descriptor (R273); a list
of no descriptors is only counted (R267). -/
def queueRelease (s : State) (n : Nat) : State :=
  let w := ctrGet s n
  let k := field w 60 1
  let line := field w 40 20
  let c := field w 32 8
  let sc := { s.sched with relCnt := cntUp s.sched.relCnt k }
  let s := { s with sched := sc }
  if c = 0 then s
  else
    let l := (List.range c).map (fun i => descOf (memBytes s (ssBase k + line * 128 + 64 * i) 64))
    let r : Release := { ctr := n, cycle := s.phu.cycle, tick := s.now, ver := s.world.cur.version, gen := s.model.gen, wgen := s.cob.wGen
                         pcopy := s.plan.copy, stack := k, level := sumN ((l.take 1).map (·.crit)), next := 0, descs := l }
    { s with sched := { sc with rels := relInsert sc.rels r } }

/-- Order of counters that released in one clk: ascending counter ID (R273). -/
def natLe (a b : Nat) : Bool := decide (a ≤ b)

/-- Decrements of the present clk: those held in an earlier one first, then the gates in issue order, then the others in ascending source
unit ID; what the clk has no room for waits in the input buffers (R268, R269). Log entry 66 (DESIGN CHOICE, unsafe). -/
def clkDecs (s : State) (gates others : List Decr) : State :=
  let c := clkNow s
  let held := s.sched.held0 ++ s.sched.held1
  let stay := if s.sched.heldTick = s.now then held else []
  let go := if s.sched.heldTick = s.now then [] else held
  let s0 := { s with sched := { s.sched with held0 := [], held1 := [] } }
  let l := go ++ gates ++ sortBy decLe others
  let old := ((l.map (·.ctr)).eraseDups.filter (fun n => !c.words.any (fun w => w.1 == n))).map (fun n => (n, ctrGet s n))
  let a := l.foldl decOne { st := s0, used := c.dec, rel := c.rel, wait := stay }
  let s1 := (sortBy natLe (a.rel.drop c.rel.length)).foldl queueRelease a.st
  let h0 := a.wait.filter (fun d => ctrStack s1 d.ctr == 0)
  let h1 := a.wait.filter (fun d => ctrStack s1 d.ctr == 1)
  let hm := cntPut s1.sched.heldMax 0 (max (cnt s1.sched.heldMax 0) h0.length)
  let hm := cntPut hm 1 (max (cnt hm 1) h1.length)
  { s1 with sched := { s1.sched with held0 := h0, held1 := h1, heldTick := s.now, heldMax := hm }
            clk := { clkNow s1 with dec := a.used, words := c.words ++ old, rel := a.rel } }

/-- What a read of a counter answers: its word after the decrements of the previous clk (R291). -/
def ctrShown (s : State) (n : Nat) : Nat := match (clkNow s).words.find? (fun w => w.1 == n) with | some w => w.2 | none => ctrGet s n

/-- The held decrements in the clk after the one that held them (R268). -/
def heldDecs (s : State) : State :=
  if s.sched.heldTick = s.now ∧ !(s.sched.held0 ++ s.sched.held1).isEmpty then clkDecs (nextClk s) [] [] else clkDecs s [] []

/-- A decrement that a unit issues for a counter; 0xFFFF names none (R264). -/
def decFor (ctr src : Nat) : List Decr := if ctr = 0xFFFF then [] else [⟨ctr, src, 0⟩]

/-! ### Queues -/

/-- Address of the record of queue q (R281, R290). -/
def qRec (s : State) (q : Nat) : Nat := regGet s Reg.qmgrQtabHi % 256 * 2 ^ 32 + regGet s Reg.qmgrQtabLo + 32 * q

/-- Queues that the QMGR's cache holds (R282). -/
def qCap : Nat := 8192

/-- Writes HEAD and TAIL of an evicted queue back to its record. -/
def qWriteBack (s : State) (e : Nat × Nat × Nat) : State :=
  memPutLe (memPutLe s (qRec s e.1 + 8) 4 e.2.1) (qRec s e.1 + 12) 4 e.2.2

/-- HEAD and TAIL of a queue, brought into the cache; the least recently used queue leaves a full cache (R282). -/
def qOpen (s : State) (q : Nat) : (Nat × Nat) × State :=
  match s.sched.qcache.find? (fun e => e.1 == q) with
  | some e =>
    (e.2, { s with sched := { s.sched with qcache := e :: s.sched.qcache.filter (fun x => x.1 != q) } })
  | none =>
    let h := memLe s (qRec s q + 8) 4
    let t := memLe s (qRec s q + 12) 4
    let s := if qCap ≤ s.sched.qcache.length then
        qWriteBack s (s.sched.qcache.getLastD (0, 0, 0)) else s
    let c := if qCap ≤ s.sched.qcache.length then s.sched.qcache.dropLast else s.sched.qcache
    ((h, t), { s with sched := { s.sched with qcache := (q, h, t) :: c, misses := s.sched.misses + 1 } })

/-- Stores HEAD and TAIL of a cached queue. -/
def qPut (s : State) (q h t : Nat) : State :=
  { s with sched := { s.sched with qcache := (q, h, t) :: s.sched.qcache.filter (fun x => x.1 != q) } }

/-- Whether a queue is enabled (QFLAGS.EN). -/
def qEn (s : State) (q : Nat) : Bool := bit (memGet s (qRec s q + 17)) 0
/-- Entries of the ring. -/
def qSize (s : State) (q : Nat) : Nat := 2 ^ (memGet s (qRec s q + 16))
/-- Address of ring entry n. -/
def qEntry (s : State) (q n : Nat) : Nat := memLe s (qRec s q) 8 + 64 * (n % qSize s q)
/-- The NOTIFY counter. -/
def qNotify (s : State) (q : Nat) : Nat := memLe s (qRec s q + 18) 2

/-- TAIL − HEAD modulo 2^32. -/
def qFill (h t : Nat) : Nat := (t + 2 ^ 32 - h) % 2 ^ 32

/-- What a push did. -/
inductive PushRes where
  | done | stalled | disabled
  deriving DecidableEq, Repr

/-- A push of one entry (R282): refused on a disabled queue with event 0x0A0A; stalled on a full queue, with the
decrements `after` and the end `ends` that wait for it; else written, with the NOTIFY decrement to be issued in the same
clk. -/
def qPush (s : State) (q unit : Nat) (entry : Bytes) (after : List Decr) (ends : Bool) :
    PushRes × List Decr × State :=
  if !qEn s q then (.disabled, [], raise s 0x0A0A unit q unit)
  else
    let ((h, t), s) := qOpen s q
    if qFill h t = qSize s q then
      (.stalled, [], { s with sched := { s.sched with stalls := s.sched.stalls ++ [⟨q, unit, fit 64 entry, s.now, s.now, false, after, ends⟩] } })
    else
      let s := memPut s (qEntry s q t) (fit 64 entry)
      let s := qPut s q h ((t + 1) % 2 ^ 32)
      (.done, decFor (qNotify s q) unit, { s with sched := { s.sched with pushes := satInc 32 s.sched.pushes } })

/-- A pop (R282): none from an empty or disabled queue. -/
def qPop (s : State) (q unit : Nat) : Option Bytes × State :=
  if !qEn s q then (none, raise s 0x0A0A unit q unit)
  else
    let ((h, t), s) := qOpen s q
    if h = t then (none, s)
    else (some (memBytes s (qEntry s q h) 64), qPut s q ((h + 1) % 2 ^ 32) t)

/-- A completion entry (R281). -/
def complEntry (taskId unit cycle item outAddr outCnt : Nat) (op : Bytes) : Bytes :=
  leBytes 4 taskId ++ leBytes 2 unit ++ zeros 2 ++ leBytes 4 cycle ++ leBytes 4 item ++ leBytes 8 outAddr ++
    leBytes 4 outCnt ++ fit 36 op

/-! ### Ready lists -/

/-- Key of a ready list (R274). -/
def readyKey (cls stack level : Nat) : Nat := (cls * 2 + stack) * 4 + level

/-- A ready list. -/
def readyGet (s : State) (k : Nat) : List Task := Smap.get (fun _ => []) s.sched.ready k

/-- Stores a ready list, keeping its largest depth of the cycle (R289). -/
def readyPut (s : State) (k : Nat) (l : List Task) : State :=
  { s with sched := { s.sched with ready := Smap.set (fun _ => []) s.sched.ready k l,
                                   high := cntPut s.sched.high k (max (cnt s.sched.high k) l.length) } }

/-- The list of a task. -/
def taskKey (t : Task) : Nat := readyKey t.desc.cls t.stack t.desc.crit

/-- Recall of prefetched tasks for one new entry of level `lvl` (R280): the lowest-ID unit of the class and stack with
no empty slot and an unstarted prefetched task of lower criticality loses that task to the head of its list.
Log entry 45 (DESIGN CHOICE, unsafe). -/
def recallOne (s : State) (cls stack lvl : Nat) : State :=
  if !bit (regF s (Reg.onionCtrl + 0x10000 * stack)) 1 then s
  else
    match (classUnits cls stack).find? (fun u =>
        match (unitOf s u).exec, (unitOf s u).pref with
        | some _, some p => decide (lvl < p.desc.crit)
        | _, _ => false) with
    | some u =>
      match (unitOf s u).pref with
      | some p =>
        let s := unitUpd s u (fun r => { r with pref := none })
        readyPut s (taskKey p) (p :: readyGet s (taskKey p))
      | none => s
    | none => s

/-- A task returns to the head of its list, never refused (R276), and recalls a prefetched task (R280). -/
def readyHead (s : State) (t : Task) : State :=
  recallOne (readyPut s (taskKey t) (t :: readyGet s (taskKey t))) t.desc.cls t.stack t.desc.crit

/-- A released task enters at the tail of its list and recalls a prefetched task (R273, R280). -/
def readyTail (s : State) (t : Task) : State :=
  recallOne (readyPut s (taskKey t) (readyGet s (taskKey t) ++ [t])) t.desc.cls t.stack t.desc.crit

/-- The stack on which a SELECT task of a counter runs the merge: that of its key table (R208); none for another task. -/
def mergeStack (s : State) (d : Desc) (ctr : Nat) : Option Nat :=
  if d.opId = 0x0201 ∧ memLe s (d.param + 62) 2 = ctr then some ((memLe s (d.param + 24) 8 - ssBase 0) / 0x8000000 % 2) else none

/-- The stack of a descriptor that a counter releases (R274, R208). -/
def chooseStack (s : State) (d : Desc) (ctr : Nat) : Nat :=
  if d.stackSel = 0 ∨ d.stackSel = 1 then d.stackSel
  else if (mergeStack s d ctr).isSome then (mergeStack s d ctr).getD 0
  else if d.stackSel = 3 then 0
  else
    let a0 := activeCount s d.cls 0
    let a1 := activeCount s d.cls 1
    if a1 < a0 then 0
    else if a0 < a1 then 1
    else if (readyGet s (readyKey d.cls 1 d.crit)).length < (readyGet s (readyKey d.cls 0 d.crit)).length then 1 else 0

/-! ### Model invocations (R252, R253, R255) -/

/-- Whether every tile task of an invocation has completed. -/
def Invoke.complete (i : Invoke) : Bool := decide (i.total ≤ i.done)

/-- The latest invocation of a slot. -/
def lastInv (s : State) (k : Nat) : Option Invoke := (s.cob.invs.filter (fun i => i.slot == k)).getLast?

/-- Changes an invocation. -/
def invUpd (s : State) (id : Nat) (f : Invoke → Invoke) : State :=
  { s with cob := { s.cob with invs := s.cob.invs.map (fun i => if i.id = id then f i else i) } }

/-- Tile tasks of a slot in the running image. Log entry 52 (DEDUCED, unsafe). -/
def slotTiles (s : State) (k : Nat) : Nat := match s.plan.run with | some p => p.tiles.getD k 0 | none => 0

/-- A tile task with block `p` that is released joins the latest invocation of its slot, or begins one where that has released it before;
answers the invocation's number. Log entry 52 (DEDUCED, unsafe). -/
def joinInv (s : State) (k p : Nat) : Nat × State :=
  let new := (
    let alt := s.cob.retiled.find? (fun x => x.1 == k)
    let n := match alt with | some x => x.2 | none => slotTiles s k
    let i : Invoke := { id := s.cob.nextInv + 1, slot := k, cycle := s.phu.cycle, tick := s.now, total := max 1 n, seen := [p], done := 0,
                        bad := 0, nondet := alt.isSome, failed := false }
    let rest := s.cob.invs.filter (fun x => !(x.slot == k && (x.failed || x.complete)))
    (i.id, { s with cob := { s.cob with invs := rest ++ [i], nextInv := i.id, retiled := s.cob.retiled.filter (fun x => x.1 != k) } }))
  match lastInv s k with
  | some i => if i.seen.contains p then new else (i.id, invUpd s i.id (fun x => { x with seen := x.seen ++ [p] }))
  | none => new

/-! ### Ends of a task -/

/-- Clk that a span of phase lasts. -/
def puClk (s : State) (pu : Nat) : Nat := pu * s.phu.pAvg / 65536 / ticksPerClk s

/-- Number of a Cob or Parsnip over both stacks (R238, R261). -/
def unitNo (u : Nat) : Nat := (if idClass u = 3 then 68 else 9) * idStack u + idIndex u

/-- Busy clk of a Cob or Parsnip (R239, R262). -/
def busyAdd (s : State) (u n : Nat) : State :=
  let f := fun (m : Smap Nat) => cntPut m (unitNo u) (cnt m (unitNo u) + n)
  match idClass u with
  | 3 => { s with cob := { s.cob with unitBusy := f s.cob.unitBusy } }
  | 4 => { s with psn := { s.psn with unitBusy := f s.psn.unitBusy } }
  | _ => s

/-- The busy clk of this cycle of a task that leaves its unit. -/
def noteBusy (s : State) (u : Nat) : State :=
  match (unitOf s u).exec with
  | some t => if t.began then busyAdd s u (puClk s (phase s - (if t.startCycle = s.phu.cycle then t.startPhase else 0))) else s
  | none => s

/-- At a boundary: the busy clk of the cycle that has ended of the tasks that units hold. -/
def busyBoundary (s : State) : State :=
  s.units.foldl (fun s x => match x.2.exec with
    | some t => if t.began then busyAdd s x.1 (puClk s (65536 - (if t.startCycle + 1 = s.phu.cycle then t.startPhase else 0))) else s
    | none => s) s

/-- A task ends failed: FAIL_CTR is decremented (R279). -/
def endFailed (s : State) (t : Task) (unit : Nat) : State := clkDecs s [] (decFor t.desc.failCtr unit)

/-- A task that ends without having started raises 0x0A04 with 0xFFFF when its start phase has passed in the release
cycle (R284). -/
def lateUnstarted (s : State) (t : Task) : State :=
  if t.desc.startBy ≠ 0xFFFF ∧ !t.began ∧ !t.lateChecked ∧
      (t.cycle < s.phu.cycle ∨ t.desc.startBy < phase s) ∧ bit (regF s (Reg.onionCtrl + 0x10000 * t.stack)) 0 then
    raiseOnion s t.stack 0x0A04 0xFFFF t.desc.taskId 0xFFFF
  else s

/-- A task fails on its own check, its budget, or a fault of its unit: once it is put at the head of its list as a
re-run that excludes the unit, else it ends failed (R279). -/
def failTask (s : State) (t : Task) (unit : Nat) : State :=
  if t.desc.rerunEn ∧ !t.rerun then
    let s := if t.desc.cls = 3 then { s with cob := { s.cob with cyc := cntUp s.cob.cyc 1 } } else s
    readyHead s { t with rerun := true, excl := some unit, began := false, lateChecked := true }
  else endFailed s t unit

/-! ### Problems that end without a result (R225 to R227) -/

/-- Class of a problem (R215). -/
def probClass (s : State) (t : Task) : Nat := memGet s (t.desc.param + 20)

/-- The class and problem index of an event: the low 24 bits of the TASK_ID. Log entry 33 (DEDUCED, unsafe). -/
def probWord (s : State) (t : Task) : Nat := probClass s t % 256 * 2 ^ 24 + t.desc.taskId % 2 ^ 24

/-- Counts of R238: 0 completed, 1 discarded, 2 FALLBACK, 3 pivots raised, 4 iterations accepted. -/
def psnAdd (s : State) (i n : Nat) : State := { s with psn := { s.psn with cyc := cntPut s.psn.cyc i (cnt s.psn.cyc i + n) } }

/-- A problem is discarded: no result is written, event 0x0801; an estimate's consecutive discards are counted.
Log entry 54 (DEDUCED, unsafe). -/
def psnDiscard (s : State) (u : Nat) (t : Task) (iters : Nat) : State :=
  let s := raise s 0x0801 u (probWord s t) iters
  match probClass s t with
  | 0 => psnAdd s 1 1
  | 1 => { s with psn := { s.psn with estMiss := satInc 16 s.psn.estMiss } }
  | _ => s

/-- The iterations that a problem cut off had accepted: a free number up to 16, none before it has begun.
Log entry 70 (DESIGN CHOICE, unsafe). -/
def freeIters (s : State) (t : Task) : Nat × State :=
  if t.began then let (v, s) := takeFree s
    (v % 17, s) else (0, s)

/-- The solves and iterations of a run that is cut off count with its unit; answers the iterations. Log entry 70 (DESIGN CHOICE, unsafe). -/
def cutRun (s : State) (t : Task) (unit : Nat) : Nat × State :=
  let (n, s) := freeIters s t
  let k := unitNo unit
  (n, psnAdd { s with psn := { s.psn with unitSolves := if n = 0 then s.psn.unitSolves else cntPut s.psn.unitSolves k (cnt s.psn.unitSolves k + n) } }
    4 n)

/-- A begun task fails on its unit: a problem that may not run again is discarded (R227). -/
def failRun (s : State) (t : Task) (unit : Nat) : State :=
  if t.desc.cls = 4 then
    let (n, s) := cutRun s t unit
    failTask (if t.rerun ∨ !t.desc.rerunEn then psnDiscard s unit t n else s) t unit
  else failTask s t unit

/-- Start check (R284): a task that starts after START_BY of its release cycle raises 0x0A04 with its start phase. -/
def startCheck (s : State) (t : Task) (u : Nat) : State :=
  if t.desc.startBy ≠ 0xFFFF ∧ !t.lateChecked ∧ (t.cycle < s.phu.cycle ∨ t.desc.startBy < phase s) ∧
      bit (regF s (Reg.onionCtrl + 0x10000 * t.stack)) 0 then
    raiseOnion s t.stack 0x0A04 u t.desc.taskId (phase s)
  else s

/-- Bytes up to the end of an operator's body in its parameter block (R304). -/
def bodyEnd (op : Nat) : Nat :=
  match op with
  | 0x0101 => 48 | 0x0102 => 40 | 0x0201 => 64 | 0x0301 => 144 | 0x0401 => 48 | 0x0402 => 40 | 0x0702 => 36 | 0x0801 => 40 | _ => 16

/-- The parameter block's header agrees with the descriptor and the operator: OP_ID, PVER, and a LEN that holds the body (R304).
Log entry 28 (DEDUCED, unsafe). -/
def headerOk (s : State) (t : Task) : Bool :=
  memLe s t.desc.param 2 == t.desc.opId && memGet s (t.desc.param + 2) == 1 && decide (bodyEnd t.desc.opId ≤ memLe s (t.desc.param + 4) 4)

/-- Whether a task runs in slices: by SUSPEND_EN of its problem (R229), else by SUSPEND of its descriptor (R252, R309). -/
def sliced (s : State) (t : Task) : Bool := if t.desc.cls = 4 then bit (memGet s (t.desc.param + 21)) 1 else t.desc.suspend

/-- The task with its start recorded (R283); a slice reads the world version current at its start (R309). -/
def begun (s : State) (t : Task) : Task :=
  { t with began := true, startCycle := s.phu.cycle, startPhase := phase s, lateChecked := true,
           ver := if sliced s t then s.world.cur.version else t.ver }

/-- A unit begins the task in its execution slot (R283): START_BY is judged; a block whose header does not match fails
the task with event 0x0B08 (R304), a descriptor refused at its start with 0x0907 or 0x0808 (R233, R247). Up to `fuel` tasks fail in
turn. -/
def beginTask : Nat → State → Nat → State
  | 0, s, _ => s
  | fuel + 1, s, u =>
    match (unitOf s u).exec with
    | none => s
    | some t =>
      if t.began then s
      else
        let s := startCheck s t u
        let bad := if headerOk s t ∨ t.byHusk then startReject s t.desc else some (0x0B08, t.desc.taskId, t.desc.opId)
        match bad with
        | none => unitUpd s u (fun r => { r with exec := some (begun s t) })
        | some (code, d0, d1) =>
          let s := raise s code u d0 d1
          let p := (unitOf s u).pref
          let s := unitUpd s u (fun r => { r with exec := p, pref := none })
          beginTask fuel (failTask s (begun s t) u) u

/-- The unit's executing task leaves its slot; the prefetched task moves up and starts (R277). -/
def slotNext (s : State) (u : Nat) : State :=
  let p := (unitOf s u).pref
  beginTask 2 (unitUpd (noteBusy s u) u (fun r => { r with exec := p, pref := none })) u

/-- The stalled push of a unit's own completion entry, dropped with its task; a Leek's is that of a completed batch, which the Onion goes
on to write (R275). -/
def dropStalls (s : State) (u : Nat) : State :=
  { s with sched := { s.sched with stalls := s.sched.stalls.filter (fun x => !(x.unit == u && x.ends && idClass u != 1)) } }

/-- The executing task of a unit fails (R279), and the slot moves on. -/
def failExec (s : State) (u : Nat) : State :=
  match (unitOf s u).exec with
  | none => s
  | some t => failRun (slotNext (dropStalls s u) u) t u

/-- A unit's tasks when it leaves service by fault (R279): a begun task is handled as a failure; a task that has not
begun returns to the head of its list, the execution slot's ahead of the prefetch slot's. -/
def dropTasks (s : State) (u : Nat) : State :=
  let r := unitOf s u
  let s := unitSet (dropStalls (noteBusy s u) u) u { r with exec := none, pref := none }
  let s := match r.pref with
    | some t => readyHead s t
    | none => s
  match r.exec with
  | some t => if t.began then failRun s t u else readyHead s t
  | none => s

/-! ### Evaluations and Pods -/

/-- Pod g. -/
def podGet (s : State) (g : Nat) : Pod := Smap.get (fun _ => Pod.empty) s.pod.pods g

/-- The unit that stands for Pod g in golden slots: its Leek. -/
def leekOf (g : Nat) : Nat := unitId 1 (g / 32) (g % 32)

/-- Whether a Pod or a Chard counts as in service for golden batches: in Watch none does (R470). -/
def goldServes (s : State) (u : Nat) : Bool := !s.cpm.watch && (if idClass u = 1 then podInService s (podOf u) else isActive s u)

/-- Whether a unit's slot is open and its golden batch has not started. -/
def goldFree (s : State) (u : Nat) : Bool := !s.diag.goldRun.contains u

/-- Whether a unit's golden batch is due in its open slot: it comes before any further batch or task (R390). -/
def goldFirst (s : State) (u : Nat) : Bool :=
  (if idClass u = 1 then s.diag.podSlot else idClass u == 7 && s.diag.chardSlot) && goldFree s u && goldServes s u

/-- Stores Pod g. -/
def podPut (s : State) (g : Nat) (p : Pod) : State :=
  { s with pod := { s.pod with pods := Smap.set (fun _ => Pod.empty) s.pod.pods g p } }

/-- Changes Pod g. -/
def podUpd (s : State) (g : Nat) (f : Pod → Pod) : State := podPut s g (f (podGet s g))

/-- Batches in a list of ranges. -/
def rangeCount (l : List BRange) : Nat := sumN (l.map (·.n))

/-- Appends one batch to a list of ranges, joining a contiguous run. -/
def rangeAdd (l : List BRange) (r : BRange) : List BRange :=
  if r.n = 0 then l
  else match l.getLast? with
    | some x => if x.rid = r.rid ∧ x.lo + x.n = r.lo then l.dropLast ++ [{ x with n := x.n + r.n }] else l ++ [r]
    | none => [r]

/-- The last `n` batches of a list, and what is left (R158). -/
def rangeTakeLast : List BRange → Nat → List BRange × List BRange
  | l, n =>
    let total := rangeCount l
    let keep := total - n
    (l.foldl (fun (acc : List BRange × List BRange × Nat) r =>
        let (left, got, k) := acc
        if r.n ≤ k then (left ++ [r], got, k - r.n)
        else (if k = 0 then left else left ++ [{ r with n := k }], got ++ [{ r with lo := r.lo + k, n := r.n - k }], 0))
      ([], [], keep)) |> fun x => (x.1, x.2.1)

/-- The evaluation of a release number. -/
def evalOf (s : State) (rid : Nat) : Option Eval := s.pod.evals.find? (fun e => e.task.rid == rid)

/-- Changes an evaluation. -/
def evalUpd (s : State) (rid : Nat) (f : Eval → Eval) : State :=
  { s with pod := { s.pod with evals := s.pod.evals.map (fun e => if e.task.rid = rid then f e else e) } }

/-- The Pods to which an evaluation is dealt: those in service, on the stack that STACK names or on both, and only on
the stack without an ACTIVE Chard while the fallback of R350 holds for a re-check. -/
def evalPods (s : State) (only : Option Nat) : List Nat :=
  match only with
  | some k => (podsInService s).filter (fun g => g / 32 == k)
  | none => podsInService s

/-- Deals batches 0 to B − 1 of an evaluation in contiguous runs: rank r of P receives floor(r·B/P) to
floor((r+1)·B/P) − 1 (R157). -/
def dealBatches (s : State) (rid total : Nat) (gs : List Nat) : State :=
  let p := gs.length
  (gs.zip (List.range p)).foldl (fun s gr =>
    let lo := gr.2 * total / p
    let hi := (gr.2 + 1) * total / p
    podUpd s gr.1 (fun x => { x with list := rangeAdd x.list ⟨rid, lo, hi - lo⟩, asked := 0, busy := false, idle := false })) s

/-- Starts the evaluation of a released class 0x01 descriptor (R275). -/
def startEval (s : State) (t : Task) : State :=
  let flags := memGet s (t.desc.param + 3)
  let main := t.desc.opId == 0x0101 && bit flags 3
  let recheck := t.desc.opId == 0x0102 && bit flags 2
  let only := if t.desc.stackSel ≤ 1 then some t.desc.stackSel else if recheck then s.pod.onlyStack else none
  let e : Eval := { task := t, total := t.desc.arg0, done := 0, only := only, started := false, exited := false,
                    main := main, recheck := recheck, clear := 0, blocked := 0, unknown := 0, outside := 0 }
  let s := { s with pod := { s.pod with evals := s.pod.evals ++ [e], cycBatch := s.pod.cycBatch + t.desc.arg0 } }
  dealBatches s t.rid t.desc.arg0 (evalPods s only)

/-- Whether Pod g holds a batch of an evaluation in execution. -/
def podHas (s : State) (g rid : Nat) : Bool := (podGet s g).exec.any (fun b => !b.golden && b.rid == rid)

/-- An evaluation leaves the Pods with its queued batches, those in execution, and the entries that wait for a queue. -/
def dropEval (s : State) (rid : Nat) : State :=
  let out := fun (l : List BRange) => l.filter (fun r => r.rid != rid)
  let waits := fun (x : Stall) => x.ends && idClass x.unit == 1 && podHas s (podOf x.unit) rid
  { s with sched := { s.sched with stalls := s.sched.stalls.filter (fun x => !waits x) }, pod := { s.pod with
      evals := s.pod.evals.filter (fun e => e.task.rid != rid)
      pods := s.pod.pods.filterMap (fun (p : Nat × Pod) =>
        let held := match p.2.exec with
          | some b => !b.golden && b.rid == rid
          | none => false
        let x := { p.2 with list := out p.2.list, left := out p.2.left, exec := if held then none else p.2.exec,
                            reply := p.2.reply.map out }
        if x = Pod.empty then none else some (p.1, x)) } }

/-- An evaluation ends failed (R279). -/
def evalFail (s : State) (e : Eval) (unit : Nat) : State := endFailed (dropEval s e.task.rid) e.task unit

/-! ### Release engines -/

/-- Whether Watch gates the class of a released descriptor (R470): Pods, Cobs, Radishes, Chards, and Parsnip work other
than ESTIMATE; `est` says that a Parsnip descriptor is of class ESTIMATE. -/
def watchGates (s : State) (d : Desc) (est : Bool) : Bool :=
  s.cpm.watch && (d.cls == 1 || d.cls == 3 || d.cls == 5 || d.cls == 7 || (d.cls == 4 && !est))

/-- Whether a class 0x03 descriptor names a model slot without weights (R314): `bad` lists such slots. -/
def slotBad (s : State) (bad : List Nat) (d : Desc) : Bool :=
  d.cls == 3 && bad.contains (memGet s (d.param + 16))

/-- The result slot of an output address that was valid before a tick, 0 for none (R228). -/
def slotBefore (s : State) (a tick : Nat) : Nat :=
  match s.psn.slots.find? (fun x => x.1 == a && decide (x.2.2 < tick)) with
  | some x => x.2.1
  | none => 0

/-- The warm start of a problem: the slot that was valid at the start of the clk of release (R228). -/
def warmAt (s : State) (d : Desc) (tick : Nat) : Nat := if d.opId = 0x0301 then slotBefore s (memLe s (d.param + 64) 8) tick else 0

/-- A descriptor of a release goes to its ready list (R264, R266, R273, R308); `est` and `bad` as above. None when the ready list
holds 512 entries and the engine stalls (R276). -/
def copyOne (s : State) (est : State → Nat → Bool) (bad : List Nat) (r : Release) (d0 : Desc) : Option State :=
  let off := if r.pcopy = 1 then (match s.plan.run with | some p => p.copyOff | none => 0) else 0
  let d := { d0 with param := d0.param + (if r.ctr < ctrPlan s then off else 0) }
  let k := chooseStack s d r.ctr
  let inv := if d.cls = 3 ∧ descReject d false = 0 ∧ !watchGates s d false then joinInv s (memGet s (d.param + 16)) d.param else (0, s)
  let t : Task := { desc := d, rid := s.sched.nextRid, cycle := r.cycle, stack := k, byHusk := false,
                    pcopy := r.pcopy, rerun := false, excl := none, began := false, startCycle := 0, startPhase := 0,
                    lateChecked := false, resumed := false, ueRegion := none, ctr := r.ctr,
                    ver := r.ver, gen := r.gen, wgen := r.wgen, inv := inv.1, warm := warmAt s d r.tick }
  let s1 := { inv.2 with sched := { s.sched with nextRid := s.sched.nextRid + 1 } }
  let rej := descReject d false
  if rej ≠ 0 then some (endFailed (raiseOnion s1 r.stack 0x0A07 0xFFFF d.taskId rej) t 0xFFFF)
  else if watchGates s d (est s d.param) then some (endFailed s1 t 0xFFFF)
  else if slotBad s bad d then some (endFailed s1 t 0xFFFF)
  else if d.cls = 1 then some (startEval s1 t)
  else if 512 ≤ (readyGet s (taskKey t)).length then none
  else some (readyTail s1 t)

/-- Places up to `n` descriptors of the release at the head of an engine; answers the remainder of the release and
whether the engine stalled. -/
def copyMany (est : State → Nat → Bool) (bad : List Nat) : Nat → State → Release → State × Option Release × Bool
  | 0, s, r => (s, some r, false)
  | n + 1, s, r =>
    match r.descs[r.next]? with
    | none => (s, none, false)
    | some d => match copyOne s est bad r d with
      | none => (s, some r, true)
      | some s' =>
        if r.descs.length ≤ r.next + 1 then (s', none, false)
        else copyMany est bad n s' { r with next := r.next + 1 }

/-- One clk of the release engine of a level on a stack: up to 4 descriptors (R273, R276). -/
def engineClk (s : State) (est : State → Nat → Bool) (bad : List Nat) (stack level : Nat) : State :=
  let s := ownClk s (.engine (stack * 4 + level))
  match s.sched.rels.find? (fun r => r.stack == stack && r.level == level) with
  | none => s
  | some r =>
    let (s', rest, stalled) := copyMany est bad 4 s r
    let rels := s'.sched.rels
    let rels := (match rest with
      | some r' => rels.map (fun x => if x = r then r' else x)
      | none => rels.erase r)
    { s' with sched := { s'.sched with
        rels := rels,
        stalledEng := cntPut s'.sched.stalledEng (stack * 4 + level)
          (if stalled then (if cnt s'.sched.stalledEng (stack * 4 + level) = 0 then s.now + 1
            else cnt s'.sched.stalledEng (stack * 4 + level)) else 0) } }

/-! ### Claiming -/

/-- Whether a unit of the class is clock-gated by Watch (R470): every Parsnip but the lowest-ID ACTIVE one of each stack,
and all Cobs, Radishes and Chards. -/
def watchUnit (s : State) (u : Nat) : Bool :=
  s.cpm.watch &&
  (idClass u == 3 || idClass u == 5 || idClass u == 7 || idClass u == 0 || idClass u == 2 ||
    (idClass u == 4 && lowestIn s (classUnits 4 (idStack u)) .active != some u) ||
    (idClass u == 1 && lowestIn s (classUnits 1 (idStack u)) .active != some u))

/-- Whether a unit may take an entry: it is not excluded (R279), and a sliced task waits for its slice (R229, R252, R309); BG_EN holds
BATCH problems (R239) and the Cobs' work of level 3 (R262); the merge of a selection runs on the lowest-ID ACTIVE Radish
of its table's stack (R208), the Husk's check on the lowest-ID ACTIVE Chard that may claim (R350, R392). -/
def mayTake (s : State) (u : Nat) (t : Task) : Bool :=
  (!t.byHusk || (classUnits 7 (idStack u)).find? (fun v => isActive s v && !(unitOf s v).goldBad) == some u) &&
  (mergeStack s t.desc t.ctr != some (idStack u) || (classUnits 5 (idStack u)).find? (fun v => isActive s v && t.excl != some v) == some u) &&
  t.excl != some u && (!sliced s t || s.sched.slice) && (idClass u != 4 || probClass s t != 2 || bit (regF s Reg.psnCtrl) 1) &&
  (idClass u != 3 || t.desc.crit != 3 || bit (regF s Reg.cobCtrl) 0)

/-- The first entry of a list that the unit may take, and the list without it (R278). -/
def takeEntry (ok : Task → Bool) : List Task → Option (Task × List Task)
  | [] => none
  | t :: l =>
    if ok t then some (t, l) else (takeEntry ok l).map (fun x => (x.1, t :: x.2))

/-- The first entry a unit can take, over the levels from `lvl` on (R277). -/
def claimFrom (s : State) (u : Nat) : List Nat → Option (Nat × Task × List Task)
  | [] => none
  | lvl :: rest =>
    let k := readyKey (idClass u) (idStack u) lvl
    match takeEntry (mayTake s u) (readyGet s k) with
    | some (t, l) => some (k, t, l)
    | none => claimFrom s u rest

/-- Whether a Chard claims nothing: its last golden batch failed (R392), or one is due or in execution (R390). -/
def chardWaits (s : State) (u : Nat) : Bool := idClass u == 7 && ((unitOf s u).goldBad || goldFirst s u || s.diag.goldChards.contains u)

/-- An ACTIVE unit with an empty slot claims one entry, at most one in a clk (R277); a unit that Watch gates claims none (R470). -/
def claim (s : State) (u : Nat) : State :=
  let r := unitOf s u
  if r.st ≠ .active ∨ !readyClass (idClass u) ∨ (r.exec.isSome ∧ r.pref.isSome) ∨ watchUnit s u ∨ chardWaits s u then s
  else
    match claimFrom s u [0, 1, 2, 3] with
    | none => s
    | some (k, t, l) =>
      let s := readyPut (ownClk s (.claim u)) k l
      if r.exec.isNone then unitUpd s u (fun r => { r with exec := some t })
      else unitUpd s u (fun r => { r with pref := some t })

/-! ### Faults that take a unit out of service -/

/-- Every idle Pod asks again (R158). -/
def wakePods (s : State) : State :=
  { s with pod := { s.pod with pods := s.pod.pods.filterMap (fun (p : Nat × Pod) =>
      let x := if p.2.idle then { p.2 with idle := false, asked := 0, busy := false } else p.2
      if x = Pod.empty then none else some (p.1, x)) } }

/-- What a Pod does when a Leek or brick cache of its own leaves service by fault, or its last Pea does (R161): its
batch in execution and its queued batches become stealable, and event 0x0502 is raised; with Peas left below 16 and no
spare, 0x0503 (R167). Log entry 45 (DESIGN CHOICE, unsafe). -/
def podFault (s : State) (u : Nat) (was : Bool) : State :=
  let g := podOf u
  let busy := (podGet s g).exec.isSome || !(podGet s g).list.isEmpty
  if idClass u ≤ 2 ∧ (was ∨ (1 ≤ idClass u ∧ busy)) ∧ !podInService s g then
    let why := if idClass u = 1 then 1 else if idClass u = 2 then 2 else 3
    let s := podUpd s g (fun p =>
      let held := match p.exec with
        | some b => if b.golden ∨ s.sched.stalls.any (fun x => x.ends && x.unit == leekOf g) then [] else [⟨b.rid, b.num, 1⟩]
        | none => []
      { p with left := p.left ++ held ++ p.list, list := [], exec := none })
    let s := if (podGet s g).left.isEmpty then s else wakePods s
    raise s 0x0502 (unitId 1 (g / 32) (g % 32)) (why * 256 + g) 0
  else peaShort s u

/-- A unit leaves service by fault (R14): from ACTIVE or DRAINING to OFFLINE, with the substitution of R16 in the same
clk, its tasks under R279 and its Pod under R161. Any other state is left alone. -/
def faultOut (s : State) (u : Nat) : State :=
  let was := unitSt s u
  if was = .active ∨ was = .draining then
    let inSvc := podInService s (podOf u)
    let s := unitEvent s u .fault
    let s := if was = .active then departed s u else s
    let s := dropTasks s u
    podFault s u inSvc
  else s

end Sys2Proof.Machine
end

