-- ==== Sys2Proof/Machine/React.lean ====
section
/-!
DEFINITION. What follows an event (R379 to R384, R393): fault windows and lasting faults, strikes, the loss of the verdict path and
the safe state (R364), the lapse of the permit (R361), and the end of a command, where its events take their reactions and
their SEQ.
-/
namespace Sys2Proof.Machine

/-! ### Horizon (R349) -/

/-- Declared period P in ns (PHU_CYCLE_DECL). -/
def declNs (s : State) : Nat := regGet s Reg.phuCycleDecl

/-- N_B of a segment under a branch waypoint and Δt in µs. -/
def horizonNB (s : State) (b dtUs : Nat) : Nat :=
  if declNs s = 0 then 0 else b * dtUs * 1000 * 200 / (declNs s * 201)

/-- L of a braking time in µs. -/
def horizonL (s : State) (tB : Nat) : Nat :=
  if declNs s = 0 then 1 else tB * 1000 * 200 / (declNs s * 199) + 1

/-- H(n) of a segment at the boundary of cycle n, 0 once it has run out; B is the parameter in force (R369). -/
def horizonH (s : State) (g : Seg) (n : Nat) : Nat := g.gen + 1 + horizonNB s s.safety.par.b g.dtUs - n

/-- H(n) of the executing segment, 0 without one. Log entry 48 (DEDUCED, unsafe). -/
def horizonNow (s : State) : Nat :=
  match s.safety.exe with
  | some g => horizonH s g s.phu.cycle
  | none => 0

/-- L under the parameters in force. -/
def lNow (s : State) : Nat := horizonL s s.safety.par.tB

/-! ### Lapse and safe state -/

/-- Offsets of the publication record (R428) that a lapse rewrites: STATUS, LAPSE_CAUSE and HORIZON (R429). -/
def txLapse (tx : Bytes) (cause : Nat) : Bytes :=
  let st := getLe tx 0 2
  let tx := putAt tx 0 (leBytes 2 (st - st % 2))
  let tx := putAt tx 3 [cause]
  putAt tx 16 [0, 0]

/-- The permit lapses (R361): both outputs static low in the same clk, event 0x0D04 with the cause of R366, the SM3 buffer
rewritten with PERMIT 0 (R429). Without a permit held or granted nothing happens. -/
def lapse (s : State) (cause : Nat) : State :=
  if s.safety.permit ∨ s.safety.grant then
    let f := { s.safety with permit := false, grant := false, permitA := false, permitB := false, cause := cause }
    let s := { s with safety := f }
    let s := if s.od.al = .safeop ∨ s.od.al = .op then
      { s with od := { s.od with tx := txLapse s.od.tx cause, txWrites := satInc 32 s.od.txWrites } } else s
    raise s 0x0D04 huskId cause s.phu.cycle
  else s

/-- The Husk grants no permit from here on, with lapse cause 6: in replay (R408) and in the life-cycle state SERVICE (R497). -/
def noPermit (s : State) : State :=
  let s := lapse s 6
  { s with safety := { s.safety with cause := 6 } }

/-- Condition 5 of R360: with FSoE required, the connection is in its data state and RUN_ENABLE is 1. -/
def fsoeOk (s : State) : Bool := s.safety.par.fsoeReq == 0 || (s.od.fsoe.st == .data && s.safety.runEnable)

/-- Condition 5 fails while the permit is held or granted: a stop request from FSoE and the lapse (R361, R363, R371).
Log entry 27 (PRESUMED, unsafe). -/
def fsoeCheck (s : State) : State :=
  if !fsoeOk s ∧ (s.safety.permit ∨ s.safety.grant) then lapse (raise s 0x0D0A huskId 1 0) 2 else s

/-- The code of a connection state (0x2002:02). Log entry 27 (PRESUMED, unsafe). -/
def fsCode : FsSt → Nat
  | .reset => 0 | .session => 1 | .connection => 2 | .parameter => 3 | .data => 4

/-- The FSoE connection resets with event 0x1005: fail-safe data both ways, RUN_ENABLE 0 (R430, R363). Log entry 27 (PRESUMED, unsafe). -/
def fsoeReset (s : State) (reason : Nat) : State :=
  if s.od.fsoe.st = .reset then s
  else
    let code := fsCode s.od.fsoe.st
    let f := { s.od.fsoe with st := .reset, resets := satInc 32 s.od.fsoe.resets, reason := reason, connId := 0, wdMs := 0,
                              sample0 := 0, sample1 := 0 }
    let s := { s with od := { s.od with fsoe := f }, safety := { s.safety with runEnable := false } }
    fsoeCheck (raise s 0x1005 0x6800 reason code)

/-- BODY2 of a final entry (R495): cause, permit state, HSK_HORIZON, SEG_DIGEST of the executing segment, die
temperatures. Log entry 58 (DEDUCED, unsafe). -/
def finalBody (s : State) (cause : Nat) : Bytes :=
  let dig := match s.safety.exe with
    | some g => g.digest
    | none => []
  leBytes 4 cause ++ leBytes 4 (b2n s.safety.permit) ++
    leBytes 4 (sat 16 (horizonNow s) + 2 ^ 16 * (if s.safety.permit then sat 16 (horizonNow s - lNow s + 1) else 0)) ++
    fit 8 dig ++ (s.pins.dieT.flatMap (fun t => leBytes 2 (ofSigned 16 t)))

/-- The safe state of the device (R364): permit pins and FAULT_N static low, the final record in both rings with event
0x0D06, then PWR_KILL_N. The PHYs are held in reset (R419). `fixed`: the eMRAM controller writes a
record of fixed content, which is free beyond its cause. -/
def enterSafeWith (s : State) (cause : Nat) (fixed : Bool) : State :=
  if s.safety.safeState then s
  else
    let (body, s) := if fixed then
        let (b, s) := takeFreeBytes s 44
        (leBytes 4 cause ++ b, s)
      else (finalBody s cause, s)
    let s := boxAdd s 4 [] body
    let s := raise s 0x0D06 huskId cause 0
    { s with
      logs := { s.logs with lastCause := cause }
      safety := { s.safety with permit := false, grant := false, permitA := false, permitB := false, faultN := false,
                                pwrKill := true, safeState := true }
      od := { s.od with phyReset := true, link0 := false, link1 := false } }

/-- The safe state on a detected condition; the comparator runs it on a Husk pair mismatch. -/
def enterSafe (s : State) (cause : Nat) : State := enterSafeWith s cause (cause == 2)

/-- Whether a Chard of a stack is ACTIVE, SPARE, or in TEST with ENABLE_PENDING set (R364). -/
def chardThere (s : State) (k : Nat) : Bool :=
  (classUnits 7 k).any (fun u => let r := unitOf s u; r.st == .active || r.st == .spare || (r.st == .test && r.ep))

/-- Whether the verdict path cannot be rebuilt from spares (R364). -/
def pathLost (s : State) : Bool :=
  !((chardThere s 0 && (podsInService s).any (fun g => g / 32 == 1)) ||
    (chardThere s 1 && (podsInService s).any (fun g => g / 32 == 0)))

/-- Classes whose departure can lose the verdict path: Pea, Leek, brick cache, Chard. -/
def onPath (u : Nat) : Bool := idClass u ≤ 2 || idClass u == 7

/-- The Husk judges the verdict path after a unit of it has left ACTIVE, once the boot has set the safety lock. -/
def judgePath (s : State) (u : Nat) : State :=
  if onPath u ∧ s.safety.lock ∧ pathLost s then enterSafe s 1 else s

/-! ### Fault windows (R380, R381) -/

/-- The cycles of a window of `w` cycles that ends with cycle `c`. -/
def inWindow (c w : Nat) (l : List Nat) : List Nat := l.filter (fun x => decide (c < x + w))

/-- An event that ends a firmware update's probation: it rolls back at the next boundary (R488). -/
def probFail (s : State) (code : Nat) : State :=
  if s.svc.fwSt = .probation ∧ s.svc.rollbackBy.isNone then { s with svc := { s.svc with rollbackBy := some code } } else s

/-- A fault event counts against a unit in ACTIVE or DRAINING, once per cycle; at FAULT_COUNT the fault is lasting: the unit
leaves service, its strikes rise and event 0x0E01 is raised (R381). -/
def countFault (s : State) (u : Nat) : State :=
  let r := unitOf s u
  if unitExists u ∧ (r.st = .active ∨ r.st = .draining) then
    let w := inWindow s.phu.cycle (objN s 0x4100 2) r.faults
    let w := if w.contains s.phu.cycle then w else w ++ [s.phu.cycle]
    let s := unitSet s u { r with faults := w, lastFault := s.phu.cycle }
    if objN s 0x4100 1 ≤ w.length then
      let s := faultOut s u
      let s := unitUpd (recordWrite s) u (fun r => { r with strikes := r.strikes + 1, actDue := true })
      let s := { s with diag := { s.diag with lasting := satInc 32 s.diag.lasting } }
      let s := if idClass u = 0x0B then probFail s 0x0E01 else s
      judgePath (raise s 0x0E01 u u (unitOf s u).strikes) u
    else s
  else s

/-- The reaction of one event (R379); a Chard that R17 keeps in service takes no strike (R383). Log entry 62 (DEDUCED, unsafe). -/
def react (s : State) (r : EvRec) : State :=
  match reaction r.code r.d1 with
  | .f => countFault s r.unit
  | .k => if unitSt s r.unit = .draining then unitUpd s r.unit (fun x => { x with strikeDue := true }) else s
  | _ => s

/-- The codes of R399 that are timing outcomes; 0x020B stands for a missing person mask. -/
def isTiming (code : Nat) : Bool :=
  [0x020B, 0x0501, 0x0704, 0x0801, 0x0902, 0x0A05, 0x0A06, 0x0B04, 0x0D03, 0x0E07].contains code

/-- A timing outcome enters the input records as type 8, with its event record for content (R399, R401). -/
def timingRec (s : State) (r : EvRec) : State :=
  if isTiming r.code then
    let rec8 : InRec := { typ := 8, source := 0, cycle := r.cycle, phase := r.phase, content := evBytes r }
    { s with det := { s.det with recs := s.det.recs ++ [rec8] } }
  else s

/-- The end of a command: the events raised take their reactions, and every record raised is stamped; then the records of entries that the
full black box has lost (R495). Log entry 62 (DEDUCED, unsafe). -/
def flush (s : State) : State := stampAll (stampAll (s.logs.buf.foldl timingRec (s.logs.buf.foldl react s)))

/-- A meaning that runs only while the main domain is powered and out of reset; its events are settled at its end. -/
def run (s : State) (f : State → State) : State := if mainUp s then flush (f (answer s .none)) else s

/-- A meaning that runs while the logic of PLL_ARITH runs. Log entry 15 (DEDUCED, safe). -/
def runArith (s : State) (f : State → State) : State := if arithUp s then flush (f (answer s .none)) else s

/-- A meaning that runs while the logic of PLL_IO runs. Log entry 15 (DEDUCED, safe). -/
def runIo (s : State) (f : State → State) : State := if ioUp s then flush (f (answer s .none)) else s

/-- A meaning that runs while the application cluster runs and the fabric answers it. Log entry 15 (DEDUCED, safe). -/
def runApp (s : State) (f : State → State) : State := if appUp s ∧ arithUp s then flush (f (answer s .none)) else s

/-- A driver call (R311): the cluster runs, and firmware serves it. Log entry 15 (DEDUCED, safe). -/
def runDrv (s : State) (f : State → State) : State := if appUp s ∧ ioUp s then flush (f (answer s .none)) else s

/-- A meaning of the always-on domain. Log entry 15 (DEDUCED, safe). -/
def runAon (s : State) (f : State → State) : State := if aonUp s then flush (f (answer s .none)) else s

end Sys2Proof.Machine
end

