-- ==== Sys2Proof/Machine/Memory.lean ====
section
/-!
DEFINITION. Memory's own events (R316 to R343): correctable and uncorrectable errors, retired regions, the background test, the secure
region's wipe, the reserved areas, and the DDR5 channels.
-/
namespace Sys2Proof.Machine

/-! ### Places of the shared store (R316, R325, R327) -/

/-- Places of a stack: 256 regions of each of 512 banks, two spares of each bank, then the pool of 64. -/
def placeCount : Nat := 132160
/-- The place of a bank's region. -/
def regionPlace (bank region : Nat) : Nat := bank * 256 + region
/-- First place of a bank's spares. -/
def sparePlace (bank : Nat) : Nat := 131072 + 2 * bank
/-- First place of the pool. -/
def poolPlace : Nat := 132096

/-- Stack and word index of a shared-store address. -/
def ssWord (a : Nat) : Nat × Nat :=
  let o := a - ssBase 0
  (o / 0x8000000 % 2, o % 0x8000000 / 64)

/-- Bank and region of a word index. -/
def wordBank (w : Nat) : Nat := w % 512
/-- Region of a word index. -/
def wordRegion (w : Nat) : Nat := w / 512 / 16
/-- The place of a word's region. -/
def wordPlace (w : Nat) : Nat := regionPlace (wordBank w) (wordRegion w)

/-- The bank group's unit ID. -/
def bankGroup (k bank : Nat) : Nat := unitId 0x0A k (bank / 64 % 8)

/-- The bank that a place belongs to; the pool's places report bank 511. -/
def placeBank (p : Nat) : Nat := if p < 131072 then p / 256 else if p < poolPlace then (p - 131072) / 2 else 0x1FF
/-- The region, spare or pool entry of a place. -/
def placeRegion (p : Nat) : Nat := if p < 131072 then p % 256 else if p < poolPlace then p % 2 else p - poolPlace

/-- The key of a place in the retired map. -/
def placeKey (k p : Nat) : Nat := k * placeCount + p

/-- Whether a place is retired. -/
def isRetired (s : State) (k p : Nat) : Bool := s.mem.retired.contains (placeKey k p)

/-- Whether a spare place is unused: neither mapped nor retired. -/
def spareFree (s : State) (k p : Nat) : Bool := cnt s.mem.remap (placeKey k p) == 0 && !isRetired s k p

/-- The next spare for a bank: its own two, then the stack's pool (R325). -/
def nextSpare (s : State) (k bank : Nat) : Option Nat :=
  ([0, 1].map (fun i => sparePlace bank + i) ++ (List.range 64).map (fun i => poolPlace + i)).find? (spareFree s k)

/-- The region that a place serves: itself, or the region mapped to a spare; none for an unused spare. -/
def placeServes (s : State) (k p : Nat) : Option Nat :=
  if p < 131072 then some p
  else match cnt s.mem.remap (placeKey k p) with
    | 0 => none
    | n + 1 => some n

/-- A place that fails its march, or a region whose re-run fails again, is retired (R325); an unused spare is only marked.
Log entry 49 (DESIGN CHOICE, unsafe). -/
def retirePlace (s : State) (k p : Nat) : State :=
  if isRetired s k p then s
  else
    match placeServes s k p with
    | none => recordWrite { s with mem := { s.mem with retired := s.mem.retired ++ [placeKey k p] } }
    | some r =>
      let bank := placeBank r
      let d1 := bank % 64 * 256 + placeRegion r
      match nextSpare s k bank with
      | none => raise { s with mem := { s.mem with sparesOut := true } } 0x0C04 (bankGroup k bank) (bankGroup k bank) d1
      | some q =>
        let m := { s.mem with retired := s.mem.retired ++ [placeKey k p], remap := cntPut s.mem.remap (placeKey k q) (r + 1) }
        raise (recordWrite { s with mem := m }) 0x0C03 (bankGroup k bank) (bankGroup k bank) d1

/-- The place that holds a region now. -/
def placeOf (s : State) (k r : Nat) : Nat :=
  if isRetired s k r then
    match s.mem.remap.find? (fun x => x.2 == r + 1 && x.1 / placeCount == k && !s.mem.retired.contains x.1) with
    | some x => x.1 % placeCount
    | none => r
  else r

/-- A region is put on the list of tests out of turn (R324, R384). Log entry 49 (DESIGN CHOICE, unsafe). -/
def outOfTurn (s : State) (k p : Nat) : State :=
  if k = 0 then (if s.mem.turn0.contains p then s else { s with mem := { s.mem with turn0 := s.mem.turn0 ++ [p] } })
  else if s.mem.turn1.contains p then s else { s with mem := { s.mem with turn1 := s.mem.turn1 ++ [p] } }

/-! ### Errors of the shared store (R323, R324, R384) -/

/-- A correctable error of a region counts against it (R384). -/
def regionError (s : State) (k w : Nat) : State :=
  let key := placeKey k (wordPlace w)
  let l := inWindow s.phu.cycle (objN s 0x4100 2) (Smap.get (fun _ => []) s.mem.regionCe key) ++ [s.phu.cycle]
  if objN s 0x4100 1 ≤ l.length then
    let s := { s with mem := { s.mem with regionCe := Smap.set (fun _ => []) s.mem.regionCe key [] } }
    let u := bankGroup k (wordBank w)
    outOfTurn (raise s 0x0E0B u u (wordBank w % 64 * 256 + wordRegion w)) k (placeOf s k (wordPlace w))
  else { s with mem := { s.mem with regionCe := Smap.set (fun _ => []) s.mem.regionCe key l } }

/-- A read corrects a single-bit error and counts it; the first of the cycle raises 0x0C01 (R323). -/
def ssCorrected (s : State) (a : Nat) : State :=
  let (k, w) := ssWord a
  let m := s.mem
  let s := { s with mem := if k = 0 then { m with ce0 := satInc 32 m.ce0 } else { m with ce1 := satInc 32 m.ce1 } }
  let s := regionError s k w
  if s.mem.ceRaised then s
  else
    let u := bankGroup k (wordBank w)
    raise { s with mem := { s.mem with ceRaised := true } } 0x0C01 u u w

/-- Whether a read at an address meets a word or burst that stands uncorrectable. -/
def ueAt (s : State) (a : Nat) : Bool :=
  if ssBase 0 ≤ a then let (k, w) := ssWord a; s.mem.ueWords.contains (k * 2 ^ 21 + w)
  else s.mem.ueBursts.contains (a / 64)

/-- A read finds a shared-store word uncorrectable: event 0x0C02 and a test out of turn (R324). -/
def ssUncorrectable (s : State) (a : Nat) : State :=
  let (k, w) := ssWord a
  let m := s.mem
  let key := k * 2 ^ 21 + w
  let m := if m.ueWords.contains key then m else { m with ueWords := m.ueWords ++ [key] }
  let s := { s with mem := if k = 0 then { m with ue0 := satInc 32 m.ue0, ueAddr0 := w } else { m with ue1 := satInc 32 m.ue1, ueAddr1 := w } }
  let u := bankGroup k (wordBank w)
  outOfTurn (raise s 0x0C02 u u w) k (placeOf s k (wordPlace w))

/-! ### DDR5 errors (R334) -/

/-- Channel of a DDR5 address (R333). -/
def ddrChan (a : Nat) : Nat := field a 7 2

/-- The unit of a channel: channels 0 and 1 on Stack 0, 2 and 3 on Stack 1. -/
def chanUnit (n : Nat) : Nat := unitId 0x0E (n / 2) (n % 2)

/-- A channel's record. -/
def chanGet (s : State) (n : Nat) : Chan :=
  match n with | 0 => s.mem.ch0 | 1 => s.mem.ch1 | 2 => s.mem.ch2 | _ => s.mem.ch3

/-- Changes a channel's record. -/
def chanUpd (s : State) (n : Nat) (f : Chan → Chan) : State :=
  let m := s.mem
  { s with mem := match n with
      | 0 => { m with ch0 := f m.ch0 }
      | 1 => { m with ch1 := f m.ch1 }
      | 2 => { m with ch2 := f m.ch2 }
      | _ => { m with ch3 := f m.ch3 } }

/-- A corrected burst is written back and counted. -/
def ddrCorrected (s : State) (a : Nat) : State :=
  raise (chanUpd s (ddrChan a) (fun c => { c with ce := satInc 32 c.ce })) 0x0C06 (chanUnit (ddrChan a)) (ddrChan a) (a / 256)

/-- An uncorrectable burst: its page is listed at the second bad read (R334). Log entry 47 (DEDUCED, unsafe). -/
def ddrUncorrectable (s : State) (a : Nat) : State :=
  let s := chanUpd s (ddrChan a) (fun c => { c with ue := satInc 32 c.ue, ueAddr := a })
  let m := s.mem
  let m := if m.ueBursts.contains (a / 64) then m else { m with ueBursts := m.ueBursts ++ [a / 64] }
  let pg := a / 4096 * 4096
  let m := if m.pages.contains pg then m
    else if m.pageHits.contains pg then
      (if m.pages.length < 64 then { m with pages := m.pages ++ [pg], pageHits := m.pageHits.filter (· != pg) } else m)
    else { m with pageHits := m.pageHits ++ [pg] }
  let s := if m.pages = s.mem.pages then s else recordWrite s
  raise { s with mem := m } 0x0C07 (chanUnit (ddrChan a)) (ddrChan a) (a / 256)

/-- A read finds an uncorrectable error, in the shared store or in DDR5. -/
def readUncorrectable (s : State) (a : Nat) : State := if ssBase 0 ≤ a then ssUncorrectable s a else ddrUncorrectable s a

/-- A read corrects an error. -/
def readCorrected (s : State) (a : Nat) : State := if ssBase 0 ≤ a then ssCorrected s a else ddrCorrected s a

/-- The region of an address, as a task's failed read records it: the place in the shared store, or the page in DDR5. -/
def ueRegionOf (a : Nat) : Nat :=
  if ssBase 0 ≤ a then let (k, w) := ssWord a; 2 * placeKey k (wordPlace w) else 2 * (a / 4096) + 1

/-- A region whose error a re-run met again is retired (R324); a DDR5 page is not remapped (R334). -/
def retireAt (s : State) (a : Nat) : State :=
  if ssBase 0 ≤ a then let (k, w) := ssWord a; retirePlace s k (placeOf s k (wordPlace w)) else s

/-! ### Stalls (R321) -/

/-- MEM_STALL_LIMIT: a stall of `clk` at a bank of group `u`; above 1,024 clk event 0x0C0A. -/
def bankStall (s : State) (u clk : Nat) : State :=
  if idClass u = 0x0A ∧ unitExists u then
    let m := s.mem
    let s := { s with mem := if idStack u = 0 then { m with stall0 := max m.stall0 clk } else { m with stall1 := max m.stall1 clk } }
    if 1024 < clk then raise s 0x0C0A u clk 0 else s
  else s

/-! ### Background test (R326, R327) -/

/-- The next place in turn from `p` on: retired places and those tested ahead of their turn are skipped.
Log entry 49 (DESIGN CHOICE, unsafe). -/
def nextPlace (skip : Nat → Bool) : Nat → Nat → Nat
  | 0, p => p
  | n + 1, p => if p < placeCount ∧ skip p then nextPlace skip n (p + 1) else p

/-- BGTEST_REGION_START: the next region of a stack is redirected to the side buffer. -/
def bgStart (s : State) (k : Nat) : State :=
  let m := s.mem
  if !bit (regF s Reg.sscCtrl) 0 ∨ (if k = 0 then m.bg0.busy else m.bg1.busy) then s
  else
    let turn := if k = 0 then m.turn0 else m.turn1
    let early := if k = 0 then m.early0 else m.early1
    let pos := if k = 0 then m.pos0 else m.pos1
    match turn with
    | p :: t =>
      let early := if pos ≤ p then early ++ [p] else early
      { s with mem := if k = 0 then { m with bg0 := ⟨p, true⟩, turn0 := t, early0 := early }
        else { m with bg1 := ⟨p, true⟩, turn1 := t, early1 := early } }
    | [] =>
      let n := m.retired.length + early.length
      let skip := fun p => isRetired s k p || early.contains p
      let p := nextPlace skip n pos
      let wrap := decide (placeCount ≤ p)
      let p := if wrap then nextPlace (isRetired s k) n 0 else p
      let early := if wrap then [] else early
      let up := if wrap then 1 else 0
      { s with mem := if k = 0 then { m with bg0 := ⟨p, true⟩, pos0 := p + 1, early0 := early, pass0 := (m.pass0 + up) % 2 ^ 32 }
        else { m with bg1 := ⟨p, true⟩, pos1 := p + 1, early1 := early, pass1 := (m.pass1 + up) % 2 ^ 32 } }

/-- A pass is complete with its last place: the next one begins at the first (R327). -/
def passEnd (s : State) (k : Nat) : State :=
  let m := s.mem
  let early := if k = 0 then m.early0 else m.early1
  let p := nextPlace (fun p => isRetired s k p || early.contains p) (m.retired.length + early.length) (if k = 0 then m.pos0 else m.pos1)
  if p < placeCount then s
  else
    { s with mem := if k = 0 then { m with pos0 := 0, early0 := [], pass0 := (m.pass0 + 1) % 2 ^ 32 }
      else { m with pos1 := 0, early1 := [], pass1 := (m.pass1 + 1) % 2 ^ 32 } }

/-- BGTEST_REGION_DONE: the restore ends; a failing region is retired, its contents going to the spare. -/
def bgDone (s : State) (k : Nat) (failed : Bool) : State :=
  let m := s.mem
  let b := if k = 0 then m.bg0 else m.bg1
  if !b.busy then s
  else
    let s := { s with mem := if k = 0 then { m with bg0 := ⟨b.place, false⟩ } else { m with bg1 := ⟨b.place, false⟩ } }
    passEnd (if failed then retirePlace s k b.place else s) k

/-! ### Secure region (R328, R329) -/

/-- First address of a stack's secure region. -/
def secureBase (k : Nat) : Nat := ssBase k + secureOff

/-- Whether an address lies in a secure region. -/
def isSecure (a : Nat) : Bool := [0, 1].any (fun k => decide (secureBase k ≤ a) && decide (a < secureBase k + 0x100000))

/-- A wipe starts on a stack: every word of the secure region is written with zeros; `cause` 1 tamper, 2 life-cycle change. A wipe that
runs already goes on. Log entry 50 (DESIGN CHOICE, unsafe). -/
def wipeStart (s : State) (k cause : Nat) : State :=
  let m := s.mem
  let lo := secureBase k
  let wlo := k * 2 ^ 21 + secureOff / 64
  let m := { m with bytes := m.bytes.filter (fun c => !(decide (lo ≤ c.1) && decide (c.1 < lo + 0x100000)))
                    ueWords := m.ueWords.filter (fun x => !(decide (wlo ≤ x) && decide (x < wlo + 16384))) }
  { s with mem := if k = 0 then { m with wiping0 := if m.wiping0 = 0 then cause else m.wiping0 }
    else { m with wiping1 := if m.wiping1 = 0 then cause else m.wiping1 } }

/-- SECURE_WIPE_DONE. -/
def wipeDone (s : State) (k : Nat) : State :=
  let m := s.mem
  let c := if k = 0 then m.wiping0 else m.wiping1
  if c = 0 then s
  else
    let s := { s with mem := if k = 0 then { m with wiping0 := 0, wipes0 := satInc 16 m.wipes0 }
      else { m with wiping1 := 0, wipes1 := satInc 16 m.wipes1 } }
    raise s 0x0C09 0xFFFF k c

/-! ### Reserved areas (R330) -/

/-- Blocks of a level on one axis of `n` bricks (R74). -/
def axisBlocks (n : Nat) : Nat := ceilDiv (3 * n + 7) 8

/-- Shared-store bytes of the world model on one stack: fine occupancy, index tables of three slots, brick pool, two planes of three
slots and the observer masks. Log entry 23 (DESIGN CHOICE, safe). -/
def worldBytes (fx fy fz cx cy cz pool : Nat) : Nat :=
  let fb := axisBlocks fx * axisBlocks fy * axisBlocks fz
  let cb := axisBlocks cx * axisBlocks cy * axisBlocks cz
  27 * fx * fy * fz + 12 * fx * fy * fz + 12 * cx * cy * cz + 64 * pool + 384 * fb + 4 * (fb + cb)

/-- Sizes of the five areas in MB for the settings as written. -/
def areaSizes (s : State) : List Nat :=
  let o := fun i => objW s 0x2200 i
  let mb := fun n => ceilDiv n (2 ^ 20)
  [mb (2 * objW s 0x2B00 0x0C * 1024), mb (worldBytes (o 8) (o 9) (o 0x0A) (o 0x0B) (o 0x0C) (o 0x0D) (o 0x10)),
   mb (2 * objW s 0x2600 9 * 1024), 6, 1]

/-- Start offsets downwards from the secure region; none when the areas do not fit. -/
def layAreas : Nat → List Nat → Option (List Nat)
  | _, [] => some []
  | top, n :: t => if top < n * 2 ^ 20 then none else (layAreas (top - n * 2 ^ 20) t).map ((top - n * 2 ^ 20) :: ·)

/-- The settings that the areas follow. -/
def areaSettings : List (Nat × Nat) :=
  [(0x2B00, 0x0C), (0x2600, 9), (0x2200, 0x10)] ++ (List.range 6).map (fun i => (0x2200, 8 + i))

/-- The areas are laid out again; settings that need more room than there is do not take effect, with event 0x0C0A.
Log entry 50 (DESIGN CHOICE, unsafe). -/
def layOut (s : State) : State :=
  match layAreas secureOff (areaSizes s) with
  | some l => { s with mem := { s.mem with areas := l } }
  | none =>
    let s := areaSettings.foldl (fun s p => objSet s p.1 p.2 (objF s p.1 p.2)) s
    raise s 0x0C0A 0xFFFF 0 1

/-- Start offset of an area on either stack: 0 plan banks, 1 world, 2 intent sets, 3 peer slots, 4 device working area. -/
def areaOff (s : State) (i : Nat) : Nat := s.mem.areas.getD i 0

/-- First address of the DDR5 device area (R331). -/
def devArea (s : State) : Nat := ddrBytes s - objN s 0x2C00 0x0B * 2 ^ 20

/-! ### DDR5 in service (R335 to R337) -/

/-- Bursts of one subchannel. -/
def subBursts (s : State) : Nat := ddrBytes s / 64 / 8

/-- DDR_SCRUB_TICK: one burst per subchannel of each trained channel is read; errors found, each with whether it is uncorrectable. -/
def scrubTick (s : State) (errs : List (Nat × Bool)) : State :=
  if !bit (regF s Reg.ddrCtrl) 0 then s
  else
    let s := (List.range 4).foldl (fun s n =>
      if (chanGet s n).trained then chanUpd s n (fun c => { c with scrubPos := if subBursts s ≤ c.scrubPos + 1 then 0 else c.scrubPos + 1 })
      else s) s
    errs.foldl (fun s e => if inDdr s e.1 1 then (if e.2 then ddrUncorrectable s e.1 else ddrCorrected s e.1) else s) s

/-- DDR_REFRESH: same-bank refresh, at twice the rate while MR4 asks for it; a temperature above the component's range raises 0x0C08. -/
def ddrRefresh (s : State) (n : Nat) (twice hot : Bool) : State :=
  if !(chanGet s n).trained then s
  else
    let s := chanUpd s n (fun c => { c with refreshes := c.refreshes + 1, ref2x := twice })
    if hot then raise s 0x0C08 (chanUnit n) n 2 else s

/-- DDR_RFM_REQUEST. -/
def ddrRfm (s : State) (n : Nat) : State :=
  if (chanGet s n).trained ∧ bit (regF s Reg.ddrCtrl) 1 then chanUpd s n (fun c => { c with rfms := c.rfms + 1 }) else s

/-- DDR_ZQ_CAL. -/
def ddrZq (s : State) (n : Nat) : State :=
  if (chanGet s n).trained ∧ bit (regF s Reg.ddrCtrl) 2 then chanUpd s n (fun c => { c with zqs := c.zqs + 1 }) else s

/-- DDR_OSC_MEASURE: the drift since the last measurement in 1/64 UI; more than 1/4 UI raises 0x0C08. -/
def ddrOsc (s : State) (n : Nat) (drift : Int) : State :=
  if (chanGet s n).trained ∧ bit (regF s Reg.ddrCtrl) 2 then
    let s := chanUpd s n (fun c => { c with drift := drift })
    if 16 < drift.natAbs then raise s 0x0C08 (chanUnit n) n 1 else s
  else s

/-- DDR_CHANNEL_FAIL: the channel leaves service by fault (R14, R336). -/
def chanFail (s : State) (n : Nat) : State :=
  faultOut (chanUpd s n (fun c => { c with sc0 := false, sc1 := false })) (chanUnit n)

/-- The capacity of the trained channels in GB, 0 until training completes. -/
def trainedGb (s : State) : Nat :=
  if s.mem.ch0.trained && s.mem.ch1.trained && s.mem.ch2.trained && s.mem.ch3.trained then ddrBytes s / 2 ^ 30 else 0

/-! ### At the boundary -/

/-- Listed pages inside a device area have moved within it, and stand good there (R334). Log entry 49 (DESIGN CHOICE, unsafe). -/
def movePages (s : State) : State :=
  let inDev := fun pg => decide (devArea s ≤ pg) && decide (pg < ddrBytes s)
  { s with mem := { s.mem with ueBursts := s.mem.ueBursts.filter (fun b => !(s.mem.pages.contains (b / 64 * 4096) && inDev (b / 64 * 4096))) } }

/-- The longest stalls of the cycle are shown and counted anew; the first correctable error of the next cycle is open. -/
def memBoundary (s : State) : State :=
  let s := if s.mem.ueBursts.isEmpty then s else movePages s
  { s with mem := { s.mem with stallLast0 := s.mem.stall0, stallLast1 := s.mem.stall1, stall0 := 0, stall1 := 0, ceRaised := false } }

/-! ### Registers (R339 to R342) -/

/-- Pool spares used on a stack. -/
def poolUsedOn (s : State) (k : Nat) : Nat := ((List.range 64).filter (fun i => !spareFree s k (poolPlace + i))).length

/-- Regions retired on a stack. -/
def retiredOn (s : State) (k : Nat) : Nat := (s.mem.retired.filter (fun x => x / placeCount == k)).length

/-- SSC registers of a stack that the state gives. -/
def sscRead (s : State) (o : Nat) : Option Nat :=
  let m := s.mem
  if o < 0x100 ∨ 0x180 ≤ o then none
  else
    let k := (o - 0x100) / 0x40
    let pick := fun (a b : Nat) => if k = 0 then a else b
    match o % 0x40 with
    | 0x00 =>
      let p := pick m.bg0.place m.bg1.place
      some (b2n (decide (131072 ≤ p)) * 2 ^ 17 + placeBank p * 256 + placeRegion p)
    | 0x04 => some (pick m.pass0 m.pass1)
    | 0x08 => some (pick m.ce0 m.ce1)
    | 0x0C => some (pick m.ue0 m.ue1)
    | 0x10 => some (pick m.ueAddr0 m.ueAddr1)
    | 0x14 => some (poolUsedOn s k * 2 ^ 16 + sat 16 (retiredOn s k))
    | 0x18 => some (sat 32 (pick m.stallLast0 m.stallLast1))
    | 0x1C => some (b2n (pick m.wiping0 m.wiping1 != 0) * 2 ^ 31 + pick m.svcMask0 m.svcMask1 % 2 ^ 13 * 2 ^ 16 + pick m.wipes0 m.wipes1)
    | _ => none

/-- DDR5 registers that the state gives. -/
def ddrRead (s : State) (o : Nat) : Option Nat :=
  if o = 0x10 then some (trainedGb s)
  else if o < 0x100 ∨ 0x200 ≤ o then none
  else
    let c := chanGet s ((o - 0x100) / 0x40)
    match o % 0x40 with
    | 0x00 => some (b2n c.ref2x * 8 + b2n c.trained * 4 + b2n c.sc1 * 2 + b2n c.sc0)
    | 0x04 => some c.ce
    | 0x08 => some c.ue
    | 0x0C => some (c.ueAddr % 2 ^ 32)
    | 0x10 => some (c.ueAddr / 2 ^ 32)
    | 0x14 => some (ofSigned 32 c.drift)
    | 0x18 => some (sat 32 c.scrubPos)
    | _ => none

/-! ### Meanings -/

/-- MEM_STALL_LIMIT (R321). -/
def execMemStallLimit (u : BitVec 16) (clk : BitVec 32) (s : State) : Host.Outcome State Fault Refusal :=
  .next (runArith s (fun s => bankStall s u.toNat clk.toNat))
/-- BGTEST_REGION_START (R327). -/
def execBgtestRegionStart (k : Fin 2) (s : State) : Host.Outcome State Fault Refusal := .next (runArith s (fun s => bgStart s k.val))
/-- BGTEST_REGION_DONE (R326). -/
def execBgtestRegionDone (k : Fin 2) (failed : Bool) (s : State) : Host.Outcome State Fault Refusal :=
  .next (runArith s (fun s => bgDone s k.val failed))
/-- SECURE_WIPE_DONE (R329). -/
def execSecureWipeDone (k : Fin 2) (s : State) : Host.Outcome State Fault Refusal := .next (runArith s (fun s => wipeDone s k.val))
/-- Whether the DDR5 controllers run (R461). -/
def memUp (s : State) : Bool := mainUp s && !srcFailed s 4

/-- A meaning of the DDR5 controllers. -/
def runMem (s : State) (f : State → State) : State := if memUp s then flush (f (answer s .none)) else s

/-- DDR_SCRUB_TICK (R337). -/
def execDdrScrubTick (errs : List (BitVec 40 × Bool)) (s : State) : Host.Outcome State Fault Refusal :=
  .next (runMem s (fun s => scrubTick s (errs.map (fun e => (e.1.toNat, e.2)))))
/-- DDR_REFRESH (R335). -/
def execDdrRefresh (n : Fin 4) (twice hot : Bool) (s : State) : Host.Outcome State Fault Refusal :=
  .next (runMem s (fun s => ddrRefresh s n.val twice hot))
/-- DDR_RFM_REQUEST (R335). -/
def execDdrRfmRequest (n : Fin 4) (s : State) : Host.Outcome State Fault Refusal := .next (runMem s (fun s => ddrRfm s n.val))
/-- DDR_ZQ_CAL (R336). -/
def execDdrZqCal (n : Fin 4) (s : State) : Host.Outcome State Fault Refusal := .next (runMem s (fun s => ddrZq s n.val))
/-- DDR_OSC_MEASURE (R336). -/
def execDdrOscMeasure (n : Fin 4) (drift : BitVec 16) (s : State) : Host.Outcome State Fault Refusal :=
  .next (runMem s (fun s => ddrOsc s n.val (toSigned 16 drift.toNat)))
/-- DDR_CHANNEL_FAIL (R336). -/
def execDdrChannelFail (n : Fin 4) (s : State) : Host.Outcome State Fault Refusal := .next (run s (fun s => chanFail s n.val))

end Sys2Proof.Machine
end

