-- ==== Sys2Proof/Machine/Geom.lean ====
section
/-!
DEFINITION. Fixed-point geometry: vectors, rotations and poses (R84, R85, R94, R136, R184), sine and cosine within their bounds (R85,
R99, R352), the Gaussian table of R128 and the exponential tables of R204.
-/
namespace Sys2Proof.Machine

/-! ### Vectors and poses -/

/-- Component `i`. -/
def vi (v : List Int) (i : Nat) : Int := v.getD i 0
/-- The inner product. -/
def dot (a b : List Int) : Int := vi a 0 * vi b 0 + vi a 1 * vi b 1 + vi a 2 * vi b 2
/-- The sum. -/
def vadd (a b : List Int) : List Int := [vi a 0 + vi b 0, vi a 1 + vi b 1, vi a 2 + vi b 2]
/-- The difference. -/
def vsub (a b : List Int) : List Int := [vi a 0 - vi b 0, vi a 1 - vi b 1, vi a 2 - vi b 2]
/-- A multiple. -/
def vscale (k : Int) (a : List Int) : List Int := [k * vi a 0, k * vi a 1, k * vi a 2]

/-- The integer square root of a non-negative integer, rounded down. -/
def isqrtI (x : Int) : Nat := isqrt x.toNat

/-- The identity rotation in Q1.30. -/
def rotId : List Int := [2 ^ 30, 0, 0, 0, 2 ^ 30, 0, 0, 0, 2 ^ 30]
/-- The identity pose. -/
def Pose.id : Pose := { r := rotId, t := [0, 0, 0] }

/-- Rotation times rotation, each element rounded once, halves up (R94). -/
def rotMul (a b : List Int) : List Int :=
  [0, 1, 2].flatMap (fun i => [0, 1, 2].map (fun j =>
    rshUp (vi a (3 * i) * vi b j + vi a (3 * i + 1) * vi b (3 + j) + vi a (3 * i + 2) * vi b (6 + j)) 30))

/-- R · c + t, each coordinate rounded once, halves up (R136). -/
def place (p : Pose) (c : List Int) : List Int :=
  [0, 1, 2].map (fun i => rshUp (vi p.r (3 * i) * vi c 0 + vi p.r (3 * i + 1) * vi c 1 + vi p.r (3 * i + 2) * vi c 2 +
    vi p.t i * 2 ^ 30) 30)

/-- The composition of two poses (R94). -/
def Pose.mul (a b : Pose) : Pose := { r := rotMul a.r b.r, t := place a b.t }

/-! ### Sine and cosine -/

/-- Terms of the sine (`odd`) or cosine series at `x` in 2^-96, from term number `k` on: `n` more of them, the present
one being `t`. -/
def trigGo (x : Int) : Nat → Nat → Int → Int
  | 0, _, t => t
  | n + 1, k, t => t + trigGo x n (k + 2) (-(t * x / 2 ^ 96 * x / 2 ^ 96) / ((k + 1) * (k + 2) : Nat))

/-- sin of a Q3.28 angle, in 2^-96. -/
def sin96 (q : Int) : Int := trigGo (q * 2 ^ 68) 48 1 (q * 2 ^ 68)
/-- cos of a Q3.28 angle, in 2^-96. -/
def cos96 (q : Int) : Int := trigGo (q * 2 ^ 68) 48 0 (2 ^ 96)

/-- The Q1.30 number nearest to `v` in 2^-96 moved by `err`, as far as it stays within 2^-29 of `v`. Log entry 4 (DESIGN CHOICE, safe). -/
def within29 (v err : Int) : Int :=
  let n := rshUp v 66
  let ok := fun (k : Int) => decide (((n + k) * 2 ^ 66 - v).natAbs ≤ 2 ^ 67)
  let e := max (-2) (min 2 err)
  if ok e then n + e else if 0 < e then n + 1 else if e < 0 then n - 1 else n

/-- The Leek's sine and cosine: error at most 2^-29, otherwise open (R85). Log entry 4 (DESIGN CHOICE, safe). -/
def leekSin (q : Int) : Int := within29 (sin96 q) (Config.leekSinErr q)
/-- Cosine of the Leek. Log entry 4 (DESIGN CHOICE, safe). -/
def leekCos (q : Int) : Int := within29 (cos96 q) (Config.leekCosErr q)

/-- The base pose that x, y and yaw give. -/
def yawPose (b : List Int) : Pose :=
  let c := leekCos (vi b 2)
  let n := leekSin (vi b 2)
  { r := [c, -n, 0, n, c, 0, 0, 0, 2 ^ 30], t := [vi b 0, vi b 1, 0] }

/-! ### The Gaussian table (R128) -/

/-- sqrt(2 π) in 2^-96. -/
def sqrt2pi96 : Nat := 198595552305314927273837084509

/-- Terms of the integral of e^(−t²/2) from 0 to `x`, in 2^-96: the power term of number k is `t`. -/
def phiGo (x2 : Int) : Nat → Nat → Int → Int
  | 0, _, _ => 0
  | n + 1, k, t => t / ((2 * k + 1 : Nat) : Int) + phiGo x2 n (k + 1) (-(t * x2 / 2 ^ 96) / ((2 * (k + 1) : Nat) : Int))

/-- The integral of e^(−t²/2) from 0 to `x`, both in 2^-96. -/
def phi96 (x : Int) : Int := phiGo (x * x / 2 ^ 96) 72 0 x

/-- Whether Φ((t − 1/2) / 4096) ≤ 0.5 + (i + 0.5) / 8192. -/
def gaussLe (i t : Nat) : Bool :=
  decide (phi96 (((2 * t : Nat) : Int) * 2 ^ 83 - 2 ^ 83) * 16384 ≤ ((2 * i + 1) * sqrt2pi96 : Nat))

/-- Binary search for the largest `t` with `gaussLe`. -/
def gaussGo (i : Nat) : Nat → Nat → Nat
  | 0, t => t
  | n + 1, t => if gaussLe i (t + 2 ^ n) then gaussGo i n (t + 2 ^ n) else gaussGo i n t

/-- T[i] = round(4,096 × Φ⁻¹(0.5 + (i + 0.5) / 8,192)), halves up. -/
def gaussT (i : Nat) : Nat := gaussGo i 14 0

end Sys2Proof.Machine
end

