-- ==== Sys2Proof/Machine/Phu.lean ====
section
/-!
DEFINITION. The phase unit: source (R31), period range (R32), the lock loop (R33), states (R36, R37), gates (R38, R39), hard alignment
(R40), time correspondence (R43, R44) and the multi-device barrier (R45, R46).
-/
namespace Sys2Proof.Machine

/-! ### Period, window and loop -/

/-- A measured period of `p` ticks is in range (R32): 250 µs to 20 ms, and within 0.5 % of the declared cycle. -/
def periodOk (s : State) (p : Nat) : Bool :=
  let d := declNs s * 9
  decide (2250000 ≤ p) && decide (p ≤ 180000000) && decide ((p - d) * 1000 ≤ d * 5) && decide ((d - p) * 1000 ≤ d * 5)

/-- Whether the phase lies in the capture window (R37). -/
def inCapture (p : Nat) : Bool := decide (57344 ≤ p) || decide (p < 8192)

/-- The number of the capture window around a phase: a window opens at 57,344 pu and runs across the boundary; a boundary that is due
counts, although its command has not come. -/
def windowAt (s : State) (p : Nat) : Nat := s.phu.bcount + b2n s.phu.boundaryDue + (if 57344 ≤ p then 1 else 0)

/-- The signed error at an accumulator value, in 2^-32 pu (R33). -/
def phaseErr (acc : Nat) : Int := if 2 ^ 47 ≤ acc then (acc : Int) - 2 ^ 48 else acc

/-- The increment of R33: (2^48 − floor(e / 4)) // p_avg. -/
def loopInc (e : Int) (pAvg : Nat) : Nat := if pAvg = 0 then 0 else ((2 ^ 48 - e / 4) / (pAvg : Int)).toNat

/-- p_avg after a measured period (R33). -/
def loopAvg (pAvg pMeas : Nat) : Nat := ((pAvg : Int) + ((pMeas : Int) - pAvg) / 16).toNat

/-- A phase error in Q23.8 pu. -/
def errQ8 (e : Int) : Int := e / 2 ^ 24

/-- LOCK_TOL in 2^-32 pu. -/
def lockTol (s : State) : Int := (field (regGet s Reg.phuTol) 0 16 * 2 ^ 32 : Nat)
/-- UNLOCK_TOL in 2^-32 pu. -/
def unlockTol (s : State) : Int := (field (regGet s Reg.phuTol) 16 16 * 2 ^ 32 : Nat)

/-! ### Barrier settings (R49) -/

/-- PHU_BAR_CTRL.ARM. -/
def barArmed (s : State) : Bool := bit (regGet s Reg.phuBarCtrl) 0
/-- HOP_TICKS. -/
def barHop (s : State) : Nat := field (regGet s Reg.phuBarCtrl) 12 12
/-- POSITION. -/
def barPos (s : State) : Nat := field (regGet s Reg.phuBarCtrl) 8 2
/-- Ring size N. -/
def barN (s : State) : Nat := field (regGet s Reg.phuBarCtrl) 4 2 + 1

/-- Ready (R45): in ACQUIRE with a period in range, while ARM is 1. -/
def barReady (s : State) : Bool := barArmed s && s.phu.st == .acquire && s.phu.inRange

/-- STEP_OUT and BSTATE follow readiness (R45): the master drives high while ready, a follower while ready with STEP_IN high; low while
ARM is 0 (R46). A launch or forwarding that has begun keeps its level while the device is ready. -/
def barDrive (s : State) : State :=
  let p := s.phu
  if !barArmed s then
    { s with phu := { p with stepOut := false, bar := .idle, launchTick := none, fallTick := none, returnFrom := none } }
  else if !barReady s then
    { s with phu := { p with stepOut := false, bar := if p.bar = .ready then .idle else p.bar, launchTick := none, fallTick := none } }
  else if p.launchTick.isSome ∨ p.fallTick.isSome then s
  else { s with phu := { p with bar := .ready, stepOut := barPos s == 0 || p.stepIn } }

/-! ### State changes -/

/-- Entry to ACQUIRE with the increment held: the phase runs on (R37). `first` is the tick of the first edge, if any. -/
def toAcquire (s : State) (held : Bool) (first : Option Nat) : State :=
  barDrive { s with phu := { s.phu with st := .acquire, held := held, lastEdge := first, inRange := false, inTol := 0,
                                        outTol := 0, edges := if first.isSome then 1 else 0 } }

/-- Cycle loss begins: the slave drops from OP to SAFEOP with AL status 0x002C, and FSoE leaves its data state (R417, R430). -/
def alCycleLoss (s : State) : State :=
  if s.od.al = .op ∧ cycleLoss s then
    let s := { s with od := { s.od with al := .safeop, alCode := 0x002C, alErr := true, rxSeen := false } }
    fsoeReset (raise s 0x1001 0x6800 4 0x002C) 0
  else s

/-- The start of a hard alignment at a tick (R33, R40): p_avg takes the last in-range period, inc is 2^48 // p_avg, and the boundary falls
once the remaining gates have issued. The window that opens the new cycle has had its edge: the one that aligns, or the one that a barrier
counts from; after cycle loss that cycle has no survivors (R123). Log entry 67 (DESIGN CHOICE, unsafe). -/
def startAlign (s : State) (tick period : Nat) : State :=
  { s with cand := { s.cand with dropSurv := s.cand.dropSurv || cycleLoss s }
           phu := { s.phu with st := .track, held := false, pAvg := period, inc := loopInc 0 period, err := 0, inTol := 0,
                               outTol := 0, usedWin := some (s.phu.bcount + 1), aligning := some tick, boundaryDue := false } }

/-- The master's launch (R45): with its ring ready, STEP_OUT falls at the next accepted edge. -/
def launchAt (s : State) (tick : Nat) : State :=
  let p := s.phu
  if barReady s && barPos s == 0 && p.stepIn && p.stepOut && p.launchTick.isNone then
    { s with phu := { p with stepOut := false, launchTick := some tick, returnFrom := some tick } }
  else s

/-- An edge in ACQUIRE, where every edge is accepted (R37). -/
def edgeAcquire (s : State) (tick : Nat) : State :=
  let last := s.phu.lastEdge
  let s := launchAt s tick
  let s := { s with phu := { s.phu with lastEdge := some tick, edges := s.phu.edges + 1 } }
  match last with
  | none => s
  | some t0 =>
    let m := tick - t0
    if !periodOk s m then raise s 0x0107 0xFFFF (m / 9) 0
    else
      let s := { s with phu := { s.phu with lastPeriod := m } }
      if barArmed s then barDrive { s with phu := { s.phu with inRange := true } } else startAlign s tick m

/-- An edge accepted in the capture window (R32, R33, R37): the loop runs on the values of the capture clk, then the lock
and unlock conditions are judged. -/
def edgeLoop (s : State) (acc tick win : Nat) : State :=
  let p := s.phu
  let e := phaseErr acc
  let m := tick - p.lastEdge.getD tick
  let ok := periodOk s m
  let s := if ok then s else raise s 0x0107 0xFFFF (m / 9) 0
  let avg := if ok then loopAvg p.pAvg m else p.pAvg
  let inT := if (e.natAbs : Int) ≤ lockTol s then min (p.inTol + 1) 255 else 0
  let outT := if unlockTol s < (e.natAbs : Int) then p.outTol + 1 else 0
  let s := { s with phu := { s.phu with err := e, pAvg := avg, inc := loopInc e avg, lastEdge := some tick, inTol := inT,
                                        outTol := outT, edges := p.edges + 1, usedWin := some win } }
  if 2 ≤ outT then raise (alCycleLoss (toAcquire s true (some tick))) 0x0105 0xFFFF (ofSigned 32 (errQ8 e)) 0
  else
    match p.st with
    | .track =>
      if 16 ≤ inT then
        raise { s with phu := { s.phu with st := .locked } } 0x0106 0xFFFF s.phu.edges 0
      else s
    | .miss | .coast =>
      if (e.natAbs : Int) ≤ unlockTol s then { s with phu := { s.phu with st := .locked } } else s
    | _ => s

/-- Judges an edge whose capture clk had accumulator `acc` and tick count `tick`, in the window of number `win` (R37).
Log entry 65 (DEDUCED, unsafe). -/
def judgeEdge (s : State) (acc tick win : Nat) : State :=
  match s.phu.st with
  | .off => s
  | .acquire => edgeAcquire s tick
  | .lost => alCycleLoss (toAcquire s true (some tick))
  | _ =>
    let ph := acc / 2 ^ 32
    if inCapture ph ∧ s.phu.usedWin ≠ some win then edgeLoop s acc tick win else raise s 0x0104 0xFFFF ph 0

/-- SYNC_EDGE: `dt` ticks after the last command an edge of source `src` is captured, and 2 clk later it is acted on with
the values of the capture clk (R33). An edge during an alignment waits for its boundary (R40). Log entry 65 (DEDUCED, unsafe). -/
def syncEdge (s : State) (src dt : Nat) : State :=
  let s := advance s dt
  let acc := s.phu.acc
  let tick := s.now
  let win := windowAt s (phase s)
  let s := advance s (2 * ticksPerClk s)
  if s.phu.st = .off ∨ s.phu.src ≠ src then s
  else if s.phu.aligning.isSome then { s with phu := { s.phu with waitEdge := s.phu.waitEdge ++ [tick] } }
  else judgeEdge s acc tick win

/-- PHU_SRC_SELECT (R31): effective only in OFF and ACQUIRE. -/
def srcSelect (s : State) (v : Nat) : State :=
  match s.phu.st with
  | .off =>
    let s := regField s Reg.phuCtrl 0 2 v
    toAcquire { s with phu := { s.phu with src := v, acc := 0, boundaryDue := false } } false none
  | .acquire =>
    let s := regField s Reg.phuCtrl 0 2 v
    if s.phu.src = v then s
    else barDrive { s with phu := { s.phu with src := v, lastEdge := none, inRange := false, edges := 0 } }
  | _ => s

/-- PHU_SRC_OFF (R31, R361): OFF in every state, no phase, and the permit lapses at once with cause 5. The gates of the cycle that it cuts
off stay unissued until the next hard alignment issues them. Log entry 67 (DESIGN CHOICE, unsafe). -/
def srcOff (s : State) (v : Nat) : State :=
  let s := regField s Reg.phuCtrl 0 2 v
  let p := s.phu
  let s := barDrive { s with phu := { p with st := .off, src := 0, held := false, lastEdge := none, inRange := false,
                                             inTol := 0, outTol := 0, aligning := none, boundaryDue := false,
                                             acc := 0, inc := 0, waitEdge := [] } }
  lapse s 5

/-- CAPTURE_WINDOW_CLOSE (R37): at 8,192 pu. -/
def windowClose (s : State) : State :=
  if phaseRuns s then
    let s := reachPhase s 8192
    if s.phu.usedWin = some s.phu.bcount then s
    else match s.phu.st with
      | .track => raise (alCycleLoss (toAcquire s true none)) 0x0101 0xFFFF s.phu.cycle 0
      | .locked =>
        raise { s with phu := { s.phu with st := .miss, missCycle := s.phu.bcount } } 0x0101 0xFFFF s.phu.cycle 0
      | _ => s
  else s

/-- COAST_ENTRY (R37): in MISS, at 32,768 pu of the cycle of entry. -/
def coastEntry (s : State) : State :=
  if s.phu.st = .miss ∧ s.phu.missCycle = s.phu.bcount then
    let s := reachPhase s 32768
    raise { s with phu := { s.phu with st := .coast, coastCycle := s.phu.bcount } } 0x0102 0xFFFF
      (ofSigned 32 (errQ8 s.phu.err)) 0
  else s

/-- CYCLE_LOST (R37): 4 cycles after entry to COAST. -/
def cycleLost (s : State) : State :=
  if s.phu.st = .coast ∧ s.phu.bcount = s.phu.coastCycle + 4 then
    let s := reachPhase s 32768
    raise (alCycleLoss { s with phu := { s.phu with st := .lost } }) 0x0103 0xFFFF 4 0
  else s

/-! ### Gates (R38, R39) -/

/-- The gate table in force: the running image's (R301). -/
def gates (s : State) : List (Nat × Nat) :=
  match s.plan.run with
  | some p => p.gates
  | none => []

/-- The gates of one phase value from position `i` on: their count. -/
def sameGate (g : Nat) : List (Nat × Nat) → Nat
  | [] => 0
  | x :: t => if x.1 = g then 1 + sameGate g t else 0

/-- Issues up to 8 waiting gate decrements in one clk, in table order, each with its own stamp (R39); the next clk where this one has
had its 8. -/
def issueEight (s : State) : State :=
  let q := s.phu.gateQ
  if q.isEmpty then s else
  let s := ownClk s .gates
  let s := { s with phu := { s.phu with gateQ := q.drop 8 } }
  clkDecs s ((q.take 8).map (fun x => ⟨x.2, 0xFFFF, x.1⟩)) []

/-- Puts the next gate value of the cycle into the issue queue; answers the value. -/
def openGate (s : State) : Option Nat × State :=
  match (gates s).drop s.phu.gatesDone with
  | [] => (none, s)
  | x :: t =>
    let n := 1 + sameGate x.1 t
    (some x.1, { s with phu := { s.phu with gatesDone := s.phu.gatesDone + n,
                                            gateQ := s.phu.gateQ ++ (x :: t).take n } })

/-- Issues every waiting gate decrement, 8 per clk. -/
def issueAll : Nat → State → State
  | 0, s => s
  | n + 1, s => if s.phu.gateQ.isEmpty then s else issueAll n (issueEight s)

/-! ### Barrier (R45, R46) -/

/-- STEP_IN falls `dt` ticks after the last command: a follower starts its hop delay, the master measures the return
against (N − 1) × H, and a deviation above 4 clk raises 0x0109. -/
def stepInFall (s : State) (dt : Nat) : State :=
  let s := advance s dt
  let s := { s with phu := { s.phu with stepIn := false } }
  if !barArmed s then s
  else if barPos s = 0 then
    match s.phu.returnFrom with
    | none => s
    | some t =>
      let dev : Int := ((s.now - t : Nat) : Int) - ((barN s - 1) * barHop s : Nat)
      let s := { s with phu := { s.phu with returnDev := dev, returnFrom := none } }
      if 4 * ticksPerClk s < dev.natAbs then raise s 0x0109 0xFFFF (ofSigned 32 dev) 0 else s
  else if barReady s ∧ s.phu.stepOut then { s with phu := { s.phu with fallTick := some s.now } }
  else barDrive s

/-- STEP_IN rises: a ready follower drives STEP_OUT high; the master sees its ring ready. -/
def stepInRise (s : State) : State := barDrive { s with phu := { s.phu with stepIn := true } }

/-- A follower drives STEP_OUT low exactly H ticks after STEP_IN fell. -/
def barForward (s : State) : State :=
  match s.phu.fallTick with
  | some t =>
    if barPos s = 0 then s
    else
      let s := advance s (t + barHop s - s.now)
      { s with phu := { s.phu with stepOut := false } }
  | none => s

/-- The tick at which the device releases: (N − 1) × H after the launch for the master, (N − i) × H after the fall for
follower i. -/
def releaseTick (s : State) : Option Nat :=
  if barPos s = 0 then s.phu.launchTick.map (· + (barN s - 1) * barHop s)
  else s.phu.fallTick.map (· + (barN s - barPos s) * barHop s)

/-- BARRIER_RELEASE (R45): hard alignment, cycle number from PHU_BAR_CYCLE, TRACK, BSTATE RELEASED, event 0x0108. -/
def barRelease (s : State) : State :=
  match releaseTick s with
  | some t =>
    if barReady s then
      let s := advance s (t - s.now)
      let cyc := regGet s Reg.phuBarCycleHi * 2 ^ 32 + regGet s Reg.phuBarCycleLo
      let s := startAlign s t s.phu.lastPeriod
      let s := { s with phu := { s.phu with bar := .released, stepOut := false, launchTick := none, fallTick := none,
                                            cycleLoad := some cyc } }
      raise s 0x0108 0xFFFF cyc 0
    else s
  | none => s

/-! ### Time correspondence (R43, R44) -/

/-- TC_SNAPSHOT_READ: a read of PHU_TC_CYCLE_LO freezes the other PHU_TC registers. -/
def tcFreeze (s : State) : State :=
  let s := answer s (.busData (s.phu.tc.cycle % 2 ^ 32))
  if s.phu.tcFrozen.isSome then s else { s with phu := { s.phu with tcFrozen := some s.phu.tc } }

/-- The time-correspondence values that the registers other than PHU_TC_CYCLE_LO show. -/
def tcShown (s : State) : Tc := s.phu.tcFrozen.getD s.phu.tc

/-- PHU_TC_FLAGS. -/
def tcFlags (s : State) : Nat := b2n (tcShown s).gptpValid * 2 + b2n (tcShown s).dcValid

/-- TC_FLAGS_READ: the read ends the freeze. -/
def tcThaw (s : State) : State :=
  let s := answer s (.busData (tcFlags s))
  { s with phu := { s.phu with tcFrozen := none } }

/-- Cycle and phase of an external gPTP time in ns (R44): k = floor((t − t_b) × 65,536 / P) against the last boundary, P =
p_avg / 9 ns; rounds towards the earlier phase. -/
def timeToPhase (s : State) (ns : Int) : Int × Nat :=
  let tb : Int := ((s.phu.tc.gptpS * 1000000000 + s.phu.tc.gptpNs : Nat) : Int)
  if s.phu.pAvg = 0 then ((s.phu.cycle : Int), 0)
  else
    let k := ((ns - tb) * 65536 * 9) / (s.phu.pAvg : Int)
    ((s.phu.cycle : Int) + k / 65536, (k % 65536).toNat)

/-- The gPTP time in ns of a phase of the present cycle, from the last boundary. -/
def phaseToNs (s : State) (p : Nat) : Nat :=
  s.phu.tc.gptpS * 1000000000 + s.phu.tc.gptpNs + p * s.phu.pAvg / (9 * 65536)

end Sys2Proof.Machine
end

