-- ==== Sys2Proof/Machine/Model.lean ====
section
/-!
DEFINITION. The robot model (R84 to R110): reading and checking a model image, composition, sweep inflation, limit checks, v_r, and the
installation, cancellation, staging and switch of a model with the plan image tied to it (R104 to R108, R301).
-/
namespace Sys2Proof.Machine

/-! ### The image (R86 to R93) -/

/-- The next multiple of 16. -/
def align16 (n : Nat) : Nat := (n + 15) / 16 * 16

/-- Three signed 32-bit numbers at an offset. -/
def vec3At (b : Bytes) (o : Nat) : List Int := [getLeS b o 4, getLeS b (o + 4) 4, getLeS b (o + 8) 4]

/-- A joint entry (R88). -/
def jointAt (b : Bytes) (o : Nat) : Joint :=
  { typ := getLe b o 1, parent := getLe b (o + 1) 1, flags := getLe b (o + 2) 1, tOrg := vec3At b (o + 4),
    rOrg := (List.range 9).map (fun i => getLeS b (o + 16 + 4 * i) 4), qMin := getLeS b (o + 52) 4,
    qMax := getLeS b (o + 56) 4, vMax := getLe b (o + 60) 4, aMax := getLe b (o + 64) 4, jMax := getLe b (o + 68) 4, fkSlack := getLe b (o + 72) 4 }

/-- Whether a joint is CONTINUOUS. -/
def Joint.continuous (j : Joint) : Bool := bit j.flags 0
/-- Whether a joint's value is an angle in Q3.28; otherwise Q15.16 m (R84). -/
def Joint.angular (j : Joint) : Bool := j.typ == 0 || j.typ == 4
/-- Fraction bits of a joint's format. -/
def Joint.frac (j : Joint) : Nat := if j.angular then 28 else 16

/-- The bound sphere under which body sphere `s` stands. -/
def boundOf (bs : List Bound) (s : Nat) : Nat := (bs.findIdx? (fun b => decide (b.first ≤ s) && decide (s < b.first + b.n))).getD 0

/-- Section offsets that R87 requires, from the counts: joints, bounds, spheres, pairs, levers, capsules, end. -/
def sectionOffs (nj nb ns np nc : Nat) : List Nat :=
  let o1 := 64
  let o2 := align16 (o1 + 80 * nj)
  let o3 := align16 (o2 + 24 * nb)
  let o4 := align16 (o3 + 16 * ns)
  let o5 := align16 (o4 + 4 * np)
  let o6 := align16 (o5 + 4 * nj * nb)
  [o1, o2, o3, o4, o5, o6, o6 + 32 * nc]

/-- The model that an image of consistent counts describes; the bound-pair list is derived as R135 states. -/
def readModel (b : Bytes) : Model :=
  let nj := getLe b 6 1
  let nb := getLe b 7 1
  let ns := getLe b 8 2
  let np := getLe b 10 2
  let nc := getLe b 12 1
  let o := sectionOffs nj nb ns np nc
  let at' := fun i => o.getD i 0
  let bounds := (List.range nb).map (fun i =>
    let p := at' 1 + 24 * i
    { link := getLe b p 1, first := getLe b (p + 1) 1, n := getLe b (p + 2) 1, c := vec3At b (p + 4),
      r := getLeS b (p + 16) 4 : Bound })
  let pairs := (List.range np).map (fun i => (getLe b (at' 3 + 4 * i) 1, getLe b (at' 3 + 4 * i + 1) 1))
  let bp := (List.range nb).flatMap (fun x => ((List.range nb).filter (fun y => decide (x < y) &&
    pairs.any (fun p => (boundOf bounds p.1 == x && boundOf bounds p.2 == y) ||
      (boundOf bounds p.1 == y && boundOf bounds p.2 == x)))).map (fun y => (x, y)))
  { planar := bit (getLe b 13 1) 0
    joints := (List.range nj).map (fun i => jointAt b (at' 0 + 80 * i))
    bounds := bounds
    spheres := (List.range ns).map (fun i =>
      { c := vec3At b (at' 2 + 16 * i), r := getLeS b (at' 2 + 16 * i + 12) 4 : Sphere })
    pairs := pairs
    bpairs := bp
    levers := (List.range (nj * nb)).map (fun i => getLe b (at' 4 + 4 * i) 4)
    caps := (List.range nc).map (fun i =>
      let p := at' 5 + 32 * i
      { link := getLe b p 1, p0 := vec3At b (p + 4), p1 := vec3At b (p + 16), r := getLeS b (p + 28) 4 : Capsule })
    vDecl := getLe b 40 4
    digest := slice b 48 16 }

/-- PARENT order and the planar-base rules (R89; reason 5). -/
def treeOk (m : Model) : Bool :=
  (m.joints.zip (List.range m.joints.length)).all (fun x =>
    let (j, i) := x
    (j.parent == 0xFF || decide (j.parent < i)) &&
    (if m.planar ∧ i < 3 then
      j.typ == i + 2 && j.parent == (if i = 0 then 0xFF else i - 1) && j.tOrg == [0, 0, 0] && j.rOrg == rotId
    else !(j.typ == 2 || j.typ == 3 || j.typ == 4))) &&
  (!m.planar || (decide (3 ≤ m.joints.length) && m.bounds.all (fun b => decide (2 ≤ b.link))))

/-- Whether the bound spheres take the body spheres contiguously and in ascending order, from `k` on (R90). -/
def coverFrom : Nat → List Bound → Option Nat
  | k, [] => some k
  | k, b :: t => if b.first = k ∧ 0 < b.n then coverFrom (k + b.n) t else none

/-- Whether a list of pairs ascends strictly. -/
def pairsAscend : List (Nat × Nat) → Bool
  | [] => true
  | [_] => true
  | a :: b :: t => (decide (a.1 < b.1) || (a.1 == b.1 && decide (a.2 < b.2))) && pairsAscend (b :: t)

/-- The table rules of R88 to R93 (reason 9). -/
def tablesOk (m : Model) : Bool :=
  m.joints.all (fun j => decide (j.typ ≤ 4) && (!j.continuous || j.angular)) &&
  coverFrom 0 m.bounds == some m.spheres.length &&
  m.bounds.all (fun b => decide (b.link < m.joints.length)) && m.caps.all (fun c => decide (c.link < m.joints.length)) &&
  m.pairs.all (fun p => decide (p.2 < m.spheres.length) && decide (p.1 < p.2) &&
    ((m.bounds.getD (boundOf m.bounds p.1) ⟨0, 0, 0, [], 0⟩).link !=
      (m.bounds.getD (boundOf m.bounds p.2) ⟨0, 0, 0, [], 0⟩).link)) &&
  pairsAscend m.pairs

/-- The reason for which an image is refused (R108), the lowest that applies; 0 accepts. -/
def modelReason (b : Bytes) : Nat :=
  let nj := getLe b 6 1
  let nb := getLe b 7 1
  let ns := getLe b 8 2
  let np := getLe b 10 2
  let nc := getLe b 12 1
  let o := sectionOffs nj nb ns np nc
  let total := getLe b 44 4
  if getLe b 0 4 ≠ 0x4A52424D ∨ getLe b 4 2 ≠ 1 then 1
  else if nj = 0 ∨ 32 < nj ∨ nb = 0 ∨ 32 < nb ∨ ns = 0 ∨ 256 < ns ∨ 4096 < np ∨ nc = 0 ∨ 48 < nc then 2
  else if (List.range 6).any (fun i => getLe b (16 + 4 * i) 4 != o.getD i 0) ∨ total ≠ o.getD 6 0 then 3
  else if (sha256 (putAt (b.take total) 48 (zeros 16))).take 16 ≠ slice b 48 16 then 4
  else
    let m := readModel b
    if !treeOk m then 5 else if !tablesOk m then 9 else 0

/-- Whether a replacement changes NJ, any TYPE or any PARENT (R106). -/
def structuralChange (old : Option Model) (m : Model) : Bool :=
  match old with
  | none => false
  | some o => o.joints.map (fun j => (j.typ, j.parent)) != m.joints.map (fun j => (j.typ, j.parent))

/-! ### Composition (R94) -/

/-- The pose of one link from its parent's: the local transform exact, each element rounded once; a translation beyond 32 bits is carried
unbounded (R84, R94). Log entry 72 (DEDUCED, unsafe). -/
def linkPose (p : Pose) (j : Joint) (q : Int) : Pose :=
  let one : Int := 2 ^ 30
  let c := if j.angular then leekCos q else one
  let s := if j.angular then leekSin q else 0
  let o := vi j.rOrg
  -- R_org · M in Q2.60
  let l := [0, 1, 2].flatMap (fun i => [o (3 * i) * c + o (3 * i + 1) * s, o (3 * i + 1) * c - o (3 * i) * s, o (3 * i + 2) * one])
  let axis := match j.typ with | 1 => some 2 | 2 => some 0 | 3 => some 1 | _ => none
  -- T_org + R_org · (q along the axis), with 46 fraction bits
  let t := [0, 1, 2].map (fun i => vi j.tOrg i * one + (match axis with | some a => o (3 * i + a) * q | none => 0))
  let r := [0, 1, 2].flatMap (fun i => [0, 1, 2].map (fun k =>
    rshUp (vi p.r (3 * i) * vi l k + vi p.r (3 * i + 1) * vi l (3 + k) + vi p.r (3 * i + 2) * vi l (6 + k)) 60))
  let tt := [0, 1, 2].map (fun i =>
    rshUp (vi p.r (3 * i) * vi t 0 + vi p.r (3 * i + 1) * vi t 1 + vi p.r (3 * i + 2) * vi t 2 + vi p.t i * 2 ^ 60) 60)
  { r := r, t := tt }

/-- World poses of every link for one waypoint, in ascending joint order. -/
def compose (m : Model) (q : List Int) : List Pose :=
  m.joints.zip (List.range m.joints.length) |>.foldl (fun acc x =>
    let p := if x.1.parent = 0xFF then Pose.id else acc.getD x.1.parent Pose.id
    acc ++ [linkPose p x.1 (vi q x.2)]) []

/-- The base link (R98). -/
def baseLink (m : Model) : Nat := if m.planar then 2 else 0

/-- The base position at a waypoint (R98). -/
def basePos (m : Model) (q : List Int) : List Int := ((compose m q).getD (baseLink m) Pose.id).t

/-! ### Sweep inflation and limits (R99 to R102) -/

/-- δ_b between two waypoints: each product rounded up, the sum saturating (R99). -/
def sweep (m : Model) (b : Nat) (q0 q1 : List Int) : Nat :=
  let nb := m.bounds.length
  sat 32 (sumN ((m.joints.zip (List.range m.joints.length)).map (fun x =>
    ceilDiv ((vi q1 x.2 - vi q0 x.2).natAbs * m.levers.getD (x.2 * nb + b) 0) (2 ^ x.1.frac))))

/-- Half of the larger neighbouring inflation at waypoint k, rounded up (R100). -/
def sweepHalf (m : Model) (b : Nat) (wp : List (List Int)) (k : Nat) : Nat :=
  let d := fun i => sweep m b (wp.getD i []) (wp.getD (i + 1) [])
  let l := if k = 0 then d 0 else if k = 31 then d 30 else max (d (k - 1)) (d k)
  (l + 1) / 2

/-- Step limits in joint LSB, rounded down (R102). -/
def stepLimits (j : Joint) (dtUs : Nat) : Nat × Nat × Nat :=
  let s := 2 ^ (j.frac - 16)
  (j.vMax * s * dtUs / 10 ^ 6, j.aMax * s * dtUs ^ 2 / 10 ^ 12, j.jMax * s * dtUs ^ 3 / 10 ^ 18)

/-- The third difference of a joint at waypoint k. -/
def diff3 (wp : List (List Int)) (j k : Nat) : Int :=
  let q := fun i => vi (wp.getD i []) j
  q k - 3 * q (k - 1) + 3 * q (k - 2) - q (k - 3)

/-- Whether waypoint k fails the limit check (R102). -/
def limitFails (m : Model) (dtUs : Nat) (wp : List (List Int)) (k : Nat) : Bool :=
  (m.joints.zip (List.range m.joints.length)).any (fun x =>
    let (j, i) := x
    let q := fun n => vi (wp.getD n []) i
    let (v, a, jk) := stepLimits j dtUs
    (!j.continuous && (decide (q k < j.qMin) || decide (j.qMax < q k))) ||
    (decide (1 ≤ k) && decide (v < (q k - q (k - 1)).natAbs)) ||
    (decide (2 ≤ k) && decide (a < (q k - 2 * q (k - 1) + q (k - 2)).natAbs)) ||
    (decide (3 ≤ k) && decide (jk < (diff3 wp i k).natAbs)))

/-- The first failing waypoint of the limit check. -/
def limitWp (m : Model) (dtUs : Nat) (wp : List (List Int)) : Option Nat := (List.range 32).find? (limitFails m dtUs wp)

/-- v_r of an executing segment, in mm/s, rounded up (R100). Log entry 18 (DEDUCED, safe). -/
def segSpeed (m : Model) (g : Seg) : Nat :=
  maxN ((List.range m.bounds.length).flatMap (fun b => (List.range 31).map (fun k =>
    ceilDiv (sweep m b (g.wp.getD k []) (g.wp.getD (k + 1) []) * 10 ^ 9) (65536 * g.dtUs))))

/-- v_r (R69, R100): over the executing segment, or the model's declared speed when none is executing. Log entry 18 (DEDUCED, safe). -/
def vrNow (s : State) : Nat :=
  match s.model.cur with
  | none => 0
  | some m => match s.safety.exe with
    | some g => if g.nj = m.joints.length then segSpeed m g else m.vDecl
    | none => m.vDecl

/-- One turn in Q3.28. -/
def turn : Int := 1686629713

/-- The position of a CONTINUOUS joint reduced into [−π, π) (R97): π is 843,314,856.53 LSB, so the range is −843,314,856 to 843,314,856. -/
def wrapJoint (j : Joint) (q : Int) : Int :=
  if j.continuous then (q + 843314856) % turn - 843314856 else q

/-! ### Tasks that hold a bank or an image -/

/-- Every released task that has not ended: in slots, ready lists, and evaluations. -/
def allTasks (s : State) : List Task :=
  s.units.flatMap (fun x => x.2.exec.toList ++ x.2.pref.toList) ++ s.sched.ready.flatMap (fun x => x.2) ++
    s.pod.evals.map (fun e => e.task)

/-- Whether a task of an older generation, or a release of it that waits for its engine, still holds its bank (R107). -/
def oldBankHeld (s : State) : Bool :=
  (allTasks s).any (fun t => decide (t.gen < s.model.gen)) || s.sched.rels.any (fun r => decide (r.gen < s.model.gen))

/-! ### Installation (R104 to R108) -/

/-- Whether an installation status is one of a pending image. -/
def Inst.busy : Inst → Bool
  | .verifying | .staged | .deferred => true
  | _ => false

/-- The status code of an installation. -/
def Inst.code : Inst → Nat
  | .idle => 0 | .verifying => 1 | .staged => 2 | .deferred => 3 | .refused => 4

/-- The pending plan image is refused, alone. -/
def planRefuseOnly (s : State) (reason sub : Nat) : State :=
  raise { s with plan := { s.plan with status := .refused, reason := reason, pend := none, deferrals := 0 } } 0x0B01 0xFFFF
    reason sub

/-- The pending model is refused, alone. -/
def modelRefuseOnly (s : State) (reason : Nat) : State :=
  raise { s with model := { s.model with status := .refused, reason := reason, pend := none, deferrals := 0 } } 0x0301 0xFFFF
    reason 0

/-- Whether the pending plan image and the staged structural model are tied (R106). -/
def tied (s : State) : Bool :=
  match s.plan.pend, s.model.pend with
  | some p, some m => p.structural && s.model.structural && p.modelDigest == m.digest &&
      s.plan.pendSwitch == s.model.pendSwitch && s.plan.status.busy && s.model.status.busy
  | _, _ => false

/-- The pending model is refused; a tied plan image with it, in the same clk (R106, R301). -/
def modelRefuse (s : State) (reason : Nat) : State :=
  let t := tied s
  let s := modelRefuseOnly s reason
  if t then planRefuseOnly s 5 0 else s

/-- The pending plan image is refused; a tied model with it (R106). -/
def planRefuse (s : State) (reason sub : Nat) : State :=
  let t := tied s
  let s := planRefuseOnly s reason sub
  if t then modelRefuseOnly s 6 else s

/-- Whether a staged image switches at this boundary: it was staged before it and its cycle has come (R104, R301). -/
def switchDue (s : State) (st : Inst) (cyc at' : Nat) : Bool :=
  s.phu.atBound && (st == .staged || st == .deferred) && decide (at' < s.phu.bcount) && (cyc == 0 || decide (cyc ≤ s.phu.cycle))

/-- Whether the model's switch is due. -/
def modelDue (s : State) : Bool := switchDue s s.model.status s.model.pendSwitch s.model.stagedAt

/-- MODEL_INSTALL: busy refuses without touching a pending model (R107); in replay the recorded model takes its place (R408). -/
def modelInstall (s : State) : State :=
  if s.det.replay then s
  else if s.model.status.busy ∨ oldBankHeld s then
    let st := if s.model.status.busy then s.model.status else .refused
    raise { s with model := { s.model with reason := 7, status := st } } 0x0301 0xFFFF 7 0
  else
    { s with model := { s.model with status := .verifying, pend := none, pendAddr := ssBase 0 + objW s 0x2300 6,
                                     pendSwitch := objW s 0x2300 7, deferrals := 0 } }

/-- MODEL_CANCEL (R107): up to the clk before the switch boundary; a tied plan image is refused. -/
def modelCancel (s : State) : State :=
  if s.model.status.busy ∧ !modelDue s then
    let t := tied s
    let s := { s with model := { s.model with status := .idle, pend := none, deferrals := 0 } }
    if t then planRefuseOnly s 5 0 else s
  else s

/-- The Leeks that take a copy of a staged image (R104). -/
def bankLeeks (s : State) : List Nat :=
  (classUnits 1 0 ++ classUnits 1 1).filter (fun u => unitSt s u == .active || unitSt s u == .draining || unitSt s u == .test)

/-- MODEL_STAGED: the checks of R108 and the copies into the pending banks have ended. -/
def modelStaged (s : State) : State :=
  if s.model.status = .verifying then
    let b := memBytes s s.model.pendAddr (min (memLe s (s.model.pendAddr + 44) 4) 29504)
    let b := fit (max 64 b.length) b
    let r := modelReason b
    if r ≠ 0 then modelRefuse s r
    else
      let m := readModel b
      let s := { s with model := { s.model with status := .staged, pend := some m, pendImg := b, stagedAt := s.phu.bcount,
                                                structural := structuralChange s.model.cur m } }
      (bankLeeks s).foldl bankCopy s
  else s

/-- The banks exchange roles (R104, R105, R120): generation, event, joints' first check, and the tables that no longer
match after a change of NJ. The digest enters the switch cycle's input records (R105, R401 type 7). Log entry 29 (DEDUCED, unsafe). -/
def modelExchange (s : State) : State :=
  match s.model.pend with
  | none => s
  | some m =>
    let nj := match s.model.cur with | some o => o.joints.length | none => m.joints.length
    let s := ((classUnits 1 0 ++ classUnits 1 1).filter (isActive s)).foldl bankCopy s
    let ms := { s.model with old := s.model.cur, cur := some m, pend := none, status := .idle, deferrals := 0,
                             gen := (s.model.gen + 1) % 2 ^ 32, fresh := true, outside := [], img := s.model.pendImg,
                             bank := 1 - s.model.bank }
    let rec7 : InRec := { typ := 7, source := 0, cycle := s.phu.cycle, phase := 0, content := m.digest, what := .model m }
    let s := { s with model := ms, det := { s.det with recs := s.det.recs ++ [rec7] } }
    let s := raise s 0x0302 0xFFFF ms.gen 0
    if nj ≠ m.joints.length then
      let had := s.cand.primN ≠ 0 ∨ s.cand.primPend.isSome
      let s := { s with cand := { s.cand with dropSurv := true, primN := 0, primAddr := 0, primPend := none,
                                              primStatus := 0 } }
      if had then raise s 0x0404 0xFFFF 2 0 else s
    else s

/-- A deferral of the model's switch; the 16th refuses it (R107). Log entry 29 (DEDUCED, unsafe). -/
def modelDefer (s : State) (units : Nat) : State :=
  if 15 ≤ s.model.deferrals then modelRefuse s 8
  else
    let m := { s.model with status := .deferred, deferrals := s.model.deferrals + 1, stagedAt := s.phu.bcount }
    raise { s with model := m } 0x0303 0xFFFF units 0

/-- MODEL_SWITCH at its boundary (R104): `unstaged` units have not yet staged. A structural model waits for a tied plan
image that is still VERIFYING or switches with it, and is refused without one (R106, R301). -/
def modelSwitch (s : State) (unstaged : Nat) : State :=
  if !modelDue s then s
  else if s.model.structural then
    if tied s then
      if switchDue s s.plan.status s.plan.pendSwitch s.plan.stagedAt then s else { s with model := { s.model with stagedAt := s.phu.bcount } }
    else if s.plan.status = .verifying ∧ s.plan.pendSwitch = s.model.pendSwitch then
      { s with model := { s.model with stagedAt := s.phu.bcount } }
    else modelRefuse s 6
  else if unstaged ≠ 0 then modelDefer s unstaged
  else modelExchange s

/-- MODEL_INSTALL: install command on 0x2300:08 (R104). -/
def execModelInstall (s : State) : Host.Outcome State Fault Refusal := .next (runIo s modelInstall)
/-- MODEL_CANCEL: cancel command on 0x2300:08 (R107). -/
def execModelCancel (s : State) : Host.Outcome State Fault Refusal := .next (runIo s modelCancel)
/-- MODEL_STAGED (R104). -/
def execModelStaged (s : State) : Host.Outcome State Fault Refusal := .next (runIo s modelStaged)

end Sys2Proof.Machine
end

