-- ==== Sys2Proof/Machine/Field.lean ====
section
/-!
DEFINITION. The world model's voxels, levels and distance field (R61, R65 to R74): obstacle state, margin voxels, the stored distance q,
brick words and reads.
-/
namespace Sys2Proof.Machine

/-! ### Voxels -/

/-- Key of a voxel, brick or block from its grid coordinates. -/
def vkey (x y z : Int) : Nat :=
  ((z + 2 ^ 22).toNat * 2 ^ 23 + (y + 2 ^ 22).toNat) * 2 ^ 23 + (x + 2 ^ 22).toNat

/-- The coordinates of a key. -/
def vOf (k : Nat) : Int × Int × Int :=
  ((k % 2 ^ 23 : Nat) - 2 ^ 22, (k / 2 ^ 23 % 2 ^ 23 : Nat) - 2 ^ 22, (k / 2 ^ 46 : Nat) - 2 ^ 22)

/-- UNKNOWN (R61). -/
def unknownL : Int := -128

/-- The log-odds byte of a voxel. -/
def occAt (l : Level) (x y z : Int) : Int := Smap.get (fun _ => unknownL) l.occ (vkey x y z)

/-- Whether a voxel lies in a level's box (R65). -/
def inBox (l : Level) (x y z : Int) : Bool :=
  decide (3 * l.ox ≤ x) && decide (x < 3 * (l.ox + l.nx)) && decide (3 * l.oy ≤ y) && decide (y < 3 * (l.oy + l.ny)) &&
    decide (3 * l.z0 ≤ z) && decide (z < 3 * (l.z0 + l.nz))

/-- Obstacle by its own byte (R61). -/
def byteObst (v : WVer) (l : Level) (x y z : Int) : Bool :=
  let o := occAt l x y z
  o == unknownL || decide (v.lOcc ≤ o)

/-- The cut squared distance of R70 between the cubes of two voxels. -/
def cubeGap (a b : Int) : Nat := ((a - b).natAbs - 1) ^ 2

/-- Whether a voxel is a margin voxel of a level with voxel size `s` mm under margin `h` (R70). -/
def marginVox (l : Level) (s h : Nat) (x y z : Int) : Bool :=
  l.person.any (fun p =>
    let (a, b, c) := vOf p.1
    decide (cubeGap a x + cubeGap b y + cubeGap c z ≤ h * h / (s * s)))

/-- Obstacle of the coarse level: its own byte, or any of its fine voxels an obstacle or margin voxel; all outside the
box (R66). -/
def coarseObst (v : WVer) (x y z : Int) : Bool :=
  !inBox v.coarse x y z || byteObst v v.coarse x y z ||
  (List.range 64).any (fun i =>
    let fx := 4 * x + (i % 4 : Nat)
    let fy := 4 * y + (i / 4 % 4 : Nat)
    let fz := 4 * z + (i / 16 : Nat)
    inBox v.fine fx fy fz && (byteObst v v.fine fx fy fz || marginVox v.fine 20 v.margin fx fy fz))

/-- Obstacle of the fine level: all outside the coarse box; outside the fine box the coarse voxel decides (R66). -/
def fineObst (v : WVer) (x y z : Int) : Bool :=
  !inBox v.coarse (x / 4) (y / 4) (z / 4) ||
    (if inBox v.fine x y z then byteObst v v.fine x y z else coarseObst v (x / 4) (y / 4) (z / 4))

/-- The level: fine or coarse. -/
inductive Lvl where
  | fine | coarse
  deriving DecidableEq, Repr

/-- The data of a level. -/
def WVer.level (v : WVer) : Lvl → Level
  | .fine => v.fine
  | .coarse => v.coarse

/-- Voxel size in mm (R65). -/
def Lvl.size : Lvl → Nat
  | .fine => 20
  | .coarse => 80

/-- What the transform of R68 takes as an obstacle: obstacles and margin voxels. -/
def blocked (v : WVer) (k : Lvl) (x y z : Int) : Bool :=
  (match k with | .fine => fineObst v x y z | .coarse => coarseObst v x y z) ||
    marginVox (v.level k) k.size v.margin x y z

/-! ### Distance -/

/-- (2|k| − 1)², 0 at 0 (R68). -/
def axisS (k : Int) : Nat := if k = 0 then 0 else (2 * k.natAbs - 1) ^ 2

/-- The window offsets from −16 to 16, nearest first. -/
def windowOffs : List Int := (0 : Int) :: (List.range 16).flatMap (fun i => [((i + 1 : Nat) : Int), -((i + 1 : Nat) : Int)])

/-- The least S over the blocked voxels of the window, 1,017 when there is none (R68). -/
def sMin (v : WVer) (k : Lvl) (x y z : Int) : Nat :=
  windowOffs.foldl (fun best dz =>
    if best ≤ axisS dz then best
    else windowOffs.foldl (fun best dy =>
      if best ≤ axisS dz + axisS dy then best
      else windowOffs.foldl (fun best dx =>
        let t := axisS dz + axisS dy + axisS dx
        if best ≤ t then best else if blocked v k (x + dx) (y + dy) (z + dz) then t else best) best) best) 1017

/-- The stored distance q (R68); every sample of a MARGIN_LIMIT version is 0 (R69). -/
def qAt (v : WVer) (k : Lvl) (x y z : Int) : Nat :=
  if v.marginLimit then 0 else min 255 (isqrt (64 * sMin v k x y z))

/-- Key of a brick of a level. -/
def brickKey (k : Lvl) (bx by' bz : Int) : Nat := vkey bx by' bz * 2 + (match k with | .fine => 0 | .coarse => 1)

/-- The sample of a brick, 0 throughout for a brick without a word (R72, R76). -/
def sample (v : WVer) (k : Lvl) (bx by' bz : Int) (x y z : Int) : Nat :=
  if v.noWord.contains (brickKey k bx by' bz) then 0 else qAt v k x y z

/-- UNK of a brick: any of its 64 sample voxels in the box is UNKNOWN (R72). -/
def brickUnk (l : Level) (bx by' bz : Int) : Bool :=
  (List.range 64).any (fun n =>
    let x := 3 * bx + (n % 4 : Nat)
    let y := 3 * by' + (n / 4 % 4 : Nat)
    let z := 3 * bz + (n / 16 : Nat)
    inBox l x y z && occAt l x y z == unknownL)

/-- The 64 bytes of a brick word (R71). -/
def brickWord (v : WVer) (k : Lvl) (bx by' bz : Int) : Bytes :=
  (List.range 64).map (fun n => sample v k bx by' bz (3 * bx + (n % 4 : Nat)) (3 * by' + (n / 4 % 4 : Nat)) (3 * bz + (n / 16 : Nat)))

/-- A read's answer (R73). -/
structure ReadVal where
  val : Nat
  sat : Bool
  unk : Bool
  deriving DecidableEq, Repr

/-- The cell of a point in Q15.16 m and the fractions in it, UQ0.8 (R73). -/
def cellOfPoint (k : Lvl) (p : List Int) : List Int × List Nat :=
  let u := [0, 1, 2].map (fun i => vi p i * 256000 / (65536 * k.size : Nat) - 128)
  (u.map (· / 256), u.map (fun x => (x % 256).toNat))

/-- The samples at the 8 corners of a cell, dimension 0 in bit 0 of their number. -/
def cornersOf (v : WVer) (k : Lvl) (c : List Int) : List Nat :=
  let b := fun i => vi c i / 3
  (List.range 8).map (fun n => sample v k (b 0) (b 1) (b 2) (vi c 0 + (n % 2 : Nat)) (vi c 1 + (n / 2 % 2 : Nat)) (vi c 2 + (n / 4 : Nat)))

/-- Weight of side `d` of an axis with fraction `f`. -/
def sideW (f : List Nat) (i d : Nat) : Nat := if d = 0 then 256 - f.getD i 0 else f.getD i 0

/-- A read of one level at a point in Q15.16 m: a stale version reads 0 with UNK at every point, another none when OUTSIDE (R73). -/
def readField (v : WVer) (stale : Bool) (k : Lvl) (p : List Int) : Option ReadVal :=
  let (c, f) := cellOfPoint k p
  let l := v.level k
  if stale then some ⟨0, false, true⟩
  else if !(inBox l (vi c 0) (vi c 1) (vi c 2) && inBox l (vi c 0 + 1) (vi c 1 + 1) (vi c 2 + 1)) then none
  else
    let q := cornersOf v k c
    let acc := sumN ((q.zip (List.range 8)).map (fun x => x.1 * (sideW f 0 (x.2 % 2) * sideW f 1 (x.2 / 2 % 2) * sideW f 2 (x.2 / 4))))
    some ⟨acc / 2 ^ 24 - 14, q.any (· == 255), brickUnk l (vi c 0 / 3) (vi c 1 / 3) (vi c 2 / 3)⟩

/-- The gradient of the trilinear interpolant in the cell of a point, before the slack: distance per distance, with 20 fraction bits (R217). -/
def readGrad (v : WVer) (k : Lvl) (p : List Int) : List Int :=
  let (c, f) := cellOfPoint k p
  let q := cornersOf v k c
  [0, 1, 2].map (fun a => ((q.zip (List.range 8)).map (fun x =>
    let d := fun (i : Nat) => x.2 / 2 ^ i % 2
    let w := fun (i : Nat) => if i = a then 1 else sideW f i (d i)
    (if d a = 0 then -1 else 1) * ((x.1 * (w 0 * w 1 * w 2) : Nat) : Int))).foldl (fun t y => t + y) 0)

end Sys2Proof.Machine
end

