-- ==== Sys2Proof/Machine/Tables.lean ====
section
/-!
DEFINITION. The tables of a world version (R72, R74, R76, R77): stored bricks, index entries, bitmap words, and the digest over what
differs from the version before.
-/
namespace Sys2Proof.Machine

/-! ### Slots (R65, R74) -/

/-- Slot of a brick in its level's storage (R65). -/
def slotOf (l : Level) (bx by' bz : Int) : Nat :=
  ((bx % l.nx) + l.nx * (by' % l.ny) + l.nx * l.ny * (bz - l.z0)).toNat

/-- The number in [lo, lo + n) that stands in slot `i` of `n` toroidal slots. -/
def unwrap (lo : Int) (n i : Nat) : Int := lo + ((i : Int) - lo) % n

/-- The brick of a slot. -/
def brickAt (l : Level) (i : Nat) : Int × Int × Int :=
  (unwrap l.ox l.nx (i % l.nx), unwrap l.oy l.ny (i / l.nx % l.ny), l.z0 + (i / l.nx / l.ny : Nat))

/-- Slots of a level. -/
def slotCount (l : Level) : Nat := l.nx * l.ny * l.nz

/-- Blocks along an axis of `n` bricks (R74). -/
def blocksOf (n : Nat) : Nat := ceilDiv (3 * n + 7) 8

/-- Slot of a block (R74). -/
def blockSlot (l : Level) (bx by' bz : Int) : Nat :=
  let n := blocksOf l.nx
  let m := blocksOf l.ny
  ((bx % n) + n * (by' % m) + n * m * (bz - 3 * l.z0 / 8)).toNat

/-- The block of a slot. -/
def blockAt (l : Level) (i : Nat) : Int × Int × Int :=
  let n := blocksOf l.nx
  let m := blocksOf l.ny
  (unwrap (3 * l.ox / 8) n (i % n), unwrap (3 * l.oy / 8) m (i / n % m), 3 * l.z0 / 8 + (i / n / m : Nat))

/-- Block slots of a level. -/
def blockCount (l : Level) : Nat := blocksOf l.nx * blocksOf l.ny * blocksOf l.nz

/-! ### Bricks with something in them -/

/-- The bricks that have a voxel among their 64 samples. -/
def bricksWith (x y z : Int) : List (Int × Int × Int) :=
  (List.range 8).map (fun n => ((x - (n % 2 : Nat)) / 3, (y - (n / 2 % 2 : Nat)) / 3, (z - (n / 4 : Nat)) / 3))

/-- Adds the bricks of a voxel that lie in the box to a set of bricks by key. -/
def addBricks (l : Level) (m : Smap Bool) (x y z : Int) : Smap Bool :=
  (bricksWith x y z).foldl (fun m b =>
    if inBox l (3 * b.1) (3 * b.2.1) (3 * b.2.2) then Smap.set (fun _ => false) m (vkey b.1 b.2.1 b.2.2) true else m) m

/-- Bricks of a level with a listed voxel among their samples for which `f` holds of its byte. -/
def bricksBy (l : Level) (f : Int → Bool) : Smap Bool :=
  l.occ.foldl (fun m e => if f e.2 then let (x, y, z) := vOf e.1; addBricks l m x y z else m) []

/-- Fine bricks whose apron reaches over the edge of the fine box into a coarse voxel that is not an obstacle by its byte (R66). -/
def edgeBricks (v : WVer) : Smap Bool :=
  let near := fun (c o : Int) (n : Nat) => decide (3 * o ≤ 4 * c + 3) && decide (4 * c ≤ 3 * (o + n))
  v.coarse.occ.foldl (fun m e =>
    let (x, y, z) := vOf e.1
    if e.2 < v.lOcc ∧ near x v.fine.ox v.fine.nx ∧ near y v.fine.oy v.fine.ny ∧ near z v.fine.z0 v.fine.nz then
      (List.range 64).foldl (fun m n =>
        let a := 4 * x + (n % 4 : Nat)
        let b := 4 * y + (n / 4 % 4 : Nat)
        let c := 4 * z + (n / 16 : Nat)
        if inBox v.fine a b c then m else addBricks v.fine m a b c) m
    else m) []

/-- Bricks of a level that may hold a sample other than 0. -/
def freeBricks (v : WVer) (k : Lvl) : Smap Bool :=
  let m := bricksBy (v.level k) (fun o => decide (o < v.lOcc))
  match k with
  | .fine => (edgeBricks v).foldl (fun m e => Smap.set (fun _ => false) m e.1 true) m
  | .coarse => m

/-- Bricks that need a pool word, with their words: not all 255 and not all 0 (R76). -/
def storedBricks (v : WVer) (k : Lvl) : List (Nat × Bytes) :=
  (freeBricks v k).filterMap (fun e =>
    let (x, y, z) := vOf e.1
    let w := brickWord v k x y z
    if w.all (· == 255) || w.all (· == 0) then none else some (brickKey k x y z, w))

/-- All stored bricks of a version. -/
def verWords (v : WVer) : List (Nat × Bytes) := storedBricks v .fine ++ storedBricks v .coarse

/-- The pool word that a brick refers to. -/
def wordOf (m : Smap Nat) (key : Nat) : Option Nat :=
  match Smap.get (fun _ => 0) m key with
  | 0 => none
  | n + 1 => some n

/-! ### Index entries (R72) -/

/-- The index entry of a brick: KIND, UNK and WORD. -/
def indexEntry (v : WVer) (k : Lvl) (bx by' bz : Int) : Nat :=
  let key := brickKey k bx by' bz
  let unk := b2n (brickUnk (v.level k) bx by' bz) * 2 ^ 29
  if v.noWord.contains key then 3 * 2 ^ 30 + unk
  else match wordOf v.words key with
    | some n => unk + n
    | none =>
      let w := brickWord v k bx by' bz
      (if w.all (· == 255) then 2 ^ 30 else 2 ^ 31) + unk

/-- The index entry in slot `i`. -/
def entryAt (v : WVer) (k : Lvl) (i : Nat) : Nat := let (x, y, z) := brickAt (v.level k) i; indexEntry v k x y z

/-! ### Bitmap words (R74) -/

/-- The OBST bit of a fine voxel. -/
def obstBit (v : WVer) (x y z : Int) : Bool := !inBox v.fine x y z || byteObst v v.fine x y z

/-- The PERSON bit of a fine voxel. -/
def personBit (v : WVer) (x y z : Int) : Bool := inBox v.fine x y z && Smap.get (fun _ => false) v.fine.person (vkey x y z)

/-- The 64 bytes of a bitmap word of a block: voxel (x, y, z) is bit z × 64 + y × 8 + x. -/
def planeWord (f : Int → Int → Int → Bool) (bx by' bz : Int) : Bytes :=
  (List.range 64).map (fun n => ofBits ((List.range 8).map (fun i => f (8 * bx + (i : Nat)) (8 * by' + (n % 8 : Nat)) (8 * bz + (n / 8 : Nat)))))

/-- The bitmap word in slot `i` of a plane. -/
def planeAt (v : WVer) (f : WVer → Int → Int → Int → Bool) (i : Nat) : Bytes := let (x, y, z) := blockAt v.fine i; planeWord (f v) x y z

/-! ### The digest (R77) -/

/-- Ascending numbers without repeats. -/
def ascend (l : List Nat) : List Nat := (l.foldl (fun m i => Smap.set (fun _ => false) m i true) ([] : Smap Bool)).map (·.1)

/-- Slots of a level whose entry can differ from that of an empty level. -/
def liveSlots (v : WVer) (k : Lvl) : List Nat :=
  let l := v.level k
  let m := bricksBy l (fun _ => true)
  let e := match k with | .fine => edgeBricks v | .coarse => []
  (m ++ e).map (fun b => let (x, y, z) := vOf b.1; slotOf l x y z)

/-- Block slots of the fine level that hold a listed voxel or a PERSON flag. -/
def liveBlocks (v : WVer) : List Nat :=
  (v.fine.occ.map (·.1) ++ v.fine.person.map (·.1)).map (fun k => let (x, y, z) := vOf k; blockSlot v.fine (x / 8) (y / 8) (z / 8))

/-- The changed brick words of a level in ascending slot order: bricks that refer to another word than before. -/
def changedWords (old new : WVer) (k : Lvl) : Bytes :=
  (ascend (liveSlots new k)).flatMap (fun i =>
    let (x, y, z) := brickAt (new.level k) i
    let key := brickKey k x y z
    match wordOf new.words key with
    | some n => if wordOf old.words key = some n then [] else brickWord new k x y z
    | none => [])

/-- The changed words of a plane in ascending slot order. -/
def changedPlane (old new : WVer) (f : WVer → Int → Int → Int → Bool) : Bytes :=
  (ascend (liveBlocks old ++ liveBlocks new)).flatMap (fun i => if planeAt old f i = planeAt new f i then [] else planeAt new f i)

/-- The changed index entries of a level in ascending slot order. -/
def changedEntries (old new : WVer) (k : Lvl) : Bytes :=
  (ascend (liveSlots old k ++ liveSlots new k)).flatMap (fun i =>
    if entryAt old k i = entryAt new k i then [] else leBytes 4 (entryAt new k i))

/-- The digest of a version over its predecessor: the number in 8 bytes, then what changed, the fine level and the OBST plane first.
Log entry 43 (DESIGN CHOICE, unsafe). -/
def worldDigest (old new : WVer) : Bytes :=
  sha256 (leBytes 8 new.version ++ changedWords old new .fine ++ changedWords old new .coarse ++ changedPlane old new obstBit ++
    changedPlane old new personBit ++ changedEntries old new .fine ++ changedEntries old new .coarse)

end Sys2Proof.Machine
end

