-- ==== Sys2Proof/Machine/World.lean ====
section
/-!
DEFINITION. Sensor streams, frame admission, fusion and world versions (R51 to R64, R67, R69, R75 to R83): the commands of the CSI-2
ports, the point fragments and the Marrows.
-/
namespace Sys2Proof.Machine

/-! ### Registers of the block -/

/-- MRW_STREAM_CFG_s in force. -/
def strCfg (s : State) (i : Nat) : Nat := regF s (Reg.mrwStreamCfg + 16 * i)
/-- Whether a stream is enabled. -/
def strEn (s : State) (i : Nat) : Bool := bit (strCfg s i) 31
/-- KIND, 0 for 4 to 7 (R51). -/
def strKind (s : State) (i : Nat) : Nat := if field (strCfg s i) 28 3 ≤ 3 then field (strCfg s i) 28 3 else 0
/-- PORT. -/
def strPort (s : State) (i : Nat) : Nat := field (strCfg s i) 25 3
/-- VC. -/
def strVc (s : State) (i : Nat) : Nat := field (strCfg s i) 23 2
/-- EMB_HDR. -/
def strEmb (s : State) (i : Nat) : Bool := bit (strCfg s i) 22
/-- PERSON. -/
def strPerson (s : State) (i : Nat) : Bool := bit (strCfg s i) 21
/-- STRIDE in pixels. -/
def strStride (s : State) (i : Nat) : Nat := field (strCfg s i) 16 2 + 1
/-- DEPTH_UNIT. -/
def strUnit (s : State) (i : Nat) : Nat := field (strCfg s i) 8 8
/-- MRW_STREAM_LIM_s in force. -/
def strLim (s : State) (i : Nat) : Nat := regF s (Reg.mrwStreamLim + 16 * i)
/-- Width and height of a stream's image. -/
def strSize (s : State) (i : Nat) : Nat × Nat := (objN s (0x2210 + i) 0x0A, objN s (0x2210 + i) 0x0B)
/-- Maximum range in mm. -/
def strRange (s : State) (i : Nat) : Nat := objN s (0x2210 + i) 0x1D
/-- A log-odds parameter of MRW_LO_A or MRW_LO_B. -/
def loPar (s : State) (off lo : Nat) : Int := toSigned 8 (field (regF s off) lo 8)
/-- L_HIT -/
def lHit (s : State) : Int := loPar s Reg.mrwLoA 24
/-- L_MISS -/
def lMiss (s : State) : Int := loPar s Reg.mrwLoA 16
/-- L_OCC -/
def lOccP (s : State) : Int := loPar s Reg.mrwLoA 8
/-- L_MAX -/
def lMax (s : State) : Int := loPar s Reg.mrwLoB 24
/-- L_MIN -/
def lMin (s : State) : Int := loPar s Reg.mrwLoB 16
/-- The cut-off phase in force. -/
def cutoffPu (s : State) : Nat := field (regF s Reg.mrwCutoff) 0 16

/-- A stream. -/
def strGet (s : State) (i : Nat) : Stream := Smap.get (fun _ => Stream.off) s.world.streams i
/-- Stores a stream. -/
def strPut (s : State) (i : Nat) (x : Stream) : State :=
  { s with world := { s.world with streams := Smap.set (fun _ => Stream.off) s.world.streams i x } }
/-- Changes a stream. -/
def strUpd (s : State) (i : Nat) (f : Stream → Stream) : State := strPut s i (f (strGet s i))
/-- Changes the world. -/
def worldUpd (s : State) (f : World → World) : State := { s with world := f s.world }

/-- The present stamp in pu since cycle 0 (R44). -/
def stampNow (s : State) : Nat := s.phu.cycle * 65536 + phase s

/-! ### Poses (R55) -/

/-- The mounting transform of a stream. Log entry 44 (DEDUCED, unsafe). -/
def mount (s : State) (i : Nat) : Pose :=
  { r := (List.range 9).map (fun n => objF s (0x2210 + i) (0x14 + n)),
    t := (List.range 3).map (fun n => objF s (0x2210 + i) (0x11 + n)) }

/-- The boundary nearest to a time, the earlier when halfway. -/
def nearestBoundary (t : Int) : Int := (t + 32767) / 65536

/-- The link poses kept for a boundary: of the last 64. -/
def posesAt (s : State) (n : Int) : Option PoseRec :=
  s.world.poses.find? (fun p => ((p.cycle : Int)) == n && decide (s.phu.cycle < p.cycle + 64))

/-- The sensor pose of a frame's time, if its boundary's poses are kept, and whether both stacks' Marrows have it (R55, R98).
Log entry 44 (DEDUCED, unsafe). -/
def sensorPose (s : State) (i : Nat) (t : Int) : Option (Pose × Bool) :=
  (posesAt s (nearestBoundary t)).bind (fun x =>
    (x.poses[objN s (0x2210 + i) 0x10]?).map (fun p => (Pose.mul p (mount s i), x.on0 && x.on1)))

/-- Whether the sensor has moved by more than MOVE_MM or ROT_MRAD (R58). -/
def poseMoved (s : State) (a b : Pose) : Bool :=
  let ff := regF s Reg.mrwFfA
  let d := vsub a.t b.t
  let tr : Int := (List.range 9).foldl (fun acc i => acc + vi a.r i * vi b.r i) 0
  decide ((dot d d) * 1000000 > ((field ff 24 8 * 65536) ^ 2 : Nat)) ||
    decide ((tr - 2 ^ 60) * 2 ^ 36 < 2 * cos96 ((field ff 16 8 * 2 ^ 28 / 1000 : Nat)))

/-! ### Fingerprint (R57) -/

/-- The lattice bytes of a frame. -/
def lattice (s : State) (i : Nat) (data : Bytes) : Bytes :=
  if strKind s i = 1 then
    let (w, h) := strSize s i
    (List.range 256).flatMap (fun n =>
      let col := (2 * (n % 16) + 1) * w / 32
      let row := (2 * (n / 16) + 1) * h / 32
      slice data (2 * (row * w + col)) 2)
  else
    let n := data.length / 8
    (List.range 256).flatMap (fun k => slice data (8 * ((2 * k + 1) * n / 512)) 8)

/-- The fingerprint. -/
def fingerprint (s : State) (i : Nat) (data : Bytes) : Bytes := (sha256 (lattice s i data)).take 8

/-! ### Admission (R56, R58, R59) -/

/-- A modular counter advances (R56). -/
def advances (w n last : Nat) : Bool :=
  let d := (n + 2 ^ w - last % 2 ^ w) % 2 ^ w
  decide (1 ≤ d) && decide (d < 2 ^ (w - 1))

/-- Event 0x0201 and MRW_STREAM_REJ_s; the run of good frames ends (R56, R59). Log entry 65 (DEDUCED, unsafe). -/
def reject (s : State) (i reason : Nat) : State :=
  let s := strUpd s i (fun x => { x with rej := satInc 32 x.rej, goodRun := 0 })
  raise s 0x0201 0xFFFF (reason * 256 + i) 0

/-- Tests 1 to 5 (R56): the reason of the first that fails, 0 when none does. -/
def testEarly (s : State) (f : Frame) : Nat :=
  let x := strGet s f.stream
  let w := if f.width32 then 32 else 16
  if f.corrupt then 1
  else if !f.numbered || (match x.lastCnt with | some c => !advances w f.counter c | none => false) then 2
  else if (match x.lastTime with | some t => decide (f.time ≤ t) | none => false) then 3
  else if f.time > (f.stamp : Int) + 65536 then 4
  else if (f.stamp : Int) > f.time + (field (strLim s f.stream) 0 8 * 65536 : Nat) then 5
  else 0

/-- Whether a frame belongs to the version under construction (R63). -/
def eligible (s : State) (f : Frame) : Bool := decide (f.stamp < s.phu.cycle * 65536 + cutoffPu s)

/-- A frame that passed test 6 with its pose: the frozen-frame test (R58), the stream's run (R59), and admission. One for the version under
construction takes BUILD_DONE back (R81). Log entry 65 (DEDUCED, unsafe). -/
def admitPosed (s : State) (f : Frame) (p : Pose) : State :=
  let i := f.stream
  let x := strGet s i
  let eq := x.lastFp == some f.fp
  let run := if eq then x.eqRun + 1 else 0
  let ffb := regF s Reg.mrwFfB
  let moved := match x.lastPose with | some q => poseMoved s q p | none => false
  let frozen := eq && (moved || decide (field (regF s Reg.mrwFfA) 0 16 ≤ x.sceneVox) || decide (field ffb 24 8 ≤ run))
  let s := strPut s i { x with lastCnt := some f.counter, lastTime := some f.time, lastFp := some f.fp,
                               lastPose := some p, sceneVox := 0, eqRun := run }
  if frozen then
    let s := reject s i 7
    if (strGet s i).st = .fresh then
      raise (strUpd s i (fun x => { x with st := .stale })) 0x0202 0xFFFF (256 + i) 0
    else s
  else
    let x := strGet s i
    let good := satInc 8 x.goodRun
    let s := strPut s i { x with goodRun := good }
    let s := if (x.st = .wait ∨ x.st = .stale ∨ x.st = .decayed) ∧ field ffb 16 8 ≤ good then
        raise (strUpd s i (fun x => { x with st := .fresh })) 0x0203 0xFFFF i 0
      else s
    if (strGet s i).st = .fresh ∧ bit (regF s Reg.mrwCtrl) 0 ∧ !s.det.replay then
      let f : Frame := { f with pose := some p }
      let rec1 : InRec :=
        { typ := 1, source := i, cycle := f.stamp / 65536, phase := f.stamp % 65536, content := f.data, what := .frame f }
      { s with world := { s.world with inputs := s.world.inputs ++ [f], done := s.world.done && !eligible s f },
               det := { s.det with recs := s.det.recs ++ [rec1] } }
    else s

/-- Test 6 (R55): a frame whose boundary has no poses is NO_POSE; one whose boundary lies ahead waits. A frame that only one stack has a
pose for takes the two copies apart. Log entry 68 (DESIGN CHOICE, unsafe). -/
def poseTest (s : State) (f : Frame) (since : Nat) : State :=
  match sensorPose s f.stream f.time with
  | some (p, both) => admitPosed (if both then s else worldUpd s (fun w => { w with apart := true })) f p
  | none =>
    if nearestBoundary f.time > (s.phu.cycle : Int) ∧ s.phu.cycle < since + 1 then
      strUpd s f.stream (fun x => { x with waiting := x.waiting ++ [(f, since)] })
    else reject s f.stream 6

/-- A complete frame is submitted for admission (R56). -/
def submit (s : State) (f : Frame) : State :=
  let r := testEarly s f
  if r ≠ 0 then reject s f.stream r else poseTest s f s.phu.cycle

/-- FRAME_POSE_READY: the frames of a stream that wait for their boundary's poses are tried again (R55). -/
def framePoseReady (s : State) (i : Nat) : State :=
  let w := (strGet s i).waiting
  w.foldl (fun s fw => poseTest s fw.1 fw.2) (strUpd s i (fun x => { x with waiting := [] }))

/-! ### CSI-2 packets (R52) -/

/-- What the packet layer found in a packet's header. -/
def csiErrAdd (s : State) (p lo n : Nat) : State :=
  let off := Reg.csiErr + 0x100 * p
  regField s off lo n (satInc n (field (regGet s off) lo n))

/-- Whether a port is enabled. -/
def csiEn (s : State) (p : Nat) : Bool := bit (regF s (Reg.csiCtrl + 0x100 * p)) 0

/-- The point frames being assembled from virtual channels for which `f` holds are CORRUPT (R52). -/
def asmCorrupt (s : State) (f : Nat → Bool) : State :=
  worldUpd s (fun w => { w with streams := w.streams.map (fun x =>
    (x.1, if strKind s x.1 = 2 ∧ f x.1 then { x.2 with asm := x.2.asm.map (fun a => { a with corrupt := true }) } else x.2)) })

/-- An uncorrectable header: the frames open on the port are CORRUPT. -/
def csiBadHeader (s : State) (p : Nat) : State :=
  let s := asmCorrupt (csiErrAdd s p 8 8) (fun i => strPort s i == p)
  worldUpd s (fun w => { w with csiOpen := w.csiOpen.map (fun o => if o.port = p then { o with corrupt := true } else o) })

/-- Changes the frame open on a virtual channel. -/
def csiOpenUpd (s : State) (p v : Nat) (f : OpenFrame → OpenFrame) : State :=
  worldUpd s (fun w => { w with csiOpen := w.csiOpen.map (fun o => if o.port = p ∧ o.vc = v then f o else o) })

/-- CSI_FRAME_START; a frame still open on the channel is dropped. Log entry 68 (DESIGN CHOICE, unsafe). -/
def csiFrameStart (s : State) (p v num : Nat) (bad : Bool) : State :=
  if !csiEn s p then s
  else if bad then csiBadHeader s p
  else
    worldUpd s (fun w => { w with csiOpen := w.csiOpen.filter (fun o => !(o.port == p && o.vc == v)) ++
      [{ port := p, vc := v, num := num, hdr := none, data := [], corrupt := false }] })

/-- The enabled stream of a kind on a port and virtual channel. Log entry 65 (DEDUCED, unsafe). -/
def csiStream (s : State) (k p v : Nat) : Option Nat :=
  (List.range 32).find? (fun i => strEn s i && strKind s i == k && strPort s i == p && strVc s i == v)

/-! ### Point fragments (R54) -/

/-- The points of an assembled frame in fragment order. -/
def asmData (a : PointAsm) : Bytes := (List.range a.count).flatMap (fun i => ((a.parts.find? (fun p => p.1 == i)).map (·.2)).getD [])

/-- A point frame ends, complete or not: it is submitted with the present clk as its capture stamp. -/
def asmEnd (s : State) (i : Nat) (a : PointAsm) (complete : Bool) : State :=
  let s := strUpd s i (fun x => { x with asm := none })
  let (c, p) := timeToPhase s a.timeNs
  let d := asmData a
  submit s { stream := i, counter := a.counter, width32 := true, numbered := true, time := c * 65536 + (p : Int),
             tick := s.now, stamp := stampNow s, data := d, corrupt := a.corrupt || !complete, fp := fingerprint s i d,
             pose := none, mask := none, maskLate := false }

/-- A fragment for stream `i`: discarded on a wrong MAGIC, NPTS or length; a later frame's fragment ends the frame
before it as CORRUPT; of two fragments of one index the first is kept. `hurt`: it comes in a CSI-2 frame that an error has made CORRUPT
(R52). Log entry 65 (DEDUCED, unsafe); Log entry 68 (DESIGN CHOICE, unsafe). -/
def fragmentFor (s : State) (i : Nat) (b : Bytes) (hurt : Bool) : State :=
  let npts := getLe b 20 2
  let idx := getLe b 16 2
  let n := getLe b 18 2
  let cntr := getLe b 4 4
  if getLe b 0 2 ≠ 0x4A50 ∨ npts = 0 ∨ 180 < npts ∨ b.length ≠ 32 + 8 * npts then s
  else
    let s := match (strGet s i).asm with
      | some a => if a.counter ≠ cntr then asmEnd s i a false else s
      | none => s
    let a := ((strGet s i).asm).getD { counter := cntr, timeNs := getLe b 8 8, count := n, parts := [], corrupt := false }
    let bad := decide (n = 0) || decide (1024 < n) || decide (n ≠ a.count) || decide (a.count ≤ idx)
    let a := { a with parts := if bad ∨ a.parts.any (fun p => p.1 == idx) then a.parts else a.parts ++ [(idx, b.drop 32)],
                      corrupt := a.corrupt || bad || hurt }
    if a.parts.length = a.count then asmEnd s i a true
    else strUpd s i (fun x => { x with asm := some a })

/-- A fragment on a CSI-2 virtual channel; unclaimed input is counted in DT_DISCARD. -/
def fragmentCsi (s : State) (p v : Nat) (b : Bytes) : State :=
  match csiStream s 2 p v with
  | some i => fragmentFor s i b (s.world.csiOpen.any (fun o => o.port == p && o.vc == v && o.corrupt))
  | none => csiErrAdd s p 0 8

/-- A fragment in a datagram of an Ethernet port; unclaimed input is counted in ETH_OTHER_p (R171). -/
def fragmentUdp (s : State) (p : Nat) (b : Bytes) : State :=
  match (List.range 32).find? (fun i => strEn s i && strKind s i == 3 && strPort s i == p &&
      field (strCfg s i) 0 8 == getLe b 2 1) with
  | some i => fragmentFor s i b false
  | none => regCount s (Reg.ethOther + 0x40 * p)

/-- CSI_LONG_PACKET: depth pixels, point fragments or embedded data by data type (R52). -/
def csiLongPacket (s : State) (p v dt : Nat) (payload : Bytes) (bad crcOk : Bool) : State :=
  if !csiEn s p then s
  else if bad then csiBadHeader s p
  else
    let s := if crcOk then s else
      asmCorrupt (csiOpenUpd (csiErrAdd s p 16 16) p v (fun o => { o with corrupt := true })) (fun i => strPort s i == p && strVc s i == v)
    if dt = 0x2E ∧ (csiStream s 1 p v).isSome then
      if crcOk then csiOpenUpd s p v (fun o => { o with data := o.data ++ payload }) else s
    else if dt = 0x30 ∧ (csiStream s 2 p v).isSome then (if crcOk then fragmentCsi s p v payload else s)
    else if dt = 0x12 then
      if crcOk then
        csiOpenUpd s p v (fun o => { o with hdr := if o.hdr.isNone ∧ 16 ≤ payload.length then some (payload.take 16) else o.hdr })
      else s
    else csiErrAdd s p 0 8

/-- CSI_FRAME_END: the frame closes, takes its capture stamp and is submitted (R52); one of another length than the image's, or without the
header that EMB_HDR asks for, is CORRUPT. Log entry 68 (DESIGN CHOICE, unsafe). -/
def csiFrameEnd (s : State) (p v : Nat) (bad : Bool) : State :=
  if !csiEn s p then s
  else if bad then csiBadHeader s p
  else match s.world.csiOpen.find? (fun o => o.port == p && o.vc == v) with
    | none => s
    | some o =>
      let s := worldUpd s (fun w => { w with csiOpen := w.csiOpen.filter (fun o => !(o.port == p && o.vc == v)) })
      match csiStream s 1 p v with
      | none => s
      | some i =>
        let emb := strEmb s i
        let (w, h) := strSize s i
        let hd := o.hdr.getD []
        let (c, ph) := timeToPhase s (getLe hd 8 8)
        let t : Int := if emb then c * 65536 + (ph : Int) else stampNow s
        submit s { stream := i, counter := if emb then getLe hd 0 4 else o.num, width32 := emb,
                   numbered := emb || decide (o.num ≠ 0), time := t, tick := s.now, stamp := stampNow s, data := o.data,
                   corrupt := o.corrupt || (emb && o.hdr.isNone) || decide (o.data.length ≠ 2 * w * h),
                   fp := fingerprint s i o.data, pose := none, mask := none, maskLate := false }

/-- CSI_SHORT_PACKET: Line Start and Line End are ignored, any other type is counted (R52). -/
def csiShortPacket (s : State) (p dt : Nat) (bad : Bool) : State :=
  if !csiEn s p then s
  else if bad then csiBadHeader s p
  else if dt = 2 ∨ dt = 3 then s else csiErrAdd s p 0 8

/-- LANE_SYNC (R82). -/
def laneSync (s : State) (p : Nat) (on : Bool) : State :=
  worldUpd s (fun w => { w with lanes := Smap.set (fun _ => false) w.lanes p on })

/-- CSI_STAT_p (R82). -/
def csiStat (s : State) (p : Nat) : Nat :=
  b2n (s.world.csiOpen.any (fun o => o.port == p)) * 2 + b2n (Smap.get (fun _ => false) s.world.lanes p)

/-! ### Fusion (R53, R60 to R64) -/

/-- A ray: its end in world Q15.16 m, whether it places a hit, and its number in the mask. -/
structure Ray where
  endp : List Int
  hit : Bool
  idx : Nat
  deriving DecidableEq, Repr

/-- A quotient rounded to nearest, halves up, for a divisor of either sign; the unstated quotient by 0 is open.
Log entry 22 (DESIGN CHOICE, safe). -/
def quot (a b : Int) : Int := if b = 0 then Config.quotZero a else if 0 < b then divUp a b else divUp (-a) (-b)

/-- The sensor-frame point of a depth pixel with depth `zn / 16,000` m (R53). Log entry 22 (DESIGN CHOICE, safe). -/
def pixelPoint (s : State) (i u v : Nat) (zn : Nat) : List Int :=
  let o := fun n => objF s (0x2210 + i) n
  let one := fun (c : Nat) (cc f : Int) => quot ((((c * 65536 : Nat) : Int) - cc) * ((zn * 65536 : Nat) : Int)) (16000 * f)
  [one u (o 0x0E) (o 0x0C), one v (o 0x0F) (o 0x0D), divUp ((zn * 65536 : Nat) : Int) 16000]

/-- Used pixels along a side. -/
def usedPix (n stride : Nat) : Nat := ceilDiv n stride

/-- The rays of a depth frame; the maximum range is taken along z (R53). Log entry 44 (DEDUCED, unsafe); Log entry 68 (DESIGN CHOICE, unsafe). -/
def depthRays (s : State) (f : Frame) (p : Pose) : List Ray :=
  let i := f.stream
  let (w, h) := strSize s i
  let st := strStride s i
  let cols := usedPix w st
  (List.range (cols * usedPix h st)).filterMap (fun n =>
    let u := n % cols * st
    let v := n / cols * st
    let d := getLe f.data (2 * (v * w + u)) 2
    let far := decide (d = 0xFFFF) || decide (d * strUnit s i > 16 * strRange s i)
    if d = 0 then none
    else
      let zn := if far then 16 * strRange s i else d * strUnit s i
      some { endp := place p (pixelPoint s i u v zn), hit := !far,
             idx := n / cols * (ceilDiv cols 64 * 64) + n % cols })

/-- The rays of a point frame: points in 2 mm units; NO_RETURN clears to the maximum range (R54). Log entry 44 (DEDUCED, unsafe). -/
def pointRays (s : State) (f : Frame) (p : Pose) : List Ray :=
  (List.range (f.data.length / 8)).filterMap (fun n =>
    let fl := getLe f.data (8 * n + 6) 2
    let c := (List.range 3).map (fun k => getLeS f.data (8 * n + 2 * k) 2)
    if !bit fl 15 then none
    else if bit fl 14 then
      let len := isqrt ((dot c c).toNat * 2 ^ 64)
      if len = 0 then none
      else
        let e := c.map (fun x => divUp (x * (strRange s f.stream * 65536 * 2 ^ 32 : Nat)) (len * 1000 : Nat))
        some { endp := place p e, hit := false, idx := n }
    else some { endp := place p (c.map (fun x => divUp (x * 131072) 1000)), hit := true, idx := n })

/-- The rays of a frame. Log entry 44 (DEDUCED, unsafe). -/
def frameRays (s : State) (f : Frame) (p : Pose) : List Ray :=
  if strKind s f.stream = 1 then depthRays s f p else pointRays s f p

/-- Steps of the DDA from cell `c` towards cell `e`: `a` start and `d` direction in 1/65,536 mm, cells of width `w`;
the axes whose next plane is nearest step together (R62). -/
def ddaGo (a d : List Int) (w : Int) : Nat → List Int → List Int → List (List Int)
  | 0, c, _ => [c]
  | n + 1, c, e =>
    if c = e then [c]
    else
      -- distance to the next plane along an axis, as numerator over |d|
      let num := fun i => if 0 < vi d i then (vi c i + 1) * w - vi a i else vi a i - vi c i * w
      let live := fun i => decide (vi c i ≠ vi e i)
      let le := fun i j => decide (num i * (vi d j).natAbs ≤ num j * (vi d i).natAbs)
      let near := fun i => live i && [0, 1, 2].all (fun j => !live j || le i j)
      let c' := [0, 1, 2].map (fun i => if near i then (if 0 < vi d i then vi c i + 1 else vi c i - 1) else vi c i)
      c :: ddaGo a d w n c' e

/-- The cells that a ray visits on a grid, and its end cell (R62). -/
def rayCells (k : Lvl) (a b : List Int) : List (List Int) × List Int :=
  let w : Int := (k.size * 65536 : Nat)
  let a' := vscale 1000 a
  let b' := vscale 1000 b
  let cell := fun v => [vi v 0 / w, vi v 1 / w, vi v 2 / w]
  let c := cell a'
  let e := cell b'
  let n := (vi e 0 - vi c 0).natAbs + (vi e 1 - vi c 1).natAbs + (vi e 2 - vi c 2).natAbs
  (ddaGo a' (vsub b' a') w (n + 1) c e, e)

/-- Marks of one frame on one level by voxel key: 1 a miss, 2 a hit, 3 a hit that the mask calls a person. -/
def frameMarks (l : Level) (k : Lvl) (orig : List Int) (rays : List Ray) (person : Nat → Bool) : Smap Nat :=
  rays.foldl (fun m r =>
    let (cells, e) := rayCells k orig r.endp
    cells.foldl (fun m c =>
      if inBox l (vi c 0) (vi c 1) (vi c 2) then
        let v := if c = e ∧ r.hit then (if person r.idx then 3 else 2) else 1
        Smap.upd (fun _ => 0) m (vkey (vi c 0) (vi c 1) (vi c 2)) (max v)
      else m) m) []

/-- Whether a log-odds byte is an obstacle's. -/
def obstL (s : State) (o : Int) : Bool := o == unknownL || decide (lOccP s ≤ o)

/-- Block key of a voxel (R60). -/
def blockKey (x y z : Int) : Nat := vkey (x / 8) (y / 8) (z / 8)

/-- One frame's updates on one level: each marked voxel once (R62), the PERSON flag (R64) and the observer masks (R60);
also the blocks whose voxels changed obstacle state, once per voxel. Log entry 65 (DEDUCED, unsafe). -/
def fuseLevel (s : State) (l : Level) (mask : Smap Nat) (stream : Nat) (marks : Smap Nat) : Level × Smap Nat × List Nat :=
  marks.foldl (fun (acc : Level × Smap Nat × List Nat) e =>
    let (l, mask, ch) := acc
    let (x, y, z) := vOf e.1
    let o := occAt l x y z
    let base := if o = unknownL then 0 else o
    let n := if 2 ≤ e.2 then min (base + lHit s) (lMax s) else max (base + lMiss s) (lMin s)
    let pers := if e.2 = 3 then Smap.set (fun _ => false) l.person e.1 true
      else if !obstL s n then Smap.set (fun _ => false) l.person e.1 false else l.person
    let bk := blockKey x y z
    ({ l with occ := Smap.set (fun _ => unknownL) l.occ e.1 n, person := pers },
     Smap.upd (fun _ => 0) mask bk (fun m => setBit m stream),
     if obstL s o != obstL s n then bk :: ch else ch)) (l, mask, [])

/-- Adds the scene changes seen by the other streams (R58). -/
def sceneSeen (s : State) (stream : Nat) (mask : Smap Nat) (ch : List Nat) : State :=
  ch.foldl (fun s b =>
    (List.range 32).foldl (fun s i =>
      if i ≠ stream ∧ bit (Smap.get (fun _ => 0) mask b) i then
        strUpd s i (fun x => { x with sceneVox := satInc 16 x.sceneVox }) else s) s) s

/-- The slot under construction: the one that neither frozen version holds (R75). -/
def buildSlot (s : State) : Nat :=
  ((List.range 3).find? (fun k => k != s.world.cur.slot && k != s.world.prev.slot)).getD 0

/-- Index line `n` of a slot and brick word `w` in a brick cache (R153), as one number. -/
def wordLine (w : Nat) : Nat := 2 * w
/-- An index line. -/
def indexLine (slot n : Nat) : Nat := 2 * (4 * n + slot) + 1

/-- Every brick cache drops the lines that `f` does not keep (R156). -/
def cachesKeep (s : State) (f : Nat → Bool) : State :=
  { s with pod := { s.pod with pods := s.pod.pods.filterMap (fun (p : Nat × Pod) =>
      let x := { p.2 with lines := p.2.lines.filter f }
      if x = Pod.empty then none else some (p.1, x)) } }

/-- Pool words that a version refers to. -/
def wordNos (m : Smap Nat) : List Nat := m.map (fun e => e.2 - 1)

/-- Pool words in use: those that a slot refers to (R76). -/
def poolHeld (s : State) : List Nat := ascend (wordNos s.world.prev.words ++ wordNos s.world.cur.words ++ wordNos s.world.words)

/-- Pool words of `held` that no slot refers to any more return to the pool and leave every cache (R76, R156). -/
def wordsReturned (s : State) (held : List Nat) : State :=
  let now := poolHeld s
  let out := held.filter (fun n => !now.contains n)
  if out.isEmpty then s else cachesKeep s (fun l => l % 2 == 1 || !out.contains (l / 2))

/-- The version under construction as the transform sees it now. -/
def building (s : State) : WVer :=
  let w := s.world
  { version := s.phu.cycle, slot := buildSlot s, base := w.base, fine := w.fine, coarse := w.coarse, margin := w.h, lOcc := lOccP s,
    marginLimit := false, words := w.words, noWord := w.noWord, digest := [], nondet := w.nondet }

/-- Whether the version under construction meets MARGIN_LIMIT (R69). -/
def marginOver (s : State) : Bool :=
  decide (field (regF s Reg.mrwMarginB) 16 16 < s.world.h) && !(s.world.fine.person.isEmpty && s.world.coarse.person.isEmpty)

/-- Pool words per stack. -/
def poolSize (s : State) : Nat := regF s Reg.mrwPoolSize

/-- Order of bricks by slot, fine before coarse. -/
def brickLe (s : State) (a b : Nat) : Bool :=
  let key := fun k =>
    let (x, y, z) := vOf (k / 2)
    (k % 2, slotOf (if k % 2 = 0 then s.world.fine else s.world.coarse) x y z)
  decide ((key a).1 < (key b).1) || ((key a).1 == (key b).1 && decide ((key a).2 ≤ (key b).2))

/-- Pool words in use. -/
def poolUsed (s : State) : Nat := (poolHeld s).length

/-- The word that a brick keeps (R76): one of the version's own, written in place, or a shared one that holds the brick still. -/
def keptWord (s : State) (key : Nat) (b : Bytes) : Option Nat :=
  let w := s.world
  let same := fun (v : WVer) =>
    let (x, y, z) := vOf (key / 2)
    brickWord v (if key % 2 = 0 then .fine else .coarse) x y z == b
  match wordOf w.words key with
  | none => none
  | some n =>
    if wordOf w.cur.words key = some n then (if same w.cur then some n else none)
    else if wordOf w.prev.words key = some n then (if same w.prev then some n else none)
    else some n

/-- The first word from `c` on, of `n`, that is not in use. -/
def freeWord (n : Nat) (used : List Nat) : Nat → Nat → Option Nat
  | 0, _ => none
  | fuel + 1, c => if used.contains c then freeWord n used fuel ((c + 1) % n) else some c

/-- A free pool word; which one is open. Log entry 43 (DESIGN CHOICE, unsafe). -/
def takeWord (s : State) (used : List Nat) : Option (Nat × State) :=
  let n := poolSize s
  if n = 0 then none
  else
    let (f, s') := takeFree s
    (freeWord n used (used.length + 1) (f % n)).map (fun k => (k, s'))

/-- What an allocation has come to: the state, the words by brick, and the bricks left without one. -/
structure AllocAcc where
  st : State
  words : Smap Nat
  out : List Nat

/-- One brick of an allocation: it has kept its word, is left without one for this version, or takes a free one. -/
def allocOne (held : List Nat) (a : AllocAcc) (x : Nat × Bytes) : AllocAcc :=
  if (wordOf a.words x.1).isSome then a
  else if a.st.world.noWord.contains x.1 then { a with out := a.out ++ [x.1] }
  else match takeWord a.st (held ++ wordNos a.words) with
    | some (n, s) => { a with st := s, words := Smap.set (fun _ => 0) a.words x.1 (n + 1) }
    | none => { a with out := a.out ++ [x.1] }

/-- Copy on write (R76): the stored bricks of the version under construction keep their words or take free ones, in slot order; those for
which none is free have NO_WORD, with event 0x0206 when there are more of them. -/
def allocate (s : State) : State :=
  let held := poolHeld s
  let need := sortBy (fun a b => brickLe s a.1 b.1) (verWords { building s with noWord := [] })
  let kept := need.foldl (fun m x => match keptWord s x.1 x.2 with
    | some n => Smap.set (fun _ => 0) m x.1 (n + 1)
    | none => m) ([] : Smap Nat)
  let a := need.foldl (allocOne (wordNos s.world.prev.words ++ wordNos s.world.cur.words)) ⟨s, kept, []⟩
  let more := decide (s.world.noWord.length < a.out.length)
  let s := wordsReturned (worldUpd a.st (fun w => { w with words := a.words, noWord := a.out })) held
  if more then raise s 0x0206 0xFFFF a.out.length 0 else s

/-- Whether a frame can be fused now: its stream is FRESH (R59), and a PERSON stream's frame needs its mask or has lost it (R64). -/
def fusable (s : State) (f : Frame) : Bool :=
  eligible s f && (strGet s f.stream).st == .fresh && (!strPerson s f.stream || f.maskLate || f.mask.isSome)

/-- Order of the frames of a version: capture stamp, then stream (R63). -/
def frameLe (a b : Frame) : Bool := decide (a.tick < b.tick) || (a.tick == b.tick && decide (a.stream ≤ b.stream))

/-- One frame fused at both levels; also the blocks of each level whose voxels changed obstacle state. -/
def fuseFrame (s : State) (b : WBuild) (f : Frame) : WBuild × List Nat × List Nat :=
  let p := f.pose.getD Pose.id
  let person := fun n => strPerson s f.stream && (f.maskLate || bit (getLe (f.mask.getD []) (n / 8) 1) (n % 8))
  let rays := frameRays s f p
  let (lf, kf, chf) := fuseLevel s b.fine b.maskF f.stream (frameMarks b.fine .fine p.t rays person)
  let (lc, kc, chc) := fuseLevel s b.coarse b.maskC f.stream (frameMarks b.coarse .coarse p.t rays person)
  (⟨lf, lc, kf, kc⟩, chf, chc)

/-- The sweep of a stream on one level: its blocks become UNKNOWN and their masks clear. -/
def sweepLevel (l : Level) (mask : Smap Nat) (i : Nat) : Level × Smap Nat × Nat :=
  let hit := mask.filter (fun e => bit e.2 i)
  ({ l with occ := l.occ.filter (fun e =>
      let (x, y, z) := vOf e.1
      !(bit (Smap.get (fun _ => 0) mask (blockKey x y z)) i)) },
   mask.filter (fun e => !bit e.2 i), hit.length)

/-- The field-of-view sweep of a stream (R60); also the blocks swept. -/
def sweepBuild (b : WBuild) (i : Nat) : WBuild × Nat :=
  let (lf, mf, nf) := sweepLevel b.fine b.maskF i
  let (lc, mc, nc) := sweepLevel b.coarse b.maskC i
  (⟨lf, lc, mf, mc⟩, nf + nc)

/-- What the version under construction started from, with its sweeps in ascending stream order (R63). -/
def sweptStart (w : World) : WBuild := (ascend w.sweeps).foldl (fun b i => (sweepBuild b i).1) w.start

/-- The version's levels once it has taken the frames `l` in order: capture stamp, then stream (R63). -/
def buildFrom (s : State) (l : List Frame) : WBuild := (sortBy frameLe l).foldl (fun b f => (fuseFrame s b f).1) (sweptStart s.world)

/-- The version under construction as its inputs give it, applied in the order of R63 whatever the order in which they came. -/
def rebuild (s : State) : State :=
  let b := buildFrom s s.world.fused
  allocate (worldUpd s (fun w => { w with fine := b.fine, coarse := b.coarse, maskF := b.maskF, maskC := b.maskC }))

/-- FRAME_FUSION_DONE: the Marrows finish fusing the first frame that can be fused (R62, R63). Log entry 65 (DEDUCED, unsafe). -/
def frameFusionDone (s : State) : State :=
  match (sortBy frameLe s.world.inputs).find? (fusable s) with
  | none => s
  | some f =>
    if !bit (regF s Reg.mrwCtrl) 0 ∨ s.world.done then s
    else
      let (b, chf, chc) := fuseFrame s (buildFrom s (s.world.fused.filter (fun g => frameLe g f))) f
      let s := sceneSeen (sceneSeen s f.stream b.maskF chf) f.stream b.maskC chc
      let s := strUpd s f.stream (fun x => { x with age := 0 })
      rebuild (worldUpd s (fun w => { w with inputs := w.inputs.erase f, fused := w.fused ++ [f] }))

/-- VERSION_BUILD_DONE: every admitted input fused and the transform complete (R75); MARGIN_LIMIT is judged (R69). -/
def versionBuildDone (s : State) : State :=
  if s.world.done ∨ s.world.inputs.any (fusable s) ∨ !s.world.cut then s
  else
    let s := worldUpd s (fun w => { w with done := true })
    if marginOver s then raise s 0x020A 0xFFFF s.world.h 0 else s

/-- FUSION_CUTOFF: admission for the version closes and incomplete point frames are CORRUPT (R54, R63). -/
def fusionCutoff (s : State) : State :=
  if phaseRuns s then
    let s := reachPhase s (cutoffPu s)
    let s := worldUpd s (fun w => { w with cut := true })
    (List.range 32).foldl (fun s i => match (strGet s i).asm with | some a => asmEnd s i a false | none => s) s
  else s

/-- MASK_MISSING: a PERSON frame whose mask is missing at the cut-off of the cycle after its capture (R64). -/
def maskMissing (s : State) (i : Nat) : State :=
  let late := fun (f : Frame) => f.stream == i && strPerson s i && !f.maskLate && f.mask.isNone &&
    decide (f.stamp / 65536 < s.phu.cycle) && decide (cutoffPu s ≤ phase s)
  match (sortBy frameLe s.world.inputs).find? late with
  | none => s
  | some f =>
    let s := worldUpd s (fun w => { w with
      inputs := w.inputs.map (fun g => if g = f then { g with maskLate := true } else g), lateMasks := w.lateMasks + 1 })
    raise s 0x020B 0xFFFF i 0

/-! ### Stream states (R59, R60) -/

/-- The field-of-view sweep enters the version under construction, ahead of its frames (R60, R63); answers the blocks swept. -/
def fovSweep (s : State) (i : Nat) : Nat × State :=
  let n := (sweepBuild (sweptStart s.world) i).2
  (n, rebuild (worldUpd s (fun w => { w with sweeps := w.sweeps ++ [i] })))

/-- STREAM_STALE. -/
def streamStale (s : State) (i : Nat) : State :=
  let x := strGet s i
  if x.st = .fresh ∧ field (strLim s i) 8 8 ≤ x.age then
    raise (strPut s i { x with st := .stale }) 0x0202 0xFFFF (512 + i) 0
  else s

/-- FOV_DECAY. -/
def fovDecay (s : State) (i : Nat) : State :=
  let x := strGet s i
  if x.st = .stale ∧ field (strLim s i) 16 16 ≤ x.age then
    let (n, s) := fovSweep (strPut s i { x with st := .decayed }) i
    raise s 0x0204 0xFFFF (n * 256 + i) 0
  else s

/-- The age of the current version in cycles (R73). -/
def worldAge (s : State) : Nat := s.phu.cycle - s.world.cur.version
/-- Whether the world is stale (R73). -/
def worldIsStale (s : State) : Bool := decide (field (regF s Reg.mrwFfB) 0 16 ≤ worldAge s)

/-- Whether a version that a task reads is stale: by its own age (R73). -/
def verStale (s : State) (v : WVer) : Bool := decide (field (regF s Reg.mrwFfB) 0 16 ≤ s.phu.cycle - v.version)

/-- WORLD_STALE: event 0x0209 once. -/
def worldStale (s : State) : State :=
  if worldIsStale s ∧ !s.world.staleRaised then
    raise (worldUpd s (fun w => { w with staleRaised := true })) 0x0209 0xFFFF (worldAge s) 0
  else s

/-! ### The boundary (R59, R67, R69, R75, R81) -/

/-- The frames of a stream that wait for fusion. -/
def framesOf (s : State) (i : Nat) : List Frame := s.world.inputs.filter (fun f => f.stream == i) ++ (strGet s i).waiting.map (·.1)

/-- A mask reaches its frame of a stream, the newest one that had arrived when its model's invocation began at tick `t`, wherever that waits
(R64); a frame already fused takes none. `nd` marks the mask NONDET (R405). Log entry 52 (DEDUCED, unsafe). -/
def maskArrives (s : State) (i t : Nat) (b : Bytes) (nd : Bool) : State :=
  let k := maxN (((framesOf s i).map (·.tick)).filter (fun x => decide (x ≤ t)))
  let it := fun (f : Frame) => f.stream == i && f.tick == k && decide (f.tick ≤ t) && !f.maskLate && f.mask.isNone
  let put := fun (f : Frame) => if it f then { f with mask := some b } else f
  let nd := nd && (framesOf s i).any it
  let s := worldUpd s (fun w => { w with inputs := w.inputs.map put, nondet := w.nondet || nd })
  if (strGet s i).waiting.isEmpty then s else strUpd s i (fun x => { x with waiting := x.waiting.map (fun y => (put y.1, y.2)) })

/-- A stream follows its EN bit in force: OFF with a sweep, or WAIT (R59). It keeps its count of rejections and forgets the rest, its
frames that wait included. Log entry 68 (DESIGN CHOICE, unsafe). -/
def streamEnable (s : State) (i : Nat) : State :=
  let x := strGet s i
  if strEn s i ∧ x.st = .off then strPut s i { Stream.off with st := .wait, rej := x.rej }
  else if !strEn s i ∧ x.st ≠ .off then
    let s := strPut s i { Stream.off with rej := x.rej }
    (fovSweep (worldUpd s (fun w => { w with inputs := w.inputs.filter (fun f => f.stream != i) })) i).2
  else s

/-- AGE counts boundaries (R59). -/
def streamAge (s : State) (i : Nat) : State :=
  if (strGet s i).st = .off then s else strUpd s i (fun x => { x with age := satInc 16 x.age })

/-- A level with its box at another origin: voxels that leave become UNKNOWN (R67). -/
def moveLevel (l : Level) (mask : Smap Nat) (ox oy : Int) : Level × Smap Nat :=
  let l' := { l with ox := ox, oy := oy }
  let keep := fun k => let (x, y, z) := vOf k; inBox l' x y z
  let touches := fun k =>
    let (x, y, _) := vOf k
    decide (8 * x < 3 * (ox + l.nx)) && decide (3 * ox < 8 * x + 8) && decide (8 * y < 3 * (oy + l.ny)) && decide (3 * oy < 8 * y + 8)
  ({ l' with occ := l.occ.filter (fun e => keep e.1), person := l.person.filter (fun e => keep e.1) },
   mask.filter (fun e => touches e.1))

/-- The origin that re-centring gives: `none` when the box stays (R67); `b` is the brick size in mm. -/
def recentreOrg (l : Level) (b : Nat) (pos : List Int) (force : Bool) : Option (Int × Int) :=
  let u : Int := (65536 * b : Nat)
  let far := fun (p o : Int) (n : Nat) => decide ((8 * u).natAbs ≤ (2 * p * 1000 - (2 * o + n) * u).natAbs)
  let new := fun (p : Int) (n : Nat) => (2 * p * 1000 - ((n : Int) - 1) * u) / (2 * u)
  if force ∨ far (vi pos 0) l.ox l.nx ∨ far (vi pos 1) l.oy l.ny then some (new (vi pos 0) l.nx, new (vi pos 1) l.ny) else none

/-- Re-centring at a boundary with a base position, ahead of the version's other inputs; event 0x0208 when a level moves, with the fine
origin as it then stands (R67). Log entry 68 (DESIGN CHOICE, unsafe). -/
def recentre (s : State) (pos : List Int) : State :=
  let first := !s.world.placed
  if !first ∧ !bit (regF s Reg.mrwCtrl) 2 then s
  else
    let b := s.world.start
    let f := recentreOrg b.fine 60 pos first
    let c := recentreOrg b.coarse 240 pos first
    if f.isNone ∧ c.isNone then s
    else
      let (lf, mf) := match f with | some o => moveLevel b.fine b.maskF o.1 o.2 | none => (b.fine, b.maskF)
      let (lc, mc) := match c with | some o => moveLevel b.coarse b.maskC o.1 o.2 | none => (b.coarse, b.maskC)
      let s := rebuild (worldUpd s (fun w => { w with start := ⟨lf, lc, mf, mc⟩, placed := true }))
      raise s 0x0208 0xFFFF (ofSigned 16 lf.oy * 65536 + ofSigned 16 lf.ox) 0

/-- The human margin h (R69), each term rounded up to a whole mm. Log entry 43 (DESIGN CHOICE, unsafe). -/
def humanMargin (s : State) : Nat :=
  let a := regF s Reg.mrwMarginA
  let tr := field (regF s Reg.mrwMarginB) 0 16
  let tb := s.safety.par.tB
  let th := match s.plan.run with | some p => 32 * p.dtUs | none => 0
  field a 16 16 + ceilDiv (vrNow s * (2 * tr + tb)) 2000000 + min (ceilDiv (1600 * th) 1000000) (field a 0 16)

/-- Levels after a change of the box registers in force: both reset to UNKNOWN with no PERSON flag, and no input is left (R81).
Log entry 68 (DESIGN CHOICE, unsafe). -/
def levelDims (s : State) : State :=
  let d := fun off => let v := regF s off; (field v 0 10, field v 10 10, field v 20 10)
  let z := regF s Reg.mrwZ0
  let zf := toSigned 16 (field z 0 16)
  let zc := toSigned 16 (field z 16 16)
  let (fx, fy, fz) := d Reg.mrwFineDim
  let (cx, cy, cz) := d Reg.mrwCoarseDim
  let w := s.world
  if w.fine.nx = fx ∧ w.fine.ny = fy ∧ w.fine.nz = fz ∧ w.fine.z0 = zf ∧ w.coarse.nx = cx ∧ w.coarse.ny = cy ∧
      w.coarse.nz = cz ∧ w.coarse.z0 = zc then s
  else
    let b : WBuild := { fine := { w.start.fine with nx := fx, ny := fy, nz := fz, z0 := zf, occ := [], person := [] }
                        coarse := { w.start.coarse with nx := cx, ny := cy, nz := cz, z0 := zc, occ := [], person := [] }
                        maskF := [], maskC := [] }
    rebuild (worldUpd s (fun w => { w with start := b, sweeps := [], fused := [], noWord := [], apart := false }))

/-- Whether a released task, or a release that waits for its engine, still holds the old previous version (R75). -/
def prevHeld (s : State) : Bool :=
  s.world.haveVer && s.world.prev.version != s.world.cur.version &&
    ((allTasks s).any (fun t => t.ver == s.world.prev.version) || s.sched.rels.any (fun r => r.ver == s.world.prev.version))

/-- Why no version freezes at this boundary, 0 when one does (R75): 1 incomplete, 2 slot held, 3 digests that differ. -/
def freezeWhy (s : State) (bad : Option (Nat × Nat)) : Nat :=
  if !s.world.done then 1
  else if prevHeld s then 2
  else if bit (regF s Reg.mrwCtrl) 3 ∧ (bad.isSome ∨ s.world.apart) then 3
  else 0

/-- A version freezes: the slots rotate, and the next one starts from it (R75). -/
def freezeNow (s : State) : State :=
  let held := poolHeld s
  let k := buildSlot s
  let v : WVer := { building s with version := s.phu.cycle, marginLimit := marginOver s }
  let v := { v with digest := worldDigest s.world.cur v }
  let s := worldUpd s (fun w => { w with prev := w.cur, cur := v, haveVer := true, base := s.phu.cycle, defers := 0, done := false
                                         staleRaised := false, noWord := [], start := ⟨w.fine, w.coarse, w.maskF, w.maskC⟩
                                         sweeps := [], fused := [] })
  cachesKeep (wordsReturned s held) (fun l => l % 2 == 0 || l / 2 % 4 != k)

/-- The freeze of R75 at a boundary, or its deferral with the reason; `bad` names the Marrow of each stack whose block range differs when
the digests do (R77, R393). Log entry 43 (DESIGN CHOICE, unsafe). -/
def freeze (s : State) (bad : Option (Nat × Nat)) : State :=
  let why := freezeWhy s bad
  if why = 0 then freezeNow s
  else
    let n := satInc 16 s.world.defers
    let s := worldUpd s (fun w => { w with defers := n })
    let s := if why = 3 then
        let m := bad.getD (0, 0)
        raise (raise s 0x0207 (unitId 6 0 m.1) (s.phu.cycle % 2 ^ 32) 0) 0x0207 (unitId 6 1 m.2) (s.phu.cycle % 2 ^ 32) 0
      else s
    raise s 0x0205 0xFFFF (n * 65536 + why) 0

/-- The margin of a version that starts to build, from the values latched at its boundary (R69); its bricks are allocated anew (R76). -/
def startBuild (s : State) : State := rebuild (worldUpd s (fun w => { w with begun := true, h := humanMargin s }))

/-- The world at a boundary: versions, enables, ages, boxes and the margin of the version that starts building; `pos` is the
base position when one was latched. -/
def worldBoundary (s : State) (bad : Option (Nat × Nat)) (pos : Option (List Int)) : State :=
  let begins := !s.world.begun || freezeWhy s bad == 0
  let s := freeze s bad
  let s := levelDims s
  let s := (List.range 32).foldl streamEnable s
  let s := (List.range 32).foldl streamAge s
  let s := match pos with | some p => recentre s p | none => s
  let s := worldUpd s (fun w => { w with cut := false })
  if begins then startBuild s else s

/-! ### Registers and descriptor -/

/-- The version a task reads: the one current at its release (R75). Log entry 65 (DEDUCED, unsafe). -/
def verOf (s : State) (n : Nat) : WVer :=
  if n = s.world.cur.version then s.world.cur else if n = s.world.prev.version then s.world.prev else s.world.cur

/-- Shared-store offset of a table of a slot, within the world model's area (R330). Log entry 23 (DESIGN CHOICE, safe). -/
def worldAt (s : State) (slot item : Nat) : Nat := (areaOff s 1 + Config.worldOff slot item) % 2 ^ 32

/-- The 64 bytes of a version's descriptor (R78). Log entry 23 (DESIGN CHOICE, safe). -/
def vdesc (s : State) (v : WVer) : Bytes :=
  let org := fun (l : Level) => leBytes 4 (ofSigned 32 l.ox) ++ leBytes 4 (ofSigned 32 l.oy)
  leBytes 8 v.version ++ leBytes 8 v.base ++ org v.fine ++ org v.coarse ++
    (List.range 4).flatMap (fun i => leBytes 4 (worldAt s v.slot (i + 1))) ++ leBytes 2 v.margin ++
    leBytes 2 (b2n v.marginLimit + 2 * b2n (!v.noWord.isEmpty)) ++ v.digest.take 12

/-! ### The world model in the shared store (R65, R71 to R74, R78) -/

/-- The version of a slot: frozen, or the one under construction. -/
def slotVer (s : State) (k : Nat) : WVer :=
  if k = s.world.cur.slot then s.world.cur else if k = s.world.prev.slot then s.world.prev else building s

/-- The byte at offset `o` of entries of `n` bytes each from `base` on, `c` of them. -/
def tableByte (base n c o : Nat) (e : Nat → Bytes) : Option Nat :=
  if base ≤ o ∧ o < base + n * c then some ((e ((o - base) / n)).getD ((o - base) % n) 0) else none

/-- A byte of the tables of slot `k`: its descriptor, index tables and planes. -/
def slotByte (s : State) (k o : Nat) : Option Nat :=
  let v := slotVer s k
  let frozen := s.world.haveVer && (k == s.world.cur.slot || (k == s.world.prev.slot && s.world.prev.version != 0))
  (if frozen then tableByte (worldAt s k 0) 64 1 o (fun _ => vdesc s v) else none)
    |>.orElse fun _ => tableByte (worldAt s k 1) 4 (slotCount v.fine) o (fun i => leBytes 4 (entryAt v .fine i))
    |>.orElse fun _ => tableByte (worldAt s k 2) 4 (slotCount v.coarse) o (fun i => leBytes 4 (entryAt v .coarse i))
    |>.orElse fun _ => tableByte (worldAt s k 3) 64 (blockCount v.fine) o (planeAt v obstBit)
    |>.orElse fun _ => tableByte (worldAt s k 4) 64 (blockCount v.fine) o (planeAt v personBit)

/-- The 64 bytes of a pool word: the brick that refers to it, in the version under construction or a frozen one. -/
def poolWord (s : State) (n : Nat) : Bytes :=
  match [building s, s.world.cur, s.world.prev].findSome? (fun v => (v.words.find? (fun e => e.2 == n + 1)).map (fun e => (v, e.1))) with
  | some (v, key) => let (x, y, z) := vOf (key / 2); brickWord v (if key % 2 = 0 then .fine else .coarse) x y z
  | none => zeros 64

/-- The occupancy byte in voxel slot `i` of a level. -/
def occSlot (l : Level) (i : Nat) : Bytes :=
  let n := 3 * l.nx
  let m := 3 * l.ny
  [ofSigned 8 (occAt l (unwrap (3 * l.ox) n (i % n)) (unwrap (3 * l.oy) m (i / n % m)) (3 * l.z0 + (i / n / m : Nat)))]

/-- The observer mask in block slot `i` of a level. -/
def maskSlot (l : Level) (m : Smap Nat) (i : Nat) : Bytes :=
  let (x, y, z) := blockAt l i
  leBytes 4 (Smap.get (fun _ => 0) m (vkey x y z))

/-- A byte of the world model's area at a shared-store offset, none where its tables have none. Log entry 23 (DESIGN CHOICE, safe). -/
def worldByte (s : State) (o : Nat) : Option Nat :=
  let w := s.world
  ((List.range 3).findSome? (fun k => slotByte s k o))
    |>.orElse fun _ => tableByte (worldAt s 0 5) 64 (poolSize s) o (poolWord s)
    |>.orElse fun _ => tableByte (worldAt s 0 6) 1 (27 * slotCount w.fine) o (occSlot w.fine)
    |>.orElse fun _ => tableByte (worldAt s 0 7) 4 (blockCount w.fine) o (maskSlot w.fine w.maskF)
    |>.orElse fun _ => tableByte (worldAt s 0 8) 4 (blockCount w.coarse) o (maskSlot w.coarse w.maskC)

/-- A byte of the physical map as a reader finds it: the Marrows' tables stand in the world model's area of both stacks (R330), the coarse
occupancy of each in DDR5 (R331). Log entry 23 (DESIGN CHOICE, safe). -/
def viewByte (s : State) (a : Nat) : Nat :=
  let o := a % 0x8000000
  let l := s.world.coarse
  if s.mem.areas.isEmpty then memGet s a
  else if ssBase 0 ≤ a ∧ a < ssBase 2 ∧ areaOff s 1 ≤ o ∧ o < areaOff s 0 then (worldByte s o).getD (memGet s a)
  else if devArea s ≤ a ∧ a < ddrBytes s then
    (((List.range 2).findSome? (fun k => tableByte (devArea s + Config.worldOff k 9) 1 (27 * slotCount l) a (occSlot l)))).getD (memGet s a)
  else memGet s a

/-- Reads `n` bytes as a reader finds them. -/
def viewBytes (s : State) (a n : Nat) : Bytes := (List.range n).map (fun i => viewByte s (a + i))

/-- Start of the record ring in DDR5 (R406, R411). -/
def recBase (s : State) : Nat := regF s Reg.detRecAddrHi % 256 * 2 ^ 32 + regF s Reg.detRecAddrLo

/-- Whether an address lies in an area of the device whose bytes the specification does not lay out: the intent sets, the peer slots and
the device working area beyond APP_CMD (R330), the DDR5 device area beyond the coarse occupancy (R331), and the record ring (R406). Log entry 23 (DESIGN CHOICE, safe). -/
def unlaid (s : State) (a : Nat) : Bool :=
  let o := a % 0x8000000
  let top := areaOff s 1
  if s.mem.areas.isEmpty then false
  else if ssBase 0 ≤ a ∧ a < ssBase 2 then
    decide (areaOff s 4 ≤ o) && decide (o < top) && !(decide (a < ssBase 1) && decide (o < areaOff s 4 + 32))
  else if !s.det.ring.isEmpty ∧ recBase s ≤ a ∧ a < recBase s + regF s Reg.detRecSize * 2 ^ 20 then true
  else decide (devArea s ≤ a) && decide (a < ddrBytes s) &&
    ((List.range 2).all (fun k =>
      (tableByte (devArea s + Config.worldOff k 9) 1 (27 * slotCount s.world.coarse) a (occSlot s.world.coarse)).isNone))

/-- Reads `n` bytes for software or firmware: what the device keeps in an area without a layout is free. Log entry 23 (DESIGN CHOICE, safe). -/
def shownBytes (s : State) (a n : Nat) : Bytes × State :=
  if (List.range n).any (fun i => unlaid s (a + i)) then
    let (f, s) := takeFreeBytes s n
    ((List.range n).map (fun i => if unlaid s (a + i) then f.getD i 0 else viewByte s (a + i)), s)
  else (viewBytes s a n, s)

/-- A read-only MRW register, by offset within the block (R80, R81). -/
def mrwRead (s : State) (off : Nat) : Option Nat :=
  let w := s.world
  if 0x100 ≤ off ∧ off < 0x300 then
    let x := strGet s ((off - 0x100) / 16)
    let code := match x.st with | .off => 0 | .wait => 1 | .fresh => 2 | .stale => 3 | .decayed => 4
    match off % 16 with
    | 8 => some (code * 2 ^ 29 + x.goodRun * 2 ^ 16 + x.age)
    | 12 => some x.rej
    | _ => none
  else if 0x300 ≤ off ∧ off < 0x340 then
    match off % 0x20 with
    | 0x00 => some (if w.haveVer then worldAt s w.cur.slot 0 else 0)
    | 0x04 => some (w.cur.version % 2 ^ 32)
    | 0x08 => some (w.cur.version / 2 ^ 32)
    | 0x0C => some (w.defers * 2 ^ 16 + b2n w.cur.marginLimit * 4 + b2n (w.haveVer && worldIsStale s) * 2 + b2n w.done)
    | 0x10 => some (if mainUp s then poolSize s - poolUsed s else 0)
    | 0x14 => some w.cur.margin
    | 0x18 => some (ofSigned 16 w.cur.fine.oy * 2 ^ 16 + ofSigned 16 w.cur.fine.ox)
    | 0x1C => some (if w.haveVer then getLe w.cur.digest 0 4 else 0)
    | _ => none
  else none

/-! ### Meanings -/

/-- CSI_FRAME_START (R52). -/
def execCsiFrameStart (p : Fin 8) (v : Fin 4) (num : BitVec 16) (bad : Bool) (s : State) : Host.Outcome State Fault Refusal :=
  .next (runIo s (fun s => csiFrameStart s p.val v.val num.toNat bad))
/-- CSI_LONG_PACKET (R52). -/
def execCsiLongPacket (p : Fin 8) (v : Fin 4) (dt : BitVec 6) (payload : Bytes) (bad crcOk : Bool) (s : State) :
    Host.Outcome State Fault Refusal :=
  .next (runIo s (fun s => csiLongPacket s p.val v.val dt.toNat payload bad crcOk))
/-- CSI_FRAME_END (R52, R56). -/
def execCsiFrameEnd (p : Fin 8) (v : Fin 4) (bad : Bool) (s : State) : Host.Outcome State Fault Refusal :=
  .next (runIo s (fun s => csiFrameEnd s p.val v.val bad))
/-- CSI_SHORT_PACKET (R52). -/
def execCsiShortPacket (p : Fin 8) (dt : BitVec 6) (bad : Bool) (s : State) : Host.Outcome State Fault Refusal :=
  .next (runIo s (fun s => csiShortPacket s p.val dt.toNat bad))
/-- LANE_SYNC (R82). -/
def execLaneSync (p : Fin 8) (on : Bool) (s : State) : Host.Outcome State Fault Refusal :=
  .next (runIo s (fun s => laneSync s p.val on))
/-- POINT_FRAGMENT (R54): on a CSI-2 virtual channel. -/
def execPointFragment (src : PointSrc) (b : Bytes) (s : State) : Host.Outcome State Fault Refusal :=
  .next (runIo s (fun s => match src with
    | .csi p v => if csiEn s p.val then fragmentCsi s p.val v.val b else s
    | .udp p => fragmentUdp s p.val b))
/-- FRAME_POSE_READY (R55). -/
def execFramePoseReady (i : Fin 32) (s : State) : Host.Outcome State Fault Refusal :=
  .next (runArith s (fun s => framePoseReady s i.val))
/-- FRAME_FUSION_DONE (R62). -/
def execFrameFusionDone (s : State) : Host.Outcome State Fault Refusal := .next (runArith s frameFusionDone)
/-- VERSION_BUILD_DONE (R75). -/
def execVersionBuildDone (s : State) : Host.Outcome State Fault Refusal := .next (runArith s versionBuildDone)
/-- FUSION_CUTOFF (R63). -/
def execFusionCutoff (s : State) : Host.Outcome State Fault Refusal := .next (runArith s fusionCutoff)
/-- STREAM_STALE (R59). -/
def execStreamStale (i : Fin 32) (s : State) : Host.Outcome State Fault Refusal :=
  .next (runArith s (fun s => streamStale s i.val))
/-- FOV_DECAY (R59, R60). -/
def execFovDecay (i : Fin 32) (s : State) : Host.Outcome State Fault Refusal :=
  .next (runArith s (fun s => fovDecay s i.val))
/-- MASK_MISSING (R64). -/
def execMaskMissing (i : Fin 32) (s : State) : Host.Outcome State Fault Refusal :=
  .next (runArith s (fun s => maskMissing s i.val))
/-- WORLD_STALE (R73). -/
def execWorldStale (s : State) : Host.Outcome State Fault Refusal := .next (runArith s worldStale)

end Sys2Proof.Machine
end

