-- ==== Sys2Proof/Machine/Arbiter.lean ====
section
/-!
DEFINITION. Access to a bank of the shared store (R316 to R321): which of the requests that meet at a bank in one clk it serves, and
what the accesses of one clk to one word read and leave.
-/
namespace Sys2Proof.Machine

/-! ### Requests -/

/-- The unit ID of a core of the application cluster. Log entry 17 (DESIGN CHOICE, unsafe). -/
def coreId (c : Nat) : Nat := unitId 0x0F 0 c

/-- The class of a requester, 1 the highest (R319). -/
def busClass (u : Nat) : Nat :=
  match idClass u with
  | 0x10 | 7 => 1
  | 6 => 2
  | 0 | 2 => 3
  | 1 => 4
  | 4 => 5
  | 3 => 6
  | 5 => 7
  | 8 | 9 => 8
  | 0x0F => 10
  | 0x0A => 11
  | _ => 9

/-- A request at a bank: its number, 0 for the cluster's own, its source, word, act, the clk in which it comes, and the clk it has stalled. -/
structure BankWait where
  no : Nat
  u : Nat
  word : Nat
  act : BankAct
  clk : Nat
  stall : Nat
  deriving DecidableEq, Repr

/-- Whether an access writes. -/
def actWrites : BankAct → Bool
  | .read => false
  | .write _ _ | .modify _ _ => true

/-- Whether an access holds its bank for a second clk (R317). -/
def actHolds : BankAct → Bool
  | .modify _ _ => true
  | .read | .write _ _ => false

/-- Whether a request is the cluster's own. -/
def BankWait.own (r : BankWait) : Bool := r.no == 0

/-- Whether a request is aged: classes 3 to 11, after AGE_LIMIT clk (R320). -/
def BankWait.aged (limit : Nat) (r : BankWait) : Bool := decide (3 ≤ busClass r.u) && decide (limit ≤ r.stall)

/-- The order of two requests of equal age: the higher class, then the lower unit ID (R319). -/
def BankWait.ahead (a b : BankWait) : Bool :=
  decide (busClass a.u < busClass b.u) || (busClass a.u == busClass b.u && decide (a.u ≤ b.u))

/-- Whether `a` wins over `b` (R319, R320): classes 1 and 2 by class; an aged request over one that is not, the longer stall first. -/
def BankWait.wins (limit : Nat) (a b : BankWait) : Bool :=
  if busClass a.u ≤ 2 ∨ busClass b.u ≤ 2 then a.ahead b
  else if a.aged limit && b.aged limit then decide (b.stall < a.stall) || (a.stall == b.stall && a.ahead b)
  else if a.aged limit || b.aged limit then a.aged limit
  else a.ahead b

/-- The request that wins among those of a list. -/
def bankWinner (limit : Nat) : List BankWait → Option BankWait
  | [] => none
  | r :: l => some (l.foldl (fun a b => if a.wins limit b then a else b) r)

/-! ### One clk of a bank -/

/-- A bank: the clk, the requests not yet served, whether classes 1 and 2 had a grant in the clk before, whether a read-modify-write holds
the bank in this clk, and the longest stall so far. -/
structure BankSt where
  clk : Nat
  wait : List BankWait
  top : Bool
  hold : Bool
  worst : Nat
  deriving DecidableEq, Repr

/-- The requests that stand at the bank: each port presents its first one (R320). -/
def presented (clk : Nat) : List BankWait → List Nat → List BankWait
  | [], _ => []
  | r :: l, seen => if clk < r.clk ∨ seen.contains r.u then presented clk l seen else r :: presented clk l (r.u :: seen)

/-- What a bank serves in a clk: the winner, with every read of its word and the write of it that wins (R318, R319). -/
def bankServes (limit : Nat) (b : BankSt) : List BankWait :=
  if b.hold then []
  else
    let can := (presented b.clk b.wait []).filter (fun r => !b.top || decide (3 ≤ busClass r.u))
    match bankWinner limit can with
    | none => []
    | some w =>
      let same := can.filter (fun r => r.word == w.word)
      same.filter (fun r => !actWrites r.act) ++ (bankWinner limit (same.filter (fun r => actWrites r.act))).toList

/-- The bank after a clk that has served `l`: the others that stood at it have stalled for one clk more. -/
def bankNext (b : BankSt) (l : List BankWait) : BankSt :=
  let here := presented b.clk b.wait []
  let left := (b.wait.filter (fun r => !l.contains r)).map (fun r => if here.contains r then { r with stall := r.stall + 1 } else r)
  { clk := b.clk + 1, wait := left, top := l.any (fun r => decide (busClass r.u ≤ 2)), hold := l.any (fun r => actHolds r.act)
    worst := left.foldl (fun m r => max m r.stall) b.worst }

/-! ### The accesses -/

/-- Where a word of a bank lies. -/
def bankAddr (k bank word : Nat) : Nat := ssBase k + (word * 512 + bank) * 64

/-- Whether a unit may access the secure region (R328): the Husk, the hash engines and the service processors. -/
def secureMay (s : State) (u : Nat) : Bool :=
  idClass u == 0x10 || idClass u == 0x0C || (idClass u == 0x0B && bit (if idStack u = 0 then s.mem.svcMask0 else s.mem.svcMask1) (idIndex u))

/-- A write of the lanes of a mask (R317). -/
def laneWrite (s : State) (a m : Nat) (b : Bytes) : State :=
  if m = 255 then memPut s a (fit 64 b)
  else (List.range 8).foldl (fun s i => if bit m i then memPut s (a + 8 * i) (slice (fit 64 b) (8 * i) 8) else s) s

/-- Another unit's access is served: a read of its own command's concern, or a write; one of the secure region by a unit that may not, or
while a wipe runs, is ignored (R328, R329). -/
def rivalServed (s : State) (k bank : Nat) (r : BankWait) : State :=
  let a := bankAddr k bank r.word
  let deny := isSecure a && !secureMay s r.u
  let s := if deny then raise s 0x0C0B 0xFFFF r.u k else s
  match r.act with
  | .read => s
  | .write m b | .modify m b =>
    if deny || (isSecure a && (if k = 0 then s.mem.wiping0 else s.mem.wiping1) != 0) then s else laneWrite s a m.toNat b

/-- A clk's accesses take effect: the reads, which find the word as it was, then the write (R318). -/
def bankServe (s : State) (k bank : Nat) (own : State → State) (l : List BankWait) : State :=
  l.foldl (fun s r => if r.own then own s else rivalServed s k bank r) s

/-- Clk by clk until every request has been served; the cluster waits with its own. The longest stall goes to SSC_STALL_MAX (R321). -/
def bankGo (k bank : Nat) (own : State → State) : Nat → State → BankSt → State
  | 0, s, b => bankStall s (bankGroup k bank) b.worst
  | n + 1, s, b =>
    if b.wait.isEmpty then bankStall s (bankGroup k bank) b.worst
    else
      let l := bankServes (field (regF s Reg.sscCtrl) 8 8) b
      let b' := bankNext b l
      let s := bankServe s k bank own l
      bankGo k bank own n (if b'.wait.any (·.own) then nextClk s else s) b'

/-- The access of a core at address `a` among its rivals, which reach the bank in the same clk or later. Log entry 71 (DESIGN CHOICE, safe). -/
def bankRun (s : State) (core a : Nat) (act : BankAct) (own : State → State) (rivals : List BankReq) : State :=
  if rivals.isEmpty then own s
  else
    let (k, w) := ssWord a
    let l : List BankWait := { no := 0, u := coreId core, word := w / 512, act := act, clk := 0, stall := 0 } ::
      (rivals.zip (List.range rivals.length)).map (fun x =>
        { no := x.2 + 1, u := x.1.u.toNat, word := x.1.word.toNat, act := x.1.act, clk := x.1.delay.toNat, stall := 0 })
    let late := l.foldl (fun m r => max m r.clk) 0
    bankGo k (wordBank w) own (late + 2 * l.length + 2) s { clk := 0, wait := l, top := false, hold := false, worst := 0 }

/-- What a store of `n` bytes at `a` is at its bank: one of whole lanes a write, another a read-modify-write (R317). -/
def storeAct (a n : Nat) : BankAct := if a % 8 = 0 ∧ n % 8 = 0 then .write 0 [] else .modify 0 []

/-- The bank of a shared-store address. -/
def bankKey (a : Nat) : Nat := let (k, w) := ssWord a; 512 * k + wordBank w

/-- The clk up to which a read-modify-write holds a bank are over (R317). -/
def bankFree (s : State) (a : Nat) : State :=
  match s.mem.held.find? (fun x => x.1 == bankKey a) with
  | some x => if x.2 < s.now ∧ s.now < x.2 + 2 * ticksPerClk s then advance s (x.2 + 2 * ticksPerClk s - s.now) else s
  | none => s

/-- A core's access finds its turn at its bank among the cluster's accesses of the same clk (R318, R320): those of one word by several cores
share a clk, with one write at most; another waits for the next clk. Answers what a read finds in the word when a write of this clk
has changed it. Log entry 71 (DESIGN CHOICE, safe). -/
def bankTurn (s : State) (core a : Nat) (act : BankAct) : Option Bytes × State :=
  let w := (ssWord a).2 / 512
  let word := viewBytes s (a / 64 * 64) 64
  let key := bankKey a
  let s := bankFree s a
  let put := fun (s : State) (x : BankUse) =>
    let c := clkNow s
    let h := s.mem.held.filter (fun y => y.1 != key)
    { s with clk := { c with banks := x :: c.banks.filter (fun y => y.bank != key) }
             mem := { s.mem with held := if actHolds act then (key, s.now) :: h else h } }
  let fresh : BankUse := { bank := key, word := w, cores := [core], before := if actWrites act then some word else none }
  match (clkNow s).banks.find? (fun x => x.bank == key) with
  | none => (none, put s fresh)
  | some x =>
    if x.word = w ∧ !x.cores.contains core ∧ !(actWrites act && x.before.isSome) then
      (if actWrites act then none else x.before, put s { x with cores := core :: x.cores, before := if actWrites act then some word else x.before })
    else
      (none, put (bankFree (nextClk s) a) fresh)

end Sys2Proof.Machine
end

