-- ==== Sys2Proof/Machine/PhuCmd.lean ====
section
/-!
DEFINITION. The commands of the phase unit (R31 to R46): edges, source writes, window and coasting steps, gates in later clks, the barrier
pins and the time-correspondence reads. The boundary and the opening of a gate stand in their own files.
-/
namespace Sys2Proof.Machine

/-- Source number of R31. -/
def srcNo : SyncSrc → Nat
  | .sync0 => 1
  | .syncIn => 2

/-- RWL registers ignore the cluster's writes while the safety lock is set (R368). -/
def lockedOut (s : State) (w : Writer) : Bool := s.safety.lock && (match w with | .cluster _ => true | .firmware _ => false)

/-- SYNC_EDGE (R33, R37, R45). -/
def execSyncEdge (src : SyncSrc) (dt : BitVec 32) (s : State) : Host.Outcome State Fault Refusal :=
  .next (runArith s (fun s => syncEdge s (srcNo src) dt.toNat))
/-- PHU_SRC_SELECT (R31, R368). -/
def execPhuSrcSelect (who : Writer) (src : SyncSrc) (s : State) : Host.Outcome State Fault Refusal :=
  .next (runArith s (fun s => if lockedOut s who then s else srcSelect s (srcNo src)))
/-- PHU_SRC_OFF (R31, R361, R368). -/
def execPhuSrcOff (who : Writer) (three : Bool) (s : State) : Host.Outcome State Fault Refusal :=
  .next (runArith s (fun s => if lockedOut s who then s else srcOff s (if three then 3 else 0)))
/-- CAPTURE_WINDOW_CLOSE (R37). -/
def execCaptureWindowClose (s : State) : Host.Outcome State Fault Refusal := .next (runArith s windowClose)
/-- COAST_ENTRY (R37). -/
def execCoastEntry (s : State) : Host.Outcome State Fault Refusal := .next (runArith s coastEntry)
/-- CYCLE_LOST (R37, R417). -/
def execCycleLost (s : State) : Host.Outcome State Fault Refusal := .next (runArith s cycleLost)
/-- HELD_GATE_ISSUE: the next 8 gates that wait, each with its own stamp (R39). -/
def execHeldGateIssue (s : State) : Host.Outcome State Fault Refusal :=
  .next (runArith s (fun s => if phaseRuns s then issueEight s else s))
/-- STEP_IN_FALL (R45, R46). -/
def execStepInFall (dt : BitVec 32) (s : State) : Host.Outcome State Fault Refusal :=
  .next (runArith s (fun s => stepInFall s dt.toNat))
/-- STEP_IN_RISE (R45). -/
def execStepInRise (s : State) : Host.Outcome State Fault Refusal := .next (runArith s stepInRise)
/-- BARRIER_FORWARD (R45). -/
def execBarrierForward (s : State) : Host.Outcome State Fault Refusal := .next (runArith s barForward)
/-- BARRIER_RELEASE (R45). -/
def execBarrierRelease (s : State) : Host.Outcome State Fault Refusal := .next (runArith s barRelease)
/-- TC_SNAPSHOT_READ (R43). -/
def execTcSnapshotRead (s : State) : Host.Outcome State Fault Refusal := .next (runArith s tcFreeze)
/-- TC_FLAGS_READ (R43). -/
def execTcFlagsRead (s : State) : Host.Outcome State Fault Refusal := .next (runArith s tcThaw)

end Sys2Proof.Machine
end

