-- ==== Sys2Proof/Machine/Cand.lean ====
section
/-!
DEFINITION. Candidate generation (R111 to R132): base and re-timing, the generator and jerk noise, families and batches, the record, the
inputs latched at a boundary, and the primitive table's installation.
-/
namespace Sys2Proof.Machine

/-! ### Records (R124, R125) -/

/-- A candidate record, decoded. -/
structure CandRec where
  id : Nat
  cycleLo : Nat
  dtUs : Nat
  nj : Nat
  gen : Nat
  flags : Nat
  source : Nat
  pin : Nat
  wp : List (List Int)
  deriving DecidableEq, Repr

/-- The bytes of a record. -/
def CandRec.bytes (c : CandRec) : Bytes :=
  leBytes 4 c.id ++ leBytes 4 c.cycleLo ++ leBytes 4 c.dtUs ++ [c.nj, c.gen] ++ leBytes 2 c.flags ++ leBytes 4 c.source ++
    leBytes 4 c.pin ++ zeros 8 ++ c.wp.flatMap (fun w => w.flatMap (fun q => leBytes 4 (ofSigned 32 q)))

/-- Waypoints from an offset of a byte string: 32 × NJ INT32, waypoint-major. -/
def wpAt (b : Bytes) (o nj : Nat) : List (List Int) :=
  (List.range 32).map (fun k => (List.range nj).map (fun j => getLeS b (o + 4 * (k * nj + j)) 4))

/-- The record that bytes spell. -/
def recOf (b : Bytes) : CandRec :=
  let nj := min 32 (getLe b 12 1)
  { id := getLe b 0 4, cycleLo := getLe b 4 4, dtUs := getLe b 8 4, nj := nj, gen := getLe b 13 1, flags := getLe b 14 2,
    source := getLe b 16 4, pin := getLe b 20 4, wp := wpAt b 32 nj }

/-- Length of a record of NJ joints. -/
def recLen (nj : Nat) : Nat := 32 + 128 * nj

/-- The record in memory. -/
def recAt (s : State) (a : Nat) : CandRec := recOf (memBytes s a (recLen (min 32 (memGet s (a + 12)))))

/-! ### Base and re-timing (R115) -/

/-- A sum that belongs in INT32; outside it the value is open. Log entry 24 (DESIGN CHOICE, safe). -/
def sumI32 (x : Int) : Int := if -2147483648 ≤ x ∧ x ≤ 2147483647 then x else toSigned 32 (ofSigned 32 (Config.sumOver x))

/-- Waypoint k of a trajectory of step `dtSeg` moved forward by `a` cycles of `p` ns and sampled at step `dt`.
Log entry 24 (DESIGN CHOICE, safe). -/
def retimeAt (wp : List (List Int)) (a p dtSeg dt k : Nat) : List Int :=
  let t := a * p + k * dt * 1000
  let u := t * 2 ^ 16 / (dtSeg * 1000)
  let n := u / 2 ^ 16
  let f : Nat := u % 2 ^ 16
  if dtSeg = 0 ∨ 31 ≤ n then wp.getD 31 []
  else
    let x := wp.getD n []
    let y := wp.getD (n + 1) []
    (x.zip y).map (fun v => sumI32 (v.1 + rshUp ((v.2 - v.1) * Int.ofNat f) 16))

/-- The re-timed trajectory. -/
def retime (wp : List (List Int)) (a p dtSeg dt : Nat) : List (List Int) := (List.range 32).map (retimeAt wp a p dtSeg dt)

/-! ### Random generator (R126 to R129) -/

/-- Rotation of a 64-bit word to the left. -/
def rotl64 (x n : Nat) : Nat := (x * 2 ^ n % 2 ^ 64) ||| (x / 2 ^ (64 - n))

/-- C of R126. -/
def rngC : Nat := 0x9E3779B97F4A7C15

/-- Rounds `i` to `i + n - 1` of the permutation. -/
def rngGo (hi lo : Nat) : Nat → Nat → Nat → Nat → Nat × Nat
  | 0, _, l, r => (l, r)
  | n + 1, i, l, r =>
    let k := ((if i % 2 = 0 then lo else hi) + (i + 1) * rngC) % 2 ^ 64
    let t := (r + k) % 2 ^ 64
    let f := ((t + rotl64 t 24) % 2 ^ 64) ^^^ rotl64 t 44
    rngGo hi lo n (i + 1) r (l ^^^ f)

/-- The output block of a stream ID and counter: L, R. -/
def rngBlock (hi lo stream ctr : Nat) : Nat × Nat := rngGo hi lo 8 0 stream ctr

/-- The Gaussian sample of a 16-bit lane, Q3.12 (R128). -/
def gaussOf (w : Nat) : Int :=
  let g : Int := gaussT (field w 3 12)
  if bit w 15 then -g else g

/-- Lane m of an output block (R129). -/
def laneOf (b : Nat × Nat) (m : Nat) : Nat := if m < 4 then field b.2 (16 * m) 16 else field b.1 (16 * (m - 4)) 16

/-- Sample n of a candidate of a cycle (R127, R129). -/
def sampleOf (hi lo cycle id n : Nat) : Int :=
  let stream := cycle % 2 ^ 32 * 2 ^ 32 + id
  let ctr := cycle / 2 ^ 32 % 2 ^ 24 * 2 ^ 32 + n / 8
  gaussOf (laneOf (rngBlock hi lo stream ctr) (n % 8))

/-- One waypoint's step of the jerk noise (R118): for each joint the triple (acc, vel, dq) moves on. -/
def noiseStep (sigma : List Int) (g : Nat → Int) (nj m : Nat) (st : List (Int × Int × Int)) : List (Int × Int × Int) :=
  (st.zip (List.range nj)).map (fun x =>
    let jerk := vi sigma x.2 * g (m * nj + x.2) / 4096
    let acc := x.1.1 + jerk
    let vel := x.1.2.1 + acc
    (acc, vel, x.1.2.2 + vel))

/-- Waypoints from number `k` on with noise: `n` of them, `m` waypoints past PIN. -/
def noiseGo (ref : List (List Int)) (sigma : List Int) (g : Nat → Int) (nj : Nat) : Nat → Nat → Nat → List (Int × Int × Int) →
    List (List Int)
  | 0, _, _, _ => []
  | n + 1, k, m, st =>
    let st := noiseStep sigma g nj m st
    (st.zip (ref.getD k [])).map (fun x => sat32 (x.2 + x.1.2.2)) :: noiseGo ref sigma g nj n (k + 1) (m + 1) st

/-- The reference with jerk noise from waypoint PIN on (R117, R118). -/
def withNoise (ref : List (List Int)) (sigma : List Int) (g : Nat → Int) (nj pin : Nat) : List (List Int) :=
  ref.take pin ++ noiseGo ref sigma g nj (32 - pin) pin 0 (List.replicate nj (0, 0, 0))

/-! ### Families, places and batches (R111 to R113, R199) -/

/-- Quota of a family. -/
def quota (s : State) (f : Nat) : Nat := objN s 0x2400 (f + 1)
/-- Candidates per seed; 0 before a plan image acts as 1. -/
def perSeed (s : State) : Nat := max 1 (objN s 0x2400 5)
/-- Candidates per survivor. -/
def perSurv (s : State) : Nat := max 1 (objN s 0x2400 6)
/-- PIN (R116). -/
def pinOf (s : State) : Nat := objN s 0x2400 7
/-- Δt of the plan image in µs. -/
def dtUs (s : State) : Nat := objN s 0x2400 8

/-- Batches of a family (R113). -/
def famBatches (s : State) (f : Nat) : Nat := ceilDiv (quota s f) 64
/-- Batches of the cycle. -/
def allBatches (s : State) : Nat := sumN ((List.range 4).map (famBatches s))
/-- Candidates of the cycle (R112). -/
def allCands (s : State) : Nat := sumN ((List.range 4).map (quota s))

/-- The CAND_ID evaluated in the place of ordinal `o` of a family (R113, R122, R123). -/
def placeId (s : State) (f o : Nat) : Nat :=
  match f with
  | 0 => o
  | 1 => 2 ^ 28 + o
  | 2 =>
    let n := s.cand.seedCount * perSeed s
    if o < n then 2 * 2 ^ 28 + o / perSeed s * 2 ^ 18 + o % perSeed s else quota s 0 + (o - n)
  | _ =>
    let n := s.cand.surv.length * perSurv s
    if o < n then 3 * 2 ^ 28 + o / perSurv s * 2 ^ 16 + o % perSurv s else quota s 0 + s.cand.short2 + (o - n)

/-- The places of batch `b` from family `f` on, `n` families left. -/
def batchGo (s : State) : Nat → Nat → Nat → List Nat
  | 0, _, _ => []
  | n + 1, f, b =>
    if b < famBatches s f then
      ((List.range 64).filter (fun i => decide (64 * b + i < quota s f))).map (fun i => placeId s f (64 * b + i))
    else batchGo s n (f + 1) (b - famBatches s f)

/-- The CAND_IDs of batch b of the cycle: family 0, then 1, 2 and 3 (R157). -/
def batchIds (s : State) (b : Nat) : List Nat := batchGo s 4 0 b

/-! ### Generation -/

/-- The model of a generation: the current bank, or the older one (R105). -/
def modelOf (s : State) (gen : Nat) : Option Model :=
  if gen = s.model.gen then s.model.cur else s.model.old

/-- SIGMA of a family's object (R132). -/
def sigmaOf (s : State) (idx nj : Nat) : List Int := (List.range nj).map (fun j => objF s idx (j + 1))

/-- The noise source of a candidate. -/
def noiseOf (s : State) (cycle id n : Nat) : Int := sampleOf (objN s 0x2401 2) (objN s 0x2401 1) cycle id n

/-- The base waypoint k. -/
def baseAt (s : State) (k : Nat) : List Int := s.cand.base.getD k []

/-- Entry e of the primitive table. -/
def primEntry (s : State) (e nj : Nat) : List (List Int) :=
  wpAt (memBytes s (s.cand.primAddr + e * 128 * nj) (128 * nj)) 0 nj

/-- The motion of a family 1 candidate: waypoints, entry and whether it is rotated (R119). Log entry 24 (DESIGN CHOICE, safe). -/
def primMotion (s : State) (m : Model) (cycle i : Nat) : List (List Int) × Nat × Bool :=
  let nj := m.joints.length
  let b0 := baseAt s 0
  if s.cand.primN = 0 then (List.replicate 32 b0, 0xFFFFFFFF, false)
  else
    let e := (i + cycle * quota s 1) % s.cand.primN
    let off := primEntry s e nj
    let sn := leekSin (vi b0 2)
    let cs := leekCos (vi b0 2)
    let turn := fun (o : List Int) =>
      if m.planar then rshUp (cs * vi o 0 - sn * vi o 1) 30 :: rshUp (sn * vi o 0 + cs * vi o 1) 30 :: o.drop 2 else o
    (off.map (fun o => (b0.zip (turn o)).map (fun x => sumI32 (x.1 + x.2))), e, m.planar)

/-- Waypoints of a survivor re-timed by one cycle (R123). -/
def survRef (s : State) (b : Bytes) : List (List Int) :=
  let r := recOf b
  retime r.wp 1 (declNs s) r.dtUs (dtUs s)

/-- The pinned waypoints replace the motion's (R116). -/
def pinned (s : State) (wp : List (List Int)) : List (List Int) :=
  (List.range 32).map (fun k => if k < pinOf s then baseAt s k else wp.getD k [])

/-- The candidate of an ID in a cycle, under the inputs latched (R111 to R125, R130). -/
def genCand (s : State) (m : Model) (gen cycle id : Nat) : CandRec :=
  let nj := m.joints.length
  let nb := if s.cand.noBase then 2 else 0
  let mk := fun (flags source : Nat) (wp : List (List Int)) =>
    { id := id, cycleLo := cycle % 2 ^ 32, dtUs := dtUs s, nj := nj, gen := gen % 256, flags := nb + flags, source := source,
      pin := pinOf s, wp := pinned s wp : CandRec }
  let noisy := fun (ref : List (List Int)) (idx : Nat) =>
    withNoise ref (sigmaOf s idx nj) (noiseOf s cycle id) nj (pinOf s)
  let i := id % 2 ^ 28
  match id / 2 ^ 28 with
  | 0 => mk (1 + (if quota s 0 ≤ i then 4 else 0)) 0 (noisy s.cand.base 0x2402)
  | 1 =>
    let (wp, e, rot) := primMotion s m cycle i
    mk (if rot then 8 else 0) e wp
  | 2 =>
    let sd := i / 2 ^ 18
    mk 1 sd (noisy (wpAt (memBytes s (s.cand.seedAddr + 64 + sd * 128 * nj) (128 * nj)) 0 nj) 0x2403)
  | _ =>
    let b := s.cand.surv.getD (i / 2 ^ 16) []
    let ref := survRef s b
    if i % 2 ^ 16 = 0 then mk 0 (getLe b 0 4) ref else mk 1 (getLe b 0 4) (noisy ref 0x2404)

/-! ### Inputs latched at a boundary (R115, R121 to R123) -/

/-- Address of a parameter block of the running image in the current copy (R308). -/
def paramNow (s : State) (a : Nat) : Nat :=
  match s.plan.run with
  | some p => a + (if s.plan.copy = 1 then p.copyOff else 0)
  | none => a

/-- The parameter block of the MAIN EVAL_FAMILIES of the running image (R305). -/
def mainEval (s : State) : Option Nat :=
  match s.plan.run with
  | some p => p.mainEval.map (paramNow s)
  | none => none

/-- The parameter block of the re-check of the running image: EVAL_RECORDS with STOP_BRANCH. -/
def recheckBlock (s : State) : Option Nat :=
  match s.plan.run with
  | some p => p.recheck.map (paramNow s)
  | none => none

/-- The seed buffer for a cycle: address and count, or the reason of event 0x0402 (R122). -/
def seedFor (s : State) (a nj : Nat) : Nat × Nat × Nat :=
  match [memLe s (a + 24) 8, memLe s (a + 32) 8].find? (fun b => memLe s b 8 == s.phu.cycle) with
  | none => (0, 0, 1)
  | some b =>
    if !bit (memGet s (b + 11)) 0 then (b, 0, 2)
    else if memGet s (b + 10) ≠ nj then (b, 0, 3)
    else (b, min 1024 (memLe s (b + 8) 2), 0)

/-- The seed input that the record of this cycle holds: COUNT, and whether a buffer qualified (R122). -/
def seedRecorded (s : State) : Option (Nat × Bool) :=
  if s.det.replay && !s.det.replayDone then
    ((ringOf s s.phu.cycle).find? (fun r => r.typ == 8 && r.content.length == 3)).map (fun r => (getLe r.content 0 2, bit (getLe r.content 2 1) 0))
  else none

/-- The seed input of the cycle; replay imposes the recorded one (R122, R408). Log entry 51 (DESIGN CHOICE, unsafe). -/
def seedTake (s : State) (a nj : Nat) : Nat × Nat × Nat :=
  let (b, n, why) := seedFor s a nj
  match seedRecorded s with
  | none => (b, n, why)
  | some (n, true) => (b, n, 0)
  | some (_, false) => (b, 0, if why = 0 then 2 else why)

/-- Address of the record of rank r in the re-check's record list. -/
def rankAddr (s : State) (blk r : Nat) : Nat := memLe s (blk + 16) 8 + memLe s (blk + 28) 4 * r

/-- Survivors in rank order, up to the first rank not filled: the survivor block must describe the previous cycle (R123,
R206). -/
def survGo (s : State) (blk surv nj : Nat) : Nat → Nat → List Bytes
  | 0, _ => []
  | n + 1, r =>
    if memLe s (surv + 192 + 16 * r) 4 = 0xFFFFFFFF ∨ memGet s (rankAddr s blk r + 12) ≠ nj then []
    else memBytes s (rankAddr s blk r) (recLen nj) :: survGo s blk surv nj n (r + 1)

/-- The survivors of the previous cycle. -/
def survivors (s : State) (ev nj ranks : Nat) : List Bytes :=
  let surv := memLe s (ev + 40) 8
  match recheckBlock s with
  | none => []
  | some blk =>
    if memLe s surv 4 = 0x52444B42 ∧ memLe s (surv + 8) 4 = (s.phu.cycle + 2 ^ 32 - 1) % 2 ^ 32 then
      survGo s blk surv nj (min ranks (min (memLe s (surv + 4) 2) (memLe s (blk + 24) 4))) 0
    else []

/-- The base trajectory and whether it is missing (R115). -/
def baseFor (s : State) (m : Model) : List (List Int) × Bool :=
  let nj := m.joints.length
  match s.safety.exe with
  | some g =>
    if g.nj = nj then (retime g.wp g.age (declNs s) g.dtUs (dtUs s), false)
    else (List.replicate 32 (fitI nj s.model.latched), true)
  | none => (List.replicate 32 (fitI nj s.model.latched), true)
where
  /-- A list of positions cut or filled with 0 to `n`. -/
  fitI (n : Nat) (l : List Int) : List Int := (List.range n).map (fun i => vi l i)

/-- A pending primitive table becomes active (R120). -/
def primBoundary (s : State) : State :=
  match s.cand.primPend with
  | some (a, n) =>
    let nj := match s.model.cur with | some m => m.joints.length | none => 0
    let r : InRec := { typ := 7, source := 0, cycle := s.phu.cycle, phase := 0, content := memBytes s a (n * 128 * nj), what := .prims a n }
    { s with
      cand := { s.cand with primAddr := a, primN := n, primPend := none, primStatus := 2 }
      det := { s.det with recs := s.det.recs ++ [r] } }
  | none => s

/-- The counts of the cycle that ends move to the "last cycle" objects; 0 without a MAIN EVAL_FAMILIES (R305). The latch of
the new cycle's inputs falls due. -/
def candCounts (s : State) : State :=
  let c := s.cand
  { s with cand := { c with genLast := c.generated, generated := 0,
                            seedsLast := min c.seedCount (ceilDiv (quota s 2) (perSeed s)),
                            reassignedLast := c.short2 + c.short3, latchDue := true } }

/-- Event 0x0405 of a cycle without a base (R115). -/
def noBaseEvent (s : State) : State :=
  raise { s with cand := { s.cand with noBaseCycles := satInc 32 s.cand.noBaseCycles } } 0x0405 0xFFFF s.phu.cycle 0

/-- The latch of the candidate inputs of the cycle that a boundary opens, once its switches are done (R115, R119, R121 to
R123). -/
def candLatch (s : State) : State :=
  let s := primBoundary { s with cand := { s.cand with latchDue := false } }
  match s.model.cur with
  | none =>
    let s := if s.safety.exe.isNone then noBaseEvent s else s
    { s with cand := { s.cand with base := [], noBase := true, seedCount := 0, short2 := 0, surv := [], short3 := 0, dropSurv := false } }
  | some m =>
    let nj := m.joints.length
    let (base, nb) := baseFor s m
    let s := if nb then noBaseEvent s else s
    let s := { s with cand := { s.cand with base := base, noBase := nb } }
    match mainEval s with
    | none => { s with cand := { s.cand with seedCount := 0, short2 := 0, surv := [], short3 := 0, dropSurv := false } }
    | some ev =>
      let (sa, sn, why) := seedTake s ev nj
      let seedRec : InRec := { typ := 8, source := 0, cycle := s.phu.cycle, phase := 0, content := leBytes 2 sn ++ [b2n (why == 0)] }
      let s := { s with det := { s.det with recs := s.det.recs ++ [seedRec] } }
      let s := if why ≠ 0 ∧ quota s 2 ≠ 0 then raise s 0x0402 0xFFFF why 0 else s
      let s2 := quota s 2 - sn * perSeed s
      let s := if s2 ≠ 0 then raise s 0x0401 0xFFFF (sn * 2 ^ 16) 0 else s
      let ranks := ceilDiv (quota s 3) (perSurv s)
      let sv := if s.cand.dropSurv then [] else survivors s ev nj ranks
      let s := if sv.length < ranks then raise s 0x0403 0xFFFF (ranks - sv.length) 0 else s
      let s := if s.cand.primN = 0 ∧ quota s 1 ≠ 0 then raise s 0x0406 0xFFFF s.phu.cycle 0 else s
      { s with cand := { s.cand with seedAddr := sa, seedCount := sn, short2 := s2, surv := sv,
                                     short3 := quota s 3 - sv.length * perSurv s, dropSurv := false,
                                     seedNd := sn != 0 && s.cob.seedNd.contains s.phu.cycle,
                                     survNd := !sv.isEmpty && bit (memGet s (memLe s (ev + 40) 8 + 7)) 1 } }

/-! ### Primitive table (R120) -/

/-- The lowest reason for which a primitive table is refused; 0 accepts. `njOk` is what the firmware finds of the entries. -/
def primReason (s : State) (njOk : Bool) : Nat :=
  let a := objW s 0x2405 1
  let n := objW s 0x2405 2
  let nj := match s.model.cur with | some m => m.joints.length | none => 0
  if a % 64 ≠ 0 ∨ !inDdr s a (n * 128 * nj) then 1 else if !njOk ∨ nj = 0 then 2 else if n = 0 ∨ 65536 < n then 3 else 0

/-- PRIM_INSTALL: address, NJ and count are checked, the lowest reason reported; in replay the recorded table takes its place (R408). -/
def primInstall (s : State) (njOk : Bool) : State :=
  if s.det.replay then s
  else
    let why := primReason s njOk
    if why = 0 then { s with cand := { s.cand with primPend := some (objW s 0x2405 1, objW s 0x2405 2), primStatus := 1 } }
    else
      let st := if s.cand.primPend.isSome then s.cand.primStatus else 3
      raise { s with cand := { s.cand with primStatus := st } } 0x0404 0xFFFF why 0

/-- PRIM_CANCEL: the pending table is dropped; an active one stays. -/
def primCancel (s : State) : State :=
  if s.cand.primPend.isSome then
    { s with cand := { s.cand with primPend := none, primStatus := if s.cand.primN = 0 then 0 else 2 } }
  else s

/-- PRIM_INSTALL (R120). Log entry 13 (DESIGN CHOICE, safe). -/
def execPrimInstall (njOk : Bool) (s : State) : Host.Outcome State Fault Refusal := .next (runIo s (fun s => primInstall s njOk))
/-- PRIM_CANCEL (R120). -/
def execPrimCancel (s : State) : Host.Outcome State Fault Refusal := .next (runIo s primCancel)

end Sys2Proof.Machine
end

