-- ==== Sys2Proof/Machine/SchedCmd.lean ====
section
/-!
DEFINITION. The commands of the Onions and the QMGR: release engines (R273, R276), held decrements (R268), writes of sync counters
(R272), claiming (R277), the Husk's supervision (R286), queues (R282); and the registers of R288 to R290.
-/
namespace Sys2Proof.Machine

/-! ### Release engines -/

/-- Whether a parameter block of class 0x04 holds a problem of class ESTIMATE (R216). -/
def isEstimate (s : State) (param : Nat) : Bool := memGet s (param + 16 + 4) == 1

/-- RELEASE_COPY: one clk of an engine (R273, R276); slots without weights are those of R314. -/
def releaseCopy (s : State) (stack level : Nat) : State := engineClk s isEstimate s.cob.noWeights stack level

/-- Time passes until `n` clk after tick `t`. Log entry 6 (DEDUCED, safe). -/
def reachClk (s : State) (t n : Nat) : State := advance s (t + n * ticksPerClk s - s.now)

/-- Clk since tick `t`. -/
def clkSince (s : State) (t : Nat) : Nat := (s.now - t) / ticksPerClk s

/-- The descriptor at which the release of an engine stands, and the counter that released it. -/
def engineHead (s : State) (stack level : Nat) : Option (Desc × Nat) :=
  (s.sched.rels.find? (fun r => r.stack == stack && r.level == level)).bind (fun r => (r.descs[r.next]?).map (fun d => (d, r.ctr)))

/-- READY_STALL (R276): an engine stalled for more than 1,024 clk, once per cycle for each list. Log entry 45 (DESIGN CHOICE, unsafe). -/
def readyStall (s : State) (stack level : Nat) : State :=
  let since := cnt s.sched.stalledEng (stack * 4 + level)
  match engineHead s stack level with
  | none => s
  | some (d, n) =>
    if since = 0 then s
    else
      let s := reachClk s (since - 1) 1025
      let k := chooseStack s d n
      let key := readyKey d.cls k level
      if s.sched.stallReported.contains key then s
      else
        let s := { s with sched := { s.sched with stallReported := s.sched.stallReported ++ [key] } }
        raiseOnion s k 0x0A01 (unitId 8 k 0) (d.cls * 256 + k * 16 + level) (sat 32 (clkSince s (since - 1)))

/-! ### Sync counters -/

/-- A write of a whole counter word from the cluster (R272). -/
def syncCtrWrite (s : State) (n w : Nat) : State := if n < ctrPlan s then s else ctrSet s n w

/-! ### Supervision (R284, R286) -/

/-- Whether the end limit of a task has passed (R284): a later cycle than END_CYC after its release, or a greater phase in
it. -/
def endPassed (s : State) (t : Task) : Bool :=
  let c := t.cycle + t.desc.endCyc
  decide (c < s.phu.cycle) || (decide (c = s.phu.cycle) && (s.phu.boundaryDue || decide (t.desc.endBy < phase s)))

/-- The phase moves to just after the end limit of a task whose last cycle runs. Log entry 6 (DEDUCED, safe). -/
def reachEnd (s : State) (t : Task) : State :=
  if s.phu.cycle = t.cycle + t.desc.endCyc then reachPhase s (t.desc.endBy + 1) else s

/-- Every released task that has not ended, with the unit that holds it in execution: the ready lists', then the units'. -/
def openTasks (s : State) : List (Option Nat × Task) :=
  (s.sched.ready.flatMap (fun p => p.2.map (fun t => (none, t)))) ++
  (s.units.flatMap (fun p => (p.2.exec.toList.map (fun t => (some p.1, t))) ++ (p.2.pref.toList.map (fun t => (none, t)))))

/-- The open task of a TASK_ID with the lowest release number. -/
def openTask (s : State) (id : Nat) : Option (Option Nat × Task) :=
  ((openTasks s).filter (fun x => x.2.desc.taskId == id)).foldl (fun best x =>
    match best with
    | none => some x
    | some b => if x.2.rid < b.2.rid then some x else some b) none

/-- The task with the END_BY and END_CYC that the Husk has copied from the plan image (R286); its own checks stand in none. -/
def huskView (s : State) (t : Task) : Task :=
  match s.plan.run.bind (fun p => p.ends.find? (fun e => e.1 == t.desc.taskId)) with
  | some e => { t with desc := { t.desc with endBy := e.2.1, endCyc := e.2.2 } }
  | none => t

/-- Clk of the present cycle since the end limit of a task; 64 where it has passed in an earlier one. -/
def clkLate (s : State) (t : Task) : Nat :=
  if s.phu.cycle = t.cycle + t.desc.endCyc then puClk s (phase s - (t.desc.endBy + 1)) else 64

/-- HUSK_SUPERVISION (R286): a level 0 or 1 task neither completed nor failed 64 clk after its END_BY; against the Onion of
its stack. -/
def huskSupervision (s : State) (id : Nat) : State :=
  match openTask s id with
  | none => s
  | some (_, t) =>
    if 2 ≤ t.desc.crit then s
    else
      let t := huskView s t
      let s := reachEnd s t
      if !endPassed s t then s
      else
        let s := advance s ((64 - clkLate s t) * ticksPerClk s)
        let s := { s with sched := { s.sched with superTotal := satInc 32 s.sched.superTotal } }
        raiseOnion s t.stack 0x0A08 (unitId 8 t.stack 0) id (phase s)

/-! ### Queues (R282) -/

/-- Whether a push of the unit waits on a full queue: the unit is stalled (R282). -/
def pushStalled (s : State) (u : Nat) : Bool := s.sched.stalls.any (fun x => x.unit == u)

/-- QUEUE_PUSH: the task that pushes to a disabled queue fails. -/
def queuePush (s : State) (q unit : Nat) (b : Bytes) : State :=
  if pushStalled s unit then s else
  let r := qPush s q unit b [] false
  match r.1 with
  | .done => clkDecs r.2.2 [] r.2.1
  | .stalled => r.2.2
  | .disabled => failExec r.2.2 unit

/-- QUEUE_POP: the head entry, or EMPTY; the task that pops a disabled queue fails. -/
def queuePop (s : State) (q unit : Nat) : State :=
  if pushStalled s unit then s else
  let r := qPop s q unit
  match r.1 with
  | some b => answer r.2 (.entry b)
  | none => if qEn s q then answer r.2 .empty else failExec r.2 unit

/-- The task of a unit counts as completed (R288). -/
def countDone (s : State) (u : Nat) : State :=
  match (unitOf s u).exec with
  | some t => { s with sched := { s.sched with taskCnt := cntUp s.sched.taskCnt t.stack } }
  | none => s

/-- What follows the entry of a task's or batch's end. -/
def pushEnds (s : State) (x : Stall) : State :=
  if !x.ends then s
  else if idClass x.unit = 1 then podUpd s (podOf x.unit) (fun p => { p with exec := none })
  else slotNext (countDone s x.unit) x.unit

/-- QUEUE_PUSH_RESUME: the oldest stalled push of a queue that is no longer full writes its entry. -/
def queueResume (s : State) (q : Nat) : State :=
  match s.sched.stalls.find? (fun x => x.queue == q) with
  | none => s
  | some x =>
    let o := qOpen s q
    if qFill o.1.1 o.1.2 = qSize s q then o.2
    else
      let s := o.2
      let s := { s with sched := { s.sched with stalls := s.sched.stalls.erase x,
                                                stallClk := sat 32 (s.sched.stallClk + clkSince s x.since) } }
      let r := qPush s q x.unit x.entry [] false
      pushEnds (clkDecs r.2.2 [] (r.2.1 ++ x.after)) x

/-- QSTALL_LIMIT. -/
def stallLimit (s : State) : Nat := field (regGet s Reg.qmgrCtrl) 0 16

/-- QUEUE_STALL: a stall longer than QSTALL_LIMIT clk, once per cycle for the queue. -/
def queueStall (s : State) (q : Nat) : State :=
  match s.sched.stalls.find? (fun x => x.queue == q) with
  | none => s
  | some x =>
    if s.sched.stalls.any (fun y => y.queue == q && y.reported) then s
    else
      let s := reachClk s x.ticks (stallLimit s + 1)
      let l := s.sched.stalls.map (fun y => if y = x then { y with reported := true } else y)
      raise { s with sched := { s.sched with stalls := l } } 0x0A09 x.unit q x.unit

/-! ### Registers of R288 to R291 -/

/-- The largest depths and counts of the cycle move to the "last cycle" registers, and a new count begins. -/
def schedBoundary (s : State) : State :=
  let c := s.sched
  let stalled := sumN (c.stalls.map (fun x => clkSince s x.since))
  let k := fun (s : State) (n : Nat) =>
    let b := 0x10000 * n
    let s := regSet s (Reg.onionCycRel + b) (sat 32 (cnt c.relCnt n))
    let s := regSet s (Reg.onionCycTasks + b) (sat 32 (cnt c.taskCnt n))
    let s := regSet s (Reg.onionCycFail + b) (sat 16 (cnt c.missCnt n) * 2 ^ 16 + sat 16 (cnt c.overCnt n))
    regSet s (Reg.onionHeld + b) (sat 8 (cnt c.heldMax n))
  let s := k (k s 0) 1
  let s := regSet s Reg.qmgrCycPush (sat 32 c.pushes)
  let s := regSet s Reg.qmgrCycStall (sat 32 (c.stallClk + stalled))
  let s := regSet s Reg.qmgrCache (sat 16 c.misses * 2 ^ 16)
  let high := c.ready.foldl (fun m p => cntPut m p.1 p.2.length) ([] : Smap Nat)
  { s with sched := { s.sched with
      relCnt := [], taskCnt := [], missCnt := [], overCnt := [], highLast := c.high, high := high,
      heldMax := cntPut (cntPut [] 0 c.held0.length) 1 c.held1.length, stallReported := [], pushes := 0, stallClk := 0,
      misses := 0, stalls := c.stalls.map (fun x => { x with since := s.now, reported := false }) } }

/-- MODE 2 counters at a boundary (R271): held decrements are discarded with event 0x0A03, RELOAD is loaded and ARMED
set. -/
def mode2Boundary (s : State) : State :=
  s.sched.ctrs.foldl (fun s p =>
    let n := p.1
    let w := ctrGet s n
    if ctrMode w ≠ 2 then s
    else
      let k := field w 60 1
      let d := (s.sched.held0 ++ s.sched.held1).filter (fun x => x.ctr == n)
      let drop := fun (l : List Decr) => l.filter (fun x => x.ctr != n)
      let s := { s with sched := { s.sched with held0 := drop s.sched.held0, held1 := drop s.sched.held1 } }
      let s := if d.isEmpty then s else raiseOnion s k 0x0A03 0xFFFF n d.length
      ctrSet s n (ctrDisarm (ctrWithCount w (ctrReload w)) + 2 ^ 63)) s

/-- The ONION registers that the state computes (R288, R289), at offset `o` of the Onion of a stack. -/
def onionRead (s : State) (k o : Nat) : Option Nat :=
  let b := 0x10000 * k
  match o with
  | 0x004 => some (sumN ((List.range 4).map (fun l => if cnt s.sched.stalledEng (k * 4 + l) = 0 then 0 else 2 ^ l)))
  | 0x01C =>
    let sel := regGet s (Reg.onionReadySel + b)
    let c := field sel 8 5
    if readyClass c then
      let key := readyKey c k (field sel 0 2)
      some (cnt s.sched.highLast key * 2 ^ 16 + (readyGet s key).length)
    else some 0
  | 0x024 =>
    let u := field (regGet s (Reg.onionSlotSel + b)) 0 16
    if readyClass (idClass u) ∧ idStack u = k ∧ unitExists u then
      let one := fun (t : Option Task) => match t with
        | some t => 8 + 4 * b2n t.rerun + t.desc.crit
        | none => 0
      some (one (unitOf s u).pref * 2 ^ 28 + one (unitOf s u).exec * 2 ^ 12)
    else some 0
  | _ => none

/-- The QMGR registers that the state computes (R290). -/
def qmgrRead (s : State) (o : Nat) : Option Nat :=
  match o with
  | 0x018 =>
    let q := field (regGet s Reg.qmgrQsel) 0 20
    let c := s.sched.qcache.find? (fun e => e.1 == q)
    let h := match c with
      | some e => e.2
      | none => (memLe s (qRec s q + 8) 4, memLe s (qRec s q + 12) 4)
    some (b2n (s.sched.stalls.any (fun x => x.queue == q)) * 2 ^ 31 + b2n c.isSome * 2 ^ 30 + qFill h.1 h.2 % 2 ^ 21)
  | 0x024 => some (regGet s Reg.qmgrCache + s.sched.qcache.length)
  | _ => none

/-! ### Meanings -/

/-- RELEASE_COPY (R273). -/
def execReleaseCopy (stack : Fin 2) (level : Fin 4) (s : State) : Host.Outcome State Fault Refusal :=
  .next (runArith s (fun s => releaseCopy s stack.val level.val))
/-- READY_STALL (R276). -/
def execReadyStall (stack : Fin 2) (level : Fin 4) (s : State) : Host.Outcome State Fault Refusal :=
  .next (runArith s (fun s => readyStall s stack.val level.val))
/-- HELD_DECREMENT: the held decrements in their next clk (R268). -/
def execHeldDecrement (s : State) : Host.Outcome State Fault Refusal := .next (runArith s heldDecs)
/-- SYNC_CTR_WRITE (R272, R291). -/
def execSyncCtrWrite (ctr : BitVec 16) (word : BitVec 64) (s : State) : Host.Outcome State Fault Refusal :=
  .next (runApp s (fun s => answer (syncCtrWrite s ctr.toNat word.toNat) .busOk))
/-- TASK_CLAIM (R277, R278). -/
def execTaskClaim (u : BitVec 16) (s : State) : Host.Outcome State Fault Refusal :=
  .next (runArith s (fun s => claim s u.toNat))
/-- HUSK_SUPERVISION (R286). -/
def execHuskSupervision (id : BitVec 32) (s : State) : Host.Outcome State Fault Refusal :=
  .next (runArith s (fun s => huskSupervision s id.toNat))
/-- QUEUE_PUSH (R282). -/
def execQueuePush (q : BitVec 20) (u : BitVec 16) (b : Bytes) (s : State) : Host.Outcome State Fault Refusal :=
  .next (runArith s (fun s => queuePush s q.toNat u.toNat b))
/-- QUEUE_POP (R282). -/
def execQueuePop (q : BitVec 20) (u : BitVec 16) (s : State) : Host.Outcome State Fault Refusal :=
  .next (runArith s (fun s => queuePop s q.toNat u.toNat))
/-- QUEUE_PUSH_RESUME (R282). -/
def execQueuePushResume (q : BitVec 20) (s : State) : Host.Outcome State Fault Refusal :=
  .next (runArith s (fun s => queueResume s q.toNat))
/-- QUEUE_STALL (R282). -/
def execQueueStall (q : BitVec 20) (s : State) : Host.Outcome State Fault Refusal :=
  .next (runArith s (fun s => queueStall s q.toNat))

end Sys2Proof.Machine
end

