-- ==== Sys2Proof/Machine/Task.lean ====
section
/-!
DEFINITION. The ends of a task (R279, R283, R284) that every class shares: completion with its entry, budget, END_BY, a failed check,
and the write window of R310.
-/
namespace Sys2Proof.Machine

/-- Whether a unit's completion entry waits on a full queue. -/
def endStalled (s : State) (u : Nat) : Bool := s.sched.stalls.any (fun x => x.unit == u && x.ends)

/-- The task that a unit has begun and not ended. -/
def running (s : State) (u : Nat) : Option Task :=
  match (unitOf s u).exec with
  | some t => if t.began ∧ !endStalled s u then some t else none
  | none => none

/-- The task of a unit completes (R279): its entry to OUT_QUEUE, then the decrement of DONE_CTR; the prefetched task
starts. A full queue holds the unit; a disabled one fails the task (R282). -/
def finishTask (s : State) (u outAddr outCnt : Nat) (op : Bytes) : State :=
  match running s u with
  | none => s
  | some t =>
    let done := decFor t.desc.doneCtr u
    if t.desc.outQueue = 0xFFFFF then slotNext (clkDecs (countDone s u) [] done) u
    else
      let r := qPush s t.desc.outQueue u (complEntry t.desc.taskId u t.cycle 0 outAddr outCnt op) done true
      match r.1 with
      | .done => slotNext (clkDecs (countDone r.2.2 u) [] (r.2.1 ++ done)) u
      | .stalled => r.2.2
      | .disabled => failExec r.2.2 u

/-- Elapsed pu of a begun task (R283). -/
def elapsed (s : State) (t : Task) : Nat := (s.phu.cycle * 65536 + phase s) - (t.startCycle * 65536 + t.startPhase)

/-- The phase moves on until a begun task has run longer than its BUDGET, within the present cycle. Log entry 6 (DEDUCED, safe). -/
def reachBudget (s : State) (t : Task) : State :=
  let lim := t.startCycle * 65536 + t.startPhase + t.desc.budget + 1 - s.phu.cycle * 65536
  if lim < 65536 then reachPhase s lim else s

/-- A re-run that follows an uncorrectable read and fails in another way takes its unit out of service (R324). -/
def ueOther (s : State) (u : Nat) (t : Task) : State :=
  if t.rerun ∧ t.ueRegion.isSome then judgePath (faultOut s u) u else s

/-- A task's read of an address finds an uncorrectable error (R324, R334): the task fails and may be re-run; a re-run that fails again
on the same region retires it. Log entry 50 (DESIGN CHOICE, unsafe). -/
def ueFail (s : State) (u : Nat) (t : Task) (a : Nat) : State :=
  let s := readUncorrectable s a
  let s := unitUpd s u (fun r => { r with exec := some { t with ueRegion := some (ueRegionOf a) } })
  let s := failExec s u
  if t.rerun ∧ t.ueRegion.isSome then
    if t.ueRegion = some (ueRegionOf a) then retireAt s a else judgePath (faultOut s u) u
  else s

/-- The evaluation whose batch a Leek's Pod holds. -/
def evalRun (s : State) (u : Nat) : Option Eval :=
  if idClass u = 1 then ((podGet s (podOf u)).exec.bind (fun b => if b.golden then none else evalOf s b.rid)) else none

/-- A task over its BUDGET is counted. -/
def overCount (s : State) (k : Nat) : State :=
  { s with sched := { s.sched with overCnt := cntUp s.sched.overCnt k, overTotal := satInc 32 s.sched.overTotal } }

/-- An evaluation over its BUDGET ends failed: it stands in no list to which it could return. Log entry 45 (DESIGN CHOICE, unsafe). -/
def evalBudget (s : State) (u : Nat) : State :=
  match evalRun s u with
  | none => s
  | some e =>
    let s := reachBudget s e.task
    if !e.started ∨ elapsed s e.task ≤ e.task.desc.budget then s
    else evalFail (raiseOnion (overCount s e.task.stack) e.task.stack 0x0A05 u e.task.desc.taskId u) e u

/-- BUDGET_OVERRUN (R284): the unit abandons the task, which fails by R279; a Leek's Pod its evaluation. -/
def budgetOverrun (s : State) (u : Nat) : State :=
  match running s u with
  | none => evalBudget s u
  | some t =>
    let s := reachBudget s t
    if elapsed s t ≤ t.desc.budget then s
    else
      ueOther (failExec (raiseOnion (overCount s t.stack) t.stack 0x0A05 u t.desc.taskId u) u) u t

/-- A task leaves the ready list or the slot that holds it. -/
def removeTask (s : State) (t : Task) : State :=
  let same := fun (x : Task) => x.rid == t.rid
  let s := { s with sched := { s.sched with ready := s.sched.ready.filterMap (fun (p : Nat × List Task) =>
      let l := p.2.filter (fun x => !same x)
      if l.isEmpty then none else some (p.1, l)) } }
  match s.units.find? (fun p => p.2.exec.any same || p.2.pref.any same) with
  | none => s
  | some p =>
    if p.2.exec.any same then slotNext (dropStalls s p.1) p.1 else unitUpd s p.1 (fun r => { r with pref := none })

/-- END_MISSED (R284): a task of class 0x03 to 0x0C whose end limit has passed ends failed without a re-run. -/
def endMissed (s : State) (id : Nat) : State :=
  match openTask s id with
  | none => s
  | some (u, t) =>
    let s := reachEnd s t
    if !endPassed s t then s
    else
      let s := { s with sched := { s.sched with missCnt := cntUp s.sched.missCnt t.stack,
                                                missTotal := satInc 32 s.sched.missTotal } }
      let s := lateUnstarted s t
      let s := raiseOnion s t.stack 0x0A06 (u.getD 0xFFFF) id (b2n t.rerun * 2 ^ 31 + u.getD 0xFFFF)
      endFailed (removeTask s t) t (u.getD 0xFFFF)

/-- Whether a task may write `n` bytes at `a` (R310): a region of the running image. -/
def windowOk (s : State) (a n : Nat) : Bool :=
  match s.plan.run with
  | some p => p.regions.any (fun r => decide (r.addr ≤ a) && decide (a + n ≤ r.addr + r.size))
  | none => false

/-- A write outside the window (R310): event 0x0B07, and the task of the unit fails. -/
def windowFault (s : State) (u : Nat) : State :=
  match running s u with
  | none => s
  | some t => failExec (raise s 0x0B07 u t.desc.taskId u) u

/-- Event 0x0C0B of a unit that may not access the secure region, when an access of `n` bytes at `a` touches it (R328). -/
def secureTouch (s : State) (u a n : Nat) : State :=
  if n ≠ 0 ∧ !secureMay s u then
    [0, 1].foldl (fun s k => if a < secureBase k + 0x100000 ∧ secureBase k < a + n then raise s 0x0C0B 0xFFFF u k else s) s
  else s

/-- A task's read of `n` bytes at `a`: bytes of the secure region read as 0 for a unit that may not read them (R328). -/
def taskRead (s : State) (u a n : Nat) : Bytes × State :=
  let (b, s) := shownBytes (secureTouch s u a n) a n
  (if secureMay s u then b else (b.zip (List.range n)).map (fun x => if isSecure (a + x.2) then 0 else x.1), s)

/-- A write of the unit's task inside its window, followed by `k`; otherwise the fault of R310. -/
def taskWrite (s : State) (u a : Nat) (b : Bytes) (k : State → State) : State :=
  if windowOk s a b.length then k (memPut s a b) else windowFault (secureTouch s u a b.length) u

/-- TASK_START (R283): the unit begins the task in its execution slot. -/
def execTaskStart (u : BitVec 16) (s : State) : Host.Outcome State Fault Refusal :=
  .next (runArith s (fun s => beginTask 2 s u.toNat))
/-- BUDGET_OVERRUN (R284). -/
def execBudgetOverrun (u : BitVec 16) (s : State) : Host.Outcome State Fault Refusal :=
  .next (runArith s (fun s => budgetOverrun s u.toNat))

end Sys2Proof.Machine
end

