-- ==== Sys2Proof/Machine/Peers.lean ====
section
/-!
DEFINITION. Peers (R171 to R194): Ethernet reception and MACsec, Krytan frames, admission, slots, compilation of capsules, and the device's own
frames.
-/
namespace Sys2Proof.Machine

/-! ### Ports and MACsec (R171, R172) -/

/-- A port's state. -/
def ethPort (s : State) (p : Nat) : EthPort := if p = 0 then s.peers.port0 else s.peers.port1

/-- Stores a port's state. -/
def ethPortSet (s : State) (p : Nat) (x : EthPort) : State :=
  if p = 0 then { s with peers := { s.peers with port0 := x } } else { s with peers := { s.peers with port1 := x } }

/-- Whether a peripheral block of CPM_GATE is clocked (R467). -/
def gateOn (s : State) (b : Nat) : Bool := bit (regGet s Reg.cpmGate) b

/-- Whether a port takes frames: clocked, enabled and linked. -/
def ethOn (s : State) (p : Nat) : Bool :=
  gateOn s p && bit (regF s Reg.ethCtrl) p && (if p = 0 then s.pins.pcs0 else s.pins.pcs1)

/-- ETH_MACSEC_p. -/
def macsecReg (s : State) (p : Nat) : Nat := regF s (Reg.ethMacsec + 0x40 * p)

/-- Whether MACsec lets a frame pass, and the port's SAs after it (R172): a valid SecTAG of an installed SA, a right ICV, and a packet
number inside the replay window. Log entry 53 (DESIGN CHOICE, unsafe). -/
def secCheck (s : State) (p : Nat) (sec : Option SecTag) : Bool × State :=
  let need := bit (regF s Reg.ethCtrl) 4
  match sec with
  | none => (!need, s)
  | some t =>
    let port := ethPort s p
    match port.sas.find? (fun a => a.an == t.an.val) with
    | none => (!need, s)
    | some sa =>
      let pn := t.pn.toNat
      let ok := bit (macsecReg s p) 0 && t.icvOk && decide (sa.nextPn ≤ pn + field (macsecReg s p) 16 16)
      if ok then
        (true, ethPortSet s p { port with sas := port.sas.map (fun a =>
          if a.an = t.an.val then { a with nextPn := max a.nextPn (pn + 1) } else a) })
      else (!need, s)

/-- Entries of the receive ring (R178). -/
def krytanRing : Nat := 8192

/-- A Krytan datagram enters the ring, or is dropped and counted (R178). -/
def ringIn (s : State) (p ns : Nat) (b : Bytes) : State :=
  let s := regCount s (Reg.ethRxCnt + 0x40 * p)
  if krytanRing ≤ s.peers.ring.length then
    regCount { s with peers := { s.peers with dropCyc := s.peers.dropCyc + 1 } } Reg.ethRingDrop
  else { s with peers := { s.peers with ring := s.peers.ring ++ [⟨ns, p, b⟩] } }

/-- ETH_FRAME_RX: MACsec first, then the datagram's address and UDP port (R171, R172). -/
def ethFrameRx (s : State) (p : Nat) (sec : Option SecTag) (ns : Nat) (d : EthData) : State :=
  if !ethOn s p then s
  else
    let (pass, s) := secCheck s p sec
    if !pass then regCount s (Reg.ethSecErr + 0x40 * p)
    else match d with
      | .other => regCount s (Reg.ethOther + 0x40 * p)
      | .udp dst port b =>
        if dst.toNat ≠ regF s Reg.ethIpv4 ∧ dst.toNat ≠ regF s Reg.ethMcast then regCount s (Reg.ethOther + 0x40 * p)
        else if port.toNat = field (regF s Reg.ethUdp) 16 16 then (if s.det.replay then s else ringIn s p ns b)
        else if port.toNat = field (regF s Reg.ethUdp) 0 16 then fragmentUdp s p b
        else regCount s (Reg.ethOther + 0x40 * p)

/-- SAK_INSTALL: the last word of ETH_SAK_p installs the key for AN_SEL in both channels, and the port transmits under it from then on
(R172, R192). Log entry 53 (DESIGN CHOICE, unsafe). -/
def sakInstall (s : State) (p w : Nat) : State :=
  if !gateOn s p then s
  else
    let port := ethPort s p
    let an := field (macsecReg s p) 4 2
    let sa : Sa := { an := an, key := fit 7 port.sak ++ [w], nextPn := 1 }
    let put := fun (l : List Sa) => l.filter (fun a => a.an != an) ++ [sa]
    ethPortSet s p { port with sas := put port.sas, tx := put port.tx, txAn := an }

/-- The words of a SAK that the cipher suite of a port uses: 8 for GCM-AES-256, else 4 (R172, R193). Log entry 53 (DESIGN CHOICE, unsafe). -/
def cipherKey (s : State) (p : Nat) (key : List Nat) : List Nat := if field (macsecReg s p) 1 2 = 1 then key else key.take 4

/-- What a port sends of a UDP payload of a priority (R172, R188): protected under its transmit SA while MACsec is on, and nothing then
without an SA that has a packet number left. Log entry 53 (DESIGN CHOICE, unsafe). -/
def sendOn (s : State) (p pcp : Nat) (b : Bytes) : State :=
  let put := fun (s : State) (sec : Option TxSec) => { s with peers := { s.peers with sent := s.peers.sent ++ [⟨p, pcp, sec, b⟩] } }
  if !bit (macsecReg s p) 0 then put s none
  else
    let port := ethPort s p
    match port.tx.find? (fun a => a.an == port.txAn && decide (a.nextPn < 2 ^ 32)) with
    | none => s
    | some sa =>
      let up := port.tx.map (fun a => if a.an = sa.an then { a with nextPn := a.nextPn + 1 } else a)
      put (ethPortSet s p { port with tx := up })
        (some { an := sa.an, pn := sa.nextPn, key := cipherKey s p sa.key, conf := bit (macsecReg s p) 3 })

/-! ### Frames (R174 to R177) -/

/-- A capsule of a frame in mm, relative to the anchor. -/
structure FCap where
  p0 : List Int
  p1 : List Int
  r : Nat
  deriving DecidableEq, Repr

/-- A Krytan frame, decoded. -/
structure Intent where
  kind : Nat
  peer : Nat
  seq : Nat
  ti : Nat
  v : Nat
  sl : Nat
  vmax : Nat
  anchor : List Int
  slices : List (List FCap)
  deriving DecidableEq, Repr

/-- Capsules of slice i by NCAP. -/
def ncap (b : Bytes) (i : Nat) : Nat := field (getLe b 40 8) (4 * i) 4

/-- One capsule of 14 bytes. -/
def fcapAt (b : Bytes) (o : Nat) : FCap :=
  { p0 := [getLeS b o 2, getLeS b (o + 2) 2, getLeS b (o + 4) 2],
    p1 := [getLeS b (o + 6) 2, getLeS b (o + 8) 2, getLeS b (o + 10) 2], r := getLe b (o + 12) 2 }

/-- The slices from number `i` on, `o` the offset of the first. -/
def slicesGo (b : Bytes) : Nat → Nat → Nat → List (List FCap)
  | 0, _, _ => []
  | n + 1, i, o => (List.range (ncap b i)).map (fun k => fcapAt b (o + 14 * k)) :: slicesGo b n (i + 1) (o + 14 * ncap b i)

/-- The frame that bytes spell. -/
def intentOf (b : Bytes) : Intent :=
  { kind := getLe b 3 1, peer := getLe b 4 4, seq := getLe b 8 4, ti := getLe b 12 8, v := getLe b 20 2, sl := getLe b 22 2,
    vmax := getLe b 24 2, anchor := [getLeS b 28 4, getLeS b 32 4, getLeS b 36 4], slices := slicesGo b (getLe b 26 1) 0 64 }

/-- The CRC of R176. -/
def frameCrc (b : Bytes) : Nat := crc32 (b.take 60 ++ b.drop 64)

/-- Whether MAGIC, VERSION, KIND, the counts, LENGTH and CRC are right (R174, R176, R177). -/
def frameOk (b : Bytes) : Bool :=
  let n := getLe b 26 1
  let kind := getLe b 3 1
  let len := getLe b 48 2
  decide (64 ≤ b.length) && decide (b.length ≤ 1408) && getLe b 0 2 == 0x4B52 && getLe b 2 1 == 1 && decide (kind ≤ 1) &&
    (if kind = 0 then decide (1 ≤ n) && decide (n ≤ 16) else n == 0) &&
    (List.range 16).all (fun i => if i < n then decide (1 ≤ ncap b i) && decide (ncap b i ≤ 6) else ncap b i == 0) &&
    len == 64 + 14 * sumN ((List.range 16).map (ncap b)) && b.length == len && getLe b 60 4 == frameCrc b

/-- End of a frame's commitment T_v in ns (R174). -/
def Intent.tv (f : Intent) : Nat := f.ti + min f.v (f.slices.length * f.sl) * 1000000

/-! ### Site transform (R184) -/

/-- A site point in mm placed in the world, rounded once, halves up. -/
def siteToWorld (s : State) (p : List Int) : List Int :=
  let th := toSigned 32 (regF s (Reg.ethSiteX + 12))
  let c := leekCos th
  let n := leekSin th
  let t := fun i => toSigned 32 (regF s (Reg.ethSiteX + 4 * i))
  let one := fun (v : Int) (i : Nat) => divUp (v * 65536 + t i * 1000 * 2 ^ 30) (1000 * 2 ^ 30)
  [one (c * vi p 0 - n * vi p 1) 0, one (n * vi p 0 + c * vi p 1) 1, one (vi p 2 * 2 ^ 30) 2]

/-- A world point in site mm, relative to `a` mm, rounded to nearest, halves up (R188, R189). -/
def worldToSite (s : State) (w a : List Int) : List Int :=
  let th := toSigned 32 (regF s (Reg.ethSiteX + 12))
  let c := leekCos th
  let n := leekSin th
  let d := fun i => vi w i - toSigned 32 (regF s (Reg.ethSiteX + 4 * i))
  let one := fun (v : Int) (i : Nat) => divUp (v * 1000) (65536 * 2 ^ 30) - vi a i
  [one (c * d 0 + n * d 1) 0, one (c * d 1 - n * d 0) 1, one (d 2 * 2 ^ 30) 2]

/-! ### Slots and admission (R178 to R181) -/

/-- Slots of peers. -/
def peerSlots : Nat := 4096

/-- A slot. -/
def slotGet (s : State) (k : Nat) : PeerSlot := Smap.get (fun _ => PeerSlot.none) s.peers.slots k

/-- Stores a slot. -/
def slotSet (s : State) (k : Nat) (x : PeerSlot) : State :=
  { s with peers := { s.peers with slots := Smap.set (fun _ => PeerSlot.none) s.peers.slots k x } }

/-- The slot that a peer holds. -/
def peerSlot (s : State) (id : Nat) : Option Nat :=
  (s.peers.slots.find? (fun p => p.2.st != .empty && getLe p.2.frame 4 4 == id)).map (·.1)

/-- The lowest empty slot. -/
def emptySlot (s : State) : Option Nat := (List.range peerSlots).find? (fun k => (slotGet s k).st == .empty)

/-- The robot base position latched at the last boundary (R98). -/
def basePosNow (s : State) : List Int :=
  match s.model.cur with
  | some m => basePos m s.model.latched
  | none => [0, 0, 0]

/-- Squared horizontal distance of a frame's anchor from the base. -/
def anchorDist (s : State) (f : Bytes) : Int :=
  let d := vsub (siteToWorld s (intentOf f).anchor) (basePosNow s)
  vi d 0 * vi d 0 + vi d 1 * vi d 1

/-- The victim of R181: the farthest anchor, the higher PEER_ID on a tie. -/
def victim (s : State) : Option (Nat × PeerSlot) :=
  s.peers.slots.foldl (fun best p =>
    if p.2.st = .empty then best
    else match best with
      | none => some p
      | some b =>
        let d := anchorDist s p.2.frame
        let e := anchorDist s b.2.frame
        if e < d ∨ (d = e ∧ getLe b.2.frame 4 4 < getLe p.2.frame 4 4) then some p else some b) none

/-- A rejection is counted under its reason (R179). -/
def peerReject (s : State) (reason : Nat) : State :=
  { s with peers := { s.peers with rejected := s.peers.rejected + 1,
                                   rejReasons := cntUp s.peers.rejReasons reason } }

/-- A frame takes a slot: LIVE with `gaps` counted. -/
def peerAdmit (s : State) (k gaps : Nat) (b : Bytes) : State :=
  slotSet { s with peers := { s.peers with admitted := s.peers.admitted + 1 } } k
    { st := .live, frame := b, gaps := gaps, age := (slotGet s k).age }

/-- A frame of a peer without a slot (R180, R181, test 10). -/
def admitNew (s : State) (b : Bytes) : State :=
  match emptySlot s with
  | some k => peerAdmit s k 0 b
  | none =>
    match victim s with
    | some v =>
      if anchorDist s b < anchorDist s v.2.frame then
        peerAdmit (raise s 0x0604 0xFFFF (getLe v.2.frame 4 4) (getLe b 4 4)) v.1 0 b
      else peerReject s 9
    | none => peerReject s 9

/-- One ring entry against the tests of R179. -/
def admitOne (s : State) (e : RingEnt) : State :=
  let b := e.frame
  if !frameOk b then peerReject s 1
  else
    let f := intentOf b
    let lim : Int := 16000 * 65536
    if f.peer = 0 ∨ f.peer = 0xFFFFFFFF ∨ f.peer = regF s Reg.ethOwnId then peerReject s 2
    else if !s.phu.tc.gptpValid then peerReject s 3
    else if e.ns + field (regF s Reg.ethPeerTol) 16 16 * 1000 < f.ti then peerReject s 4
    else if (siteToWorld s f.anchor).any (fun x => decide (x < -lim) || decide (lim < x)) then peerReject s 5
    else match peerSlot s f.peer with
      | none => if f.kind = 1 then s else admitNew s b
      | some k =>
        let x := slotGet s k
        let old := intentOf x.frame
        let d := (f.seq + 2 ^ 32 - old.seq) % 2 ^ 32
        if 2 ^ 31 ≤ d then peerReject s 6
        else if d = 0 then
          if x.frame = b then { s with peers := { s.peers with dups := satInc 32 s.peers.dups } }
          else
            let s := slotSet (peerReject s 7) k { x with st := .standing }
            raise s 0x0602 0xFFFF f.peer f.seq
        else if f.ti ≤ old.ti then peerReject s 8
        else if f.kind = 1 then
          raise (slotSet { s with peers := { s.peers with admitted := s.peers.admitted + 1 } } k .none) 0x0608 0xFFFF f.peer 1
        else peerAdmit s k (satAdd32 x.gaps (d - 1)) b
where
  /-- A 32-bit sum that saturates. -/
  satAdd32 (a b : Nat) : Nat := sat 32 (a + b)

/-- Order of the ring entries: receive stamp, then port (R178). -/
def ringLe (a b : RingEnt) : Bool := decide (a.ns < b.ns) || (a.ns == b.ns && decide (a.port ≤ b.port))

/-- ADMIT_LATE in force; DET_STRICT forces it to 0 (R178, R404). -/
def admitLate (s : State) : Bool := bit (regF s Reg.ethCtrl) 5 && !detStrict s

/-- The input record of a Krytan entry (R401). -/
def ringRec (s : State) (e : RingEnt) : InRec :=
  let t := timeToPhase s e.ns
  { typ := 2, source := e.port, cycle := t.1.toNat, phase := t.2, content := e.frame, what := .entry e }

/-- The choice record of the late entries admitted, by receive stamp and port (R405); none where no entry was late. -/
def lateRec (s : State) (l : List RingEnt) : List InRec :=
  if l.isEmpty then []
  else [{ typ := 9, source := 0, cycle := s.phu.cycle, phase := phase s, content := l.flatMap (fun e => leBytes 8 e.ns ++ [e.port]) }]

/-- gPTP time of the intent cut-off of this cycle (R182). -/
def intentCutNs (s : State) : Nat :=
  s.peers.tb + field (regF s Reg.ethCutoff) 0 16 * s.phu.pAvg / (9 * 65536)

/-- INTENT_ADMIT: once per cycle, at the intent cut-off (R178, R179). Log entry 53 (DESIGN CHOICE, unsafe). -/
def intentAdmit (s : State) : State :=
  if s.peers.admitDone ∨ !phaseRuns s then s
  else
    let s := reachPhase s (field (regF s Reg.ethCutoff) 0 16)
    let cut := intentCutNs s
    let late := admitLate s
    let take := fun (e : RingEnt) => late || decide (e.ns < cut) || !s.phu.tc.gptpValid
    let l := sortBy ringLe (s.peers.ring.filter take)
    let recs := l.map (ringRec s) ++ lateRec s (l.filter (fun e => s.phu.tc.gptpValid && decide (cut ≤ e.ns)))
    let s := { s with det := { s.det with recs := s.det.recs ++ recs } }
    let s := { s with peers := { s.peers with ring := s.peers.ring.filter (fun e => !take e), admitDone := true, lateNext := late,
                                              compiling := some (s.phu.cycle + 1, s.peers.tb + declNs s),
                                              rejReasons := [] } }
    let s := l.foldl admitOne s
    s.peers.rejReasons.foldl (fun s p => raise s 0x0601 0xFFFF p.1 p.2) s

/-! ### Compilation (R182 to R186) -/

/-- The growth g (R184): ceil(v × Δ × 65,536 / 10^12), 0 for Δ ≤ 0. -/
def growth (v : Nat) (d : Int) : Nat := ceilDiv (v * d.toNat * 65536) (10 ^ 12)

/-- A compiled capsule of a frame (R184). -/
def compileCap (s : State) (f : Intent) (c : FCap) (g : Nat) : WCap :=
  { a := siteToWorld s (vadd f.anchor c.p0), b := siteToWorld s (vadd f.anchor c.p1),
    r := ((ceilDiv (c.r * 65536) 1000 + 16 + g : Nat) : Int) }

/-- ε, AGE_LIMIT and DROP_AFTER in ns. -/
def slackNs (s : State) : Nat := field (regF s Reg.ethPeerTol) 0 16 * 1000
/-- AGE_LIMIT in ns. -/
def ageNs (s : State) : Nat := field (regF s Reg.ethPeerTime) 16 16 * 1000000
/-- DROP_AFTER in ns. -/
def dropNs (s : State) : Nat := field (regF s Reg.ethPeerTime) 0 16 * 1000000

/-- Whether the closed interval of slice i meets [lo, hi]. -/
def sliceMeets (f : Intent) (i : Nat) (lo hi : Int) : Bool :=
  let t0 : Int := ((f.ti + i * f.sl * 1000000 : Nat) : Int)
  decide (lo ≤ hi) && decide (t0 ≤ hi) && decide (lo ≤ t0 + ((f.sl * 1000000 : Nat) : Int))

/-- Capsules of a LIVE slot at a waypoint time (R183). -/
def liveCaps (s : State) (f : Intent) (tw : Int) : List WCap :=
  let e : Int := ((slackNs s : Nat) : Int)
  let ti : Int := ((f.ti : Nat) : Int)
  let tv : Int := ((f.tv : Nat) : Int)
  let n := f.slices.length
  let inTime := (List.range n).filter (fun i => sliceMeets f i (max (tw - e) ti) (min (tw + e) tv))
  let part1 := inTime.flatMap (fun i => (f.slices.getD i []).map (fun c => compileCap s f c 0))
  let part2 := if tv < tw + e then
      match (List.range n).find? (fun i => sliceMeets f i tv tv) with
      | some i => (f.slices.getD i []).map (fun c =>
          compileCap s f c (growth f.vmax (min (tw + e) (ti + ((ageNs s : Nat) : Int) + e) - tv)))
      | none => []
    else []
  let part3 := if tw - e < ti then
      (f.slices.getD 0 []).map (fun c => compileCap s f c (growth f.vmax (ti - (tw - e))))
    else []
  part1 ++ part2 ++ part3

/-- ceil(R_h × 65.536) over every capsule endpoint (R183). -/
def reachH (f : Intent) : Nat :=
  maxN (f.slices.flatMap (fun l => l.flatMap (fun c => [c.p0, c.p1].map (fun p =>
    ceilDiv (65536 * c.r + isqrtUp (65536 * 65536 * (vi p 0 * vi p 0 + vi p 1 * vi p 1).toNat)) 1000))))

/-- The cylinder of a STANDING slot (R183). -/
def standCap (s : State) (f : Intent) : WCap :=
  let z := regF s Reg.ethCylZ
  let at' := fun (h : Int) => siteToWorld s [vi f.anchor 0, vi f.anchor 1, h]
  let d : Int := ((ageNs s + slackNs s : Nat) : Int) - ((f.tv - f.ti : Nat) : Int)
  { a := at' (toSigned 16 (field z 0 16)), b := at' (toSigned 16 (field z 16 16)),
    r := ((reachH f + growth f.vmax d + 16 : Nat) : Int) }

/-- The cells of 1 m that a grown horizontal range overlaps on one axis: first and last. -/
def cellSpan (a b r : Int) : Int × Int := ((min a b - r) / 65536, (max a b + r) / 65536)

/-- Cells of a capsule's grown box on x and y. -/
def WCap.span (c : WCap) : (Int × Int) × (Int × Int) :=
  (cellSpan (vi c.a 0) (vi c.b 0) c.r, cellSpan (vi c.a 1) (vi c.b 1) c.r)

/-- How many cells a span holds. -/
def spanCells (x : (Int × Int) × (Int × Int)) : Nat := ((x.1.2 - x.1.1 + 1) * (x.2.2 - x.2.1 + 1)).toNat

/-- Whether a capsule enters the wide list (R185). -/
def WCap.wide (c : WCap) : Bool := decide (16 < spanCells c.span)

/-- Whether a capsule's grown horizontal box misses the coarse box (R185). -/
def culled (l : Level) (c : WCap) : Bool :=
  let lo := fun (o : Int) => o * (240 * 65536)
  let out := fun (i : Nat) (o : Int) (n : Nat) =>
    decide ((max (vi c.a i) (vi c.b i) + c.r) * 1000 < lo o) || decide (lo (o + n) < (min (vi c.a i) (vi c.b i) - c.r) * 1000)
  out 0 l.ox l.nx || out 1 l.oy l.ny

/-- A slot's state at a compile (R180), with its event, and its age in ms. -/
def slotAge (s : State) (k tb : Nat) : State :=
  let x := slotGet s k
  let f := intentOf x.frame
  let a := tb - f.ti
  let ms := a / 1000000
  if x.st = .empty then s
  else if dropNs s < a then raise (slotSet s k .none) 0x0608 0xFFFF f.peer 2
  else if x.st = .live ∧ ageNs s < a then
    raise (slotSet s k { x with st := .standing, age := ms }) 0x0603 0xFFFF f.peer ms
  else slotSet s k { x with age := ms }

/-- Capsules of one slot at waypoint time `tw`. -/
def slotCaps (s : State) (x : PeerSlot) (tw : Int) : List WCap :=
  match x.st with
  | .empty => []
  | .live => liveCaps s (intentOf x.frame) tw
  | .standing => [standCap s (intentOf x.frame)]

/-- Bytes of a set (R186): bucket heads, capsules, references. -/
def setBytes (l : List (List WCap)) : Nat :=
  524288 + sumN (l.map (fun w => sumN (w.map (fun c => 32 + 4 * (if c.wide then 1 else spanCells c.span)))))

/-- The set of a compile that ran out of room (R186). -/
def fullSet : List (List WCap) := List.replicate 32 [⟨[0, 0, 0], [0, 0, 0], 0x7FFFFFFF⟩]

/-- The capsules of each waypoint for a cycle whose boundary is predicted at `tb`, before culling (R182, R183). -/
def rawSet (s : State) (tb : Nat) : List (List WCap) :=
  let t0 : Int := ((tb + declNs s : Nat) : Int)
  (List.range 32).map (fun k => s.peers.slots.flatMap (fun p => slotCaps s p.2 (t0 + ((k * dtUs s * 1000 : Nat) : Int))))

/-- Bytes that a capsule adds to a set. -/
def WCap.bytes (c : WCap) : Nat := 32 + 4 * (if c.wide then 1 else spanCells c.span)

/-- How many capsules of a list fit into a room of bytes, in order. Log entry 53 (DESIGN CHOICE, unsafe). -/
def capsFit : Nat → List WCap → Nat
  | _, [] => 0
  | room, c :: t => if c.bytes ≤ room then 1 + capsFit (room - c.bytes) t else 0

/-- Bytes of a set buffer. -/
def setRoom (s : State) : Nat := field (regF s Reg.ethSetSize) 0 16 * 1024

/-- The sets that a task can still read: those of a cycle with an open task or evaluation, or a release that waits (R186). -/
def setsKept (s : State) : List (Nat × List (List WCap)) :=
  s.peers.sets.filter (fun x => decide (s.phu.cycle ≤ x.1) || (openTasks s).any (fun t => t.2.cycle == x.1) ||
    s.pod.evals.any (fun e => e.task.cycle == x.1) || s.sched.rels.any (fun r => r.cycle == x.1))

/-- The set of a cycle from its capsules and the coarse box that they are culled by, in place of one formed before; without room every
waypoint holds one capsule that reaches everywhere, with event 0x0606 (R185, R186). Log entry 53 (DESIGN CHOICE, unsafe). -/
def setPut (s : State) (c : Nat) (raw : List (List WCap)) (box : Level) : State :=
  let l := raw.map (fun w => w.filter (fun c => !culled box c))
  let full := decide (setRoom s < setBytes l)
  let was := (s.peers.sets.find? (fun x => x.1 == c)).any (fun x => x.2 == fullSet)
  let s := { s with peers := { s.peers with sets := (setsKept s).filter (fun x => x.1 != c) ++ [(c, if full then fullSet else l)]
                                            setUse := if full then setRoom s else setBytes l } }
  if full ∧ !was then raise s 0x0606 0xFFFF (capsFit (setRoom s - 524288) l.flatten) 0 else s

/-- The registers of the site transform. -/
def siteRegs (s : State) : List Nat := (List.range 4).map (fun i => regF s (Reg.ethSiteX + 4 * i))

/-- The compile of a cycle (R182 to R186), culled by the coarse box of the version that the cycle is to read: the one under construction
ahead of the cycle's boundary, the current one after it. Log entry 53 (DESIGN CHOICE, unsafe). -/
def compileSet (s : State) (c tb : Nat) : State :=
  let s := (s.peers.slots.map (·.1)).foldl (fun s k => slotAge s k tb) s
  let raw := rawSet s tb
  let s := { s with peers := { s.peers with compiling := none, compiled := some ⟨c, tb, siteRegs s, raw⟩ } }
  setPut s c raw (if s.phu.cycle < c then s.world.coarse else s.world.cur.coarse)

/-- INTENT_COMPILE_DONE: the set is complete, be it after its cycle's boundary, and every INTENT_COMPILE task under way completes, which
decrements the counter that the plan image names (R182, R304). -/
def intentCompileDone (s : State) : State :=
  match s.peers.compiling with
  | none => s
  | some (c, tb) =>
    let s := compileSet s c tb
    (classUnits 6 0 ++ classUnits 6 1).foldl (fun s u =>
      match running s u with
      | some t => if t.desc.opId = 0x0504 then finishTask s u 0 0 [] else s
      | none => s) s

/-- The set of the cycle that a boundary opens, once the world version that it reads is known: culled by that version's coarse box (R185), and
compiled again where the site transform has changed (R194). -/
def setBoundary (s : State) : State :=
  match s.peers.compiled with
  | none => s
  | some k =>
    if k.cycle ≠ s.phu.cycle then s
    else
      let raw := if k.site = siteRegs s then k.raw else rawSet s k.tb
      setPut { s with peers := { s.peers with compiled := some { k with site := siteRegs s, raw := raw } } } k.cycle raw s.world.cur.coarse

/-- The set that tasks of a cycle read; none compiled, no capsule. -/
def setOf (s : State) (cycle : Nat) : List (List WCap) :=
  ((s.peers.sets.find? (fun x => x.1 == cycle)).map (·.2)).getD []

/-- The peers at a boundary: t_b (R182), counts and flags of the cycle, and event 0x0605 with the frames that the ring dropped (R191). -/
def peerBoundary (s : State) : State :=
  let s := if s.peers.dropCyc = 0 then s else raise s 0x0605 0xFFFF s.peers.dropCyc 0
  let p := s.peers
  let tb := if s.phu.tc.gptpValid then s.phu.tc.gptpS * 1000000000 + s.phu.tc.gptpNs else p.tb + declNs s
  { s with peers := { p with tb := tb, admitDone := false, lateCyc := p.lateNext, lateNext := false, dropCyc := 0,
                             admitLast := p.admitted, rejectLast := p.rejected, admitted := 0, rejected := 0, setLast := p.setUse } }

/-! ### The device's own frames (R188 to R190) -/

/-- Squared distance of a point from a segment as a fraction. -/
def segDist2 (p a b : List Int) : Nat × Nat :=
  let e := vsub b a
  let w := vsub p a
  let num := dot w e
  let den := dot e e
  if num ≤ 0 ∨ den = 0 then ((dot w w).toNat, 1)
  else if den ≤ num then ((dot (vsub p b) (vsub p b)).toNat, 1)
  else ((den * dot w w - num * num).toNat, den.toNat)

/-- Bound spheres of a mask, ascending. -/
def maskBounds (m : Model) (mask : Nat) : List Nat := (List.range m.bounds.length).filter (fun b => bit mask b)

/-- A capsule of slice `sl` of a group (R189): site endpoints relative to the anchor, and radius in mm; none when out of
range. -/
def groupCap (s : State) (m : Model) (g : Seg) (anchor : List Int) (bs : List Nat) (sMs sl : Nat) :
    Option (List Int × List Int × Nat) :=
  let ks := (List.range 32).filter (fun k =>
    decide (sl * sMs * 1000 ≤ k * g.dtUs + g.dtUs) && decide (k * g.dtUs ≤ (sl + 1) * sMs * 1000 + g.dtUs))
  let bd := fun b => m.bounds.getD b ⟨0, 0, 0, [0, 0, 0], 0⟩
  let ctr := fun (b k : Nat) => place ((compose m (g.wp.getD k [])).getD (bd b).link Pose.id) (bd b).c
  let a := ctr (bs.headD 0) (ks.headD 0)
  let b := ctr (bs.getLastD 0) (ks.getLastD 0)
  let r := maxN (bs.flatMap (fun x => ks.map (fun k =>
    let d := segDist2 (ctr x k) a b
    ceilDiv (1000 * ((bd x).r.toNat + sweepHalf m x g.wp k) + isqrtUp (ceilDiv (10 ^ 6 * d.1) d.2)) 65536))) + 2
  let pa := worldToSite s a anchor
  let pb := worldToSite s b anchor
  let bad := (pa ++ pb).any (fun x => decide (x < -32767) || decide (32767 < x)) || decide (65535 < r)
  if bad then none else some (pa, pb, r)

/-- A frame with its CRC. -/
def sealFrame (b : Bytes) : Bytes := putAt b 60 (leBytes 4 (frameCrc b))

/-- The header of a frame (R174). -/
def frameHead (s : State) (kind ti v sl vmax n : Nat) (anchor : List Int) (caps len : Nat) : Bytes :=
  leBytes 2 0x4B52 ++ [1, kind] ++ leBytes 4 (regF s Reg.ethOwnId) ++ leBytes 4 s.peers.pubSeq ++ leBytes 8 ti ++ leBytes 2 v ++
    leBytes 2 sl ++ leBytes 2 vmax ++ [n, 0] ++ anchor.flatMap (fun x => leBytes 4 (ofSigned 32 x)) ++ leBytes 8 caps ++
    leBytes 2 len ++ zeros 10 ++ zeros 4

/-- A frame goes out on the ports that TX_PORTS selects; SEQ rises, and its counter in eMRAM is rewritten every 65,536
frames (R188, R190). -/
def sendFrame (s : State) (b : Bytes) : State :=
  let c := regF s Reg.ethCtrl
  let ports := [0, 1].filter (fun p => bit c (6 + p) && ethOn s p)
  let s := { s with peers := { s.peers with sent := [] } }
  let s := ports.foldl (fun s p => sendOn s p (field (regF s Reg.ethPub) 8 3) b) s
  let p := s.peers
  let n := p.pubFrames + 1
  let s := if n = 65536 then recordWrite s else s
  { s with peers := { p with pubLast := p.pubSeq, pubSeq := (p.pubSeq + 1) % 2 ^ 32,
                             pubFrames := n % 65536, pubStore := if n = 65536 then p.pubSeq else p.pubStore } }

/-- PUB_DIV; 0 acts as 1. -/
def pubDiv (s : State) : Nat := max 1 (field (regF s Reg.ethPub) 0 8)

/-- gPTP time of T0 of a segment: the boundary of the cycle after its generation (R114, R188). -/
def segT0Ns (s : State) (g : Seg) : Nat := s.peers.tb + declNs s - g.age * declNs s

/-- The intent frame of the executing segment (R188, R189): withheld with event 0x0607 when out of range. -/
def publishIntent (s : State) : State :=
  match s.safety.exe with
  | none => s
  | some g =>
    match modelOf s g.modelGen with
    | none => s
    | some m =>
      if regF s Reg.ethOwnId = 0 ∨ s.phu.cycle % pubDiv s ≠ 0 ∨ cycleLoss s ∨ m.joints.length ≠ g.nj ∨ s.det.replay then s
      else
        let anchor := worldToSite s (basePos m (g.wp.getD 0 [])) [0, 0, 0]
        let sMs := 2 * g.dtUs / 1000
        let groups := ((List.range 6).map (fun i => maskBounds m (objN s 0x2603 (5 + i)))).filter (fun l => !l.isEmpty)
        let caps := (List.range 16).flatMap (fun sl => groups.map (fun bs => groupCap s m g anchor bs sMs sl))
        if groups.isEmpty then s
        else if caps.any Option.isNone then raise s 0x0607 0xFFFF s.phu.cycle 0
        else
          let n := groups.length
          let nc := (List.range 16).foldl (fun acc i => acc + n * 2 ^ (4 * i)) 0
          let i16 := fun (x : Int) => leBytes 2 (ofSigned 16 x)
          let body := caps.flatMap (fun c => match c with
            | some (a, b, r) => a.flatMap i16 ++ b.flatMap i16 ++ leBytes 2 r
            | none => [])
          let h := frameHead s 0 (segT0Ns s g) ((g.pin - 1) * g.dtUs / 1000) sMs (sat 16 m.vDecl) 16 anchor nc (64 + 14 * 16 * n)
          sendFrame s (sealFrame (h ++ body))

/-- DEPARTURE_COMMAND: a frame of KIND 1 (R177, R190); the fields that R177 does not state are open.
Log entry 53 (DESIGN CHOICE, unsafe). -/
def departure (s : State) : State :=
  if regF s Reg.ethOwnId = 0 then s
  else
    let (l, s) := takeFreeBytes s 26
    let h := frameHead s 1 (ofLe (l.take 8)) (ofLe (slice l 8 2)) (ofLe (slice l 10 2)) (ofLe (slice l 12 2)) 0
      [toSigned 32 (ofLe (slice l 14 4)), toSigned 32 (ofLe (slice l 18 4)), toSigned 32 (ofLe (slice l 22 4))] 0 64
    sendFrame s (sealFrame h)

/-! ### Registers (R192, R193) -/

/-- The Ethernet registers that the state computes, by offset. -/
def ethRead (s : State) (o : Nat) : Option Nat :=
  let n := fun (st : SlotSt) => (s.peers.slots.filter (fun p => p.2.st == st)).length
  match o with
  | 0x044 => some (n .standing * 2 ^ 16 + (n .standing + n .live))
  | 0x048 => some (sat 16 s.peers.rejectLast * 2 ^ 16 + sat 16 s.peers.admitLast)
  | 0x04C => some s.peers.setLast
  | 0x100 => some (port 0)
  | 0x140 => some (port 1)
  | _ => none
where
  /-- ETH_PORT_STAT_p. -/
  port (p : Nat) : Nat :=
    let l := if p = 0 then s.pins.pcs0 else s.pins.pcs1
    let g := if p = 0 then s.pins.gptp0 else s.pins.gptp1
    b2n g * 8 + b2n (!(ethPort s p).sas.isEmpty && bit (macsecReg s p) 0) * 4 + b2n l * 2 + b2n l

/-! ### Meanings -/

/-- ETH_FRAME_RX (R171 to R173, R178). -/
def execEthFrameRx (p : Fin 2) (sec : Option SecTag) (ns : BitVec 64) (d : EthData) (s : State) :
    Host.Outcome State Fault Refusal := .next (runIo s (fun s => ethFrameRx s p.val sec ns.toNat d))
/-- INTENT_ADMIT (R178, R179). -/
def execIntentAdmit (s : State) : Host.Outcome State Fault Refusal := .next (runArith s intentAdmit)
/-- INTENT_COMPILE_DONE (R182 to R186). -/
def execIntentCompileDone (s : State) : Host.Outcome State Fault Refusal := .next (runArith s intentCompileDone)
/-- DEPARTURE_COMMAND (R190). -/
def execDepartureCommand (s : State) : Host.Outcome State Fault Refusal := .next (runIo s departure)
/-- SAK_INSTALL (R172, R192). -/
def execSakInstall (p : Fin 2) (w : BitVec 32) (s : State) : Host.Outcome State Fault Refusal :=
  .next (runIo s (fun s => sakInstall s p.val w.toNat))

end Sys2Proof.Machine
end

