-- ==== Sys2Proof/Machine/Collision.lean ====
section
/-!
DEFINITION. Collision checking (R133 to R151): placement, field probes, self-collision and capsule tests, the verdict at a waypoint, the
stopping branch (R348), costs, and the 32-byte result record.
-/
namespace Sys2Proof.Machine

/-! ### What an evaluation reads -/

/-- The inputs of an evaluation: model, world version and whether the world is stale, margins and soft distance in LSB, weights,
OUTSIDE_UNK, the capsules of each waypoint, the branch waypoint B, and whether the seeds and the survivors are NONDET (R405). -/
structure EvCtx where
  m : Model
  v : WVer
  stale : Bool
  mp : Int
  ms : Int
  ds : Int
  wClear : Nat
  wPeer : Nat
  wSmooth : List Nat
  outUnk : Bool
  caps : List (List WCap)
  b : Nat
  nd2 : Bool
  nd3 : Bool

/-- A length in mm as Q15.16 m, rounded up (R137, R147). -/
def mmUp (mm : Nat) : Int := ((ceilDiv (mm * 65536) 1000 : Nat) : Int)

/-- The inputs of a task's evaluation: the version current at its release (R75), the model of its generation (R105), and the intent set of
its cycle (R186). -/
def evCtx (s : State) (m : Model) (t : Task) : EvCtx :=
  let mg := regF s Reg.podMargin
  { m := m, v := verOf s t.ver, stale := verStale s (verOf s t.ver), mp := mmUp (field mg 16 16), ms := mmUp (field mg 0 16),
    ds := mmUp (field (regF s Reg.podSoft) 0 16), wClear := objN s 0x2500 4, wPeer := objN s 0x2500 5,
    wSmooth := (List.range 32).map (fun j => objN s 0x2501 (j + 1)), outUnk := bit (regF s Reg.podCtrl) 1,
    caps := setOf s t.cycle, b := s.safety.par.b, nd2 := s.cand.seedNd, nd3 := s.cand.survNd }

/-! ### Probes -/

/-- A field probe's outcome (R138, R139): clearance, none when OUTSIDE; UNK; whether the coarse level was read; issue clk (R152). -/
structure Probe where
  clear : Option Int
  unk : Bool
  coarse : Bool
  clk : Nat
  deriving DecidableEq, Repr

/-- The distance that a read value stands for (R139). -/
def readDist (k : Lvl) (v : Nat) : Int :=
  match k with
  | .fine => ((v * 8192 / 100 : Nat) : Int)
  | .coarse => ((v * 32768 / 100 : Nat) : Int)

/-- The coarse read of a probe: `f` is the clearance of a fine read made before it, `u` that read's UNK (R138). -/
def coarseProbe (x : EvCtx) (p : List Int) (r : Int) (f : Option Int) (u : Bool) (clk : Nat) : Probe :=
  match readField x.v x.stale .coarse p with
  | none => { clear := none, unk := u, coarse := true, clk := clk }
  | some c =>
    let d := readDist .coarse c.val - r
    { clear := some (match f with | some y => max y d | none => d), unk := u || c.unk, coarse := true, clk := clk }

/-- A field probe of a sphere (R138). -/
def fieldProbe (x : EvCtx) (p : List Int) (r : Int) : Probe :=
  if 19742 < r + x.mp then coarseProbe x p r none false 1
  else match readField x.v x.stale .fine p with
    | none => coarseProbe x p r none false 2
    | some f =>
      let c := readDist .fine f.val - r
      if x.mp ≤ c ∨ !f.sat then { clear := some c, unk := f.unk, coarse := false, clk := 1 }
      else coarseProbe x p r (some c) f.unk 2

/-- Whether a field probe passes (R139). -/
def Probe.passes (x : EvCtx) (p : Probe) : Bool :=
  match p.clear with
  | some c => decide (x.mp ≤ c)
  | none => false

/-- The clearance of two spheres (R140). -/
def selfClear (a b : List Int × Int) : Int :=
  let d := vsub a.1 b.1
  ((isqrtI (dot d d) : Nat) : Int) - (a.2 + b.2)

/-- The clearance of a sphere and a capsule (R141). -/
def capClear (p : List Int) (r : Int) (c : WCap) : Int :=
  let e := vsub c.b c.a
  let num := dot (vsub p c.a) e
  let den := dot e e
  let t := if num ≤ 0 ∨ den = 0 then 0 else min 65536 (num * 65536 / den)
  let d := vsub (vscale 65536 p) (vadd (vscale 65536 c.a) (vscale t e))
  let dist : Int := ((isqrtI (dot d d) / 65536 : Nat) : Int)
  let slack : Int := (((vi e 0).natAbs + (vi e 1).natAbs + (vi e 2).natAbs + 65535) / 65536 : Nat)
  dist - (r + c.r + slack)

/-- Whether two spans of cells share a cell number modulo 64. -/
def modMeet (a b : Int × Int) : Bool :=
  let lo := a.1 - b.2
  let hi := a.2 - b.1
  decide (lo ≤ hi / 64 * 64)

/-- Whether the hash gives a capsule to a sphere: the wide list, or a shared bucket (R185). -/
def capNear (x : EvCtx) (p : List Int) (r : Int) (c : WCap) : Bool :=
  let g := r + x.mp
  c.wide || (modMeet (cellSpan (vi p 0) (vi p 0) g) c.span.1 && modMeet (cellSpan (vi p 1) (vi p 1) g) c.span.2)

/-! ### One place -/

/-- Half of the larger neighbouring inflation of bound `b` at place `i` of a sequence, rounded up (R100). -/
def seqHalf (m : Model) (b : Nat) (seq : List (List Int)) (i : Nat) : Int :=
  let d := fun k => sweep m b (seq.getD k []) (seq.getD (k + 1) [])
  let l := if i = 0 then 0 else d (i - 1)
  let r := if i + 1 < seq.length then d i else 0
  (((max l r + 1) / 2 : Nat) : Int)

/-- A model's bound sphere, by number. -/
def Model.bound (m : Model) (b : Nat) : Bound := m.bounds.getD b ⟨0, 0, 0, [0, 0, 0], 0⟩

/-- The spheres of a place with their effective radii (R136): bound spheres, then body spheres under the same inflation. -/
structure Placed where
  bnd : List (List Int × Int)
  body : List (List Int × Int)

/-- Places every sphere of place `i` of a sequence. -/
def placeAll (m : Model) (seq : List (List Int)) (i : Nat) : Placed :=
  let poses := compose m (seq.getD i [])
  let half := (List.range m.bounds.length).map (fun b => seqHalf m b seq i)
  let pose := fun (l : Nat) => poses.getD l Pose.id
  { bnd := (m.bounds.zip half).map (fun x => (place (pose x.1.link) x.1.c, x.1.r + x.2 + 1))
    body := (m.spheres.zip (List.range m.spheres.length)).map (fun x =>
      let b := boundOf m.bounds x.2
      (place (pose (m.bound b).link) x.1.c, x.1.r + half.getD b 0 + 1)) }

/-- A placed sphere by its number of R150: body sphere, or 0x100 + bound sphere. -/
def Placed.sphere (p : Placed) (n : Nat) : List Int × Int :=
  if n < 256 then p.body.getD n ([0, 0, 0], 0) else p.bnd.getD (n - 256) ([0, 0, 0], 0)

/-- Body spheres of a bound sphere. -/
def bodiesOf (m : Model) (b : Nat) : List Nat := (List.range (m.bound b).n).map (fun k => (m.bound b).first + k)

/-- Body pairs under a bound pair (R134). -/
def bodyPairs (m : Model) (b : Nat × Nat) : List (Nat × Nat) :=
  m.pairs.filter (fun p =>
    let x := boundOf m.bounds p.1
    let y := boundOf m.bounds p.2
    (x == b.1 && y == b.2) || (x == b.2 && y == b.1))

/-- The cause bits of a failing field probe (R144, R145, R151). -/
def fieldCause (x : EvCtx) (p : Probe) : Nat :=
  1 + 8 * b2n p.unk + 16 * b2n p.clear.isNone + 64 * b2n x.stale

/-- The outcome of a field probe of a sphere at a waypoint; `body` says that a failure counts (R134, R143, R144). -/
def fieldOut (x : EvCtx) (wp n : Nat) (p : Probe) (body : Bool) : ProbeOut :=
  let f := body && !p.passes x
  { wp := wp, sphere := n, clear := p.clear, field := true, fails := f,
    soft := (if p.clear.isNone then x.outUnk else p.unk), cause := if f then fieldCause x p else 0, clk := p.clk }

/-- The outcome of a capsule test (R141, R187). -/
def capOut (x : EvCtx) (wp n : Nat) (c : Int) (body : Bool) : ProbeOut :=
  let f := body && decide (c < x.mp)
  { wp := wp, sphere := n, clear := some c, field := false, fails := f, soft := false, cause := if f then 4 else 0, clk := 1 }

/-- The outcome of a group of self-collision tests, with no clearance of its own (R140). -/
def selfOut (wp : Nat) (fails : Bool) (clk : Nat) : ProbeOut :=
  { wp := wp, sphere := 0xFFFF, clear := none, field := false, fails := fails, soft := false, cause := if fails then 2 else 0, clk := clk }

/-- What places show: the outcomes that decide, whether a deciding probe read the coarse level, the probe clk spent, and the tests made,
each with its place. -/
structure PlaceRes where
  outs : List ProbeOut
  coarse : Bool
  clk : Nat
  tests : List (Nat × Test)

/-- No test. -/
def PlaceRes.none : PlaceRes := { outs := [], coarse := false, clk := 0, tests := [] }

/-- The tests of one list and then those of another. -/
def PlaceRes.and (a b : PlaceRes) : PlaceRes :=
  { outs := a.outs ++ b.outs, coarse := a.coarse || b.coarse, clk := a.clk + b.clk, tests := a.tests ++ b.tests }

/-- The field tests of a place (R133, R134); `key` is the place in the list of tests. -/
def fieldTests (x : EvCtx) (pl : Placed) (wp key : Nat) : PlaceRes :=
  (List.range x.m.bounds.length).foldl (fun a b =>
    let sp := pl.sphere (256 + b)
    let p := fieldProbe x sp.1 sp.2
    let t := [(key, Test.field (256 + b))]
    if p.passes x then a.and { outs := [fieldOut x wp (256 + b) p false], coarse := p.coarse, clk := p.clk, tests := t }
    else
      let l := (bodiesOf x.m b).map (fun n => (n, fieldProbe x (pl.sphere n).1 (pl.sphere n).2))
      a.and { outs := l.map (fun y => fieldOut x wp y.1 y.2 true), coarse := l.any (fun y => y.2.coarse),
              clk := p.clk + sumN (l.map (fun y => y.2.clk)), tests := t ++ l.map (fun y => (key, .field y.1)) }) .none

/-- The capsule tests of a place (R133, R134, R185). -/
def capTests (x : EvCtx) (pl : Placed) (wp key : Nat) : PlaceRes :=
  let set := x.caps.getD wp []
  (List.range x.m.bounds.length).foldl (fun a b =>
    let sp := pl.sphere (256 + b)
    ((set.zip (List.range set.length)).filter (fun c => capNear x sp.1 sp.2 c.1)).foldl (fun a c =>
      let k := capClear sp.1 sp.2 c.1
      let t := [(key, Test.cap (256 + b) c.2)]
      if x.mp ≤ k then a.and { outs := [capOut x wp (256 + b) k false], coarse := false, clk := 1, tests := t }
      else
        let l := (bodiesOf x.m b).filter (fun n => capNear x (pl.sphere n).1 (pl.sphere n).2 c.1)
        a.and { outs := l.map (fun n => capOut x wp n (capClear (pl.sphere n).1 (pl.sphere n).2 c.1) true), coarse := false,
                clk := 1 + l.length, tests := t ++ l.map (fun n => (key, .cap n c.2)) }) a) .none

/-- The self-collision tests of a place, in groups of up to 4 (R134, R140). -/
def selfTests (x : EvCtx) (pl : Placed) (wp key : Nat) : PlaceRes :=
  let bad := fun (a b : Nat) => decide (selfClear (pl.sphere a) (pl.sphere b) < x.ms)
  let low := x.m.bpairs.filter (fun p => bad (256 + p.1) (256 + p.2))
  let body := low.flatMap (bodyPairs x.m)
  let clk := ceilDiv (x.m.bpairs.length + body.length) 4
  let f := body.any (fun p => bad p.1 p.2)
  { outs := if clk = 0 then [] else [selfOut wp f clk], coarse := false, clk := clk
    tests := x.m.bpairs.map (fun p => (key, .pair (256 + p.1) (256 + p.2))) ++ body.map (fun p => (key, .pair p.1 p.2)) }

/-- Every test of place `i` of a sequence, judged as waypoint `wp`, its tests noted at place `key`. -/
def judgePlace (x : EvCtx) (seq : List (List Int)) (i wp key : Nat) : PlaceRes :=
  let pl := placeAll x.m seq i
  ((fieldTests x pl wp key).and (capTests x pl wp key)).and (selfTests x pl wp key)

/-- The failing waypoint of a candidate or branch: verdict, waypoint, cause (R142, R143). -/
structure FailAt where
  verdict : Nat
  wp : Nat
  cause : Nat
  deriving DecidableEq, Repr

/-- The verdict at a waypoint with failures: UNKNOWN when every one is soft, else BLOCKED (R143). -/
def failOf (wp : Nat) (l : List ProbeOut) : Option FailAt :=
  let f := l.filter (·.fails)
  if f.isEmpty then none
  else some { verdict := if f.all (·.soft) then 2 else 1, wp := wp, cause := f.foldl (fun c o => c ||| o.cause) 0 }

/-- Judges the places of a list in order, up to the first that fails; `off` turns a place into its waypoint, `key` into the number under
which its tests are noted. -/
def judgeFrom (x : EvCtx) (seq : List (List Int)) (off key : Nat) : List Nat → PlaceRes → PlaceRes × Option FailAt
  | [], a => (a, none)
  | i :: t, a =>
    let r := judgePlace x seq i (off + i) (key + i)
    match failOf (off + i) r.outs with
    | some f => (a.and r, some f)
    | none => judgeFrom x seq off key t (a.and r)

/-! ### The stopping branch (R348) -/

/-- Division rounded towards zero. -/
def truncDiv (a : Int) (b : Nat) : Int := if a < 0 then -((-a) / (b : Int)) else a / (b : Int)

/-- One more branch point after `q`, with step factor `f` sevenths of `v0`. -/
def branchStep (v0 q : List Int) (f : Nat) : List Int := (q.zip v0).map (fun x => x.1 + truncDiv (x.2 * (f : Int)) 7)

/-- Branch points b0 to b7. -/
def stopBranch (wp : List (List Int)) (b : Nat) : List (List Int) :=
  let q := wp.getD b []
  let v0 := (q.zip (wp.getD (b - 1) [])).map (fun x => x.1 - x.2)
  ((List.range 7).foldl (fun (l : List (List Int)) k => l ++ [branchStep v0 (l.getLastD []) (6 - k)]) [q])

/-- The branch point at which the limit check along q(B − 2), q(B − 1), b0 to b7 fails. -/
def branchLimit (m : Model) (dtUs : Nat) (wp : List (List Int)) (b : Nat) : Option Nat :=
  let seq := [wp.getD (b - 2) [], wp.getD (b - 1) []] ++ stopBranch wp b
  ((List.range 10).find? (limitFails m dtUs seq)).map (fun k => k - 2)

/-- The check of a branch: limits, then b1 to b7 as waypoints. -/
def judgeBranch (x : EvCtx) (dtUs : Nat) (wp : List (List Int)) : PlaceRes × Option FailAt :=
  match branchLimit x.m dtUs wp x.b with
  | some k => (.none, some { verdict := 1, wp := x.b + k, cause := 32 })
  | none => judgeFrom x (stopBranch wp x.b) x.b 32 [1, 2, 3, 4, 5, 6, 7] .none

/-! ### Costs and record (R146 to R151) -/

/-- A sum of squared shortfalls. -/
def shortSum (ds : Int) (l : List Int) : Nat := sumN (l.map (fun c => (ds - c).toNat ^ 2))

/-- CLEAR_COST of the deciding outcomes (R147). -/
def clearCost (x : EvCtx) (outs : List ProbeOut) : Nat :=
  let f := shortSum x.ds ((outs.filter (·.field)).filterMap (·.clear))
  let c := shortSum x.ds ((outs.filter (fun o => !o.field)).filterMap (·.clear))
  fpAdd (fpMul x.wClear (fpOfInt (f : Int) (-32))) (fpMul x.wPeer (fpOfInt (c : Int) (-32)))

/-- SMOOTH_COST over waypoints 3 to `last` (R148, R149). -/
def smoothCost (x : EvCtx) (wp : List (List Int)) (last : Nat) : Nat :=
  (List.range x.m.joints.length).foldl (fun acc j =>
    let t := sumN (((List.range 32).filter (fun k => decide (3 ≤ k ∧ k ≤ last))).map (fun k => (diff3 wp j k).natAbs ^ 2))
    fpAdd acc (fpMul (fpOfInt (t : Int) 0) (x.wSmooth.getD j 0))) 0

/-- The least clearance of any deciding field probe, the first of equals (R150). -/
def minClear (outs : List ProbeOut) : Option (Int × Nat × Nat) :=
  (outs.filter (·.field)).foldl (fun best o =>
    match o.clear with
    | none => best
    | some c => match best with
      | some b => if c < b.1 then some (c, o.wp, o.sphere) else best
      | none => some (c, o.wp, o.sphere)) none

/-- What a candidate's evaluation gives: verdict, record, and the tests that it takes. -/
structure EvalRes where
  verdict : Nat
  bytes : Bytes
  tests : List (Nat × Test)

/-- The result record of a candidate (R150, R151): `branch` checks its stopping branch too (R146), `nondet` marks a first-feasible run
(R165). -/
def evalCand (x : EvCtx) (c : CandRec) (branch nondet : Bool) : EvalRes :=
  let (r, f) := match limitWp x.m c.dtUs c.wp with
    | some k => (PlaceRes.none, some { verdict := 1, wp := k, cause := 32 : FailAt })
    | none => judgeFrom x c.wp 0 0 (List.range 32) .none
  let (br, f2) := if branch ∧ f.isNone then judgeBranch x c.dtUs c.wp else (.none, f)
  let last := match f with | some y => y.wp | none => 31
  let (mc, mw, msp) := match minClear r.outs with
    | some y => (ofSigned 32 (sat32 y.1), y.2.1, y.2.2)
    | none => (0x7FFFFFFF, 0xFF, 0xFFFF)
  let v := match f2 with | some y => y.verdict | none => 0
  let fam := c.id / 2 ^ 28
  let nd := nondet || x.v.nondet || (fam == 2 && x.nd2) || (fam == 3 && x.nd3)
  let flags := b2n (bit c.flags 4) + 2 * b2n (bit c.flags 1) + 4 * b2n r.coarse + 8 * b2n nd
  { verdict := v
    bytes := leBytes 4 c.id ++ leBytes 4 c.cycleLo ++ leBytes 4 (clearCost x r.outs) ++ leBytes 4 (smoothCost x c.wp last) ++
      leBytes 4 mc ++ [v, (match f2 with | some y => y.wp | none => 0xFF), mw, (match f2 with | some y => y.cause | none => 0)] ++
      leBytes 2 flags ++ leBytes 2 (sat 16 (r.clk + br.clk)) ++ leBytes 2 msp ++ [c.gen, 0]
    tests := r.tests ++ br.tests }

end Sys2Proof.Machine
end

