-- ==== Sys2Proof/Machine/Diag.lean ====
section
/-!
DEFINITION. Units under command and test (R14, R28, R29, R387), strikes and retirements at the boundary (R381, R383), rotation (R388)
and golden batches (R389 to R392).
-/
namespace Sys2Proof.Machine

/-! ### Commands of UCTL -/

/-- UCTL_UNIT_SELECT: the selected unit changes and CMD_RESULT clears (R29). -/
def unitSelect (s : State) (u : Nat) : State := { regSet s Reg.uctlUnitSel u with cmdResult := 0 }

/-- A DISABLE from the cluster (R16, R17, R28): accepted, it can cost the verdict path (R364), and the Pods of its list ask again.
Log entry 19 (DEDUCED, unsafe). -/
def disableCmd (s : State) : State :=
  let u := regGet s Reg.uctlUnitSel
  let s := clusterCmd s 2
  if s.cmdResult ≠ 0 then s
  else
    let s := judgePath s u
    if idClass u ≤ 2 then wakePods s else s

/-- Whether a draining unit holds no work (R14): empty task slots; for a Pea, Leek or brick cache, the batch that it held in execution
as its drain began is done, and its Pod's queued batches are stolen, unless its Pod stays in service. -/
def drained (s : State) (u : Nat) : Bool :=
  let r := unitOf s u
  let p := podGet s (podOf u)
  r.exec.isNone && r.pref.isNone &&
    (!(idClass u ≤ 2) ||
      ((r.drain.isNone || r.drain != podHolds s u) &&
        (podInService s (podOf u) || (p.exec.isNone && p.list.isEmpty && p.left.isEmpty))))

/-- DRAIN_COMPLETE (R14). -/
def drainComplete (s : State) (u : Nat) : State :=
  if unitSt s u = .draining ∧ drained s u then unitEvent s u .drained else s

/-! ### TEST -/

/-- Records the end of a TEST in 0x4101 (R396). -/
def testNoted (s : State) (u res : Nat) : State :=
  unitUpd s u (fun r => { r with lastTest := s.phu.cycle, lastResult := res })

/-- A TEST fails (R14, R381): the unit leaves TEST and its retirement falls due; the Husk stays (R13). -/
def testFail (s : State) (u res : Nat) : State :=
  let s := unitEvent (testNoted s u res) u .fail
  if u = huskId then { s with diag := { s.diag with injection := 2, huskFail := true } }
  else peaShort (unitUpd s u (fun r => { r with retireFor := res })) u

/-- The end of a unit's TEST (R387): the first failing step ends it. A golden failure within TEST counts as reason 2. The Husk whose test
has failed stays in TEST until the next power-up (R13). -/
def testEnd (s : State) (u : Nat) (r : TestRes) : State :=
  if unitSt s u ≠ .test ∨ (u = huskId ∧ s.diag.huskFail) then s
  else match r with
    | .pass =>
      let s := localLost s u
      let s := if idClass u = 1 then bankLoad s u else s
      unitUpd (unitEvent (testNoted s u 1) u .pass) u (fun x => { x with goldBad := false })
    | .bist w => testFail (raise s 0x0E04 u u (1 * 65536 + w.toNat)) u 2
    | .march w => testFail (raise (localLost s u) 0x0E04 u u (2 * 65536 + w.toNat)) u 2
    | .inject c m => testFail (probFail (raise (localLost s u) 0x0E03 u u (c.toNat * 65536 + b2n m)) 0x0E03) u 3
    | .golden p =>
      testFail (raise { localLost s u with diag := { s.diag with goldFails := satInc 32 s.diag.goldFails } } 0x0E05 u u
        (s.phu.cycle % 16 * 2 ^ 24 + p.toNat)) u 2

/-! ### Strikes and retirements at the boundary (R381, R383) -/

/-- A Chard disabled under R359 whose drain has ended takes its strike. -/
def takeStrike (s : State) (u : Nat) : State :=
  let r := unitOf s u
  if r.strikeDue ∧ r.st ≠ .draining ∧ r.st ≠ .active then
    unitSet (recordWrite s) u { r with strikes := r.strikes + 1, strikeDue := false, actDue := true }
  else s

/-- The action on the strike count: ENABLE below STRIKE_MAX, else a retirement falls due. -/
def strikeAct (s : State) (u : Nat) : State :=
  let r := unitOf s u
  if !r.actDue then s
  else
    let s := unitSet s u { r with actDue := false }
    if r.strikes < objN s 0x4100 3 then (if r.retireFor = 0 then (firmwareCmd s u 1).2 else s)
    else unitUpd s u (fun r => { r with retireFor := if r.retireFor = 0 then 1 else r.retireFor })

/-- A pending retirement, by the unit's state. -/
def retireAct (s : State) (u : Nat) : State :=
  let r := unitOf s u
  if r.retireFor = 0 then s
  else match r.st with
    | .offline | .spare =>
      let s := unitUpd (applyCmd s u 4) u (fun x => { x with retireFor := 0 })
      retireRecord s u r.retireFor
    | .active => (firmwareCmd s u 2).2
    | _ => s

/-- What the service processors and the Husk do for lasting faults, strikes and retirements at a boundary. -/
def strikesAtBoundary (s : State) : State :=
  (s.units.map (·.1)).foldl (fun s u => retireAct (strikeAct (takeStrike s u) u) u) s

/-! ### Rotation (R388) -/

/-- The pool of a round-robin entry: the 64 Pea pools, the other pools by class and stack, then Onion and QMGR of each
stack, whose entry is a unit alone. Log entry 49 (DESIGN CHOICE, unsafe). -/
def rotEntry (i : Nat) : List Nat :=
  if i < 64 then poolUnits (unitId 0 (i / 32) (17 * (i % 32)))
  else if i < 76 then classUnits ([3, 4, 5, 6, 7, 0x0B].getD ((i - 64) / 2) 3) ((i - 64) % 2)
  else [unitId (if i % 2 = 0 then 8 else 9) ((i - 76) / 2) 0]

/-- The ACTIVE unit of a pool whose last TEST is oldest, the lower ID on a tie. -/
def oldestTest (s : State) (l : List Nat) : Option Nat :=
  (l.filter (isActive s)).foldl (fun best u =>
    match best with
    | none => some u
    | some b => if (unitOf s u).lastTest < (unitOf s b).lastTest then some u else some b) none

/-- ROTATION_STEP; Watch pauses it (R470). A unit whose retirement is pending gets no ENABLE (R381). -/
def rotationStep (s : State) : State :=
  let n := objN s 0x4100 4
  if n = 0 ∨ s.cpm.watch ∨ !autoSubst s ∨ s.plan.run.isNone ∨ s.phu.cycle % n ≠ 0 then s
  else
    let s := reachPhase s (evalEndPu s)
    let i := s.diag.rotNext
    let s := { s with diag := { s.diag with rotNext := (i + 1) % 80 } }
    let pool := rotEntry i
    if 76 ≤ i then pool.foldl (fun s u => testNoted s u 1) s
    else if (lowestIn s pool .spare).isNone ∨ pool.any (fun u => unitSt s u == .draining || unitSt s u == .test) then s
    else match oldestTest s pool with
      | none => s
      | some u =>
        let (ok, s) := firmwareCmd s u 2
        if !ok then s
        else
          let s := if (unitOf s u).retireFor = 0 then (firmwareCmd s u 1).2 else s
          let s := { s with diag := { s.diag with rotations := satInc 32 s.diag.rotations } }
          judgePath (raise s 0x0E0A 0xFFFF u (unitOf s u).subst) u

/-! ### Golden batches (R389 to R392) -/

/-- The golden batch that Pod g holds. -/
def goldenBatch : Batch := { rid := 0, num := 0, level := 0, golden := true, acc := [], written := [] }

/-- The golden batch of a unit starts: its deferral count clears. -/
def goldStart (s : State) (u : Nat) : State :=
  let s := { s with diag := { s.diag with goldRun := s.diag.goldRun ++ [u] } }
  let s := unitUpd s u (fun r => { r with goldDefer := 0 })
  if idClass u = 1 then podUpd s (podOf u) (fun p => { p with exec := some goldenBatch })
  else { s with diag := { s.diag with goldChards := s.diag.goldChards ++ [u] } }

/-- The 8th cycle: a Pod abandons a batch of level 2 or 3 and runs its golden batch at once (R391). -/
def goldShed (s : State) (g : Nat) : State :=
  let u := leekOf g
  let p := podGet s g
  if !goldServes s u ∨ (unitOf s u).goldDefer < 7 then s
  else match p.exec with
    | none => goldStart s u
    | some b =>
      if b.level < 2 then s
      else
        let task := match evalOf s b.rid with | some e => e.task.desc.taskId | none => 0
        let head : List BRange := [⟨b.rid, b.num, 1⟩]
        let s := podPut s g { p with exec := none, list := head ++ p.list }
        let s := { s with diag := { s.diag with goldSheds := satInc 32 s.diag.goldSheds } }
        goldStart (raise s 0x0E07 0xFFFF u task) u

/-- The start of a golden slot in pu. -/
def goldOpenPu (s : State) : GoldKind → Nat
  | .pods => evalEndPu s
  | .chards => objN s 0x4100 6

/-- GOLDEN_SLOT_OPEN. -/
def goldenSlotOpen (s : State) (k : GoldKind) : State :=
  if s.plan.run.isNone ∨ !phaseRuns s then s
  else
    let s := reachPhase s (goldOpenPu s k)
    match k with
    | .pods =>
      let s := { s with diag := { s.diag with podSlot := true, goldRun := s.diag.goldRun.filter (fun u => idClass u != 1) } }
      (List.range 64).foldl goldShed s
    | .chards =>
      { s with diag := { s.diag with chardSlot := true, goldChards := [], goldRun := s.diag.goldRun.filter (fun u => idClass u != 7) } }

/-- GOLDEN_BATCH_START: a unit that holds nothing in execution starts in its open slot. -/
def goldenBatchStart (s : State) (u : Nat) : State :=
  if idClass u = 1 ∧ s.diag.podSlot ∧ goldFree s u ∧ goldServes s u ∧ (podGet s (podOf u)).exec.isNone then goldStart s u
  else if idClass u = 7 ∧ s.diag.chardSlot ∧ goldFree s u ∧ goldServes s u ∧ (unitOf s u).exec.isNone then goldStart s u
  else s

/-- Event 0x0E05 against one unit. -/
def goldBad (s : State) (u mask : Nat) : State :=
  raise { s with diag := { s.diag with goldFails := satInc 32 s.diag.goldFails } } 0x0E05 u u
    (s.phu.cycle % 16 * 2 ^ 24 + mask)

/-- Whether the values read differ in the probes of two or more Peas (R392). -/
def readsOff (l : List (Fin 17 × BitVec 16 × BitVec 16)) : Bool :=
  l.any (fun x => x.2.2 != 0 && l.any (fun y => y.2.2 != 0 && x.1 != y.1))

/-- GOLDEN_BATCH_DONE (R389, R392). -/
def goldenBatchDone (s : State) (u : Nat) (r : GoldRes) : State :=
  if !s.diag.goldRun.contains u ∨ s.cpm.watch then s
  else
    let g := podOf u
    let isPod := idClass u == 1 && ((podGet s g).exec == some goldenBatch)
    if (idClass u = 1 ∧ !isPod) ∨ (idClass u ≠ 1 ∧ !s.diag.goldChards.contains u) then s
    else
      let s := if isPod then podUpd s g (fun p => { p with exec := none })
        else { s with diag := { s.diag with goldChards := s.diag.goldChards.filter (· != u) } }
      let k := idStack u
      match r with
      | .pass => unitUpd s u (fun x => { x with goldBad := false })
      | .centre m => if idClass u = 1 then goldBad s u m.toNat else s
      | .peas l =>
        if idClass u ≠ 1 then s
        else if readsOff l then goldBad s (unitId 2 k (g % 32)) (l.foldl (fun m x => m ||| x.2.1.toNat) 0)
        else l.foldl (fun s x => goldBad s (unitId 0 k (17 * (g % 32) + x.1.val)) x.2.1.toNat) s
      | .chard m => if idClass u = 7 then goldBad (unitUpd s u (fun x => { x with goldBad := true })) u m.toNat else s

/-- A unit whose slot closes without a start (R391). Log entry 49 (DESIGN CHOICE, unsafe). -/
def goldDefer (s : State) (u : Nat) : State :=
  if goldFree s u then
    let n := min 7 ((unitOf s u).goldDefer + 1)
    raise (unitUpd s u (fun r => { r with goldDefer := n })) 0x0E06 0xFFFF u n
  else s

/-- GOLDEN_SLOT_CLOSE. -/
def goldenSlotClose (s : State) (k : GoldKind) : State :=
  match k with
  | .pods =>
    if !s.diag.podSlot then s
    else
      let s := reachPhase s (goldOpenPu s k + objN s 0x4100 5)
      let s := (((podsInService s).map leekOf).filter (goldServes s)).foldl goldDefer s
      { s with diag := { s.diag with podSlot := false } }
  | .chards =>
    if !s.diag.chardSlot then s
    else
      let s := reachPhase s (goldOpenPu s k + objN s 0x4100 5)
      let s := ((classUnits 7 0 ++ classUnits 7 1).filter (goldServes s)).foldl goldDefer s
      { s with diag := { s.diag with chardSlot := false } }

/-- Degraded status, 0x4100:0D (R396). -/
def degraded (s : State) : Nat := b2n s.diag.poolShort + 2 * b2n s.mem.sparesOut

/-! ### Meanings -/

/-- UCTL_ENABLE (R14, R28). -/
def execUctlEnable (s : State) : Host.Outcome State Fault Refusal := .next (runArith s (fun s => clusterCmd s 1))
/-- UCTL_DISABLE (R14, R16, R17). -/
def execUctlDisable (s : State) : Host.Outcome State Fault Refusal := .next (runArith s disableCmd)
/-- UCTL_TEST (R14). -/
def execUctlTest (s : State) : Host.Outcome State Fault Refusal := .next (runArith s (fun s => clusterCmd s 3))
/-- UCTL_RETIRE (R14). -/
def execUctlRetire (s : State) : Host.Outcome State Fault Refusal := .next (runArith s (fun s => clusterCmd s 4))
/-- UCTL_BAD_COMMAND: code 5 to 7 (R28). -/
def execUctlBadCommand (c : Fin 3) (s : State) : Host.Outcome State Fault Refusal :=
  .next (runArith s (fun s => clusterCmd s (5 + c.val)))
/-- UCTL_UNIT_SELECT (R29). -/
def execUctlUnitSelect (u : BitVec 16) (s : State) : Host.Outcome State Fault Refusal :=
  .next (runArith s (fun s => unitSelect s u.toNat))
/-- DRAIN_COMPLETE (R14). -/
def execDrainComplete (u : BitVec 16) (s : State) : Host.Outcome State Fault Refusal :=
  .next (runArith s (fun s => drainComplete s u.toNat))
/-- ROTATION_STEP (R388). -/
def execRotationStep (s : State) : Host.Outcome State Fault Refusal := .next (runArith s rotationStep)
/-- GOLDEN_SLOT_OPEN (R390, R391). -/
def execGoldenSlotOpen (k : GoldKind) (s : State) : Host.Outcome State Fault Refusal :=
  .next (runArith s (fun s => goldenSlotOpen s k))
/-- GOLDEN_BATCH_START (R390). -/
def execGoldenBatchStart (u : BitVec 16) (s : State) : Host.Outcome State Fault Refusal :=
  .next (runArith s (fun s => goldenBatchStart s u.toNat))
/-- GOLDEN_BATCH_DONE (R389, R392). -/
def execGoldenBatchDone (u : BitVec 16) (r : GoldRes) (s : State) : Host.Outcome State Fault Refusal :=
  .next (runArith s (fun s => goldenBatchDone s u.toNat r))
/-- GOLDEN_SLOT_CLOSE (R391). -/
def execGoldenSlotClose (k : GoldKind) (s : State) : Host.Outcome State Fault Refusal :=
  .next (runArith s (fun s => goldenSlotClose s k))

end Sys2Proof.Machine
end

