-- ==== Sys2Proof/Machine/Pods.lean ====
section
/-!
DEFINITION. The commands of the Pods (R152 to R168): batches taken, probes retired, batches completed, stealing, the brick cache, the end
of an evaluation (R162, R163), and the registers of R168.
-/
namespace Sys2Proof.Machine

/-! ### The candidates of a batch -/

/-- Records of an EVAL_RECORDS block from index `lo` on: `n` of them, each with its index; an empty record is passed over. -/
def listRecs (s : State) (param lo n : Nat) : List (Nat × CandRec) :=
  let base := memLe s (param + 16) 8
  let count := memLe s (param + 24) 4
  let stride := memLe s (param + 28) 4
  ((List.range n).filter (fun i => decide (lo + i < count) && memLe s (base + stride * (lo + i)) 4 != 0xFFFFFFFF)).map
    (fun i => (lo + i, recAt s (base + stride * (lo + i))))

/-- The candidates of batch `b` of an evaluation, each with its index in the result list (R113, R305). Log entry 46 (DEDUCED, unsafe). -/
def batchCands (s : State) (m : Model) (e : Eval) (b : Nat) : List (Nat × CandRec) :=
  if e.task.desc.opId = 0x0101 then
    if e.main then
      let ids := batchIds s b
      (ids.zip (List.range ids.length)).map (fun x => (64 * b + x.2, genCand s m e.task.gen e.task.cycle x.1))
    else []
  else listRecs s e.task.desc.param (64 * b) 64

/-- Start of an evaluation's result list as its parameter block names it (R304). Log entry 46 (DEDUCED, unsafe). -/
def resultBase (s : State) (e : Eval) : Nat :=
  if e.task.desc.opId = 0x0101 then memLe s (e.task.desc.param + 16) 8 else memLe s (e.task.desc.param + 32) 8

/-- Where Pod g writes: a partial list lies in the shared store of the Pod's stack (R150). Log entry 46 (DEDUCED, unsafe). -/
def listBase (s : State) (e : Eval) (g : Nat) : Nat :=
  if e.task.desc.opId = 0x0101 then ownStore (g / 32) (resultBase s e) else resultBase s e

/-- Whether an evaluation checks stopping branches (R146). -/
def evalBranch (s : State) (e : Eval) : Bool := e.task.desc.opId == 0x0102 && bit (memGet s (e.task.desc.param + 3)) 2

/-- Whether an evaluation exits at its first CLEAR record (R165); DET_STRICT forbids it (R404). -/
def firstFeasible (s : State) (e : Eval) : Bool :=
  e.task.desc.opId == 0x0102 && bit (memGet s (e.task.desc.param + 3)) 1 && !detStrict s

/-! ### The end of an evaluation -/

/-- An evaluation completes (R275): the Onion of Stack 0 decrements DONE_CTR; `pre` are the decrements of the same clk. -/
def evalFinish (s : State) (e : Eval) (pre : List Decr) : State :=
  let s := dropEval s e.task.rid
  let s := { s with sched := { s.sched with taskCnt := cntUp s.sched.taskCnt 0 } }
  let s := if e.main then { s with pod := { s.pod with handed := true } } else s
  clkDecs s [] (pre ++ decFor e.task.desc.doneCtr (unitId 8 0 0))

/-- An evaluation misses its end (R162, R284): event 0x0501 with its stage, 0x0A06 without a unit, FAIL_CTR; the overrun is counted once in
the cycle. -/
def evalMiss (s : State) (stage : Nat) (e : Eval) : State :=
  let s := raise { s with safety := { s.safety with winner := none } } 0x0501 0xFFFF (stage * 2 ^ 16 + sat 16 (e.total - e.done)) 0
  let s := if s.pod.overrun then s else regCount { s with pod := { s.pod with overrun := true } } Reg.podOverrun
  let s := if e.main then { s with pod := { s.pod with handed := false, parts := [] } } else s
  let s := { s with sched := { s.sched with missCnt := cntUp s.sched.missCnt e.task.stack,
                                            missTotal := satInc 32 s.sched.missTotal } }
  let s := if e.started then s else lateUnstarted s e.task
  evalFail (raiseOnion s e.task.stack 0x0A06 0xFFFF e.task.desc.taskId 0xFFFF) e 0xFFFF

/-- An evaluation that replay discards at its gate although it has completed (R408): its lists do not go to selection.
Log entry 51 (DESIGN CHOICE, unsafe). -/
def evalImposed (s : State) : State :=
  if imposedAt s 0x0501 then
    let s := regCount { s with pod := { s.pod with handed := false, overrun := true, parts := [] } } Reg.podOverrun
    let d := ((imposedRecs s 8).find? (fun r => getLe r.content 10 2 == 0x0501 && r.phase == phase s)).map (fun r => getLe r.content 12 4)
    raise { s with safety := { s.safety with winner := none } } 0x0501 0xFFFF (d.getD 0) 0
  else s

/-- Event 0x0505, once in a cycle (R167). -/
def outsideEvent (s : State) : State :=
  if s.pod.cycOutside = 0 ∨ s.pod.outsideSaid then s
  else raise { s with pod := { s.pod with outsideSaid := true } } 0x0505 0xFFFF s.pod.cycOutside 0

/-- The EVAL_END gate (R162, R163, R167): family evaluations that have not completed are abandoned, as is an evaluation of level 3 that
has no slices; then NO_CLEAR and OUTSIDE_MAP. Log entry 46 (DEDUCED, unsafe). -/
def evalEnd (s : State) : State :=
  let s := if (s.pod.evals.any (fun e => e.task.desc.opId == 0x0101)) then s else evalImposed s
  let l := s.pod.evals.filter (fun e => e.task.desc.opId == 0x0101 || (e.task.desc.crit == 3 && !e.task.desc.suspend))
  let s := l.foldl (fun s e => if e.task.desc.opId = 0x0101 then evalMiss s 1 e else
    evalFail (raiseOnion s e.task.stack 0x0A06 0xFFFF e.task.desc.taskId 0xFFFF) e 0xFFFF) s
  let s := if s.pod.famDone ≠ 0 ∧ s.pod.famClear = 0 then raise s 0x0504 0xFFFF s.pod.famDone 0 else s
  outsideEvent s

/-- The end gate of the re-check (R162); a place outside the map that only the re-check met is reported here (R167). -/
def recheckEnd (s : State) : State :=
  let l := s.pod.evals.filter (fun e => e.task.desc.opId == 0x0102 && decide (e.task.desc.crit ≤ 1))
  outsideEvent (if l.isEmpty then evalImposed s else l.foldl (fun s e => evalMiss s 2 e) s)

/-! ### Taking a batch (R157, R309) -/

/-- Whether a range may be issued now: its evaluation runs, and a SUSPEND evaluation has its slice. -/
def rangeOpen (s : State) (r : BRange) : Bool :=
  match evalOf s r.rid with
  | some e => !e.exited && (!e.task.desc.suspend || s.sched.slice)
  | none => false

/-- The criticality of a range's task. -/
def rangeLevel (s : State) (r : BRange) : Nat :=
  match evalOf s r.rid with
  | some e => e.task.desc.crit
  | none => 4

/-- The range from whose head a Pod takes: the first of the highest-level task that it holds. -/
def nextRange (s : State) (l : List BRange) : Option BRange :=
  (l.filter (rangeOpen s)).foldl (fun best r =>
    match best with
    | none => some r
    | some b => if rangeLevel s r < rangeLevel s b then some r else best) none

/-- The list without the first batch of a range. -/
def takeFirst (r : BRange) : List BRange → List BRange
  | [] => []
  | x :: t => if x = r then (if x.n ≤ 1 then t else { x with lo := x.lo + 1, n := x.n - 1 } :: t) else x :: takeFirst r t

/-- An evaluation starts with its first batch (R283, R284, R304); answers whether it runs. -/
def evalStart (s : State) (e : Eval) (leek : Nat) : Bool × State :=
  if e.started then (true, s)
  else
    let s := startCheck s e.task leek
    if headerOk s e.task then (true, evalUpd s e.task.rid (fun x => { x with started := true, task := begun s x.task }))
    else (false, evalFail (raise s 0x0B08 leek e.task.desc.taskId e.task.desc.opId) e leek)

/-- Whether a Pod takes a batch: in service and with no golden batch due (R390), or draining with one batch left in its list, which R158 leaves
to no thief.
Log entry 46 (DEDUCED, unsafe). -/
def podTakes (s : State) (g : Nat) : Bool :=
  (podInService s g && !goldFirst s (leekOf g)) ||
    (podDraining s g && podUp s g && rangeCount (podGet s g).list == 1)

/-- POD_BATCH_START: a Pod whose Leek holds no batch takes the next one; a residue mismatch of the Leek abandons it again
(R378), `residue` counting 0 composition, 1 inflation, 2 generator. -/
def podBatchStart (s : State) (g : Nat) (residue : Option Nat) : State :=
  let p := podGet s g
  let leek := leekOf g
  if !podTakes s g ∨ p.exec.isSome ∨ watchUnit s leek then s
  else match nextRange s p.list with
    | none => s
    | some r =>
      match evalOf s r.rid with
      | none => s
      | some e =>
        let (ok, s) := evalStart s e leek
        if !ok then s
        else match residue with
          | some k => raise s 0x0E09 leek leek (4 + k)
          | none =>
            let s := if e.main then { s with cand := { s.cand with generated := sat 32 (s.cand.generated + (batchIds s r.lo).length) } } else s
            let b : Batch := { rid := r.rid, num := r.lo, level := e.task.desc.crit, golden := false, acc := [], written := [] }
            podUpd s g (fun p => { p with list := takeFirst r p.list, exec := some b })

/-! ### The brick cache (R153 to R156) -/

/-- The number of a cache line that a lookup names. -/
def lineNo : CacheLine → Nat
  | .word w => wordLine w.toNat
  | .index k n => indexLine k.val n.toNat

/-- Bank and set of a line: the tag modulo 16, and the tag over 16 modulo 64; an index line's tag is its line number. -/
def lineSet (l : Nat) : Nat := (if l % 2 = 0 then l / 2 else l / 8) % 1024

/-- A line enters the cache; a full set of 8 ways loses its least recently used line. -/
def cacheInsert (lines : List Nat) (l : Nat) : List Nat :=
  let rest := lines.filter (· != l)
  let same := rest.filter (fun x => lineSet x == lineSet l)
  let out := if 8 ≤ same.length then same.getLast? else none
  l :: rest.filter (fun x => some x != out)

/-- Order of demand misses: of arrival, those of one clk by Pea (R155). -/
def missLe (a b : Miss) : Bool := decide (a.tick < b.tick) || (a.tick == b.tick && decide (a.pea ≤ b.pea))

/-- Demand misses go while fewer than 16 refills are outstanding. -/
def sendWaits : List Miss → List Miss → List Miss × List Miss
  | out, [] => (out, [])
  | out, m :: t => if out.length < 16 then sendWaits (out ++ [m]) t else (out, m :: t)

/-- Prefetches go while fewer than 8 demand refills are outstanding; one whose line is present or in refill is dropped. -/
def sendPre (lines : List Nat) (tick : Nat) : List Miss → List Nat → List Miss × List Nat
  | out, [] => (out, [])
  | out, l :: t =>
    if lines.contains l || out.any (fun m => m.line == l) then sendPre lines tick out t
    else if (out.filter (·.demand)).length < 8 ∧ out.length < 16 then sendPre lines tick (out ++ [⟨l, tick, 0, false⟩]) t
    else (out, l :: t)

/-- What the cache may send now: demand misses first, then prefetches (R155). -/
def cacheSend (p : Pod) (tick : Nat) : Pod :=
  let (out, waits) := sendWaits p.refills p.waits
  let (out, pre) := sendPre p.lines tick out p.pre
  { p with refills := out, waits := waits, pre := pre }

/-- A lookup by Pea `i`: a hit moves the line to the front; a miss asks for a refill, merged with one of the same line (R155). -/
def cacheLook (p : Pod) (tick i l : Nat) : Pod :=
  if p.lines.contains l then { p with hits := p.hits + 1, lines := l :: p.lines.filter (· != l) }
  else
    let p := { p with misses := p.misses + 1 }
    if p.refills.any (fun m => m.line == l) then
      { p with refills := p.refills.map (fun m => if m.line = l then { m with demand := true } else m) }
    else if p.waits.any (fun m => m.line == l) then p
    else cacheSend { p with waits := insertBy missLe ⟨l, tick, i, true⟩ p.waits } tick

/-- CACHE_REFILL_DONE: the line enters the cache, and what waits for the refill's place goes. -/
def cacheRefill (s : State) (g : Nat) (l : CacheLine) : State :=
  let n := lineNo l
  if (podGet s g).refills.any (fun m => m.line == n) then
    podUpd s g (fun p => cacheSend { p with refills := p.refills.filter (fun m => m.line != n), lines := cacheInsert p.lines n } s.now)
  else s

/-! ### The lines of a probe (R153, R155) -/

/-- The cache lines that a read of one level looks up: the index line of its brick, then its word; none of a read that answers without
them (R72, R73). -/
def readLines (x : EvCtx) (k : Lvl) (p : List Int) : List Nat :=
  if (readField x.v x.stale k p).isNone ∨ x.stale then []
  else
    let c := fun i => (vi p i * 256000 / (65536 * k.size : Nat) - 128) / 256 / 3
    let i := slotOf (x.v.level k) (c 0) (c 1) (c 2)
    let off := match k with | .fine => 0 | .coarse => ceilDiv (slotCount x.v.fine) 16
    let key := brickKey k (c 0) (c 1) (c 2)
    indexLine x.v.slot (off + i / 16) ::
      (if x.v.noWord.contains key then [] else match wordOf x.v.words key with | some w => [wordLine w] | none => [])

/-- The levels that a field probe reads (R138). -/
def levelsRead (x : EvCtx) (p : List Int) (r : Int) : List Lvl :=
  if 19742 < r + x.mp then [.coarse]
  else if (fieldProbe x p r).coarse then [.fine, .coarse] else [.fine]

/-- The lines of a field probe. -/
def fieldLines (x : EvCtx) (sp : List Int × Int) : List Nat := (levelsRead x sp.1 sp.2).flatMap (fun k => readLines x k sp.1)

/-! ### Probes (R152) -/

/-- The sequence and number of a place: a waypoint of the candidate, or branch point `wp` − 32 of its stopping branch (R146). -/
def placeSeq (x : EvCtx) (c : CandRec) (wp : Nat) : List (List Int) × Nat :=
  if wp < 32 then (c.wp, wp) else (stopBranch c.wp x.b, wp - 32)

/-- The waypoint as which a place is judged. -/
def placeWp (x : EvCtx) (wp : Nat) : Nat := if wp < 32 then wp else x.b + (wp - 32)

/-- The spheres of a place. -/
def placeSpheres (x : EvCtx) (c : CandRec) (wp : Nat) : Placed := let (q, i) := placeSeq x c wp; placeAll x.m q i

/-- The sphere numbers of a self-collision test, and whether it is one of bodies (R134). -/
def pairSpheres : PairTest → Nat × Nat × Bool
  | .bound a b => (256 + a.val, 256 + b.val, false)
  | .body a b => (a.val, b.val, true)

/-- The tests that a probe makes. -/
def probeTests : ProbeKind → List Test
  | .bound b => [.field (256 + b.val)]
  | .body n => [.field n.val]
  | .boundCap b i => [.cap (256 + b.val) i.toNat]
  | .bodyCap n i => [.cap n.val i.toNat]
  | .pairs l => l.map (fun p => .pair (pairSpheres p).1 (pairSpheres p).2.1)

/-- What one probe shows at a place; a self-collision group fails when a test of bodies in it does (R134).
Log entry 46 (DEDUCED, unsafe). -/
def probeOuts (x : EvCtx) (c : CandRec) (wp : Nat) (pr : ProbeKind) : List ProbeOut :=
  let pl := placeSpheres x c wp
  let cap := fun (n i : Nat) (body : Bool) =>
    match (x.caps.getD (placeWp x wp) [])[i]? with
    | none => []
    | some k =>
      let sp := pl.sphere n
      let d := capClear sp.1 sp.2 k
      if body ∨ x.mp ≤ d then [capOut x wp n d body] else []
  match pr with
  | .bound b =>
    let sp := pl.sphere (256 + b.val)
    let p := fieldProbe x sp.1 sp.2
    if p.passes x then [fieldOut x wp (256 + b.val) p false] else []
  | .body n =>
    let sp := pl.sphere n.val
    [fieldOut x wp n.val (fieldProbe x sp.1 sp.2) true]
  | .boundCap b i => cap (256 + b.val) i.toNat false
  | .bodyCap n i => cap n.val i.toNat true
  | .pairs l =>
    let bad := fun (p : Nat × Nat × Bool) => p.2.2 && decide (selfClear (pl.sphere p.1) (pl.sphere p.2.1) < x.ms)
    [selfOut wp (l.any (fun p => bad (pairSpheres p))) 1]

/-- The lines that a probe looks up at a place. -/
def probeLines (x : EvCtx) (c : CandRec) (wp : Nat) (pr : ProbeKind) : List Nat :=
  match pr with
  | .bound b => fieldLines x ((placeSpheres x c wp).sphere (256 + b.val))
  | .body n => fieldLines x ((placeSpheres x c wp).sphere n.val)
  | _ => []

/-- The lines that the Leek names with a bound sphere's probe: those of the next waypoint's bound sphere (R155). -/
def nextLines (x : EvCtx) (c : CandRec) (wp : Nat) (pr : ProbeKind) : List Nat :=
  match pr with
  | .bound b => if wp < 31 then fieldLines x ((placeSpheres x c (wp + 1)).sphere (256 + b.val)) else []
  | _ => []

/-- A probe's lookups, then its prefetches. -/
def probeCache (p : Pod) (tick i : Nat) (look pre : List Nat) : Pod :=
  let p := look.foldl (fun p l => cacheLook p tick i l) p
  cacheSend { p with pre := p.pre ++ pre.filter (fun l => !p.lines.contains l && !p.refills.any (fun m => m.line == l)) } tick

/-- The first failing place that a candidate's accumulators know. -/
def accFirst (outs : List ProbeOut) : Nat := (outs.filter (·.fails)).foldl (fun n o => min n o.wp) 40

/-- A probe's tests and outcomes enter the candidate's accumulators; outcomes of places after the first failing one are discarded
(R142). -/
def accAdd (l : List CandAcc) (cand : Nat) (tests : List (Nat × Test)) (outs : List ProbeOut) : List CandAcc :=
  let old := (l.find? (fun a => a.cand == cand)).getD ⟨cand, [], []⟩
  let all := old.outs ++ outs
  let n := accFirst all
  l.filter (fun a => a.cand != cand) ++ [{ cand := cand, tests := old.tests ++ tests, outs := all.filter (fun o => decide (o.wp ≤ n)) }]

/-- The tests of a candidate that have retired. -/
def accTests (l : List CandAcc) (cand : Nat) : List (Nat × Test) := ((l.find? (fun a => a.cand == cand)).map (·.tests)).getD []

/-! ### Records (R150, R161, R165) -/

/-- Batches of an evaluation that wait in lists. -/
def queuedOf (s : State) (rid : Nat) : Nat :=
  sumN (s.pod.pods.map (fun p => rangeCount ((p.2.list ++ p.2.left ++ p.2.reply.getD []).filter (fun r => r.rid == rid))))

/-- Whether replay makes an evaluation exit now (R408): the batches issued have reached the recorded number. -/
def exitRecorded (s : State) (e : Eval) : Bool :=
  (imposedRecs s 9).any (fun r => getLe r.content 0 4 == e.task.desc.taskId && r.content.length == 8 &&
    decide (getLe r.content 4 4 + queuedOf s e.task.rid ≤ e.total))

/-- First-feasible exit (R165): the batches not issued are dropped with event 0x0506, and the choice is recorded (R405). -/
def earlyExit (s : State) (e : Eval) : State :=
  let q := queuedOf s e.task.rid
  let out := fun (l : List BRange) => l.filter (fun r => r.rid != e.task.rid)
  let s := { s with pod := { s.pod with pods := s.pod.pods.filterMap (fun (p : Nat × Pod) =>
      let x := { p.2 with list := out p.2.list, left := out p.2.left, reply := p.2.reply.map out }
      if x = Pod.empty then none else some (p.1, x)) } }
  let rec9 : InRec := { typ := 9, source := 0, cycle := s.phu.cycle, phase := phase s,
                        content := leBytes 4 e.task.desc.taskId ++ leBytes 4 (e.total - q) }
  let s := { s with det := { s.det with recs := s.det.recs ++ [rec9] } }
  raise (evalUpd s e.task.rid (fun x => { x with exited := true, total := x.total - q })) 0x0506 0xFFFF q 0

/-- A record joins the runs of records written. -/
def partAdd (l : List (Nat × Nat)) (a : Nat) : List (Nat × Nat) :=
  match l.getLast? with
  | some x => if x.1 + 32 * x.2 = a then l.dropLast ++ [(x.1, x.2 + 1)] else l ++ [(a, 1)]
  | none => [(a, 1)]

/-- Whether the record in place `i` of an evaluation's list lies in the task's write window (R310). -/
def recOk (s : State) (e : Eval) (i : Nat) : Bool := windowOk s (resultBase s e + 32 * i) 32

/-- A record is written outside the window: event 0x0B07, and the evaluation fails (R310). -/
def recFault (s : State) (e : Eval) (leek : Nat) : State := evalFail (raise s 0x0B07 leek e.task.desc.taskId leek) e leek

/-- Pod g writes the record of the candidate in place `c` of its batch, in place `i` of the list; a CLEAR record ends a first-feasible
evaluation. -/
def writeRec (s : State) (g : Nat) (e : Eval) (c i id : Nat) (r : EvalRes) : State :=
  let a := listBase s e g + 32 * i
  let s := podUpd (memPut s a r.bytes) g (fun p => { p with exec := p.exec.map (fun b => { b with written := b.written ++ [c] }) })
  let s := if e.main then { s with pod := { s.pod with parts := partAdd s.pod.parts a } } else s
  let s := if e.main ∨ e.recheck then
      { s with pod := { s.pod with doneWho := cntPut s.pod.doneWho (2 * id + b2n e.recheck) (leekOf g) } }
    else s
  let exits : Bool := if s.det.replay then exitRecorded s e else r.verdict == 0
  match evalOf s e.task.rid with
  | some e' => if firstFeasible s e ∧ !e'.exited ∧ exits then earlyExit s e' else s
  | none => s

/-- Whether a Pea's probes retire: ACTIVE, or DRAINING with the batch that it held as its drain began (R14). -/
def peaRuns (s : State) (u : Nat) : Bool :=
  isActive s u || (unitSt s u == .draining && (unitOf s u).drain.isSome && (unitOf s u).drain == podHolds s u)

/-- PROBE_RETIRE: on Pea `i` of Pod `g`, for candidate `cand` of its batch, at a place; a candidate that fails its limits is not probed
(R103). A residue mismatch discards the result (R378): 0 PLACE, 1 INTERP, 2 JUDGE. With the last test that its verdict takes, a
candidate's record is written (R142, R161). -/
def probeRetire (s : State) (g i cand wp : Nat) (pr : ProbeKind) (residue : Option Nat) : State :=
  let pea := unitId 0 (g / 32) (17 * (g % 32) + i)
  if !peaRuns s pea then s
  else match (podGet s g).exec with
    | none => s
    | some b =>
      match evalOf s b.rid with
      | none => s
      | some e =>
        match modelOf s e.task.gen with
        | none => s
        | some m =>
          match (batchCands s m e b.num)[cand]? with
          | none => s
          | some c =>
            let x := evCtx s m e.task
            if (limitWp m c.2.dtUs c.2.wp).isSome ∨ (32 ≤ wp ∧ (wp = 32 ∨ !evalBranch s e)) then s
            else
              let s := podUpd s g (fun p => probeCache p s.now i (probeLines x c.2 wp pr) (nextLines x c.2 wp pr))
              match residue with
              | some k => raise s 0x0E09 pea pea (1 + k)
              | none =>
                let acc := accAdd b.acc cand ((probeTests pr).map (fun t => (wp, t))) (probeOuts x c.2 wp pr)
                let s := podUpd s g (fun p => { p with exec := some { b with acc := acc } })
                let r := evalCand x c.2 (evalBranch s e) (firstFeasible s e)
                if b.written.contains cand ∨ !r.tests.all (fun t => (accTests acc cand).contains t) then s
                else if !recOk s e c.1 then recFault s e (leekOf g)
                else writeRec s g e cand c.1 c.2.id r

/-! ### Completion (R150, R275, R281) -/

/-- The counts of a completed batch's records. -/
def countRes (s : State) (e : Eval) (l : List (Nat × CandRec × EvalRes)) : State :=
  let n := fun (v : Nat) => (l.filter (fun x => x.2.2.verdict == v)).length
  let o := (l.filter (fun x => bit (getLe x.2.2.bytes 23 1) 4)).length
  let fam := e.task.desc.opId == 0x0101
  let p := s.pod
  evalUpd { s with pod := { p with
      cycClear := p.cycClear + n 0
      cycBlocked := p.cycBlocked + n 1
      cycUnknown := p.cycUnknown + n 2
      cycOutside := p.cycOutside + o
      probeClk := p.probeClk + sumN (l.map (fun x => getLe x.2.2.bytes 26 2))
      famDone := p.famDone + (if fam then l.length else 0)
      famClear := p.famClear + (if fam then n 0 else 0) } } e.task.rid (fun e =>
    { e with done := e.done + 1, clear := e.clear + n 0, blocked := e.blocked + n 1, unknown := e.unknown + n 2,
             outside := e.outside + o })

/-- The batch's entry, then the end of the evaluation with its last batch (R275): `l` are the records written. -/
def batchEnd (s : State) (g : Nat) (b : Batch) (leek : Nat) (base : Nat) (count : Nat) : State :=
  match evalOf s b.rid with
  | none => podUpd s g (fun p => { p with exec := none })
  | some e =>
    let last := decide (e.total ≤ e.done)
    let done := if last then decFor e.task.desc.doneCtr (unitId 8 0 0) else []
    let t := e.task
    if t.desc.outQueue = 0xFFFFF then
      let s := podUpd s g (fun p => { p with exec := none })
      if last then evalFinish s e [] else s
    else
      let r := qPush s t.desc.outQueue leek (complEntry t.desc.taskId leek t.cycle b.num (base + 2048 * b.num) count []) done true
      match r.1 with
      | .done =>
        let s := podUpd r.2.2 g (fun p => { p with exec := none })
        if last then evalFinish s e r.2.1 else clkDecs s [] r.2.1
      | .stalled =>
        if last then
          let s := { r.2.2 with pod := { r.2.2.pod with evals := r.2.2.pod.evals.filter (fun x => x.task.rid != b.rid),
                                                        handed := r.2.2.pod.handed || e.main } }
          { s with sched := { s.sched with taskCnt := cntUp s.sched.taskCnt 0 } }
        else r.2.2
      | .disabled => evalFail r.2.2 e leek

/-- The candidates of a batch with what their evaluation gives, each with its place in the list. -/
def batchRes (s : State) (e : Eval) (b : Batch) : List (Nat × CandRec × EvalRes) :=
  match modelOf s e.task.gen with
  | none => []
  | some m => (batchCands s m e b.num).map (fun c => (c.1, c.2, evalCand (evCtx s m e.task) c.2 (evalBranch s e) (firstFeasible s e)))

/-- POD_BATCH_COMPLETE: the records of the batch not yet written are, and its completion entry goes to OUT_QUEUE. -/
def podBatchComplete (s : State) (g : Nat) : State :=
  let p := podGet s g
  let leek := leekOf g
  match p.exec with
  | none => s
  | some b =>
    if b.golden ∨ s.sched.stalls.any (fun x => x.unit == leek) then s
    else match evalOf s b.rid with
      | none => podUpd s g (fun p => { p with exec := none })
      | some e =>
        let res := batchRes s e b
        if res.any (fun x => !recOk s e x.1) then recFault s e leek
        else
          let rest := (res.zip (List.range res.length)).filter (fun x => !b.written.contains x.2)
          let s := rest.foldl (fun s x => writeRec s g e x.2 x.1.1 x.1.2.1.id x.1.2.2) s
          batchEnd (countRes s e res) g b leek (listBase s e g) res.length

/-! ### Stealing (R158, R159) -/

/-- Whether Pod `v` lies in the ring of thief `t` and can be asked: in service or draining, or with batches that a fault has left. -/
def ringOk (s : State) (t v : Nat) : Bool :=
  let c := regF s Reg.podCtrl
  (v / 32 == t / 32 || (bit c 3 && bit (regF s Reg.mrwCtrl) 3)) &&
  (!(podGet s v).left.isEmpty || (bit c 2 && (podInService s v || podDraining s v)))

/-- Whether a Pod of a stack may evaluate a range's batches. -/
def stackFits (s : State) (k : Nat) (r : BRange) : Bool :=
  match evalOf s r.rid with
  | some e => !e.exited && (match e.only with | some j => j == k | none => true)
  | none => false

/-- What is left of a list after the tails in `got` are taken. -/
def rangeMinus (l got : List BRange) : List BRange :=
  l.filterMap (fun r =>
    match got.find? (fun x => x.rid == r.rid && decide (r.lo ≤ x.lo) && decide (x.lo < r.lo + r.n)) with
    | some x => if x.lo = r.lo then none else some { r with n := x.lo - r.lo }
    | none => some r)

/-- The last `n` batches of a list, those of the highest level first (R309). -/
def levelTake (s : State) (l : List BRange) : List Nat → Nat → List BRange
  | [], _ => []
  | k :: ks, n =>
    let q := l.filter (fun r => rangeLevel s r == k)
    let m := min n (rangeCount q)
    (if m = 0 then [] else (rangeTakeLast q m).2) ++ levelTake s l ks (n - m)

/-- What a victim gives a thief of the batches that its stack may evaluate: of those that a fault has left half, rounded up; else of its list
half, rounded down, and nothing of one batch. Log entry 46 (DEDUCED, unsafe). -/
def stealGive (s : State) (v t : Nat) : List BRange :=
  let p := podGet s v
  let fit := fun (l : List BRange) => l.filter (stackFits s (t / 32))
  let lost := fit p.left
  if !lost.isEmpty then levelTake s lost [0, 1, 2, 3, 4] ((rangeCount lost + 1) / 2)
  else if bit (regF s Reg.podCtrl) 2 then levelTake s (fit p.list) [0, 1, 2, 3, 4] (rangeCount (fit p.list) / 2)
  else []

/-- A request enters a steal port: those of one clk in ascending thief number, 4 at most; answers the thief turned away (R159). -/
def portAdd (port : List (Nat × Nat)) (tick t : Nat) : List (Nat × Nat) × Option Nat :=
  let q := insertBy (fun (a b : Nat × Nat) => decide (a.1 < b.1) || (a.1 == b.1 && decide (a.2 ≤ b.2))) (tick, t) port
  if q.length ≤ 4 then (q, none) else (q.dropLast, q.getLast?.map (·.2))

/-- STEAL_REQUEST: a dry Pod's request reaches the next Pod of its ring; a full port answers BUSY; a round of EMPTY ends in idling. -/
def stealRequest (s : State) (t : Nat) : State :=
  let p := podGet s t
  if !podInService s t ∨ p.idle ∨ p.exec.isSome ∨ !p.list.isEmpty ∨ p.asking.isSome ∨ p.reply.isSome ∨ s.pod.evals.isEmpty ∨
      watchUnit s (leekOf t) then s
  else match (List.range 63).find? (fun i => decide (p.asked ≤ i) && ringOk s t ((t + i + 1) % 64)) with
    | none =>
      if p.busy then podUpd s t (fun p => { p with asked := 0, busy := false })
      else podUpd s t (fun p => { p with idle := true, asked := 0 })
    | some i =>
      let v := (t + i + 1) % 64
      let s := podUpd s t (fun p => { p with asked := i + 1, asking := some v })
      let (port, out) := portAdd (podGet s v).port s.now t
      let s := podUpd s v (fun p => { p with port := port })
      match out with
      | some o => podUpd s o (fun p => { p with reply := some [], replyBusy := true })
      | none => s

/-- STEAL_SERVE: the oldest entry of a victim's port is served, one in a clk. Log entry 46 (DEDUCED, unsafe). -/
def stealServe (s : State) (v : Nat) : State :=
  match (podGet s v).port with
  | [] => s
  | (_, t) :: rest =>
    let s := podUpd (ownClk s (.steal v)) v (fun p => { p with port := rest })
    if !podInService s t then podUpd s t (fun p => { p with asking := none })
    else
      let got := stealGive s v t
      let n := rangeCount got
      let s := podUpd s v (fun p => { p with list := rangeMinus p.list got, left := rangeMinus p.left got, given := p.given + n })
      podUpd { s with pod := { s.pod with cycStolen := s.pod.cycStolen + n } } t (fun p =>
        { p with reply := some got, replyBusy := false, stolen := p.stolen + n })

/-- STEAL_REPLY: the thief takes the batches, or moves on after EMPTY or BUSY; batches that reach a Pod out of service are left
stealable. -/
def stealReply (s : State) (t : Nat) : State :=
  let p := podGet s t
  match p.reply with
  | none => s
  | some got =>
    if got.isEmpty then podPut s t { p with reply := none, asking := none, busy := p.busy || p.replyBusy, replyBusy := false }
    else
      let q := { p with reply := none, asking := none, asked := 0, busy := false, replyBusy := false }
      if podInService s t then podPut s t { q with list := got.foldl rangeAdd q.list }
      else wakePods (podPut s t { q with left := q.left ++ got })

/-! ### The boundary and the registers (R168, R169) -/

/-- Clk of the evaluation window by the present period. -/
def windowClk (s : State) : Nat :=
  match s.plan.run with
  | some p => (p.evalEnd - p.evalStart) * s.phu.pAvg / (65536 * ticksPerClk s)
  | none => 0

/-- ACTIVE Peas of a Pod. -/
def podPeas (s : State) (g : Nat) : Nat := countIn s (poolUnits (unitId 0 (g / 32) (17 * (g % 32)))) .active

/-- Pea utilisation in per mille. Log entry 46 (DEDUCED, unsafe). -/
def podUtil (s : State) : Nat :=
  let d := sumN ((List.range 64).map (podPeas s)) * windowClk s
  if d = 0 then 0 else min 1000 (s.pod.probeClk * 1000 / d)

/-- The counts of the cycle move to the "last cycle" registers; re-checks are confined to a stack without an ACTIVE Chard (R350). -/
def podBoundary (s : State) : State :=
  let p := s.pod
  let s := regSet s Reg.podCycBatch (sat 16 p.cycStolen * 2 ^ 16 + sat 16 p.cycBatch)
  let s := regSet s Reg.podCycClear (sat 32 p.cycClear)
  let s := regSet s Reg.podCycBlocked (sat 32 p.cycBlocked)
  let s := regSet s Reg.podCycUnknown (sat 32 p.cycUnknown)
  let s := regSet s Reg.podCycUtil (podUtil s)
  let s := (List.range 64).foldl (fun s g =>
    let x := podGet s g
    let s := regSet s (Reg.podSteal + 16 * g) (sat 16 x.given * 2 ^ 16 + sat 16 x.stolen)
    let s := regSet s (Reg.peaHit + 16 * g) (sat 32 x.hits)
    let s := regSet s (Reg.peaMiss + 16 * g) (sat 32 x.misses)
    podPut s g { x with given := 0, stolen := 0, hits := 0, misses := 0 }) s
  let c0 := activeCount s 7 0
  let c1 := activeCount s 7 1
  let only := if c0 = 0 ∧ c1 ≠ 0 then some 0 else if c1 = 0 ∧ c0 ≠ 0 then some 1 else none
  { s with pod := { s.pod with doneWho := [], cycBatch := 0, cycStolen := 0, cycClear := 0, cycBlocked := 0, cycUnknown := 0,
                               cycOutside := 0, probeClk := 0, famDone := 0, famClear := 0, overrun := false, handed := false,
                               onlyStack := only, parts := [], outsideSaid := false } }

/-- The POD registers that the state computes, by offset. -/
def podRead (s : State) (o : Nat) : Option Nat :=
  if o = 0x00C then
    match s.plan.run with
    | some p => some (p.evalEnd * 2 ^ 16 + p.evalStart)
    | none => some 0
  else if 0x100 ≤ o ∧ o < 0x500 ∧ o % 16 = 0 then
    let g := (o - 0x100) / 16
    let p := podGet s g
    let dr := fun c => unitSt s (unitId c (g / 32) (g % 32)) == .draining
    some (b2n (podInService s g) * 2 ^ 31 + b2n (dr 1 || dr 2) * 2 ^ 30 + podPeas s g * 2 ^ 16 +
      sat 16 (rangeCount (p.list ++ p.left)))
  else none

/-! ### Meanings -/

/-- What Pods do: in Watch they are gated (R470). -/
def runPods (s : State) (f : State → State) : State := runArith s (fun s => if s.cpm.watch then s else f s)

/-- POD_BATCH_START (R157, R378). -/
def execPodBatchStart (g : Fin 64) (residue : Option (Fin 3)) (s : State) : Host.Outcome State Fault Refusal :=
  .next (runArith s (fun s => podBatchStart s g.val (residue.map (·.val))))
/-- PROBE_RETIRE (R152). -/
def execProbeRetire (g : Fin 64) (pea : Fin 17) (cand : Fin 64) (wp : Fin 40) (pr : ProbeKind) (residue : Option (Fin 3))
    (s : State) : Host.Outcome State Fault Refusal :=
  .next (runPods s (fun s => probeRetire s g.val pea.val cand.val wp.val pr (residue.map (·.val))))
/-- POD_BATCH_COMPLETE (R150, R275). -/
def execPodBatchComplete (g : Fin 64) (s : State) : Host.Outcome State Fault Refusal :=
  .next (runPods s (fun s => podBatchComplete s g.val))
/-- STEAL_REQUEST (R158). -/
def execStealRequest (g : Fin 64) (s : State) : Host.Outcome State Fault Refusal :=
  .next (runArith s (fun s => stealRequest s g.val))
/-- STEAL_SERVE (R159). -/
def execStealServe (g : Fin 64) (s : State) : Host.Outcome State Fault Refusal :=
  .next (runPods s (fun s => stealServe s g.val))
/-- STEAL_REPLY (R158). -/
def execStealReply (g : Fin 64) (s : State) : Host.Outcome State Fault Refusal :=
  .next (runPods s (fun s => stealReply s g.val))
/-- CACHE_REFILL_DONE (R155). -/
def execCacheRefillDone (g : Fin 64) (l : CacheLine) (s : State) : Host.Outcome State Fault Refusal :=
  .next (runPods s (fun s => cacheRefill s g.val l))

end Sys2Proof.Machine
end

