-- ==== Sys2Proof/Machine/CobOps.lean ====
section
/-!
DEFINITION. The operators of the neural engines over tensors in memory (R243, R248 to R251): what a tile task's output block holds, whether its
checksums pass (R259), and the bytes it writes (R245).
-/
namespace Sys2Proof.Machine

/-! ### Tensors in memory (R241, R243, R247) -/

/-- The tensor of a descriptor as a unit sees it: LOC 3 lies in its own local memory. -/
def tensorFor (s : State) (u a : Nat) : Tensor :=
  let t := tensorAt s a
  if t.loc = 3 then { t with base := winBase u + t.base, scale := winBase u + t.scale } else t

/-- Extent of dimension `i`. -/
def Tensor.d (t : Tensor) (i : Nat) : Nat := t.dim.getD i 1

/-- The coordinates in dimensions 1 to 3 of row `r`, rows counted in element order. -/
def Tensor.coords (t : Tensor) (r : Nat) : Nat × Nat × Nat := (r % t.d 1, r / t.d 1 % t.d 2, r / t.d 1 / t.d 2)

/-- The row of coordinates in dimensions 1 to 3; a dimension of extent 1 is broadcast. -/
def Tensor.rowOf (t : Tensor) (x : Nat × Nat × Nat) : Nat :=
  let f := fun (i c : Nat) => if t.d i = 1 then 0 else c
  f 1 x.1 + t.d 1 * (f 2 x.2.1 + t.d 2 * f 3 x.2.2)

/-- Address of row `r`. -/
def Tensor.addr (t : Tensor) (r : Nat) : Nat :=
  let x := t.coords r
  t.base + x.1 * t.stride.getD 0 0 + x.2.1 * t.stride.getD 1 0 + x.2.2 * t.stride.getD 2 0

/-- Number of an element in element order. -/
def Tensor.no (t : Tensor) (r i : Nat) : Nat := r * t.d 0 + i

/-- The code stored as value `i` of row `r`. -/
def storedCode (s : State) (t : Tensor) (r i : Nat) : Nat :=
  let a := t.addr r
  match elemBits t.fmt with
  | 4 => field (viewByte s (a + i / 2)) (4 * (i % 2)) 4
  | n => ofLe (viewBytes s (a + i * (n / 8)) (n / 8))

/-- The metadata nibble of element `i` of row `r` of a 2:4 tensor (R243). -/
def metaNibble (s : State) (t : Tensor) (r i : Nat) : Nat :=
  let g := t.no r i / 4
  field (viewByte s (t.base + t.meta' + g / 2)) (4 * (g % 2)) 4

/-- Whether a nibble has its first position not below its second. -/
def nibbleBad (n : Nat) : Bool := decide (n / 4 ≤ n % 4)

/-- The code of element `i` of row `r`; a pruned element of a 2:4 tensor is 0. -/
def elemCode (s : State) (t : Tensor) (r i : Nat) : Nat :=
  if t.sparse then
    let n := metaNibble s t r i
    if i % 4 = n % 4 then storedCode s t r (i / 4 * 2) else if i % 4 = n / 4 then storedCode s t r (i / 4 * 2 + 1) else 0
  else storedCode s t r i

/-- The scale byte of an element: 127 in a format without scales. -/
def elemScale (s : State) (t : Tensor) (r i : Nat) : Nat := if isMx t.fmt then viewByte s (t.scale + t.no r i / 32) else 127

/-- The FP32 value of an element with its scale. -/
def elemVal (s : State) (t : Tensor) (r i : Nat) : Nat :=
  let k := elemScale s t r i
  if k = 255 then fpNaN else fpScale (elemFp t.fmt (elemCode s t r i)) ((k : Int) - 127)

/-! ### Products (R242, R248) -/

/-- The elements of A and B that step `k` of an output element multiplies, each by row and index; A has none in the padding. B holds a
matrix as K by N, and the kernels of a convolution as channel, kernel x, kernel y, output. Log entry 69 (DESIGN CHOICE, unsafe). -/
def prodCells (op : ArrayOp) (ta tb tc : Tensor) (r n k : Nat) : Option (Nat × Nat) × (Nat × Nat) :=
  let x := tc.coords r
  let cg := max 1 (tb.d 0)
  let c := k % cg
  let kx := k / cg % tb.d 1
  let ky := k / cg / tb.d 1
  let grp := fun (g : Nat) => n / max 1 (tc.d 0 / max 1 g) * cg + c
  let inA := fun (px py g : Nat) => if px < ta.d 1 ∧ py < ta.d 2 then some (ta.rowOf (px, py, x.2.2), grp g) else none
  match op with
  | .matmul => (some (ta.rowOf x, k), (tb.rowOf (n, x.2.1, x.2.2), k))
  | .conv sx sy px py dil g =>
    let i := x.1 * sx.val + kx * dil.val
    let j := x.2.1 * sy.val + ky * dil.val
    (if i < px.val ∨ j < py.val then none else inA (i - px.val) (j - py.val) g.toNat, (tb.rowOf (kx, ky, n), c))
  | .convT px py g =>
    let i := x.1 + px.val
    let j := x.2.1 + py.val
    (if i < kx ∨ j < ky ∨ (i - kx) % 2 = 1 ∨ (j - ky) % 2 = 1 then none else inA ((i - kx) / 2) ((j - ky) / 2) g.toNat,
      (tb.rowOf (kx, ky, n), c))

/-- The work of an array task: operation, tensors, and its K range. -/
structure ArrayJob where
  op : ArrayOp
  a : Tensor
  b : Tensor
  c : Tensor
  k0 : Nat
  kn : Nat

/-- Whether a job accumulates in INT32. -/
def ArrayJob.int (j : ArrayJob) : Bool := isInt j.a.fmt

/-- Whether both operands are array formats of one accumulator kind (R241). -/
def ArrayJob.pairs (j : ArrayJob) : Bool := arrayFmt j.a.fmt && arrayFmt j.b.fmt && isInt j.a.fmt == isInt j.b.fmt

/-- The k steps of the job. -/
def ArrayJob.ks (j : ArrayJob) : List Nat := (List.range j.kn).map (fun k => j.k0 + k)

/-- The float steps of an output element. -/
def ArrayJob.steps (s : State) (j : ArrayJob) (r n : Nat) : List KStep :=
  j.ks.map (fun k =>
    let (x, y) := prodCells j.op j.a j.b j.c r n k
    let b := elemFp j.b.fmt (elemCode s j.b y.1 y.2)
    let sb := elemScale s j.b y.1 y.2
    match x with
    | some x => ⟨elemFp j.a.fmt (elemCode s j.a x.1 x.2), b, elemScale s j.a x.1 x.2, sb⟩
    | none => ⟨0, b, 127, sb⟩)

/-- The exact integer sum of an output element. -/
def ArrayJob.intSum (s : State) (j : ArrayJob) (r n : Nat) : Int :=
  j.ks.foldl (fun t k =>
    let (x, y) := prodCells j.op j.a j.b j.c r n k
    match x with
    | some x => t + elemInt j.a.fmt (elemCode s j.a x.1 x.2) * elemInt j.b.fmt (elemCode s j.b y.1 y.2)
    | none => t) 0

/-- The accumulator of an output element. -/
def ArrayJob.acc (s : State) (j : ArrayJob) (r n : Nat) : Nat :=
  if j.int then ofSigned 32 (j.intSum s r n) else accFloat (j.a.fmt == 4 || j.b.fmt == 4) (j.steps s r n)

/-- Whether a group of a 2:4 operand B that the job reads has a bad nibble (R243). -/
def ArrayJob.metaBad (s : State) (j : ArrayJob) (rs ns : List Nat) : Bool :=
  j.b.sparse && rs.any (fun r => ns.any (fun n => j.ks.any (fun k =>
    let y := (prodCells j.op j.a j.b j.c r n k).2
    nibbleBad (metaNibble s j.b y.1 y.2))))

/-- Whether the accumulators of a row or column pass the check of R259 over the output elements `l`. -/
def ArrayJob.lineOk (s : State) (j : ArrayJob) (l : List ((Nat × Nat) × Nat)) : Bool :=
  if j.int then checkInt (l.map (·.2)) (l.foldl (fun t x => t + j.intSum s x.1.1 x.1.2) 0)
  else checkFloat (l.map (·.2)) (l.flatMap (fun x => j.steps s x.1.1 x.1.2))

/-- Whether the rows and columns of every 16 × 16 tile of a block pass, by its accumulators in rows. -/
def ArrayJob.checks (s : State) (j : ArrayJob) (rs ns : List Nat) (m : List (List Nat)) : Bool :=
  let cells := (rs.zip m).map (fun x => (ns.zip x.2).map (fun y => ((x.1, y.1), y.2)))
  let rowOk := cells.all (fun l => (chunksOf 16 l.length l).all (j.lineOk s))
  let cols := (List.range ns.length).map (fun i => cells.filterMap (fun l => l[i]?))
  rowOk && cols.all (fun l => (chunksOf 16 l.length l).all (j.lineOk s))

/-! ### Attention (R249) -/

/-- Whether a mask admits key `j` for query `i`. -/
def maskAdmits (m : AttnMask) (i j : Nat) : Bool :=
  match m with
  | .none => true
  | .causal => decide (j ≤ i)
  | .window w => decide (i < j + w.toNat) && decide (j ≤ i)
  | .band w => decide ((i - j) + (j - i) < w.toNat)

/-- The running maximum, sum and output of a query row. -/
structure Soft where
  m : Nat
  l : Nat
  o : List Nat

/-- One tile of up to 64 keys with their scores, and the values' columns; a tile without an admitted key changes nothing.
Log entry 69 (DESIGN CHOICE, unsafe). -/
def softTile (x : Option Soft) (sc : List (Option Nat)) (cols : List (List Nat)) : Option Soft :=
  match sc.filterMap id with
  | [] => x
  | adm =>
    let m0 := maxRow adm
    let m := match x with | some y => fpMax y.m m0 | none => m0
    let p := sc.map (fun v => match v with | some v => VecFn.exp.at (fpAdd v (fpNegate m)) | none => 0)
    let sum := sumRow p
    let out := cols.map (fun c => sumRow ((p.zip c).map (fun q => fpMul q.1 q.2)))
    match x with
    | none => some ⟨m, sum, out⟩
    | some y =>
      let k := VecFn.exp.at (fpAdd y.m (fpNegate m))
      some ⟨m, fpFma y.l k sum, (y.o.zip out).map (fun q => fpFma q.1 k q.2)⟩

/-- An output row of ATTENTION: query row `r` of C, columns `ns`. Fewer heads of K and V are shared by consecutive heads of Q. -/
def attnRow (s : State) (tq tk tv tc : Tensor) (scale : Nat) (mask : AttnMask) (r : Nat) (ns : List Nat) : List Nat :=
  let (i, h, b) := tc.coords r
  let hk := h * tk.d 2 / max 1 (tc.d 2)
  let job : ArrayJob := { op := .matmul, a := tq, b := tk, c := tc, k0 := 0, kn := tq.d 0 }
  let score := fun (j : Nat) =>
    let row := tk.rowOf (j, hk, b)
    let st := (List.range (tq.d 0)).map (fun k =>
      (⟨elemFp tq.fmt (elemCode s tq (tq.rowOf (i, h, b)) k), elemFp tk.fmt (elemCode s tk row k),
        elemScale s tq (tq.rowOf (i, h, b)) k, elemScale s tk row k⟩ : KStep))
    let acc := if job.int then
        fpOfInt ((List.range (tq.d 0)).foldl (fun t k =>
          t + elemInt tq.fmt (elemCode s tq (tq.rowOf (i, h, b)) k) * elemInt tk.fmt (elemCode s tk row k)) 0) 0
      else accFloat (tq.fmt == 4 || tk.fmt == 4) st
    fpMul acc scale
  let tiles := chunksOf 64 (tk.d 1) (List.range (tk.d 1))
  match tiles.foldl (fun x js =>
      softTile x (js.map (fun j => if maskAdmits mask i j then some (score j) else none))
        (ns.map (fun n => js.map (fun j => elemVal s tv (tv.rowOf (j, hk, b)) n)))) none with
  | none => ns.map (fun _ => 0)
  | some y => let k := VecFn.recip.at y.l
    y.o.map (fun o => fpMul o k)

/-! ### Vector operators (R246, R248) -/

/-- A row of values. -/
def rowVals (s : State) (t : Tensor) (r : Nat) : List Nat := (List.range (t.d 0)).map (elemVal s t r)

/-- An element of an operand broadcast to the output's row `r`, column `n`. -/
def bcast (s : State) (t tc : Tensor) (r n : Nat) : Nat := elemVal s t (t.rowOf (tc.coords r)) (if t.d 0 = 1 then 0 else n)

/-- ELEMENTWISE of one pair of values. -/
def ewApply (f : EwFn) (x y : Nat) : Nat :=
  match f with
  | .add => fpAdd x y
  | .mul => fpMul x y
  | .clamp lo hi => fpMin (fpMax x lo.toNat) hi.toNat
  | .relu => fpMax x 0
  | .gelu => VecFn.gelu.at x
  | .silu => VecFn.silu.at x
  | .sigmoid => VecFn.sigmoid.at x
  | .tanh => VecFn.tanh.at x
  | .exp => VecFn.exp.at x
  | .quantise | .dequantise => x

/-- Whether ELEMENTWISE takes two operands. -/
def ewTwo : EwFn → Bool
  | .add | .mul => true
  | .clamp _ _ | .relu | .gelu | .silu | .sigmoid | .tanh | .exp | .quantise | .dequantise => false

/-- A normalised row. -/
def normOf (f : NormFn) (eps : Nat) (l : List Nat) : List Nat :=
  match f with
  | .layer => normRow false eps l
  | .rms => normRow true eps l
  | .group n => (chunksOf (max 1 (l.length / max 1 n.val)) l.length l).flatMap (normRow false eps)

/-- REDUCE of row `r` of A, FP32 or INT32: whether the result is FP32, and its bits. -/
def reduceOf (s : State) (t : Tensor) (f : RedFn) (r : Nat) : Bool × Nat :=
  let c := (List.range (t.d 0)).map (elemCode s t r)
  let fp := rowVals s t r
  match f, isInt t.fmt with
  | .sum, true => (false, ofSigned 32 (c.foldl (fun a x => a + elemInt t.fmt x) 0))
  | .max, true => (false, ofSigned 32 ((c.map (elemInt t.fmt)).foldl max (-(2 ^ 31 : Nat) : Int)))
  | .argmax, true => (false, argMax (fun x v => decide (elemInt t.fmt x ≤ elemInt t.fmt v)) 1 0 (c.headD 0) (c.drop 1))
  | .sum, false => (true, sumRow fp)
  | .max, false => (true, maxRow fp)
  | .argmax, false => (false, argMax (fun x v => decide (ordFp x ≤ ordFp v)) 1 0 (fp.headD 0) (fp.drop 1))

/-! ### GATHER and SCATTER (R250) -/

/-- Index `p` of an index tensor. -/
def indexAt (s : State) (tb : Tensor) (p : Nat) : Int := elemInt tb.fmt (elemCode s tb (p / tb.d 0) (p % tb.d 0))

/-- The coordinates of an element, dimension 0 first. -/
def fullCoords (t : Tensor) (r n : Nat) : List Nat := let x := t.coords r
  [n, x.1, x.2.1, x.2.2]

/-- The row and index of coordinates. -/
def cellOf (t : Tensor) (l : List Nat) : Nat × Nat := (t.rowOf (l.getD 1 0, l.getD 2 0, l.getD 3 0), l.getD 0 0)

/-- Whether an index is in range of dimension `d` of a tensor. -/
def indexIn (t : Tensor) (d : Nat) (i : Int) : Bool := decide (0 ≤ i) && decide (i < (t.d d : Int))

/-- The element of A that GATHER puts at an element of C; none where the index is out of range. -/
def gatherFrom (s : State) (ta tb tc : Tensor) (d r n : Nat) : Option (Nat × Nat) :=
  let l := fullCoords tc r n
  let i := indexAt s tb (l.getD d 0)
  if indexIn ta d i then some (cellOf ta (l.set d i.toNat)) else none

/-- The elements of A that name an element of C as their destination, in ascending source position. -/
def scatterFrom (s : State) (ta tb tc : Tensor) (d r n : Nat) : List (Nat × Nat) :=
  let l := fullCoords tc r n
  ((List.range (ta.d d)).filter (fun p => decide (indexAt s tb p = (l.getD d 0 : Int)))).map (fun p => cellOf ta (l.set d p))

/-- The indices out of range that a task counts: GATHER those whose first element lies in its block, SCATTER all of them with the block that
holds the first element of C. Log entry 69 (DESIGN CHOICE, unsafe). -/
def badIndices (s : State) (op : TileOp) (ta tb tc : Tensor) (rs ns : List Nat) : Nat :=
  match op with
  | .gather d =>
    (((rs.flatMap (fun r => ns.map (fullCoords tc r))).filter (fun l => (l.set d.val 0).all (· == 0))).filter (fun l =>
      !indexIn ta d.val (indexAt s tb (l.getD d.val 0)))).length
  | .scatter d _ =>
    if rs.contains 0 ∧ ns.contains 0 then ((List.range (ta.d d.val)).filter (fun p => !indexIn tc d.val (indexAt s tb p))).length else 0
  | .array _ _ _ _ | .attention _ _ _ | .norm _ _ | .softmax | .elementwise _ | .reduce _ => 0

/-! ### What a task's block holds -/

/-- How values become elements (R245): array output, a seed, the vector unit's. -/
inductive Conv where
  | array | seed | vector
  deriving DecidableEq, Repr

/-- The rows of an output block: values with their kind, or the codes and scale bytes that the port moves. -/
inductive TileRes where
  | vals (float : Bool) (conv : Conv) (rows : List (List Nat))
  | codes (rows : List (List (Nat × Nat)))
  deriving DecidableEq, Repr

/-- Output values in rows of one kind. -/
def vecRows (rs : List Nat) (f : Nat → List Nat) : TileRes := .vals true .vector (rs.map f)

/-- A code and its scale byte. -/
def codePair (s : State) (t : Tensor) (x : Nat × Nat) : Nat × Nat := (elemCode s t x.1 x.2, elemScale s t x.1 x.2)

/-- The job of an array operation. -/
def arrayJob (op : TileOp) (ta tb tc : Tensor) : Option ArrayJob :=
  match op with
  | .array a k0 kn _ => some { op := a, a := ta, b := tb, c := tc, k0 := k0.toNat, kn := kn.toNat }
  | .attention _ _ _ | .norm _ _ | .softmax | .elementwise _ | .reduce _ | .gather _ | .scatter _ _ => none

/-- The accumulators of an array job's block, each flipped where the array is upset. -/
def accRows (s : State) (j : ArrayJob) (rs ns : List Nat) (upset : List (Nat × Nat)) : List (List Nat) :=
  (rs.zip (List.range rs.length)).map (fun r => (ns.zip (List.range ns.length)).map (fun n =>
    upset.foldl (fun v x => if x.1 = r.2 * ns.length + n.2 then v ^^^ (x.2 % 2 ^ 32) else v) (j.acc s r.1 n.1)))

/-- The bias of a column added to checked accumulators, in their own arithmetic. Log entry 69 (DESIGN CHOICE, unsafe). -/
def biasRows (s : State) (int : Bool) (bias : Option Nat) (ns : List Nat) (m : List (List Nat)) : List (List Nat) :=
  match bias with
  | none => m
  | some a => m.map (fun l => (ns.zip l).map (fun x =>
      let b := ofLe (viewBytes s (a + 4 * x.1) 4)
      if int then (x.2 + b) % 2 ^ 32 else fpAdd x.2 b))

/-- The block of a task that is no array operation; `tv` is the value tensor of ATTENTION. -/
def vecBlock (s : State) (op : TileOp) (ta tb tv tc : Tensor) (rs ns : List Nat) : TileRes :=
  let pick := fun (l : List Nat) => ns.map (fun n => l.getD n 0)
  match op with
  | .array _ _ _ _ => .vals true .vector []
  | .attention _ sc mask => vecRows rs (fun r => attnRow s ta tb tv tc sc.toNat mask r ns)
  | .norm f eps => vecRows rs (fun r => pick (normOf f eps.toNat (rowVals s ta (ta.rowOf (tc.coords r)))))
  | .softmax => vecRows rs (fun r => pick (softmaxRow (rowVals s ta (ta.rowOf (tc.coords r)))))
  | .elementwise f => vecRows rs (fun r => ns.map (fun n => ewApply f (bcast s ta tc r n) (if ewTwo f then bcast s tb tc r n else 0)))
  | .reduce f =>
    let l := rs.map (fun r => ns.map (fun n => reduceOf s ta f (tc.no r n)))
    .vals (l.any (fun x => x.any (·.1))) .vector (l.map (fun x => x.map (·.2)))
  | .gather d => .codes (rs.map (fun r => ns.map (fun n =>
      match gatherFrom s ta tb tc d.val r n with | some x => codePair s ta x | none => (0, 0))))
  | .scatter d false => .codes (rs.map (fun r => ns.map (fun n =>
      match (scatterFrom s ta tb tc d.val r n).getLast? with | some x => codePair s ta x | none => codePair s tc (r, n))))
  | .scatter d true =>
    let int := isInt tc.fmt
    .vals (!int) .vector (rs.map (fun r => ns.map (fun n =>
      let l := scatterFrom s ta tb tc d.val r n
      if int then ofSigned 32 (l.foldl (fun a x => a + elemInt ta.fmt (elemCode s ta x.1 x.2)) (elemInt tc.fmt (elemCode s tc r n)))
      else l.foldl (fun a x => fpAdd a (elemVal s ta x.1 x.2)) (elemVal s tc r n))))

/-- The block of a reduce task: partial accumulators added in ascending K range, in their own arithmetic (R251). -/
def reduceBlock (s : State) (ps : List Tensor) (rs ns : List Nat) : TileRes :=
  let int := ps.all (fun t => isInt t.fmt)
  .vals (!int) .array (rs.map (fun r => ns.map (fun n =>
    match ps with
    | [] => 0
    | p :: t =>
      let at' := fun (x : Tensor) => if int then ofSigned 32 (elemInt x.fmt (elemCode s x r n)) else elemVal s x r n
      t.foldl (fun a x => if int then (a + at' x) % 2 ^ 32 else fpAdd a (at' x)) (at' p))))

/-- Multiply-accumulates of a task, dense-equivalent (R244). Log entry 69 (DESIGN CHOICE, unsafe). -/
def macsOf (op : TileOp) (ta tb : Tensor) (rows cols : Nat) : Nat :=
  match op with
  | .array _ _ kn _ => rows * cols * kn.toNat
  | .attention _ _ _ => rows * tb.d 1 * ta.d 0
  | .norm _ _ | .softmax | .elementwise _ | .reduce _ | .gather _ | .scatter _ _ => 0

/-! ### Output conversion (R245) -/

/-- An INT32 accumulator converted: to INT8, INT4 or INT32; another destination is not stated. Log entry 32 (DESIGN CHOICE, safe). -/
def convInt (t : Tensor) (a : Nat) : Nat :=
  let y := rneInt (toSigned 32 a * t.qmul) t.qsh
  match t.fmt with
  | 0 => ofSigned 8 (satW 8 y)
  | 1 => ofSigned 4 (satW 4 y)
  | 10 => a
  | f => Config.convOpen f a

/-- An FP32 value converted to FP32, BF16 or FP8; a seed to a joint format of `frac` fraction bits; a value of the vector unit to an integer
format. Another destination is not stated. Log entry 32 (DESIGN CHOICE, safe); Log entry 69 (DESIGN CHOICE, unsafe).
Log entry 54 (DEDUCED, unsafe). -/
def convFp (t : Tensor) (c : Conv) (frac a : Nat) : Nat :=
  let v := fpMul a t.qscale
  match t.fmt, c with
  | 9, _ => if fpIsNaN v then fpNaN else if t.sat ∧ fpIsInf v then (if fpNeg v then 0xFF7FFFFF else 0x7F7FFFFF) else v
  | 2, _ | 3, _ => toFloat (floatFmt t.fmt) 8 t.sat v 0
  | 4, _ => toFloat (floatFmt 4) 16 t.sat v 0
  | 10, .seed => ofSigned 32 (fpToInt 32 v frac)
  | 0, .vector | 1, .vector | 10, .vector => ofSigned (elemBits t.fmt) (fpToInt (elemBits t.fmt) v 0)
  | f, _ => Config.convOpen f a

/-- The writes of one row of a block from column `n` on: address and bytes. `fracs` are the fraction bits of the joints. -/
def rowWrites (t : Tensor) (float : Bool) (c : Conv) (fracs : List Nat) (r n : Nat) (l : List Nat) : List (Nat × Bytes) :=
  let a := t.addr r + n * elemBits t.fmt / 8
  if !float then [(a, packElems t.fmt (l.map (convInt t)))]
  else if isMx t.fmt then
    let bl := chunksOf 32 l.length (l.map (fun x => fpMul x t.qscale))
    let sc := bl.map (mxScale t.fmt)
    [(a, packElems t.fmt ((bl.zip sc).flatMap (fun p => p.1.map (mxElem t.fmt p.2)))), (t.scale + t.no r n / 32, sc)]
  else
    [(a, packElems t.fmt ((l.zip (List.range l.length)).map (fun p =>
      convFp t c (fracs.getD ((t.no r n + p.2) % max 1 fracs.length) 28) p.1)))]

/-- The writes of one row of moved codes, with the scale bytes of its blocks. -/
def codeWrites (t : Tensor) (r n : Nat) (l : List (Nat × Nat)) : List (Nat × Bytes) :=
  (t.addr r + n * elemBits t.fmt / 8, packElems t.fmt (l.map (·.1))) ::
    (if isMx t.fmt then [(t.scale + t.no r n / 32, (chunksOf 32 l.length l).map (fun b => (b.headD (0, 0)).2))] else [])

/-- Every write of a block. -/
def blockWrites (t : Tensor) (fracs : List Nat) (rs : List Nat) (n : Nat) (x : TileRes) : List (Nat × Bytes) :=
  match x with
  | .vals f c m => (rs.zip m).flatMap (fun p => rowWrites t f c fracs p.1 n p.2)
  | .codes m => (rs.zip m).flatMap (fun p => codeWrites t p.1 n p.2)

end Sys2Proof.Machine
end

