-- ==== Sys2Proof/Machine/Neural.lean ====
section
/-!
DEFINITION. The neural engines (R251 to R263): what a completing tile task leaves, failed checks (R243, R259), deadlines (R255), re-tiling
(R253), weight sets (R252, R254), and the registers of R261.
-/
namespace Sys2Proof.Machine

/-! ### Tile tasks -/

/-- The model slot of a Cob task (R304). -/
def modelSlot (s : State) (t : Task) : Nat := memGet s (t.desc.param + 16)

/-- The tile task's number. -/
def tileNo (s : State) (t : Task) : Nat := memLe s (t.desc.param + 20) 4

/-- Address of a tensor descriptor that a Cob task names: 0, 1, 2 for A, B and C; a reduce task has only C. -/
def tensorArg (s : State) (t : Task) (i : Nat) : Nat :=
  memLe s (t.desc.param + (if t.desc.opId = 0x0402 then 32 else 24 + 8 * i)) 8

/-- Tensor A, B or C of a Cob task, as its unit sees it. -/
def taskTensor (s : State) (u : Nat) (t : Task) (i : Nat) : Tensor := tensorFor s u (tensorArg s t i)

/-- Fraction bits of the joints of the current model (R84). -/
def jointFracs (s : State) : List Nat := match s.model.cur with | some m => m.joints.map Joint.frac | none => []

/-- A slot of the running image (R298). -/
def imageSlot (s : State) (k : Nat) : Option Slot := match s.plan.run with | some p => p.slots[k]? | none => none

/-- Cycles by which a slot's result may serve a later cycle (R252). -/
def serveOf (s : State) (k : Nat) : Nat := match imageSlot s k with | some x => x.serveCyc | none => 0

/-- Rows of C that a task's block covers. -/
def blockRows (tc : Tensor) (o : TileOut) : List Nat :=
  let n := tc.d 1 * tc.d 2 * tc.d 3
  (List.range (min o.rows.toNat (n - o.row.toNat))).map (fun i => o.row.toNat + i)

/-- Columns of C that a task's block covers. -/
def blockCols (tc : Tensor) (o : TileOut) : List Nat :=
  (List.range (min o.cols.toNat (tc.d 0 - o.col.toNat))).map (fun i => o.col.toNat + i)

/-- The first check that a task's block fails, if any: a metadata nibble out of order (R243), or a row or column sum (R259). -/
inductive TileBad where
  | sparseMeta | sums
  deriving DecidableEq, Repr

/-- The flips that an upset brings. -/
def upsetOf (o : TileOut) : List (Nat × Nat) := o.upset.map (fun x => (x.1.toNat, x.2.toNat))

/-- The bias of an array operation. -/
def biasOf (op : TileOp) : Option Nat := match op with
  | .array _ _ _ b => b.map (·.toNat)
  | .attention _ _ _ | .norm _ _ | .softmax | .elementwise _ | .reduce _ | .gather _ | .scatter _ _ => none

/-- The tensor V of ATTENTION; A elsewhere. -/
def valueTensor (s : State) (u : Nat) (op : TileOp) (ta : Tensor) : Tensor := match op with
  | .attention v _ _ => tensorFor s u v.toNat
  | .array _ _ _ _ | .norm _ _ | .softmax | .elementwise _ | .reduce _ | .gather _ | .scatter _ _ => ta

/-- What a task's block holds, or the check that it fails. -/
def tileBlock (s : State) (u : Nat) (t : Task) (o : TileOut) : TileRes × Option TileBad :=
  let tc := taskTensor s u t 2
  let rs := blockRows tc o
  let ns := blockCols tc o
  if t.desc.opId = 0x0402 then (reduceBlock s ((partialAddrs s t.desc.param).map (tensorFor s u)) rs ns, none)
  else
    let ta := taskTensor s u t 0
    let tb := taskTensor s u t 1
    match arrayJob o.op ta tb tc with
    | some j =>
      let m := accRows s j rs ns (upsetOf o)
      (.vals (!j.int) .array (biasRows s j.int (biasOf o.op) ns m),
        if j.metaBad s rs ns then some .sparseMeta else if !j.checks s rs ns m then some .sums else none)
    | none => (vecBlock s o.op ta tb (valueTensor s u o.op ta) tc rs ns, none)

/-- Float values of a seed task are converted to joint formats (R245). -/
def seedConv (r : TileRole) (x : TileRes) : TileRes :=
  match r, x with
  | .seed _, .vals true _ m => .vals true .seed m
  | _, x => x

/-- Everything that a task's block writes. Log entry 54 (DEDUCED, unsafe). -/
def tileWrites (s : State) (u : Nat) (t : Task) (o : TileOut) (x : TileRes) : List (Nat × Bytes) :=
  let tc := taskTensor s u t 2
  blockWrites tc (jointFracs s) (blockRows tc o) ((blockCols tc o).headD 0) (seedConv o.role x)

/-- Elements that a seed output converts from NaN. -/
def nanCount (tc : Tensor) (r : TileRole) (x : TileRes) : Nat :=
  match r, x with
  | .seed _, .vals true _ m => if tc.fmt = 10 then sumN (m.map (fun l => (l.filter (fun a => fpIsNaN (fpMul a tc.qscale))).length)) else 0
  | _, _ => 0

/-- A write that a Cob's task may make: its window (R310), or its own local memory (R23). -/
def tileMay (s : State) (u a n : Nat) : Bool :=
  windowOk s a n || (decide (winBase u ≤ a) && decide (a + n ≤ winBase u + 262144))

/-! ### Weights (R252) -/

/-- The weight set of a slot that a task uses: the one that was current at its release (R254), with its generation and address. -/
def weightSet (s : State) (k gen : Nat) : Option (Nat × Nat) :=
  ((s.cob.wSets.filter (fun x => x.1 == k && decide (x.2.1 ≤ gen))).getLast?).map (fun x => (x.2.1, x.2.2.1))

/-- Where a copy of weights goes. -/
def loadDst (u : Nat) (l : WLoad) : Nat := if l.here then winBase u + l.dst.toNat else l.dst.toNat

/-- One copy of weights: made each time where the slot's weights stream, else once per destination and generation. -/
def weightLoad (s : State) (u k gen a : Nat) (l : WLoad) : State :=
  let d := loadDst u l
  let stream := match imageSlot s k with | some x => x.stream | none => false
  if !stream ∧ s.cob.loaded.contains (d, k, gen) then s
  else
    let s := memPut s d (viewBytes s (a + l.src.toNat) l.len.toNat)
    if stream then s else { s with cob := { s.cob with loaded := s.cob.loaded.filter (fun x => x.1 != d) ++ [(d, k, gen)] } }

/-- The copies of weights that a task orders. -/
def weightLoads (s : State) (u : Nat) (t : Task) (l : List WLoad) : State :=
  match weightSet s (modelSlot s t) t.wgen with
  | some (gen, a) => l.foldl (fun s x => weightLoad s u (modelSlot s t) gen a x) s
  | none => s

/-! ### What a completed task leaves -/

/-- The counts of a completed tile task. -/
def tileCount (s : State) (u : Nat) (macs : Nat) : State :=
  let c := s.cob
  { s with cob := { c with cyc := cntPut (cntUp c.cyc 0) 2 (cnt c.cyc 2 + macs), unitTiles := cntUp c.unitTiles (unitNo u) } }

/-- The invocation of a task. -/
def invOf (s : State) (t : Task) : Option Invoke := s.cob.invs.find? (fun i => i.id == t.inv)

/-- Whether a task is the last of its invocation to complete. -/
def lastTile (i : Invoke) : Bool := !i.failed && decide (i.total ≤ i.done + 1)

/-- The cycle whose candidates use the seeds of an invocation (R121, R252). Log entry 52 (DEDUCED, unsafe). -/
def seedCycle (s : State) (i : Invoke) : Nat := i.cycle + max 1 (serveOf s i.slot)

/-- The seed buffer that an address lies in. -/
def seedBuffer (s : State) (a : Nat) : Option Nat :=
  match mainEval s with
  | none => none
  | some ev => [memLe s (ev + 24) 8, memLe s (ev + 32) 8].find? (fun b =>
      decide (b ≤ a) && decide (a < b + 64 + 1024 * 128 * max 1 (jointFracs s).length))

/-- The header of a seed buffer that is being written: SEED_CYCLE, COUNT and NJ, with COMPLETE 0 (R121, R256). -/
def seedOpen (s : State) (i : Invoke) (b count : Nat) : State :=
  memPut s b (leBytes 8 (seedCycle s i) ++ leBytes 2 (min 1024 count) ++ [(jointFracs s).length % 256, 0])

/-- COMPLETE is set in a separate write (R256); seeds of an alternative tiling are marked (R405). -/
def seedClose (s : State) (i : Invoke) (b : Nat) : State :=
  let s := memPut s (b + 11) [memGet s (b + 11) ||| 1]
  let c := seedCycle s i
  { s with cob := { s.cob with seedNd := s.cob.seedNd.filter (fun x => x != c && decide (s.phu.cycle ≤ x)) ++ (if i.nondet then [c] else []) } }

/-- The bits of a person mask: 1 where a logit is above the threshold, rows padded to 64 bits (R64, R258).
Log entry 69 (DESIGN CHOICE, unsafe). -/
def maskBytes (s : State) (tc : Tensor) (thr : Nat) : Bytes :=
  (List.range (tc.d 1 * tc.d 2 * tc.d 3)).flatMap (fun r =>
    (List.range (ceilDiv (tc.d 0) 64 * 8)).map (fun b =>
      sumN ((List.range 8).map (fun i =>
        let n := 8 * b + i
        if n < tc.d 0 ∧ ordFp thr < ordFp (elemVal s tc r n) then 2 ^ i else 0))))

/-- Learned costs by rank: the block's values in element order from a rank on (R257). -/
def costPut (s : State) (i : Invoke) (l : List (Nat × Nat)) : State :=
  { s with cob := { s.cob with cl := s.cob.cl.filter (fun x => !(l.map (·.1)).contains x.1) ++ l, costNd := i.nondet } }

/-- The values of a block as they stand in C, numbered from a rank on. -/
def blockCosts (s : State) (tc : Tensor) (rs ns : List Nat) (rank : Nat) : List (Nat × Nat) :=
  let v := rs.flatMap (fun r => ns.map (elemVal s tc r))
  (v.zip (List.range v.length)).map (fun p => (rank + p.2, p.1))

/-- What a task's role adds once its block is written. -/
def roleDone (s : State) (u : Nat) (t : Task) (o : TileOut) (i : Invoke) : State :=
  let tc := taskTensor s u t 2
  match o.role with
  | .plain => s
  | .seed _ => match seedBuffer s tc.base with
    | some b => if lastTile i then seedClose s i b else s
    | none => s
  | .mask n thr => if lastTile i then maskArrives s n.val i.tick (maskBytes s tc thr.toNat) i.nondet else s
  | .cost rank => costPut s i (blockCosts s tc (blockRows tc o) (blockCols tc o) rank.toNat)

/-- The count of indices out of range is reported once per invocation, at its end (R250). -/
def badReport (s : State) (i : Invoke) (u : Nat) : State := if i.bad = 0 then s else raise s 0x0904 u i.slot i.bad

/-- A completed task enters its invocation. -/
def invDone (s : State) (u : Nat) (t : Task) (bad : Nat) : State :=
  match invOf s t with
  | none => s
  | some i =>
    let s := invUpd s i.id (fun x => { x with done := x.done + 1, bad := x.bad + bad })
    if lastTile i then badReport s { i with bad := i.bad + bad } u else s

/-- The writes of a completed tile task, in order: a seed buffer's header ahead of its seeds (R256), the block, what the role adds; with the
counts, event 0x0909, and the end of the invocation. -/
def tileEffects (s : State) (u : Nat) (t : Task) (o : TileOut) (x : TileRes) : State :=
  let tc := taskTensor s u t 2
  let w := tileWrites s u t o x
  let bad := if t.desc.opId = 0x0402 then 0 else badIndices s o.op (taskTensor s u t 0) (taskTensor s u t 1) tc (blockRows tc o) (blockCols tc o)
  let macs := if t.desc.opId = 0x0402 then 0
    else macsOf o.op (taskTensor s u t 0) (taskTensor s u t 1) (blockRows tc o).length (blockCols tc o).length
  let i := invOf s t
  let s := match o.role, i, seedBuffer s tc.base with
    | .seed n, some i, some b => seedOpen s i b n.toNat
    | _, _, _ => s
  let s := w.foldl (fun s p => memPut s p.1 p.2) s
  let n := nanCount tc o.role x
  let s := tileCount s u macs
  let s := if n = 0 then s else raise s 0x0909 u (modelSlot s t) n
  let s := match i with | some i => roleDone s u t o i | none => s
  invDone s u t bad

/-! ### Deadlines and failures -/

/-- An invocation ends unfinished (R255): event 0x0902 with the tile tasks not completed; its open tasks end failed. -/
def invocationEnd (s : State) (i : Invoke) : State :=
  let s := regCount (raise s 0x0902 0xFFFF i.slot (i.total - i.done)) Reg.cobDlMiss
  let s := badReport (invUpd s i.id (fun x => { x with failed := true })) i 0xFFFF
  ((openTasks s).filter (fun x => x.2.desc.cls == 3 && x.2.inv == i.id)).foldl (fun s x =>
    endFailed (removeTask s x.2) x.2 (x.1.getD 0xFFFF)) s

/-- The deadline gate of slot `k`: invocations that serve this cycle or an earlier one and are not complete. -/
def slotDeadline (s : State) (k : Nat) : State :=
  (s.cob.invs.filter (fun i => i.slot == k && !i.failed && !i.complete && decide (i.cycle + serveOf s k ≤ s.phu.cycle))).foldl invocationEnd s

/-- Slots whose deadline gate is number `i` of the gate table. Log entry 47 (DEDUCED, unsafe). -/
def gateSlots (s : State) (i : Nat) : List Nat :=
  match s.plan.run with
  | some p => (List.range p.slots.length).filter (fun k => match p.slots[k]? with | some x => x.used && x.dlGate == i | none => false)
  | none => []

/-- The learned cost's deadline (R255, R257): without a complete invocation of this cycle c_L is 0 for every candidate of the cycle. -/
def costDeadline (s : State) (k : Nat) : State :=
  if s.cob.invs.any (fun i => i.slot == k && i.complete && !i.failed && i.cycle == s.phu.cycle) then s
  else raise { s with cob := { s.cob with costMissing := true } } 0x0908 0xFFFF s.phu.cycle 0

/-- A firmware processor chooses an alternative tiling, of `n` tile tasks, for the next invocation (R253).
Log entry 12 (DESIGN CHOICE, safe). -/
def retile (s : State) (k alt n : Nat) : State :=
  let ok : Bool := match imageSlot s k with | some x => x.used && x.adaptable && decide (alt < x.nalt) | none => false
  let recorded := (imposedRecs s 9).any (fun r => r.content == [k, alt])
  if !ok ∨ !bit (regF s Reg.cobCtrl) 1 ∨ detStrict s ∨ (s.det.replay ∧ !recorded) then s
  else
    let rec9 : InRec := { typ := 9, source := k, cycle := s.phu.cycle, phase := phase s, content := [k, alt] }
    let s := { s with cob := { s.cob with retiled := s.cob.retiled.filter (fun x => x.1 != k) ++ [(k, n)] },
                      det := { s.det with recs := s.det.recs ++ [rec9] } }
    raise s 0x0906 0xFFFF k alt

/-- A tile fails its checksums (R259): it is not written; a first failure re-runs, a second ends the invocation under R255.
Log entry 47 (DEDUCED, unsafe). -/
def abftFail (s : State) (u : Nat) (t : Task) : State :=
  let s := regCount (raise s 0x0901 u u (modelSlot s t % 16 * 2 ^ 28 + tileNo s t % 2 ^ 28)) Reg.cobAbftFail
  match t.rerun, invOf s t with
  | true, some i => if i.failed then failExec s u else invocationEnd s i
  | _, _ => failExec s u

/-- A metadata nibble is out of order (R243). -/
def sparseFail (s : State) (u : Nat) (t : Task) : State := failExec (raise s 0x0905 u (modelSlot s t) (tileNo s t)) u

/-- A Cob task ends (R243, R259, R310): its weights are loaded, its block is formed and checked, and what passes is written. -/
def tileWork (s : State) (u : Nat) (t : Task) (o : TileOut) (k : State → State) : State :=
  if o.loads.any (fun l => !tileMay s u (loadDst u l) l.len.toNat) then windowFault s u
  else
    let s := weightLoads s u t o.loads
    let x := tileBlock s u t o
    match x.2 with
    | some .sparseMeta => sparseFail s u t
    | some .sums => abftFail s u t
    | none =>
      if (tileWrites s u t o x.1).any (fun p => !tileMay s u p.1 p.2.length) then windowFault s u
      else k (tileEffects s u t o x.1)

/-! ### Weight sets (R254) -/

/-- The digest of a slot in force, 32 zero bytes where none is. -/
def weightOfSlot (s : State) (k : Nat) : Bytes := Smap.get (fun _ => zeros 32) s.cob.weights k

/-- WEIGHT_INSTALL: a firmware processor starts the check; in replay the recorded set takes its place (R408). -/
def weightInstall (s : State) : State :=
  if s.det.replay then s else
  { s with cob := { s.cob with wCheck := some (objW s 0x2901 1, objW s 0x2901 2, objW s 0x2901 3) } }

/-- WEIGHT_CANCEL: the pending set is dropped. -/
def weightCancel (s : State) : State :=
  { s with cob := { s.cob with wCheck := none, wPend := none, wStatus := if s.cob.weights.isEmpty then 0 else 2 } }

/-- The digest declared for a slot: by the staged image when one is staged, otherwise by the running image (R298). -/
def declaredDigest (s : State) (k : Nat) : Option Bytes :=
  let im := if s.plan.status = .staged ∨ s.plan.status = .deferred then s.plan.pend else s.plan.run
  im.bind (fun p => (p.slots[k]?).bind (fun x => if x.used then some x.wdigest else none))

/-- WEIGHT_CHECK_DONE: the set's digest is compared with the declared one. -/
def weightCheckDone (s : State) : State :=
  match s.cob.wCheck with
  | none => s
  | some (k, a, n) =>
    let b := memBytes s a n
    let s := { s with cob := { s.cob with wCheck := none } }
    if declaredDigest s k = some (sha256 b) then { s with cob := { s.cob with wPend := some (k, a, b), wStatus := 1 } }
    else raise { s with cob := { s.cob with wStatus := if s.cob.wPend.isSome then 1 else 3 } } 0x0907 0xFFFF 5 k

/-- An accepted set takes effect at the boundary, with its input record (R254, R400). -/
def weightBoundary (s : State) : State :=
  match s.cob.wPend with
  | none => s
  | some (k, a, b) =>
    let d := sha256 b
    let own : Bool := match s.plan.run with | some p => ((p.slots[k]?).map (fun x => x.wdigest)) == some d | none => false
    let r : InRec := { typ := 7, source := k, cycle := s.phu.cycle, phase := 0, content := b, what := .weights a b.length }
    { s with
      cob := { s.cob with wPend := none, wStatus := 2, wGen := (s.cob.wGen + 1) % 2 ^ 32,
                          wSets := s.cob.wSets ++ [(k, (s.cob.wGen + 1) % 2 ^ 32, a, b.length)],
                          weights := Smap.set (fun _ => zeros 32) s.cob.weights k d,
                          noWeights := if own then s.cob.noWeights.filter (· != k) else s.cob.noWeights }
      det := { s.det with recs := s.det.recs ++ [r] } }

/-! ### The boundary (R261) -/

/-- The seed buffer for the cycle that a boundary has opened, as COB_SEED_STAT shows it (R256). -/
def seedStat (s : State) : Nat :=
  match mainEval s with
  | none => 0
  | some ev =>
    match [memLe s (ev + 24) 8, memLe s (ev + 32) 8].find? (fun b => memLe s b 8 == s.phu.cycle) with
    | none => 0
    | some b => b2n (bit (memGet s (b + 11)) 0) * 2 ^ 16 + min 1024 (memLe s (b + 8) 2)

/-- The "last cycle" registers load for the cycle that ends. -/
def cobBoundary (s : State) : State :=
  let c := s.cob
  let st := seedStat s
  let s := regSet s Reg.cobCycTiles (sat 32 (cnt c.cyc 0))
  let s := regSet s Reg.cobCycRerun (sat 32 (cnt c.cyc 1))
  let s := regSet s Reg.cobCycMacs (sat 32 (cnt c.cyc 2 / 65536))
  let s := regSet s Reg.cobSeedStat st
  let s := (List.range 136).foldl (fun s u =>
    regSet s (Reg.cobUnit + 4 * u) (sat 16 (cnt c.unitBusy u / 64) * 2 ^ 16 + sat 16 (cnt c.unitTiles u))) s
  { s with cob := { s.cob with cyc := [], unitBusy := [], unitTiles := [],
                               costMissing := false, cl := [], costNd := false } }

/-! ### Meanings -/

/-- WEIGHT_INSTALL (R254). -/
def execWeightInstall (s : State) : Host.Outcome State Fault Refusal := .next (runIo s weightInstall)
/-- WEIGHT_CANCEL (R254). -/
def execWeightCancel (s : State) : Host.Outcome State Fault Refusal := .next (runIo s weightCancel)
/-- WEIGHT_CHECK_DONE (R254, R298). -/
def execWeightCheckDone (s : State) : Host.Outcome State Fault Refusal := .next (runIo s weightCheckDone)

end Sys2Proof.Machine
end

