-- ==== Sys2Proof/Machine/ObjLoad.lean ====
section
/-!
DEFINITION. Registers that firmware loads from objects (R48, R80, R82, R168, R192, R212, R238, R261, R288, R290, R339, R341, R411, R434,
R477, R502): which object gives which field, and object values as bytes (R421).
-/
namespace Sys2Proof.Machine
open Sys2Proof.Config

/-! ### Object values as bytes (R421) -/

/-- Bytes of a data type. -/
def tyBytes : ObjTy → Nat
  | .u8 | .i8 => 1
  | .u16 | .i16 => 2
  | .u32 | .i32 | .real32 => 4
  | .u64 => 8
  | .octets n => n

/-- The value that a number of the type's width spells. -/
def tyVal (t : ObjTy) (n : Nat) : Int :=
  match t with
  | .i8 | .i16 | .i32 => toSigned (8 * tyBytes t) n
  | _ => ((n % 2 ^ (8 * tyBytes t) : Nat) : Int)

/-- The bytes of a value, least significant first. -/
def tyEnc (t : ObjTy) (v : Int) : Bytes := leBytes (tyBytes t) (ofSigned (8 * tyBytes t) v)

/-- The place of an FP32 number in their order, from its bits; none for a NaN. -/
def realKey (b : Nat) : Option Int :=
  let m : Nat := b % 2 ^ 31
  if 0x7F800000 < m then none else some (if bit b 31 then -(m : Int) else (m : Int))

/-- Whether FP32 `b` lies between `lo` and `hi`. -/
def realIn (lo hi b : Nat) : Bool :=
  match realKey lo, realKey hi, realKey b with
  | some l, some h, some x => decide (l ≤ x) && decide (x ≤ h)
  | _, _, _ => false

/-! ### The fields -/

/-- How an object value is written in its register field: as it is, less one, as a power of two, from bit `n` up, or as the index of a
choice. -/
inductive LoadEnc where
  | plain
  | less1
  | log
  | from' (n : Nat)
  | choice (l : List Nat)
  deriving DecidableEq, Repr

/-- One field of a register that an object gives. -/
structure LoadRow where
  idx : Nat
  sub : Nat
  reg : Nat
  lo : Nat
  w : Nat
  enc : LoadEnc
  deriving DecidableEq, Repr

/-- The field value. -/
def LoadEnc.of (e : LoadEnc) (w : Nat) (v : Int) : Nat :=
  match e with
  | .plain => ofSigned w v
  | .less1 => (v.toNat - 1) % 2 ^ w
  | .log => log2 v.toNat % 2 ^ w
  | .from' n => v.toNat / 2 ^ n % 2 ^ w
  | .choice l => (l.findIdx? (· == v.toNat)).getD 0

/-- Fields of the phase unit, the world model and the candidate checkers. -/
def loadRows0 : List LoadRow := [
  ⟨0x2100, 1, Reg.phuCtrl, 0, 2, .plain⟩, ⟨0x2100, 2, Reg.phuCycleDecl, 0, 32, .plain⟩, ⟨0x2100, 3, Reg.phuTol, 0, 16, .plain⟩,
  ⟨0x2100, 4, Reg.phuTol, 16, 16, .plain⟩, ⟨0x2101, 1, Reg.phuBarCtrl, 0, 1, .plain⟩, ⟨0x2101, 2, Reg.phuBarCtrl, 4, 2, .less1⟩,
  ⟨0x2101, 3, Reg.phuBarCtrl, 8, 2, .plain⟩, ⟨0x2101, 4, Reg.phuBarCtrl, 12, 12, .plain⟩,
  ⟨0x2101, 5, Reg.phuBarCycleLo, 0, 32, .plain⟩, ⟨0x2101, 5, Reg.phuBarCycleHi, 0, 32, .from' 32⟩,
  ⟨0x2200, 1, Reg.mrwCtrl, 0, 1, .plain⟩, ⟨0x2200, 0x12, Reg.mrwCtrl, 1, 1, .plain⟩, ⟨0x2200, 0x11, Reg.mrwCtrl, 2, 1, .plain⟩,
  ⟨0x2202, 8, Reg.mrwCtrl, 3, 1, .plain⟩, ⟨0x2200, 2, Reg.mrwCutoff, 0, 16, .plain⟩, ⟨0x2200, 3, Reg.mrwLoA, 24, 8, .plain⟩,
  ⟨0x2200, 4, Reg.mrwLoA, 16, 8, .plain⟩, ⟨0x2200, 5, Reg.mrwLoA, 8, 8, .plain⟩, ⟨0x2200, 6, Reg.mrwLoB, 24, 8, .plain⟩,
  ⟨0x2200, 7, Reg.mrwLoB, 16, 8, .plain⟩, ⟨0x2200, 8, Reg.mrwFineDim, 0, 10, .plain⟩, ⟨0x2200, 9, Reg.mrwFineDim, 10, 10, .plain⟩,
  ⟨0x2200, 0xA, Reg.mrwFineDim, 20, 10, .plain⟩, ⟨0x2200, 0xB, Reg.mrwCoarseDim, 0, 10, .plain⟩,
  ⟨0x2200, 0xC, Reg.mrwCoarseDim, 10, 10, .plain⟩, ⟨0x2200, 0xD, Reg.mrwCoarseDim, 20, 10, .plain⟩]

/-- Fields of the world model, Pods and selection. -/
def loadRows1 : List LoadRow := [
  ⟨0x2200, 0xE, Reg.mrwZ0, 0, 16, .plain⟩, ⟨0x2200, 0xF, Reg.mrwZ0, 16, 16, .plain⟩, ⟨0x2200, 0x10, Reg.mrwPoolSize, 0, 32, .plain⟩,
  ⟨0x2201, 1, Reg.mrwMarginA, 16, 16, .plain⟩, ⟨0x2201, 3, Reg.mrwMarginA, 0, 16, .plain⟩,
  ⟨0x2201, 4, Reg.mrwMarginB, 16, 16, .plain⟩, ⟨0x2201, 2, Reg.mrwMarginB, 0, 16, .plain⟩, ⟨0x2202, 1, Reg.mrwFfA, 24, 8, .plain⟩,
  ⟨0x2202, 2, Reg.mrwFfA, 16, 8, .plain⟩, ⟨0x2202, 3, Reg.mrwFfA, 0, 16, .plain⟩, ⟨0x2202, 4, Reg.mrwFfB, 24, 8, .plain⟩,
  ⟨0x2202, 5, Reg.mrwFfB, 16, 8, .plain⟩, ⟨0x2202, 6, Reg.mrwFfB, 0, 16, .plain⟩, ⟨0x2202, 7, Reg.ethUdp, 0, 16, .plain⟩,
  ⟨0x2500, 3, Reg.podSoft, 0, 16, .plain⟩, ⟨0x2500, 6, Reg.podCtrl, 1, 1, .plain⟩, ⟨0x2500, 7, Reg.podCtrl, 2, 1, .plain⟩,
  ⟨0x2500, 8, Reg.podCtrl, 3, 1, .plain⟩, ⟨0x2700, 1, Reg.radInvLambda, 0, 32, .plain⟩, ⟨0x2700, 2, Reg.radCtrl, 0, 1, .plain⟩,
  ⟨0x2800, 1, Reg.psnCtrl, 0, 1, .plain⟩, ⟨0x2800, 0xC, Reg.psnCtrl, 1, 1, .plain⟩, ⟨0x2900, 1, Reg.cobCtrl, 0, 1, .plain⟩,
  ⟨0x2900, 2, Reg.cobCtrl, 1, 1, .plain⟩, ⟨0x2900, 3, Reg.cobLearnW, 0, 32, .plain⟩]

/-- Fields of Ethernet. -/
def loadRows2 : List LoadRow := [
  ⟨0x2600, 1, Reg.ethPeerTime, 16, 16, .plain⟩, ⟨0x2600, 2, Reg.ethPeerTime, 0, 16, .plain⟩,
  ⟨0x2600, 3, Reg.ethPeerTol, 0, 16, .plain⟩, ⟨0x2600, 4, Reg.ethPeerTol, 16, 16, .plain⟩,
  ⟨0x2600, 5, Reg.ethCutoff, 0, 16, .plain⟩, ⟨0x2600, 6, Reg.ethCtrl, 5, 1, .plain⟩, ⟨0x2600, 7, Reg.ethCylZ, 0, 16, .plain⟩,
  ⟨0x2600, 8, Reg.ethCylZ, 16, 16, .plain⟩, ⟨0x2600, 9, Reg.ethSetSize, 0, 16, .plain⟩, ⟨0x2601, 1, Reg.ethSiteX, 0, 32, .plain⟩,
  ⟨0x2601, 2, Reg.ethSiteX + 4, 0, 32, .plain⟩, ⟨0x2601, 3, Reg.ethSiteX + 8, 0, 32, .plain⟩,
  ⟨0x2601, 4, Reg.ethSiteX + 12, 0, 32, .plain⟩, ⟨0x2602, 1, Reg.ethUdp, 16, 16, .plain⟩, ⟨0x2602, 2, Reg.ethIpv4, 0, 32, .plain⟩,
  ⟨0x2602, 3, Reg.ethMcast, 0, 32, .plain⟩, ⟨0x2602, 4, Reg.ethCtrl, 4, 1, .plain⟩, ⟨0x2602, 4, Reg.ethMacsec, 0, 1, .plain⟩,
  ⟨0x2602, 4, Reg.ethMacsec + 0x40, 0, 1, .plain⟩, ⟨0x2602, 5, Reg.ethMacsec, 1, 2, .plain⟩,
  ⟨0x2602, 5, Reg.ethMacsec + 0x40, 1, 2, .plain⟩, ⟨0x2602, 6, Reg.ethMacsec, 3, 1, .plain⟩,
  ⟨0x2602, 6, Reg.ethMacsec + 0x40, 3, 1, .plain⟩, ⟨0x2602, 7, Reg.ethMacsec, 16, 16, .plain⟩,
  ⟨0x2602, 7, Reg.ethMacsec + 0x40, 16, 16, .plain⟩, ⟨0x2602, 8, Reg.ethCtrl, 0, 2, .plain⟩, ⟨0x2603, 1, Reg.ethOwnId, 0, 32, .plain⟩,
  ⟨0x2603, 2, Reg.ethPub, 0, 8, .plain⟩, ⟨0x2603, 3, Reg.ethCtrl, 6, 2, .plain⟩, ⟨0x2603, 4, Reg.ethPub, 8, 3, .plain⟩]

/-- Fields of scheduling, memory, recording, EtherCAT, clocks and service. -/
def loadRows3 : List LoadRow := [
  ⟨0x2A00, 1, Reg.onionCtrl, 1, 1, .plain⟩, ⟨0x2A00, 1, Reg.onionCtrl + 0x10000, 1, 1, .plain⟩,
  ⟨0x2A00, 2, Reg.onionCtrl, 0, 1, .plain⟩, ⟨0x2A00, 2, Reg.onionCtrl + 0x10000, 0, 1, .plain⟩,
  ⟨0x2A00, 3, Reg.qmgrCtrl, 0, 16, .plain⟩, ⟨0x2A00, 4, Reg.qmgrQtabLo, 20, 12, .from' 20⟩,
  ⟨0x2A00, 4, Reg.qmgrQtabHi, 0, 8, .from' 32⟩, ⟨0x2C00, 1, Reg.ddrCfg, 8, 4, .choice [4800, 5600, 6400]⟩,
  ⟨0x2C00, 2, Reg.ddrCfg, 4, 4, .choice [8, 16, 24, 32]⟩, ⟨0x2C00, 3, Reg.ddrCfg, 0, 1, .less1⟩,
  ⟨0x2C00, 4, Reg.ddrScrub, 0, 16, .plain⟩, ⟨0x2C00, 5, Reg.ddrCtrl, 2, 1, .plain⟩, ⟨0x2C00, 6, Reg.sscMtCtrl, 0, 7, .plain⟩,
  ⟨0x2C00, 7, Reg.sscCtrl, 0, 1, .plain⟩, ⟨0x2C00, 8, Reg.sscCtrl, 8, 8, .plain⟩, ⟨0x2D00, 1, Reg.detCtrl, 0, 1, .plain⟩,
  ⟨0x2D00, 8, Reg.detCtrl, 3, 1, .plain⟩, ⟨0x2D00, 4, Reg.detRecAddrLo, 0, 32, .plain⟩,
  ⟨0x2D00, 4, Reg.detRecAddrHi, 0, 8, .from' 32⟩, ⟨0x2D00, 5, Reg.detRecSize, 0, 32, .plain⟩, ⟨0x2001, 3, Reg.ecatCtrl, 8, 8, .plain⟩,
  ⟨0x2001, 0xC, Reg.ecatCtrl, 0, 1, .plain⟩, ⟨0x2F00, 1, Reg.cpmCtrl, 0, 2, .plain⟩, ⟨0x2F00, 2, Reg.cpmCap, 0, 16, .plain⟩,
  ⟨0x2F00, 3, Reg.cpmCtrl, 8, 2, .plain⟩, ⟨0x5000, 0xB, Reg.svcCtrl, 0, 8, .plain⟩]

/-- Fields of stream `i` (R81). -/
def streamRows (i : Nat) : List LoadRow :=
  let c := Reg.mrwStreamCfg + 16 * i
  let l := Reg.mrwStreamLim + 16 * i
  let x := 0x2210 + i
  [⟨x, 1, c, 31, 1, .plain⟩, ⟨x, 2, c, 28, 3, .plain⟩, ⟨x, 3, c, 25, 3, .plain⟩, ⟨x, 4, c, 23, 2, .plain⟩, ⟨x, 5, c, 0, 8, .plain⟩,
   ⟨x, 6, c, 22, 1, .plain⟩, ⟨x, 7, c, 21, 1, .plain⟩, ⟨x, 8, c, 16, 2, .less1⟩, ⟨x, 9, c, 8, 8, .plain⟩, ⟨x, 0x1E, l, 8, 8, .plain⟩,
   ⟨x, 0x1F, l, 16, 16, .plain⟩, ⟨x, 0x20, l, 0, 8, .plain⟩]

/-- Fields of CSI-2 port `p` (R82). -/
def csiRows (p : Nat) : List LoadRow :=
  let c := Reg.csiCtrl + 0x100 * p
  [⟨0x2E01, 1 + p, c, 1, 2, .log⟩, ⟨0x2E01, 9 + p, Reg.csiRate + 0x100 * p, 0, 13, .plain⟩, ⟨0x2E01, 0x11 + p, c, 0, 1, .plain⟩]

/-- The fields that an object gives. -/
def rowsFor (idx sub : Nat) : List LoadRow :=
  let l := if 0x2210 ≤ idx ∧ idx < 0x2230 then streamRows (idx - 0x2210)
    else if idx = 0x2E01 then (List.range 8).flatMap csiRows
    else loadRows0 ++ loadRows1 ++ loadRows2 ++ loadRows3
  l.filter (fun r => r.idx == idx && r.sub == sub)

/-- A 32-bit word with a field replaced. -/
def wordField (old lo w v : Nat) : Nat := old - (old &&& (2 ^ lo * (2 ^ w - 1))) + v % 2 ^ w * 2 ^ lo

/-- The CPM_GATE bit of the peripheral block that a register belongs to (R467): an Ethernet port's own registers, a CSI-2 port's. -/
def gateBitOf (reg : Nat) : Option Nat :=
  if Reg.ethCtrl + 0x100 ≤ reg ∧ reg < Reg.ethCtrl + 0x140 then some 0
  else if Reg.ethCtrl + 0x140 ≤ reg ∧ reg < Reg.ethCtrl + 0x180 then some 1
  else if Reg.csiCtrl ≤ reg ∧ reg < Reg.csiCtrl + 0x800 then some (2 + (reg - Reg.csiCtrl) / 0x100)
  else none

/-- Whether a register belongs to a gated block. -/
def regGated (s : State) (reg : Nat) : Bool :=
  match gateBitOf reg with
  | some b => !bit (regGet s Reg.cpmGate) b
  | none => false

/-- A field of a register, as written and in force; DDR_CFG changes in force only at the next reset (R341). A gated block keeps its reset
values (R467). -/
def loadField (s : State) (reg lo w v : Nat) : State :=
  if regGated s reg then s else
  let f := fun (m : Smap (BitVec 32)) =>
    Smap.set regReset m reg (BitVec.ofNat 32 (wordField (Smap.get regReset m reg).toNat lo w v))
  { s with regs := f s.regs, regsF := if reg = Reg.ddrCfg then s.regsF else f s.regsF }

/-- DET_CTRL.REC_RING and REC_STREAM from the recording enable and its target (R414). -/
def loadRecord (s : State) : State :=
  let on := objF s 0x2D00 2 == 1
  let t := objN s 0x2D00 3
  let s := loadField s Reg.detCtrl 1 1 (b2n (on && (t == 1 || t == 3)))
  loadField s Reg.detCtrl 2 1 (b2n (on && (t == 2 || t == 3)))

/-- The registers of one object take its value in force. QMGR_QTAB changes only before the first plan image (R290). -/
def loadObj (s : State) (idx sub : Nat) : State :=
  if idx = 0x2A00 ∧ sub = 4 ∧ s.plan.everInstalled then s
  else
    let v := objF s idx sub
    let s := (rowsFor idx sub).foldl (fun s r => loadField s r.reg r.lo r.w (r.enc.of r.w v)) s
    if idx = 0x2D00 ∧ (sub = 2 ∨ sub = 3) then loadRecord s else s

/-- Every object that gives a register field. -/
def loadList : List (Nat × Nat) :=
  (loadRows0 ++ loadRows1 ++ loadRows2 ++ loadRows3 ++ (List.range 32).flatMap streamRows ++ (List.range 8).flatMap csiRows).map
    (fun r => (r.idx, r.sub))

/-- Firmware loads every such register at boot; DDR_CFG comes into force with it. -/
def loadAll (s : State) : State :=
  let s := (loadList ++ [(0x2D00, 2)]).foldl (fun s (p : Nat × Nat) => loadObj s p.1 p.2) s
  { s with regsF := s.regs }

/-- The state behind a gated Ethernet port's or the IMU port's registers: no link, no gPTP, no SA, no read under way.
Log entry 57 (DEDUCED, unsafe). -/
def gateOff (s : State) (v : Nat) : State :=
  let p := s.pins
  let q := s.peers
  let z : EthPort := { sak := [], sas := [], tx := [], txAn := 0 }
  { s with pins := { p with pcs0 := p.pcs0 && bit v 0, pcs1 := p.pcs1 && bit v 1, gptp0 := p.gptp0 && bit v 0, gptp1 := p.gptp1 && bit v 1
                            imuBusy := p.imuBusy && bit v 12 }
           peers := { q with port0 := if bit v 0 then q.port0 else z, port1 := if bit v 1 then q.port1 else z } }

/-- CPM_GATE takes a value: a block that becomes gated returns its registers to their reset values (R467).
Log entry 57 (DEDUCED, unsafe). -/
def gateWrite (s : State) (v : Nat) : State :=
  let s := gateOff (regLoad s Reg.cpmGate (v % 2 ^ 14)) v
  let on := fun (r : Nat) => match gateBitOf r with | some b => bit v b | none => true
  { s with regs := s.regs.filter (fun p => on p.1), regsF := s.regsF.filter (fun p => on p.1) }

/-- Firmware ungates each block whose enable object is 1, and then loads its registers (R467). -/
def ungateEnabled (s : State) : State :=
  let csi := sumN ((List.range 8).map (fun p => b2n (objF s 0x2E01 (0x11 + p) == 1) * 2 ^ (2 + p)))
  let want := objN s 0x2602 8 % 4 + csi + b2n (objF s 0x2E02 1 == 1) * 2 ^ 12
  let old := regGet s Reg.cpmGate
  let s := gateWrite s (old ||| want)
  (loadList.filter (fun (p : Nat × Nat) => (rowsFor p.1 p.2).any (fun r => (gateBitOf r.reg).any (fun b => !bit old b)))).foldl
    (fun s (p : Nat × Nat) => loadObj s p.1 p.2) s

/-- Registers as written come into force at a boundary (R48 and the like), DDR_CFG apart. -/
def forceRegs (s : State) : State :=
  let d := Smap.get regReset s.regsF Reg.ddrCfg
  { s with regsF := Smap.set regReset s.regs Reg.ddrCfg d }

end Sys2Proof.Machine
end

