-- ==== Sys2Proof/Machine/Sign.lean ====
section
/-!
DEFINITION. The check of an SLH-DSA-SHA2-128s signature (R3, R296, R487, R498). The specification names the scheme; its parameters and
steps are those of the public standard (log entry 5): 7 layers of trees of height 9, 14 few-time trees of height 12, hashes of 16 bytes.
-/
namespace Sys2Proof.Machine

/-- Where a hash stands: layer, tree, the kind of use, and the three words that the use gives. -/
structure HashAt where
  layer : Nat
  tree : Nat
  use : Nat
  x : Nat
  y : Nat
  z : Nat
  deriving DecidableEq, Repr

/-- The 22 bytes of an address in its short form. -/
def HashAt.bytes (a : HashAt) : Bytes :=
  [a.layer % 256] ++ beBytes 8 a.tree ++ [a.use] ++ beBytes 4 a.x ++ beBytes 4 a.y ++ beBytes 4 a.z

/-- The one hash of the scheme: 16 bytes over the public seed, the address and the input. -/
def slhHash (seed : Bytes) (a : HashAt) (m : Bytes) : Bytes := (sha256 (fit 64 seed ++ a.bytes ++ m)).take 16

/-- Digits of `w` bits, `n` of them, from a byte string, the first the highest. -/
def slhDigits (w n : Nat) (m : Bytes) : List Nat :=
  let v := ofBe m
  (List.range n).map (fun i => field v (8 * m.length - w * (i + 1)) w)

/-- The root above node `node` with number `i`, by the siblings `auth`, from height `h` on. -/
def slhClimb (seed : Bytes) (a : HashAt) : Nat → Nat → Bytes → List Bytes → Bytes
  | _, _, node, [] => node
  | h, i, node, sib :: t =>
    let pair := if i % 2 = 0 then node ++ sib else sib ++ node
    slhClimb seed a (h + 1) (i / 2) (slhHash seed { a with y := h + 1, z := i / 2 } pair) t

/-- `n` steps of a chain from step `k` on. -/
def slhChain (seed : Bytes) (a : HashAt) : Nat → Nat → Bytes → Bytes
  | 0, _, m => m
  | n + 1, k, m => slhChain seed a n (k + 1) (slhHash seed { a with z := k } m)

/-- The 16-byte parts of a byte string, `n` of them from part `i` on. -/
def slhParts (b : Bytes) (i n : Nat) : List Bytes := (List.range n).map (fun j => slice b (16 * (i + j)) 16)

/-- The one-time key that signs the 16 bytes `m` at leaf `leaf`: 32 digits of the message and 3 of their checksum, each a chain. -/
def slhOneTime (seed : Bytes) (layer tree leaf : Nat) (sig : List Bytes) (m : Bytes) : Bytes :=
  let d := slhDigits 4 32 m
  let c := sumN (d.map (fun x => 15 - x))
  let d := d ++ slhDigits 4 3 (beBytes 2 (c * 16))
  let a : HashAt := { layer := layer, tree := tree, use := 0, x := leaf, y := 0, z := 0 }
  let ends := (sig.zip d).mapIdx (fun i p => slhChain seed { a with y := i } (15 - p.2) p.2 p.1)
  slhHash seed { a with use := 1 } ends.flatten

/-- The root of a layer's tree from its part of the signature: the one-time key, then the path. -/
def slhLayer (seed : Bytes) (sig : Bytes) (layer tree leaf : Nat) (m : Bytes) : Bytes :=
  let leafKey := slhOneTime seed layer tree leaf (slhParts sig (44 * layer) 35) m
  slhClimb seed { layer := layer, tree := tree, use := 2, x := 0, y := 0, z := 0 } 0 leaf leafKey (slhParts sig (44 * layer + 35) 9)

/-- The root above layers `l` to `l + n - 1`. -/
def slhLayers (seed sig : Bytes) : Nat → Nat → Nat → Nat → Bytes → Bytes
  | 0, _, _, _, m => m
  | n + 1, l, tree, leaf, m => slhLayers seed sig n (l + 1) (tree / 512) (tree % 512) (slhLayer seed sig l tree leaf m)

/-- The few-time key that signs the 21 bytes `md`: 14 trees, a digit of 12 bits each. -/
def slhFewTime (seed : Bytes) (tree leaf : Nat) (sig md : Bytes) : Bytes :=
  let a : HashAt := { layer := 0, tree := tree, use := 3, x := leaf, y := 0, z := 0 }
  let roots := (slhDigits 12 14 md).mapIdx (fun i d =>
    let n := i * 4096 + d
    slhClimb seed a 0 n (slhHash seed { a with z := n } (slice sig (208 * i) 16)) (slhParts sig (13 * i + 1) 12))
  slhHash seed { a with use := 4 } roots.flatten

/-- Whether a signature of 7,856 bytes over `m` is right under a public key of 32 bytes, seed and root (R3, R296). The message is signed
whole, with an empty context. Log entry 5 (PRESUMED, safe). -/
def slhVerify (key m sig : Bytes) : Bool :=
  let seed := slice key 0 16
  let root := slice key 16 16
  let r := slice sig 0 16
  let inner := sha256 (r ++ seed ++ root ++ [0, 0] ++ m)
  let dig := (sha256 (r ++ seed ++ inner ++ zeros 4)).take 30
  let tree := ofBe (slice dig 21 7) % 2 ^ 54
  let leaf := ofBe (slice dig 28 2) % 512
  let pk := slhFewTime seed tree leaf (slice sig 16 2912) (slice dig 0 21)
  sig.length == 7856 && slhLayers seed (slice sig 2928 4928) 7 0 tree leaf pk == root

end Sys2Proof.Machine
end

