-- ==== Sys2Proof/Machine/Solver.lean ====
section
/-!
DEFINITION. The least-squares solver (R215 to R240): the residual kernels of a refinement, assembly, factorisation and solution, the
Gauss-Newton loop, warm starts, result blocks, refined records, deadlines, the schedule's checks, and the registers of R238.
-/
namespace Sys2Proof.Machine

/-! ### The problem -/

/-- Address of the problem descriptor of a task (R304). -/
def probOf (t : Task) : Nat := t.desc.param + 16

/-- A limit of the loop: the object in force where one is set, else the descriptor's field.
Log entry 33 (DEDUCED, unsafe). -/
def probLimit (s : State) (t : Task) (sub o n : Nat) : Nat :=
  let v := match probClass s t with | 0 => objN s 0x2800 (sub + 1) | 1 => objN s 0x2801 sub | _ => 0
  if v = 0 then memLe s (probOf t + o) n else v

/-- ITER_MAX, ABS_TOL and REL_TOL. -/
def iterMax (s : State) (t : Task) : Nat := probLimit s t 1 6 1
/-- ABS_TOL. -/
def absTol (s : State) (t : Task) : Nat := probLimit s t 2 72 8
/-- REL_TOL. -/
def relTol (s : State) (t : Task) : Nat := probLimit s t 3 80 2
/-- PIV_FLOOR, FP32. -/
def pivOf (s : State) (t : Task) : Nat := probLimit s t 4 84 4
/-- DAMP, FP32; only a refinement has an object for it (R240). -/
def dampOf (s : State) (t : Task) : Nat := if probClass s t = 0 then probLimit s t 5 88 4 else memLe s (probOf t + 88) 4

/-! ### Number formats (R219, R220) -/

/-- Exact values are counted in units of 2^-240. -/
def fxBits : Int := 240

/-- An element (e, FRAC) in units. -/
def exact (p : Int × Int) : Int := p.1 * 2 ^ (fxBits - p.2).toNat

/-- The exact product of two elements in units. -/
def exactMul (p q : Int × Int) : Int := p.1 * q.1 * 2 ^ (fxBits - p.2 - q.2).toNat

/-- The exact product of three elements in units. -/
def exactMul3 (p q r : Int × Int) : Int := p.1 * q.1 * r.1 * 2 ^ (fxBits - p.2 - q.2 - r.2).toNat

/-- Write-back of an exact value: rounded once, to nearest with halves up; answers the element and whether it saturated. -/
def wb (frac v : Int) : (Int × Int) × Bool :=
  let e := rshUp v (fxBits - frac).toNat
  if 0x7FFFFFFF < e then ((0x7FFFFFFF, frac), true)
  else if e < -0x7FFFFFFF then ((-0x7FFFFFFF, frac), true)
  else ((e, frac), false)

/-- A FP32 number converted to a format, to nearest with halves up, saturating (R224, R236). -/
def wbFp (frac : Int) (b : Nat) : (Int × Int) × Bool :=
  if fpFin b then
    let (m, e) := fpDec b
    wb frac (m * 2 ^ (e + 91))
  else ((if fpNeg b then -0x7FFFFFFF else 0x7FFFFFFF, frac), true)

/-- The correctly rounded reciprocal of a positive pivot; answers whether it saturated. -/
def recip (frac : Int) (d : Int × Int) : (Int × Int) × Bool :=
  let e := if d.1 ≤ 0 then 0x80000000 else divUp (2 ^ (frac + d.2 + 160).toNat) (d.1 * 2 ^ 160)
  if 0x7FFFFFFF < e then ((0x7FFFFFFF, frac), true) else ((e, frac), false)

/-- A non-negative FP32 number in a format, rounded up, at least 1 LSB (R221). -/
def pivFloor (b : Nat) (frac : Int) : Int :=
  let (m, e) := fpDec b
  max 1 (if fpFin b then cdiv (m * 2 ^ ((e : Int) + frac + 200).toNat) (2 ^ 349) else 0x7FFFFFFF)

/-! ### Factorisation (R221) -/

/-- An assembled system: the schedule's formats, A by rows up to the diagonal, and b. -/
structure Sys where
  fm : SolveForm
  a : List (List (Int × Int))
  b : List (Int × Int)

/-- The factor so far: rows of L and of U, pivots, reciprocals, deltas, the first row of each flag, and the raised rows. -/
structure Factor where
  l : List (List (Int × Int))
  u : List (List (Int × Int))
  d : List (Int × Int)
  rc : List (Int × Int)
  delta : List (Int × Int)
  raised : List Nat
  ill : Option Nat
  range : Option Nat

/-- The first of two optional marks. -/
def firstOf (a : Option Nat) (hit : Bool) (n : Nat) : Option Nat := if a.isSome then a else if hit then some n else none

/-- An element of a list of rows, 0 where none is. -/
def elemAt (m : List (List (Int × Int))) (i j : Nat) : Int × Int := (m.getD i []).getD j (0, 0)

/-- The exact sum of the products of two rows over columns below `j`. -/
def rowDot (x y : List (Int × Int)) (j : Nat) : Int :=
  ((x.take j).zip (y.take j)).foldl (fun acc p => acc + exactMul p.1 p.2) 0

/-- Row `i` of L and U from its first columns, column `j` next. -/
def factorCol (q : Sys) (k : Factor) (i : Nat) (st : List (Int × Int) × List (Int × Int) × Option Nat) (j : Nat) :
    List (Int × Int) × List (Int × Int) × Option Nat :=
  let (lr, ur, rg) := st
  let t := wb ((q.fm.fT.getD i []).getD j 0) (exact (elemAt q.a i j) - rowDot ur (k.l.getD j []) j)
  let l := wb ((q.fm.fL.getD i []).getD j 0) (exactMul t.1 (k.rc.getD j (0, 0)))
  let u := wb ((q.fm.fU.getD i []).getD j 0) (exactMul l.1 (k.d.getD j (0, 0)))
  (lr ++ [l.1], ur ++ [u.1], firstOf rg (t.2 || l.2 || u.2) i)

/-- Row `i` of the factorisation: its part of L and U, then its pivot, raised to its floor where it lies below. -/
def factorRow (q : Sys) (floor : Nat) (k : Factor) (i : Nat) : Factor :=
  let (lr, ur, rg) := (List.range i).foldl (factorCol q k i) ([], [], k.range)
  let fd := q.fm.fD.getD i 0
  let d := wb fd (exact (elemAt q.a i i) - rowDot ur lr i)
  let fl := pivFloor floor fd
  let low := decide (d.1.1 < fl)
  let piv : Int × Int := if low then (fl, fd) else d.1
  let r := recip (q.fm.fR.getD i 0) piv
  { l := k.l ++ [lr], u := k.u ++ [ur], d := k.d ++ [piv], rc := k.rc ++ [r.1],
    delta := k.delta ++ [if low then (fl - d.1.1, fd) else (0, fd)], raised := if low then k.raised ++ [i] else k.raised,
    ill := firstOf k.ill r.2 i, range := firstOf rg d.2 i }

/-- L D Lᵀ of an assembled system. -/
def factor (q : Sys) (floor : Nat) : Factor :=
  (List.range q.a.length).foldl (factorRow q floor)
    { l := [], u := [], d := [], rc := [], delta := [], raised := [], ill := none, range := none }

/-! ### Solution and residual check (R221, R223) -/

/-- Forward substitution: row `i` of y. -/
def fwdRow (q : Sys) (k : Factor) (st : List (Int × Int) × Option Nat) (i : Nat) : List (Int × Int) × Option Nat :=
  let y := wb (q.fm.fY.getD i 0) (exact (q.b.getD i (0, 0)) - rowDot (k.l.getD i []) st.1 i)
  (st.1 ++ [y.1], firstOf st.2 y.2 i)

/-- The diagonal step: row `i` of z. -/
def diagRow (q : Sys) (k : Factor) (y : List (Int × Int)) (st : List (Int × Int) × Option Nat) (i : Nat) :
    List (Int × Int) × Option Nat :=
  let z := wb (q.fm.fZ.getD i 0) (exactMul (y.getD i (0, 0)) (k.rc.getD i (0, 0)))
  (st.1 ++ [z.1], firstOf st.2 z.2 i)

/-- Back substitution: row `i` of x in front of the rows behind it. -/
def backRow (q : Sys) (k : Factor) (n : Nat) (z : List (Int × Int)) (st : List (Int × Int) × Option Nat) (i : Nat) :
    List (Int × Int) × Option Nat :=
  let sum := ((st.1.zip (List.range (n - 1 - i))).map (fun p => exactMul (elemAt k.l (i + 1 + p.2) i) p.1)).foldl (fun a b => a + b) 0
  let x := wb (q.fm.fX.getD i 0) (exact (z.getD i (0, 0)) - sum)
  (x.1 :: st.1, firstOf st.2 x.2 i)

/-- |r_i| of (A + Δ) x − b in LSB of row i's b format, rounded up. -/
def residual (q : Sys) (k : Factor) (x : List (Int × Int)) (i : Nat) : Nat :=
  let n := q.a.length
  let at' := fun (j : Nat) => if j ≤ i then elemAt q.a i j else elemAt q.a j i
  let sum := ((List.range n).map (fun j => exactMul (at' j) (x.getD j (0, 0)))).foldl (fun a b => a + b) 0
  let b := q.b.getD i (0, 0)
  let r := sum + exactMul (k.delta.getD i (0, 0)) (x.getD i (0, 0)) - exact b
  ceilDiv r.natAbs (2 ^ (fxBits - b.2).toNat)

/-- What one solve gives. -/
structure Solved where
  x : List (Int × Int)
  raised : List Nat
  ill : Option Nat
  range : Option Nat
  chk : Nat
  row : Nat

/-- One solve: factorisation, substitutions, and the largest residual with its row. -/
def solveSys (q : Sys) (floor : Nat) : Solved :=
  let n := q.a.length
  let k := factor q floor
  let y := (List.range n).foldl (fwdRow q k) ([], k.range)
  let z := (List.range n).foldl (diagRow q k y.1) ([], y.2)
  let x := (List.range n).reverse.foldl (backRow q k n z.1) ([], z.2)
  let m := (List.range n).foldl (fun (best : Nat × Nat) i =>
    let r := residual q k x.1 i
    if best.1 < r then (r, i) else best) (0, 0)
  { x := x.1, raised := k.raised, ill := k.ill, range := x.2, chk := m.1, row := m.2 }

/-! ### Variables (R232) -/

/-- NVAR of the schedule of a problem descriptor. -/
def nvarAt (s : State) (p : Nat) : Nat := memLe s (schedOf s p + 16) 4

/-- Address of the table entry of variable `v`. -/
def varAt (s : State) (p v : Nat) : Nat := schedOf s p + memLe s (schedOf s p + 24) 4 + 12 * v

/-- The effective ID of variable `v` of a problem descriptor's schedule. -/
def varId (s : State) (p v : Nat) : Nat :=
  (memLe s (varAt s p v) 4 + (if bit (memGet s (varAt s p v + 5)) 0 then memLe s (p + 92) 4 else 0)) % 2 ^ 32

/-- The FRAC of variable `v`. -/
def varFrac (s : State) (p v : Nat) : Int := memLeS s (varAt s p v + 4) 1

/-- PREDICT of variable `v`. -/
def varPredict (s : State) (p v : Nat) : Bool := bit (memGet s (varAt s p v + 5)) 1

/-- DEFAULT of variable `v`. -/
def varDefault (s : State) (p v : Nat) : Int := memLeS s (varAt s p v + 8) 4

/-- x + dx by variable, each in its own format; answers the first variable that saturated. -/
def stepVars (s : State) (p : Nat) (vars : List Nat) (dx : List (Int × Int)) (x : List Int) : List Int × Option Nat :=
  (vars.zip dx).foldl (fun (st : List Int × Option Nat) y =>
    let f := varFrac s p y.1
    let w := wb f (exact (vi st.1 y.1, f) + exact y.2)
    (st.1.set y.1 w.1.1, firstOf st.2 w.2 y.1)) (x, none)

/-! ### Residual rows (R216) -/

/-- A residual row: weight, residual, the Jacobian's entries by variable, and whether the weight or an entry was saturated. -/
structure Row where
  w : Int × Int
  r : Int × Int
  jac : List (Nat × (Int × Int))
  sat : Bool

/-- A weight in its kernel's format (R236): 0 W_CLEAR, 1 W_SMOOTH, 2 W_LIMIT. Log entry 70 (DESIGN CHOICE, unsafe). -/
def kernelW (i b : Nat) : (Int × Int) × Bool := wbFp (max (-16) (min 60 (Config.weightFrac i))) b

/-- W_LIMIT in force. -/
def wLimit (s : State) : Nat := objN s 0x2800 7

/-- What a refinement evaluates (R217): the collision context, the input record, and the Jacobian's FRAC. -/
structure RefCtx where
  x : EvCtx
  c : CandRec
  fJ : Int
  wLim : Nat

/-- The links up to the root, from a link on. -/
def linkChain (m : Model) : Nat → Nat → List Nat
  | 0, _ => []
  | n + 1, l => match m.joints[l]? with
    | some j => l :: (if j.parent = 0xFF then [] else linkChain m n j.parent)
    | none => []

/-- The number of waypoint `k`, joint `j` among the variables: waypoint-major. -/
def wpVar (nj k j : Nat) : Nat := (k - 1) * nj + j

/-- The motion of a point of a link per unit of joint `j`: an axis of a prismatic joint, else the axis crossed with the arm in the format of a
position. Log entry 70 (DESIGN CHOICE, unsafe). -/
def pointMotion (j : Joint) (q : Pose) (p : List Int) : List Int × Int :=
  let col := fun (k : Nat) => [vi q.r k, vi q.r (3 + k), vi q.r (6 + k)]
  match j.typ with
  | 1 => (col 2, 30)
  | 2 => (col 0, 30)
  | 3 => (col 1, 30)
  | _ =>
    let a := col 2
    let d := vsub p q.t
    ([rshUp (vi a 1 * vi d 2 - vi a 2 * vi d 1) 30, rshUp (vi a 2 * vi d 0 - vi a 0 * vi d 2) 30,
      rshUp (vi a 0 * vi d 1 - vi a 1 * vi d 0) 30], 16)

/-- The level whose value a probe of a sphere centre uses (R138). -/
def usedLevel (x : EvCtx) (p : List Int) (r : Int) (q : Probe) : Lvl :=
  if !q.coarse then .fine
  else if 19742 < r + x.mp then .coarse
  else match readField x.v x.stale .fine p with
    | some f => if some (readDist .fine f.val - r) = q.clear then .fine else .coarse
    | none => .coarse

/-- SDF_SHORTFALL of a body sphere at a waypoint: its shortfall, and the gradient times the sphere's motion per joint (R217); none without a
shortfall. Log entry 70 (DESIGN CHOICE, unsafe). -/
def sdfRow (z : RefCtx) (wp : List (List Int)) (k n : Nat) : List Row :=
  let m := z.x.m
  let sp := m.spheres.getD n ⟨[0, 0, 0], 0⟩
  let link := (m.bound (boundOf m.bounds n)).link
  let poses := compose m (wp.getD k [])
  let p := place (poses.getD link Pose.id) sp.c
  let q := fieldProbe z.x p sp.r
  match q.clear with
  | none => []
  | some c =>
    if z.x.ds ≤ c then []
    else
      let g := if z.x.stale then [0, 0, 0] else readGrad z.x.v (usedLevel z.x p sp.r q) p
      let jac := (linkChain m 32 link).map (fun l =>
        let y := pointMotion (m.joints.getD l default) (poses.getD l Pose.id) p
        (wpVar m.joints.length k l, wb z.fJ (exact (-(dot g y.1), 20 + y.2))))
      let w := kernelW 0 z.x.wClear
      [{ w := w.1, r := (z.x.ds - c, 16), jac := jac.map (fun y => (y.1, y.2.1)), sat := w.2 || jac.any (fun y => y.2.2) }]
where
  /-- A joint that moves nothing. -/
  default : Joint := { typ := 0, parent := 0xFF, flags := 0, tOrg := [0, 0, 0], rOrg := rotId, qMin := 0, qMax := 0, vMax := 0, aMax := 0,
                       jMax := 0, fkSlack := 0 }

/-- Difference `d` (1 to 3) of a joint at waypoint `k`: its value, and its factors by waypoint. -/
def diffAt (wp : List (List Int)) (j k d : Nat) : Int × List (Nat × Int) :=
  let f : List Int := match d with | 1 => [1, -1] | 2 => [1, -2, 1] | _ => [1, -3, 3, -1]
  let l := (f.zip (List.range f.length)).map (fun x => (k - x.2, x.1))
  ((l.map (fun x => x.2 * vi (wp.getD x.1 []) j)).foldl (fun a b => a + b) 0, l)

/-- The Jacobian of a difference times `g`: a joint LSB counts 2^-FRAC units; waypoint 0 is no variable. -/
def diffJac (z : RefCtx) (j : Nat) (g : Int) (l : List (Nat × Int)) : List (Nat × ((Int × Int) × Bool)) :=
  let nj := z.x.m.joints.length
  let f := match z.x.m.joints[j]? with | some y => y.frac | none => 0
  (l.filter (fun x => x.1 != 0)).map (fun x => (wpVar nj x.1 j, wb z.fJ (exact (g * x.2, -(f : Int)))))

/-- A row of a difference. -/
def diffRow (z : RefCtx) (w : (Int × Int) × Bool) (j : Nat) (r : Int × Int) (g : Int) (l : List (Nat × Int)) : Row :=
  let jac := diffJac z j g l
  { w := w.1, r := r, jac := jac.map (fun y => (y.1, y.2.1)), sat := w.2 || jac.any (fun y => y.2.2) }

/-- JERK of a joint at a waypoint. -/
def jerkRow (z : RefCtx) (wp : List (List Int)) (k j : Nat) : Row :=
  let d := diffAt wp j k 3
  diffRow z (kernelW 1 (z.x.wSmooth.getD j 0)) j (d.1, 0) 1 d.2

/-- LIMIT of a difference that exceeds 15/16 of its step limit: the excess, in sixteenths of an LSB. -/
def limitRow (z : RefCtx) (wp : List (List Int)) (k j d : Nat) : List Row :=
  match z.x.m.joints[j]? with
  | none => []
  | some y =>
    let (v, a, jk) := stepLimits y z.c.dtUs
    let lim : Nat := match d with | 1 => v | 2 => a | _ => jk
    let x := diffAt wp j k d
    if 16 * x.1.natAbs ≤ 15 * lim then []
    else [diffRow z (kernelW 2 z.wLim) j (16 * (x.1.natAbs : Int) - 15 * lim, 4) (if x.1 < 0 then -1 else 1) x.2]

/-- The waypoints of an iterate: waypoint 0 is the input record's. -/
def refWp (z : RefCtx) (x : List Int) : List (List Int) :=
  let nj := z.x.m.joints.length
  z.c.wp.getD 0 [] :: (List.range 31).map (fun k => (List.range nj).map (fun j => vi x (k * nj + j)))

/-- Every row of a refinement at an iterate (R216, R217). -/
def refRows (z : RefCtx) (x : List Int) : List Row :=
  let wp := refWp z x
  let nj := z.x.m.joints.length
  let ks := (List.range 31).map (· + 1)
  let js := List.range nj
  (ks.filter (fun k => decide (z.c.pin ≤ k))).flatMap (fun k => (List.range z.x.m.spheres.length).flatMap (sdfRow z wp k)) ++
    (ks.filter (fun k => decide (3 ≤ k))).flatMap (fun k => js.map (jerkRow z wp k)) ++
    ks.flatMap (fun k => js.flatMap (fun j => ([1, 2, 3].filter (fun d => decide (d ≤ k))).flatMap (limitRow z wp k j)))

/-- The kernels that a class allows (R216). -/
def kernelOk (cls k : Nat) : Bool :=
  match cls with
  | 0 => k == 1 || k == 2 || k == 3
  | 1 => k == 4 || k == 5 || k == 6 || k == 7
  | _ => k == 4 || k == 7 || k == 8

/-- The rows of an ESTIMATE or BATCH problem after `n` steps, as its kernels give them. Log entry 13 (DESIGN CHOICE, safe). -/
def givenRows (cls : Nat) (o : SolveOut) (n : Nat) : List Row :=
  ((o.rows.getD n []).filter (fun r => kernelOk cls r.kernel.toNat)).map (fun r =>
    { w := r.w, r := r.r, jac := r.jac.map (fun y => (y.1.toNat, y.2)), sat := false })

/-! ### Assembly (R216, R217, R224) -/

/-- An assembled iterate: the cost, the system, and the first row whose write-back saturated. -/
structure Asm where
  f : Nat
  q : Sys
  range : Option Nat
  wSat : Bool

/-- F in units of 2^-32 of the cost unit, at most 96 bits: the exact sum over the rows, cut to the unit. Log entry 70 (DESIGN CHOICE, unsafe). -/
def costOf (l : List Row) : Nat :=
  min (2 ^ 96 - 1) ((l.foldl (fun (a : Int) (r : Row) => a + exactMul3 r.w r.r r.r) 0 / 2 ^ 208).toNat)

/-- The entry of a row for a variable. -/
def Row.at (r : Row) (v : Nat) : Int × Int := match r.jac.find? (fun y => y.1 == v) with | some y => y.2 | none => (0, 0)

/-- An element of JᵀJ. -/
def hElem (l : List Row) (u v : Nat) : Int := l.foldl (fun a r => a + exactMul3 r.w (r.at u) (r.at v)) 0

/-- An element of Jᵀr. -/
def gElem (l : List Row) (v : Nat) : Int := l.foldl (fun a r => a + exactMul3 r.w (r.at v) r.r) 0

/-- Assembles the rows of an iterate under a schedule's formats: pinned variables have the identity, the other diagonal elements DAMP. -/
def assemble (fm : SolveForm) (damp : Nat) (pin : Nat → Bool) (l : List Row) : Asm :=
  let vars := fm.vars.map (·.toNat)
  let n := vars.length
  let fa := fun (i j : Nat) => (fm.fA.getD i []).getD j 0
  let cell := fun (i j : Nat) =>
    let u := vars.getD i 0
    let v := vars.getD j 0
    if pin u ∨ pin v then wb (fa i j) (if i = j then 2 ^ fxBits.toNat else 0)
    else
      let d := if i = j then wbFp (fa i j) damp else ((0, fa i j), false)
      let x := wb (fa i j) (hElem l u v + exact d.1)
      (x.1, x.2 || d.2)
  let rows := (List.range n).map (fun i => (List.range (i + 1)).map (cell i))
  let b := (List.range n).map (fun i =>
    let v := vars.getD i 0
    wb (vi fm.fB i) (if pin v then 0 else -(gElem l v)))
  { f := costOf l, q := { fm := fm, a := rows.map (fun r => r.map (·.1)), b := b.map (·.1) }
    range := (List.range n).find? (fun i => (rows.getD i []).any (·.2) || (b.getD i ((0, 0), false)).2)
    wSat := l.any (·.sat) }

/-! ### The initial iterate (R228) -/

/-- Whether a warm start is asked for (R228, R233). -/
def warmOn (s : State) (t : Task) : Bool := memLe s (probOf t + 48) 8 != 0 && bit (memGet s (probOf t + 5)) 0

/-- Bytes between the two result slots: a block, rounded up to 64 bytes. Log entry 34 (DESIGN CHOICE, unsafe). -/
def slotStep (s : State) (p : Nat) : Nat := ceilDiv (64 + 4 * nvarAt s p) 64 * 64

/-- The problem descriptor whose results stand at an address: that of the image's SOLVE task with this OUT_ADDR.
Log entry 70 (DESIGN CHOICE, unsafe). -/
def sourceOf (s : State) (a : Nat) : Option Nat :=
  match s.plan.run with
  | some p => (p.solves.find? (fun x => x.1 == a)).map (fun x => paramNow s x.2 + 16)
  | none => none

/-- What a warm start finds: by variable the value of a match, and the first variable whose conversion saturated. -/
structure Warm where
  vals : List (Option Int)
  sat : Option Nat
  pattern : Bool

/-- How many variables match. -/
def Warm.matched (w : Warm) : Nat := (w.vals.filter (·.isSome)).length

/-- The effective IDs of a source, each with its place and FRAC. -/
def sourceIds (s : State) (p : Nat) : List (Nat × Nat × Int) := (List.range (nvarAt s p)).map (fun v => (varId s p v, v, varFrac s p v))

/-- The warm start of a task (R228): the values of the source slot that was valid at its release, by effective ID. -/
def warmOf (s : State) (t : Task) : Warm :=
  let n := nvarAt s (probOf t)
  let none' : Warm := { vals := List.replicate n none, sat := none, pattern := true }
  match sourceOf s (memLe s (probOf t + 48) 8), t.warm with
  | some p, k + 1 =>
    let blk := memLe s (probOf t + 48) 8 + k * slotStep s p
    let ids := sourceIds s p
    let l := (List.range n).map (fun v => match ids.find? (fun x => x.1 == varId s (probOf t) v) with
      | some x => some (wb (varFrac s (probOf t) v) (exact (memLeS s (blk + 64 + 4 * x.2.1) 4, x.2.2)))
      | none => none)
    { vals := l.map (fun x => x.map (fun y => y.1.1)), sat := l.findIdx? (fun x => match x with | some y => y.2 | none => false)
      pattern := memBytes s (schedOf s p + 8) 8 != memBytes s (schedOf s (probOf t) + 8) 8 }
  | _, _ => none'

/-- The value of a variable without a match: the kernel's prediction from a match of its group, else its default (R232). -/
def unmatched (s : State) (t : Task) (o : SolveOut) (w : Warm) (v : Nat) : Int :=
  match varPredict s (probOf t) v && w.matched != 0, o.pred.find? (fun x => x.1.toNat == v) with
  | true, some x => x.2.toInt
  | _, _ => varDefault s (probOf t) v

/-- The initial iterate: from the warm start where one is asked for, else from X_INIT_ADDR: the waypoints of the input record, or NVAR values. -/
def initialX (s : State) (t : Task) (o : SolveOut) (w : Warm) : List Int :=
  let n := nvarAt s (probOf t)
  let a := memLe s (probOf t + 40) 8
  if warmOn s t then (List.range n).map (fun v => ((w.vals.getD v none)).getD (unmatched s t o w v))
  else if probClass s t = 0 then ((recAt s a).wp.drop 1).flatten
  else (List.range n).map (fun v => memLeS s (a + 4 * v) 4)

/-! ### The loop (R224) -/

/-- CHK_TOL of a problem's schedule. -/
def chkTol (s : State) (t : Task) : Nat := memLe s (schedOf s (probOf t) + 48) 4

/-- The state of the loop: status, accepted iterate and cost, the initial cost, steps accepted, solves run, pivots raised with the first one's
variable, the last check maximum, the variables of the hard flags, whether a flag stopped it, and the row of a failed check. -/
structure Loop where
  status : Nat
  x : List Int
  f : Nat
  f0 : Nat
  iters : Nat
  solves : Nat
  reg : Nat
  regVar : Nat
  chk : Nat
  ill : Option Nat
  range : Option Nat
  fall : Bool
  badRow : Option Nat

/-- The variable ID of a row of a system. -/
def rowId (s : State) (t : Task) (fm : SolveForm) (i : Nat) : Nat := varId s (probOf t) ((fm.vars.getD i 0).toNat)

/-- The solve's flags enter the loop's record; a saturated weight has no variable (R236). Log entry 47 (DEDUCED, unsafe). -/
def noteSolve (s : State) (t : Task) (l : Loop) (q : Asm) (r : Solved) : Loop :=
  let id := rowId s t q.q.fm
  { l with solves := l.solves + 1, reg := l.reg + r.raised.length, chk := r.chk
           regVar := if l.reg = 0 then (match r.raised with | i :: _ => id i | [] => l.regVar) else l.regVar
           ill := if l.ill.isSome then l.ill else r.ill.map id
           range := if l.range.isSome then l.range
             else match q.range.map id, q.wSat with
               | some v, _ => some v
               | none, true => some 0xFFFFFFFF
               | none, false => r.range.map id }

/-- Up to `n` iterations from an assembled iterate; `asm` assembles the iterate after a number of steps. -/
def loopGo (s : State) (t : Task) (asm : Nat → List Int → Asm) : Nat → Loop → Asm → Loop
  | 0, l, _ => { l with status := 1 }
  | n + 1, l, q =>
    let r := solveSys q.q (pivOf s t)
    let l := noteSolve s t l q r
    if chkTol s t < r.chk then { l with status := 3, fall := true, badRow := some r.row }
    else if l.ill.isSome ∨ l.range.isSome ∨ (probClass s t = 0 ∧ !r.raised.isEmpty) then { l with status := 3, fall := true }
    else
      let nx := stepVars s (probOf t) (q.q.fm.vars.map (·.toNat)) r.x l.x
      if nx.2.isSome then { l with status := 3, fall := true, range := nx.2.map (varId s (probOf t)) }
      else
        let q' := asm (l.iters + 1) nx.1
        if l.f < q'.f then { l with status := 2 }
        else
          let prev := l.f
          let l := { l with x := nx.1, f := q'.f, iters := l.iters + 1 }
          if l.f ≤ absTol s t ∨ (prev - l.f) * 65536 ≤ relTol s t * prev then { l with status := 0 } else loopGo s t asm n l q'

/-- The refinement of a task, under the model of its generation. -/
def refCtx (s : State) (t : Task) (o : SolveOut) : Option RefCtx :=
  (modelOf s t.gen).map (fun m => { x := evCtx s m t, c := recAt s (memLe s (probOf t + 40) 8), fJ := o.form.fJ, wLim := wLimit s })

/-- The iterate after `n` steps, assembled. -/
def asmOf (s : State) (t : Task) (o : SolveOut) (n : Nat) (x : List Int) : Asm :=
  if probClass s t = 0 then
    match refCtx s t o with
    | some z => assemble o.form (dampOf s t) (fun v => decide (v / max 1 z.x.m.joints.length + 1 < z.c.pin)) (refRows z x)
    | none => assemble o.form (dampOf s t) (fun _ => false) []
  else assemble o.form (dampOf s t) (fun _ => false) (givenRows (probClass s t) o n)

/-- The loop of a problem. -/
def runLoop (s : State) (t : Task) (o : SolveOut) (w : Warm) : Loop :=
  let x := initialX s t o w
  let q := asmOf s t o 0 x
  let sat := if warmOn s t then w.sat.map (varId s (probOf t)) else none
  loopGo s t (asmOf s t o) (iterMax s t)
    { status := 1, x := x, f := q.f, f0 := q.f, iters := 0, solves := 0, reg := 0, regVar := 0xFFFFFFFF, chk := 0, ill := none,
      range := sat, fall := false, badRow := none } q

/-! ### Result blocks (R234) -/

/-- The slot that a new result goes to, with its number: the one that is not valid. Log entry 34 (DESIGN CHOICE, unsafe). -/
def newSlot (s : State) (t : Task) : Nat × Nat :=
  let a := memLe s (probOf t + 56) 8
  match s.psn.slots.find? (fun x => x.1 == a) with
  | some (_, 1, _) => (a + slotStep s (probOf t), 2)
  | _ => (a, 1)

/-- A slot becomes valid in this clk. -/
def slotValid (s : State) (t : Task) (slot : Nat) : State :=
  let a := memLe s (probOf t + 56) 8
  let own := (s.psn.slots.filter (fun x => x.1 == a)).take 3
  { s with psn := { s.psn with slots := (a, slot, s.now) :: own ++ s.psn.slots.filter (fun x => x.1 != a) } }

/-- RFLAGS. -/
def rflags (s : State) (t : Task) (w : Warm) (l : Loop) : Nat :=
  let on := warmOn s t
  b2n (decide (l.reg ≠ 0)) + 2 * b2n l.ill.isSome + 4 * b2n l.range.isSome + 16 * b2n (on && w.pattern) +
    32 * b2n (on && w.matched == 0) + 64 * b2n (on && w.matched != 0 && decide (w.matched < nvarAt s (probOf t))) +
    128 * b2n t.resumed + 256 * b2n (l.fall && probClass s t == 0)

/-- MATCHED; 0 without a warm start. -/
def matchedOf (s : State) (t : Task) (w : Warm) : Nat := if warmOn s t then w.matched else 0

/-- The result block. -/
def resultBlock (s : State) (t : Task) (w : Warm) (l : Loop) : Bytes :=
  leBytes 4 0x50535252 ++ [l.status, 0] ++ leBytes 2 (rflags s t w l) ++ leBytes 4 t.cycle ++ [l.iters, l.solves] ++ leBytes 2 (sat 16 l.reg) ++
    leBytes 4 l.regVar ++ leBytes 4 (matchedOf s t w) ++ memBytes s (schedOf s (probOf t) + 8) 8 ++ leBytes 12 l.f0 ++
    leBytes 12 l.f ++ leBytes 4 l.chk ++ leBytes 4 (nvarAt s (probOf t)) ++ l.x.flatMap (fun v => leBytes 4 (ofSigned 32 v))

/-- The refined candidate record (R124, R217, R225): waypoints 1 to 31 of the accepted iterate in place of the input's; REFINED when a
step was accepted. -/
def refinedRec (s : State) (t : Task) (l : Loop) : Bytes :=
  let a := memLe s (probOf t + 40) 8
  let nj := min 32 (memGet s (a + 12))
  let b := memBytes s a (recLen nj)
  if l.iters = 0 then b
  else
    let b := putAt b 14 (leBytes 2 (getLe b 14 2 ||| 16))
    putAt b (32 + 4 * nj) ((l.x.take (31 * nj)).flatMap (fun v => leBytes 4 (ofSigned 32 v)))

/-! ### Counts and events -/

/-- The counts of a run (R238, R239): solves by Parsnip, iterations accepted. -/
def noteCounts (s : State) (u : Nat) (l : Loop) : State :=
  let p := s.psn
  psnAdd { s with psn := { p with unitSolves := cntPut p.unitSolves (unitNo u) (cnt p.unitSolves (unitNo u) + l.solves) } } 4 l.iters

/-- The soft counts and events of a run: raised pivots, cold start, saturations, divergence. -/
def noteRun (s : State) (u : Nat) (t : Task) (w : Warm) (l : Loop) : State :=
  let s := psnAdd s 3 l.reg
  let k := probWord s t
  let s := if l.reg = 0 then s
    else { s with psn := { s.psn with regProblems := s.psn.regProblems + 1, regPivots := s.psn.regPivots + l.reg } }
  let s := if warmOn s t ∧ w.matched = 0 then raise s 0x0806 u k 0 else s
  let s := match l.ill with | some v => raise s 0x0804 u v k | none => s
  let s := match l.range with | some v => raise s 0x0805 u v k | none => s
  if l.status = 2 then raise s 0x0807 u k (l.iters + 1) else s

/-! ### Discards (R225, R226) -/

/-- Open problems whose deadline is phase `g` of this cycle or lies behind it. -/
def deadlineTasks (s : State) (g : Nat) : List (Option Nat × Task) :=
  (openTasks s).filter (fun x =>
    let c := x.2.cycle + memLe s (probOf x.2 + 36) 2
    x.2.desc.cls == 4 && (decide (c < s.phu.cycle) || (decide (c = s.phu.cycle) && decide (memLe s (probOf x.2 + 38) 2 ≤ g))))

/-- The deadline gate at phase `g` (R226). Log entry 54 (DEDUCED, unsafe). -/
def psnDeadline (s : State) (g : Nat) : State :=
  (deadlineTasks s g).foldl (fun s x =>
    let u := x.1.getD 0xFFFF
    let (n, s) := cutRun s x.2 u
    endFailed (removeTask (regCount (psnDiscard s u x.2 n) Reg.psnDlMiss) x.2) x.2 u) s

/-- A solve fails its residual check (R223, R227): re-run once, then the problem ends under R226 with the iterations it has accepted. -/
def residualFail (s : State) (u : Nat) (t : Task) (row iters : Nat) : State :=
  let s := regCount (raise s 0x0802 u u row) Reg.psnChkFail
  let s := if t.rerun ∨ !t.desc.rerunEn then psnDiscard s u t iters else s
  failTask (slotNext (dropStalls s u) u) t u

/-! ### Completion -/

/-- Variable `v` of a result as a number of `frac` fraction bits. -/
def varAs (s : State) (t : Task) (l : Loop) (frac : Int) (v : Nat) : Int :=
  (wb frac (exact (vi l.x v, varFrac s (probOf t) v))).1.1

/-- The newest state of a delivered estimate becomes the base pose of its boundary (R218, R55, R98): its position, and the yaw that its last
orientation increment is applied to. Log entry 70 (DESIGN CHOICE, unsafe). -/
def takeBase (s : State) (t : Task) (l : Loop) (newest : Option (BitVec 20 × BitVec 32)) : State :=
  match newest, s.model.cur with
  | some (v, yaw), some m =>
    if !bit (regF s Reg.mrwCtrl) 1 ∧ t.cycle = s.phu.cycle then
      let b := [varAs s t l 16 v.toNat, varAs s t l 16 (v.toNat + 1), yaw.toInt + varAs s t l 28 (v.toNat + 5)]
      let links := if m.planar then compose m (b ++ s.model.latched.drop 3) else (compose m s.model.latched).map (Pose.mul (yawPose b))
      { s with world := { s.world with poses := s.world.poses.map (fun x => if x.cycle = t.cycle then { x with poses := links } else x) } }
    else s
  | _, _ => s

/-- The status registers of a delivered result. -/
def noteResult (s : State) (t : Task) (l : Loop) : State :=
  match probClass s t with
  | 0 => psnAdd (psnAdd s 0 1) 2 (b2n l.fall)
  | 1 => { s with psn := { s.psn with estMiss := 0, estIters := l.iters, estStatus := l.status, estReg := sat 16 l.reg } }
  | _ => { s with psn := { s.psn with bgStatus := l.status, bgIters := l.iters, bgCycle := t.cycle } }

/-- A result is written: the block into the slot that is not valid, a refinement's record, the slot valid, an estimate's base pose. -/
def writeResult (s : State) (t : Task) (o : SolveOut) (w : Warm) (l : Loop) : State :=
  let (a, slot) := newSlot s t
  let blk := resultBlock s t w l
  let rf := refinedRec s t l
  let s := memPut s a blk
  let s := if probClass s t = 0 then memPut s (memLe s (probOf t + 40) 8) rf else s
  let s := noteResult (slotValid s t slot) t l
  if probClass s t = 1 then takeBase s t l o.newest else s

/-- A SOLVE task completes (R223, R225, R234, R239). With REFINE_EN = 0 a REFINE output is its input candidate. A flagged ESTIMATE or BATCH
result is discarded, and its task ends failed. -/
def solveWork (s : State) (u : Nat) (t : Task) (o : SolveOut) (k : State → Nat → Nat → State) : State :=
  let w := warmOf s t
  let l := runLoop s t o w
  let cls := probClass s t
  let src := memLe s (probOf t + 40) 8
  let a := (newSlot s t).1
  let n := (resultBlock s t w l).length
  if cls = 0 ∧ !bit (regF s Reg.psnCtrl) 0 then k (psnAdd s 0 1) src 1
  else if !windowOk s a n ∨ (cls = 0 ∧ !windowOk s src (refinedRec s t l).length) then windowFault s u
  else if l.badRow.isSome then residualFail (noteCounts s u l) u t (l.badRow.getD 0) l.iters
  else
    let s := noteRun (noteCounts s u l) u t w l
    if cls ≠ 0 ∧ (l.ill.isSome ∨ l.range.isSome) then
      let s := psnDiscard s u t l.iters
      endFailed (slotNext (dropStalls s u) u) t u
    else k (writeResult s t o w l) a (if cls = 0 then 1 else n)

/-! ### Schedules (R230, R231) -/

/-- Bytes of the tile map: from its offset to the next part of the schedule. Log entry 70 (DESIGN CHOICE, unsafe). -/
def tileMapLen (s : State) (a : Nat) : Nat :=
  let o := memLe s (a + 28) 4
  let ends := [memLe s (a + 24) 4, memLe s (a + 32) 4, memLe s (a + 56) 4].filter (fun x => decide (o < x))
  ends.foldl min (memLe s (a + 56) 4) - o

/-- PHASH of a schedule: SHA-256 over the tile map and the variable table, its first 8 bytes (R230). -/
def patternHash (s : State) (a : Nat) : Bytes :=
  (sha256 (memBytes s (a + memLe s (a + 28) 4) (tileMapLen s a) ++ memBytes s (a + memLe s (a + 24) 4) (12 * memLe s (a + 16) 4))).take 8

/-- Why a schedule is refused (R231), the lowest reason first; 0 accepts. `kernels` are those that its operation list uses, which only the
Parsnips read. Log entry 13 (DESIGN CHOICE, safe). -/
def schedReject (s : State) (a : Nat) (kernels : List Nat) : Nat :=
  let g := fun (o n : Nat) => memLe s (a + o) n
  let total := g 56 4
  if g 0 4 ≠ 0x50534348 ∨ g 4 2 ≠ 1 then 1
  else if g 16 4 = 0 ∨ 1048576 < g 16 4 ∨ g 42 1 = 0 ∨ 8 < g 42 1 ∨ g 40 2 = 0 ∨ 1024 < g 40 2 then 2
  else if total < g 24 4 ∨ total < g 28 4 ∨ total < g 32 4 ∨ total < g 32 4 + g 36 4 then 3
  else if memBytes s (a + 8) 8 ≠ patternHash s a then 4
  else if kernels.any (fun k => !kernelOk (g 6 1) k) then 5
  else 0

/-! ### The boundary (R236, R238) -/

/-- The weights of the kernels in force: their places, 0 W_CLEAR, 1 to 32 W_SMOOTH, 33 W_LIMIT, kernels and values. -/
def kernelWeights (s : State) : List (Nat × Nat × Nat) :=
  (0, 0, objN s 0x2500 4) :: (List.range 32).map (fun j => (j + 1, 1, objN s 0x2501 (j + 1))) ++ [(33, 2, wLimit s)]

/-- The weights are converted to their kernels' formats; one that newly saturates raises event 0x0805 (R236). -/
def weightConv (s : State) : State :=
  let bad := ((kernelWeights s).filter (fun x => (kernelW x.2.1 x.2.2).2)).map (·.1)
  let new := bad.filter (fun i => !s.psn.badW.contains i)
  new.foldl (fun s _ => raise s 0x0805 0xFFFF 0xFFFFFFFF 0) { s with psn := { s.psn with badW := bad } }

/-- The BATCH problem that is under way. -/
def batchOpen (s : State) : Option Task := ((openTasks s).find? (fun x => x.2.desc.cls == 4 && probClass s x.2 == 2)).map (·.2)

/-- PSN_EST_STAT. -/
def estStat (s : State) : Nat := s.psn.estMiss * 2 ^ 16 + s.psn.estIters * 2 ^ 8 + s.psn.estStatus

/-- PSN_BG_STAT: the steps accepted so far are those at the last slice's end. Log entry 70 (DESIGN CHOICE, unsafe). -/
def bgStat (s : State) : Nat :=
  match batchOpen s with
  | some t => sat 16 (s.phu.cycle - t.cycle) * 2 ^ 16 + (if t.resumed then s.psn.bgIters else 0) * 2 ^ 8 + 0xFF
  | none => (if s.psn.bgStatus = 0xFF then 0 else sat 16 (s.phu.cycle - s.psn.bgCycle)) * 2 ^ 16 + s.psn.bgIters * 2 ^ 8 + s.psn.bgStatus

/-- The "last cycle" registers load, and the cycle's event 0x0803 is raised with its totals (R237). -/
def psnBoundary (s : State) : State :=
  let p := s.psn
  let s := if p.regProblems = 0 then s else raise s 0x0803 0xFFFF p.regProblems p.regPivots
  let s := regSet s Reg.psnCycRefine (sat 16 (cnt p.cyc 1) * 2 ^ 16 + sat 16 (cnt p.cyc 0))
  let s := regSet s Reg.psnCycFlags (sat 16 (cnt p.cyc 2) * 2 ^ 16 + sat 16 (cnt p.cyc 3))
  let s := regSet s Reg.psnCycIter (sat 32 (cnt p.cyc 4))
  let s := (List.range 18).foldl (fun s u =>
    regSet s (Reg.psnUnit + 4 * u) (sat 16 (cnt p.unitBusy u / 64) * 2 ^ 16 + sat 16 (cnt p.unitSolves u))) s
  { s with psn := { s.psn with cyc := [], unitBusy := [], unitSolves := [], regProblems := 0, regPivots := 0,
                               pivLast := cnt p.cyc 3, estLast := p.estStatus } }

end Sys2Proof.Machine
end

