-- ==== Sys2Proof/Machine/Plan.lean ====
section
/-!
DEFINITION. Standing programs (R293 to R315): reading and checking a plan image, its relocation into the plan banks, the switch, and
parameter edits.
-/
namespace Sys2Proof.Machine

/-! ### The image (R293, R294) -/

/-- The header of an image in memory, as far as its checks need it. -/
structure Img where
  addr : Nat
  ctrPlan : Nat
  ngate : Nat
  ntask : Nat
  queuePlan : Nat
  minPods : Nat
  nset : Nat
  nregion : Nat
  nedit : Nat
  gateOff : Nat
  ctrOff : Nat
  taskOff : Nat
  queueOff : Nat
  paramOff : Nat
  paramLen : Nat
  minOff : Nat
  slotOff : Nat
  regionOff : Nat
  setOff : Nat
  editOff : Nat
  total : Nat
  deriving DecidableEq, Repr

/-- The header of the image at `a` (R293). -/
def imgAt (s : State) (a : Nat) : Img :=
  let g := fun (o n : Nat) => memLe s (a + o) n
  { addr := a, ctrPlan := g 40 2, ngate := g 42 2, ntask := g 44 4, queuePlan := g 48 4, minPods := g 56 1, nset := g 58 2,
    nregion := g 60 2, nedit := g 62 2, gateOff := g 64 4, ctrOff := g 68 4, taskOff := g 72 4, queueOff := g 76 4, paramOff := g 80 4,
    paramLen := g 84 4, minOff := g 88 4, slotOff := g 92 4, regionOff := g 96 4, setOff := g 100 4, editOff := g 104 4, total := g 108 4 }

/-- Bytes of the signature that follows an image (R296). -/
def sigLen : Nat := 7856

/-- Offset and length of each section in the order of R294. -/
def imgSections (i : Img) : List (Nat × Nat) :=
  [(i.gateOff, 4 * i.ngate), (i.ctrOff, 8 * i.ctrPlan), (i.taskOff, 64 * i.ntask), (i.queueOff, 32 * i.queuePlan),
   (i.paramOff, i.paramLen), (i.minOff, 68), (i.slotOff, 1024), (i.regionOff, 32 * i.nregion), (i.setOff, 12 * i.nset),
   (i.editOff, 16 * i.nedit)]

/-- Whether the sections follow each other from `p` on, each at a multiple of 128, up to `e`. -/
def sectionsIn (e : Nat) : Nat → List (Nat × Nat) → Bool
  | p, [] => decide (p ≤ e)
  | p, (o, n) :: t => decide (p ≤ o) && decide (o % 128 = 0) && sectionsIn e (o + n) t

/-- Reason 1 (R300): MAGIC, FORMAT, a count, TOTAL_LEN or a section offset is out of range. Log entry 28 (DEDUCED, unsafe). -/
def imgBadHeader (s : State) (i : Img) (len : Nat) : Bool :=
  memLe s i.addr 4 != 0x504C414E || memLe s (i.addr + 4) 2 != 1 ||
  i.total % 128 != 0 || decide (16777216 < i.total) || decide (len < i.total + sigLen) ||
  i.ctrPlan == 0 || i.ngate == 0 || decide (4096 < i.ngate) || decide (2 ^ 20 < i.queuePlan) || i.minPods == 0 ||
  decide (64 < i.minPods) || decide (127 < i.nregion) || decide (4096 < i.nedit) || !sectionsIn i.total 128 (imgSections i)

/-- Region `r` of the image (R297), 1 to NREGION. -/
def imgRegion (s : State) (i : Img) (r : Nat) : Region :=
  let a := i.addr + i.regionOff + 32 * (r - 1)
  { loc := memGet s a, carry := bit (memGet s (a + 1)) 0, zero := bit (memGet s (a + 1)) 1, size := memLe s (a + 4) 4,
    addr := memLe s (a + 8) 8 }

/-- The regions of the image. -/
def imgRegions (s : State) (i : Img) : List Region := (List.range i.nregion).map (fun r => imgRegion s i (r + 1))

/-! ### Address fields (R295) -/

/-- Region number of an address field. -/
def regionNo (x : Nat) : Nat := field x 56 7
/-- Offset of an address field within its region. -/
def regionOffs (x : Nat) : Nat := field x 0 56

/-- Whether an address field is in region form and within its region. -/
def addrOk (s : State) (i : Img) (x : Nat) : Bool :=
  bit x 63 && decide (regionNo x ≤ i.nregion) &&
  decide (regionOffs x < (if regionNo x = 0 then i.paramLen else (imgRegion s i (regionNo x)).size))

/-- The physical address of an address field; `param` is where the parameter section stands. -/
def addrOf (s : State) (i : Img) (param x : Nat) : Nat :=
  if regionNo x = 0 then param + regionOffs x else (imgRegion s i (regionNo x)).addr + regionOffs x

/-- Offsets in a parameter block that its operator marks as addresses (R304). -/
def opFields (op : Nat) : List Nat :=
  match op with
  | 0x0101 => [16, 24, 32, 40]
  | 0x0102 => [16, 32]
  | 0x0201 => [24, 40, 48]
  | 0x0301 => [24, 32, 40, 56, 64, 72, 80]
  | 0x0401 => [24, 32, 40]
  | 0x0402 => [24, 32]
  | 0x0702 => [16, 24]
  | 0x0801 => [16, 32]
  | _ => []

/-- Class and levels of an operator of the catalogue (R304). -/
def opRow (op : Nat) : Option (Nat × List Nat) :=
  match op with
  | 0x0101 => some (1, [1])
  | 0x0102 => some (1, [1, 3])
  | 0x0201 => some (5, [1, 3])
  | 0x0301 => some (4, [1, 3])
  | 0x0401 | 0x0402 => some (3, [1, 2, 3])
  | 0x0501 | 0x0502 | 0x0503 | 0x0504 => some (6, [1, 2])
  | 0x0601 => some (7, [0])
  | 0x0701 => some (0x0B, [1])
  | 0x0702 => some (0x0B, [1, 2, 3])
  | 0x0801 => some (0x0C, [1, 2, 3])
  | _ => none

/-! ### Descriptors -/

/-- Counter word n of the image. -/
def imgCtr (s : State) (i : Img) (n : Nat) : Nat := memLe s (i.addr + i.ctrOff + 8 * n) 8

/-- Image offsets of the descriptors that counter n releases. -/
def imgList (s : State) (i : Img) (n : Nat) : List Nat :=
  let w := imgCtr s i n
  (List.range (field w 32 8)).map (fun k => i.taskOff + 128 * field w 40 20 + 64 * k)

/-- Image offsets of every descriptor. -/
def imgTasks (s : State) (i : Img) : List Nat := ((List.range i.ctrPlan).flatMap (imgList s i)).eraseDups

/-- The descriptor at an image offset. -/
def imgDesc (s : State) (i : Img) (o : Nat) : Desc := descOf (memBytes s (i.addr + o) 64)

/-- Address, within the image, of the parameter block of a descriptor. -/
def imgBlock (i : Img) (d : Desc) : Nat := i.addr + i.paramOff + regionOffs d.param

/-- Address fields of a descriptor's parameter block by offset in the section, with their values; a WARM_ADDR of 0 names no source
(R233). The entries of a selection's list table are fields when the table stands in the section. Log entry 28 (DEDUCED, unsafe). -/
def blockFields (s : State) (i : Img) (d : Desc) : List (Nat × Nat) :=
  let b := imgBlock i d
  let o := regionOffs d.param
  let l := (opFields d.opId).map (fun f => (o + f, memLe s (b + f) 8))
  let l := if d.opId = 0x0301 then l.filter (fun p => !(p.1 == o + 64 && p.2 == 0)) else l
  let t := memLe s (b + 40) 8
  if d.opId = 0x0201 ∧ bit t 63 ∧ regionNo t = 0 ∧ regionOffs t + 16 * memLe s (b + 36) 4 ≤ i.paramLen then
    l ++ (List.range (memLe s (b + 36) 4)).map (fun k =>
      (regionOffs t + 16 * k, memLe s (i.addr + i.paramOff + regionOffs t + 16 * k) 8))
  else l

/-- Whether the PFLAGS of a descriptor's block are among those of R305. -/
def pflagsOk (s : State) (i : Img) (d : Desc) : Bool :=
  let b := imgBlock i d
  let f := memGet s (b + 3)
  (!bit f 0 || (d.opId == 0x0201 && memGet s (b + 16) == 0 && d.crit == 3)) && (!bit f 1 || (d.opId == 0x0102 && d.crit == 3)) &&
  (!bit f 2 || d.opId == 0x0102) && (!bit f 3 || d.opId == 0x0101 || d.opId == 0x0201) && decide (f < 16)

/-- Whether a descriptor passes reason 6. Log entry 28 (DEDUCED, unsafe). -/
def descOk (s : State) (i : Img) (o : Nat) : Bool :=
  let d := imgDesc s i o
  decide (o + 64 ≤ i.queueOff) && descReject d false == 0 &&
  (match opRow d.opId with | some (c, l) => c == d.cls && l.contains d.crit | none => false) &&
  addrOk s i d.param && regionNo d.param == 0 && decide (regionOffs d.param % 64 = 0) && pflagsOk s i d &&
  (blockFields s i d).all (fun p => addrOk s i p.2)

/-- Descriptors of an operator with the MAIN flag. -/
def mainOf (s : State) (i : Img) (op : Nat) (l : List Nat) : List Nat :=
  l.filter (fun o => let d := imgDesc s i o; d.opId == op && bit (memGet s (imgBlock i d + 3)) 3)

/-- The gate table of the image. -/
def imgGates (s : State) (i : Img) : List (Nat × Nat) :=
  (List.range i.ngate).map (fun k => let w := memLe s (i.addr + i.gateOff + 4 * k) 4; (w / 65536, w % 65536))

/-- Whether gates ascend in phase. -/
def ascending : List (Nat × Nat) → Bool
  | a :: b :: t => decide (a.1 ≤ b.1) && ascending (b :: t)
  | _ => true

/-- Whether the gate table keeps R294. -/
def gatesOk (i : Img) (l : List (Nat × Nat)) : Bool :=
  ascending l && l.all (fun g => decide (g.2 < i.ctrPlan)) &&
  l.all (fun g => decide ((l.filter (fun h => h.1 == g.1)).length ≤ 64))

/-- Record of queue q in the image. -/
def imgQueue (s : State) (i : Img) (q : Nat) : Bytes := memBytes s (i.addr + i.queueOff + 32 * q) 32

/-- Settings of the image: index, sub-index, value. -/
def imgSettings (s : State) (i : Img) : List (Nat × Nat × Nat) :=
  (List.range i.nset).map (fun k =>
    let a := i.addr + i.setOff + 12 * k
    (memLe s a 2, memGet s (a + 2), memLe s (a + 4) 8))

/-- Whether an object is loaded from the plan image. -/
def fromPlan (x : Nat × Nat × Nat) : Bool := match objFind x.1 x.2.1 with | some o => o.plan | none => false

/-- Reason 6. -/
def imgBadContent (s : State) (i : Img) : Bool :=
  let l := imgTasks s i
  !gatesOk i (imgGates s i) || !l.all (descOk s i) || decide (1 < (mainOf s i 0x0101 l).length) ||
  decide (1 < (mainOf s i 0x0201 l).length) ||
  (List.range i.queuePlan).any (fun q => let b := imgQueue s i q; !addrOk s i (getLe b 0 8) || getLe b 8 8 != 0) ||
  !(imgSettings s i).all fromPlan

/-- Reason 7: the lowest reason of R231 over the schedules of the image; `kernels` are those that an operation list uses, by TASK_ID.
Log entry 13 (DESIGN CHOICE, safe). -/
def imgSchedReason (s : State) (i : Img) (kernels : List (Nat × List Nat)) : Nat :=
  ((imgTasks s i).map (fun o =>
    let d := imgDesc s i o
    if d.opId = 0x0301 then
      schedReject s (addrOf s i (i.addr + i.paramOff) (memLe s (imgBlock i d + 24) 8))
        ((kernels.filter (fun x => x.1 == d.taskId)).flatMap (·.2))
    else 0)).foldl (fun m r => if r = 0 then m else if m = 0 then r else min m r) 0

/-! ### Regions (R297) -/

/-- Whether [a, a + n) and [b, b + m) overlap. -/
def overlap (a n b m : Nat) : Bool := decide (a < b + m) && decide (b < a + n) && n != 0 && m != 0

/-- Reserved areas of DDR5 (R331): the device area, the queue table, and the record ring while recording into it is set.
Log entry 28 (DEDUCED, unsafe). -/
def ddrReserved (s : State) : List (Nat × Nat) :=
  [(devArea s, ddrBytes s - devArea s), (qRec s 0, 32 * 2 ^ 20)] ++
  (if bit (regF s Reg.detCtrl) 1 then
    [(regF s Reg.detRecAddrHi % 256 * 2 ^ 32 + regF s Reg.detRecAddrLo, regF s Reg.detRecSize * 2 ^ 20)] else [])

/-- Whether a region lies in its location, outside every reserved area. -/
def regionPlaced (s : State) (r : Region) : Bool :=
  r.size % 64 == 0 &&
  match r.loc with
  | 0 | 1 => decide (ssBase r.loc ≤ r.addr) && decide (r.addr + r.size ≤ ssBase r.loc + areaOff s 4)
  | 2 => inDdr s r.addr r.size && (ddrReserved s).all (fun p => !overlap r.addr r.size p.1 p.2)
  | _ => false

/-- Whether no region overlaps a later one of the list. -/
def apart : List Region → Bool
  | [] => true
  | r :: t => t.all (fun x => !overlap r.addr r.size x.addr x.size) && apart t

/-- Whether two regions of successive images may coincide: both carried, at one place. -/
def carried (r x : Region) : Bool := r.carry && x.carry && r.loc == x.loc && r.addr == x.addr && r.size == x.size

/-- Reason 8. -/
def imgBadRegions (s : State) (i : Img) : Bool :=
  let l := imgRegions s i
  !l.all (regionPlaced s) || !apart l ||
  (match s.plan.run with
   | none => false
   | some p => l.any (fun r => p.regions.any (fun x => overlap r.addr r.size x.addr x.size && !carried r x)))

/-! ### The checks (R300) -/

/-- MODEL_DIGEST of the image. -/
def imgModel (s : State) (i : Img) : Bytes := memBytes s (i.addr + 16) 16
/-- IFLAGS.STRUCTURAL. -/
def imgStructural (s : State) (i : Img) : Bool := bit (memGet s (i.addr + 7)) 0

/-- Reason 5. -/
def imgBadModel (s : State) (i : Img) : Bool :=
  let d := imgModel s i
  let staged := match s.model.pend with
    | some m => (s.model.status == .staged || s.model.status == .deferred) && m.digest == d
    | none => false
  if imgStructural s i then !(staged && s.model.pendSwitch == s.plan.pendSwitch)
  else !(staged || (match s.model.cur with | some m => m.digest == d | none => false))

/-- First 8 bytes of SHA-256 over the provisioned plan-signing key. Log entry 21 (DESIGN CHOICE, unsafe). -/
def planKeyId (s : State) : Bytes := match s.svc.planKey with | some k => (sha256 k).take 8 | none => []

/-- A signature under the provisioned plan-signing key (R296, R497). -/
def planSigned (s : State) (m sig : Bytes) : Bool := match s.svc.planKey with | some k => slhVerify k m sig | none => false

/-- Reason 2: KEY_ID or the signature, which follows the signed bytes at TOTAL_LEN (R296). -/
def imgBadSig (s : State) (i : Img) : Bool :=
  memBytes s (i.addr + 112) 8 != planKeyId s || !planSigned s (memBytes s i.addr i.total) (memBytes s (i.addr + i.total) sigLen)

/-- Minimum ACTIVE count of class c on stack k. -/
def imgMin (s : State) (i : Img) (c k : Nat) : Nat := memLe s (i.addr + i.minOff + 4 * c + 2 * k) 2

/-- Reason 9. -/
def imgShort (s : State) (i : Img) : Bool :=
  (List.range 17).any (fun c => [0, 1].any (fun k => decide (activeCount s c k < imgMin s i c k))) ||
  decide ((podsInService s).length < i.minPods)

/-- The lowest reason for which the image is refused, with its sub-reason; 0 accepts. Log entry 28 (DEDUCED, unsafe). -/
def imgReason (s : State) (kernels : List (Nat × List Nat)) : Nat × Nat :=
  let i := imgAt s s.plan.pendAddr
  if imgBadHeader s i s.plan.pendLen then (1, 0)
  else if imgBadSig s i then (2, 0)
  else if memGet s (i.addr + 6) ≠ s.svc.grade then (3, 0)
  else if declNs s < memLe s (i.addr + 32) 4 then (4, 0)
  else if imgBadModel s i then (5, 0)
  else if imgBadContent s i then (6, 0)
  else
    let r := imgSchedReason s i kernels
    if r ≠ 0 then (7, r)
    else if imgBadRegions s i then (8, 0)
    else if imgShort s i then (9, 0)
    else if objN s 0x2B00 0x0C * 1024 < i.total + i.paramLen then (12, 0)
    else (0, 0)

/-! ### Relocation (R299) -/

/-- The idle bank of each stack. -/
def idleBank (s : State) : Nat := if s.plan.run.isSome then 1 - s.plan.bank else s.plan.bank

/-- Offset of the idle bank within a stack. -/
def bankOff (s : State) : Nat := areaOff s 0 + idleBank s * (objN s 0x2B00 0x0C * 1024)

/-- The image written into the idle bank of a stack: the image, its parameter section a second time after it, and every address
replaced; an address in the section points into the same copy of it. Log entry 28 (DEDUCED, unsafe). -/
def imgInstall (s : State) (i : Img) (k : Nat) : State :=
  let base := ssBase k + bankOff s
  let par := base + i.paramOff
  let s1 := memPut (memPut s base (memBytes s i.addr i.total)) (base + i.total) (memBytes s (i.addr + i.paramOff) i.paramLen)
  (imgTasks s i).foldl (fun t o =>
    let d := imgDesc s i o
    let t := memPutLe t (base + o + 8) 8 (addrOf s i par d.param)
    (blockFields s i d).foldl (fun t p =>
      memPutLe (memPutLe t (par + p.1) 8 (addrOf s i par p.2)) (base + i.total + p.1) 8 (addrOf s i (base + i.total) p.2)) t) s1

/-- A counter word with DEP_LINE counted from the start of the shared store. -/
def rebase (line w : Nat) : Nat := wordSet w (field w 40 20 + line)
where
  /-- The word with another DEP_LINE. -/
  wordSet (w l : Nat) : Nat := w - field w 40 20 * 2 ^ 40 + l % 2 ^ 20 * 2 ^ 40

/-- A model slot entry (R298). -/
def imgSlot (s : State) (i : Img) (k : Nat) : Slot :=
  let a := i.addr + i.slotOff + 64 * k
  let f := memGet s (a + 46)
  { wdigest := memBytes s a 32, tiling := memLe s (a + 32) 8, allowKb := memLe s (a + 40) 4, dlGate := memLe s (a + 44) 2,
    used := bit f 0, stream := bit f 1, adaptable := bit f 2, nalt := memGet s (a + 47), serveCyc := memGet s (a + 48) }

/-- An edit entry (R307). -/
def imgEdit (s : State) (i : Img) (k : Nat) : EditEntry :=
  let a := i.addr + i.editOff + 16 * k
  { id := memLe s a 2, width := memGet s (a + 2), kind := memGet s (a + 3), off := memLe s (a + 4) 4, lo := memLe s (a + 8) 4,
    hi := memLe s (a + 12) 4 }

/-- Tile tasks of each model slot: the distinct parameter blocks of the image's Cob tasks that name it (R255). Log entry 52 (DEDUCED, unsafe). -/
def imgTiles (s : State) (i : Img) : List Nat :=
  let b := (((imgTasks s i).map (imgDesc s i)).filter (fun d => d.cls == 3)).map (imgBlock i)
  (List.range 16).map (fun k => (b.eraseDups.filter (fun a => memGet s (a + 16) == k)).length)

/-- OUT_ADDR and parameter block of each SOLVE task, as they stand once the image is relocated (R228, R233). -/
def imgSolves (s : State) (i : Img) (par : Nat) : List (Nat × Nat) :=
  (((imgTasks s i).map (imgDesc s i)).filter (fun d => d.opId == 0x0301)).map (fun d =>
    (addrOf s i par (memLe s (imgBlock i d + 72) 8), par + regionOffs d.param))

/-- TASK_ID, END_BY and END_CYC of each task of levels 0 and 1: the Husk's copy (R286). -/
def imgEnds (s : State) (i : Img) : List (Nat × Nat × Nat) :=
  (((imgTasks s i).map (imgDesc s i)).filter (fun d => decide (d.crit < 2))).map (fun d => (d.taskId, d.endBy, d.endCyc))

/-- The plan that the image gives once it stands in the idle banks. Log entry 28 (DEDUCED, unsafe). -/
def imgPlan (s : State) (i : Img) : Plan :=
  let base := bankOff s
  let par := ssBase 0 + base + i.paramOff
  let l := imgTasks s i
  let block := fun (x : Option Nat) => x.map (fun o => par + regionOffs (imgDesc s i o).param)
  { grade := memGet s (i.addr + 6), structural := imgStructural s i, imageId := memLe s (i.addr + 8) 8, modelDigest := imgModel s i,
    dtUs := memLe s (i.addr + 36) 4, ctrPlan := i.ctrPlan, queuePlan := i.queuePlan,
    evalStart := memLe s (i.addr + 52) 2, evalEnd := memLe s (i.addr + 54) 2, minPods := i.minPods, gates := imgGates s i,
    ctrWords := (List.range i.ctrPlan).map (fun n => rebase ((base + i.taskOff) / 128) (imgCtr s i n))
    queues := (List.range i.queuePlan).map (fun q =>
      let b := imgQueue s i q
      putAt b 0 (leBytes 8 (addrOf s i par (getLe b 0 8))))
    mins := (List.range 34).map (fun k => imgMin s i (k / 2) (k % 2))
    slots := (List.range 16).map (imgSlot s i), regions := imgRegions s i, settings := imgSettings s i
    edits := (List.range i.nedit).map (imgEdit s i), base := base, paramOff := i.paramOff, paramLen := i.paramLen,
    copyOff := i.total - i.paramOff
    relocs := (l.flatMap (fun o => ((blockFields s i (imgDesc s i o)).filter (fun p => regionNo p.2 == 0)).map (·.1))).eraseDups
    digest := sha256 (memBytes s i.addr i.total)
    mainEval := block (mainOf s i 0x0101 l).head?, tiles := imgTiles s i, solves := imgSolves s i par, ends := imgEnds s i
    recheck := block ((l.filter (fun o => let d := imgDesc s i o; d.opId == 0x0102 && bit (memGet s (imgBlock i d + 3)) 2)).head?) }

/-! ### Installation (R299, R303) -/

/-- PLAN_INSTALL: busy refuses without touching the pending image (reason 10). -/
def planInstall (s : State) : State :=
  if s.plan.status.busy then raise { s with plan := { s.plan with reason := 10 } } 0x0B01 0xFFFF 10 0
  else
    { s with plan := { s.plan with status := .verifying, pend := none, pendAddr := objW s 0x2B00 1, pendLen := objW s 0x2B00 2,
                                   pendSwitch := objW s 0x2B00 3, lateStage := false, deferrals := 0 } }

/-- Whether the plan's switch is due at this boundary. -/
def planDue (s : State) : Bool := switchDue s s.plan.status s.plan.pendSwitch s.plan.stagedAt

/-- PLAN_CANCEL: up to the clk before the switch boundary; a tied model is refused (R301, R303). -/
def planCancel (s : State) : State :=
  if s.plan.status.busy ∧ !planDue s then
    let t := tied s
    let s := { s with plan := { s.plan with status := .idle, pend := none, deferrals := 0 } }
    if t then modelRefuseOnly s 6 else s
  else s

/-- PLAN_VERIFY_DONE: the checks have ended; the image stands in the idle banks, or is refused. Log entry 28 (DEDUCED, unsafe). -/
def planVerifyDone (s : State) (kernels : List (Nat × List Nat)) : State :=
  if s.plan.status ≠ .verifying then s
  else
    let r := imgReason s kernels
    if r.1 ≠ 0 then planRefuse (if r.1 = 7 then raise s 0x0808 0xFFFF r.2 0 else s) r.1 r.2
    else
      let i := imgAt s s.plan.pendAddr
      let p := imgPlan s i
      let s := imgInstall (imgInstall s i 0) i 1
      { s with plan := { s.plan with status := .staged, pend := some p, stagedAt := s.phu.bcount } }

/-- At a boundary: a named cycle opens while the image is still VERIFYING (R301). -/
def planLate (s : State) : State :=
  if s.plan.status = .verifying ∧ s.plan.pendSwitch ≠ 0 ∧ s.plan.pendSwitch ≤ s.phu.cycle ∧ !s.plan.lateStage then
    raise { s with plan := { s.plan with lateStage := true } } 0x0B03 0xFFFF 0 0xFFFFFFFF
  else s

/-! ### The switch (R301, R302) -/

/-- Descriptors of a waiting release not yet copied. -/
def relLeft (r : Release) : Nat := r.descs.length - r.next

/-- Level 0 and 1 tasks in flight. Log entry 29 (DEDUCED, unsafe). -/
def planInFlight (s : State) : Nat :=
  ((allTasks s).filter (fun t => decide (t.desc.crit ≤ 1))).length + sumN ((s.sched.rels.filter (fun r => decide (r.level ≤ 1))).map relLeft)

/-- Tasks of a level that the switch abandons. Log entry 29 (DEDUCED, unsafe). -/
def abandonCount (s : State) (lvl : Nat) : Nat :=
  ((allTasks s).filter (fun t => t.desc.crit == lvl)).length + sumN ((s.sched.rels.filter (fun r => r.level == lvl)).map relLeft)

/-- Every task of level 2 or 3 is abandoned: nothing further is written, no entry, no decrement. Log entry 29 (DEDUCED, unsafe). -/
def abandon (s : State) : State :=
  let n2 := abandonCount s 2
  let n3 := abandonCount s 3
  let low := fun (t : Task) => decide (2 ≤ t.desc.crit)
  let s := { s with
    sched := { s.sched with
      rels := s.sched.rels.filter (fun r => decide (r.level ≤ 1))
      ready := s.sched.ready.filterMap (fun (p : Nat × List Task) =>
        let l := p.2.filter (fun t => !low t)
        if l.isEmpty then none else some (p.1, l)) } }
  let s := (s.units.filter (fun p => p.2.exec.any low || p.2.pref.any low)).foldl (fun s p =>
    let s := if p.2.pref.any low then unitUpd s p.1 (fun r => { r with pref := none }) else s
    if p.2.exec.any low then slotNext (dropStalls s p.1) p.1 else s) s
  let s := (s.pod.evals.filter (fun e => low e.task)).foldl (fun s e => dropEval s e.task.rid) s
  let s := { s with plan := { s.plan with abandoned := n2 + n3 } }
  if n2 + n3 = 0 then s else raise s 0x0B04 0xFFFF n2 n3

/-- Counters below CTR_PLAN take the image's words; held decrements of them are discarded. -/
def planCounters (s : State) (p : Plan) : State :=
  let out := fun (l : List Decr) => l.filter (fun d => decide (p.ctrPlan ≤ d.ctr))
  let held := s.sched.held0 ++ s.sched.held1
  let n := held.length - (out held).length
  let s := { s with sched := { s.sched with held0 := out s.sched.held0, held1 := out s.sched.held1 } }
  let s := (p.ctrWords.zip (List.range p.ctrPlan)).foldl (fun s x => ctrSet s x.2 x.1) s
  raise s 0x0B02 0xFFFF s.plan.gen n

/-- Queues below QUEUE_PLAN take the image's records. -/
def planQueues (s : State) (p : Plan) : State :=
  let s := { s with sched := { s.sched with qcache := s.sched.qcache.filter (fun e => decide (p.queuePlan ≤ e.1))
                                            stalls := s.sched.stalls.filter (fun x => decide (p.queuePlan ≤ x.queue)) } }
  (p.queues.zip (List.range p.queuePlan)).foldl (fun s x => memPut s (qRec s x.2) x.1) s

/-- Bytes [a, a + n) become zero. -/
def memZero (s : State) (a n : Nat) : State :=
  { s with mem := { s.mem with bytes := s.mem.bytes.filter (fun c => !(decide (a ≤ c.1) && decide (c.1 < a + n)))
                               ueWords := uncovered 0x2000000000 a n s.mem.ueWords
                               ueBursts := uncovered 0 a n s.mem.ueBursts } }

/-- Regions with ZERO_INIT that are not carried are written with zeros. -/
def zeroRegions (s : State) (p : Plan) : State :=
  (p.regions.filter (fun r => r.zero && !r.carry)).foldl (fun s r => memZero s r.addr r.size) s

/-- Whether an object write takes effect at this boundary, which wins over a setting. -/
def writtenNow (s : State) (idx sub : Nat) : Bool :=
  (s.det.cur ++ s.det.recs).any (fun r => r.typ == 5 && getLe r.content 0 2 == idx && getLe r.content 2 1 == sub)

/-- Objects take the image's values; Δt is the header's. Log entry 29 (DEDUCED, unsafe). -/
def planSettings (s : State) (p : Plan) : State :=
  ((0x2400, 8, p.dtUs) :: p.settings).foldl (fun s (x : Nat × Nat × Nat) =>
    match objFind x.1 x.2.1 with
    | some o => if writtenNow s x.1 x.2.1 then s else loadObj (objPut s x.1 x.2.1 (tyVal o.ty x.2.2)) x.1 x.2.1
    | none => s) s

/-- Pending edit lists are refused (R307). -/
def dropEdits (s : State) : State :=
  s.plan.edits.foldl (fun s _ => raise s 0x0B05 0xFFFF 3 0) { s with plan := { s.plan with edits := [] } }

/-- USED slots whose weights do not match (R314). -/
def checkSlots (s : State) (p : Plan) : State :=
  let bad := (List.range 16).filter (fun k => match p.slots[k]? with
    | some x => x.used && x.wdigest != weightOfSlot s k
    | none => false)
  bad.foldl (fun s k => raise s 0x0B09 0xFFFF k s.plan.gen) { s with cob := { s.cob with noWeights := bad } }

/-- Whether an address lies in a region that passes from the running image to the next. -/
def keptAt (s : State) (p : Plan) (a : Nat) : Bool :=
  match s.plan.run with
  | some q => p.regions.any (fun r => decide (r.addr ≤ a) && decide (a < r.addr + r.size) && q.regions.any (fun x => carried r x))
  | none => false

/-- What the engines hold of the old image's models and problems: only a result in a region that passes on stays (R297, R302).
Log entry 29 (DEDUCED, unsafe). -/
def dropWork (s : State) (p : Plan) : State :=
  { s with cob := { s.cob with invs := [], retiled := [], cl := [], costNd := false }
           psn := { s.psn with slots := s.psn.slots.filter (fun x => keptAt s p x.1) } }

/-- The switch takes place (R301). Log entry 29 (DEDUCED, unsafe). -/
def planExchange (s : State) (p : Plan) : State :=
  let s := dropWork (abandon s) p
  let s := zeroRegions s p
  let s := { s with plan := { s.plan with bank := idleBank s, gen := (s.plan.gen + 1) % 2 ^ 32, copy := 0 } }
  let s := planCounters s p
  let s := planQueues s p
  let s := { s with plan := { s.plan with run := some p, pend := none, status := .idle, deferrals := 0, lateStage := false,
                                          everInstalled := true }
                    phu := { s.phu with gatesDone := 0, gateQ := [] } }
  checkSlots (dropEdits (planSettings s p)) p

/-- PLAN_SWITCH at its boundary: it takes place, with a tied model (R106), or defers; the 16th time it is refused (R302). `unstaged`
units have not yet staged the model. -/
def planSwitch (s : State) (unstaged : Nat) : State :=
  match s.plan.pend with
  | none => s
  | some p =>
    if !planDue s then s
    else
      let t := tied s
      let n := planInFlight s
      if p.structural ∧ !t then planRefuseOnly s 5 0
      else if n ≠ 0 ∨ (t ∧ unstaged ≠ 0) then
        if 15 ≤ s.plan.deferrals then planRefuse s 11 0
        else
          let d := s.plan.deferrals + 1
          let s := raise { s with plan := { s.plan with status := .deferred, deferrals := d, stagedAt := s.phu.bcount } } 0x0B03 0xFFFF d n
          if t then modelDefer s unstaged else s
      else
        let s := planExchange s p
        if t then modelExchange s else s

/-! ### Parameter edits (R307, R308) -/

/-- Whether a value lies in an edit entry's range, in its KIND. -/
def editIn (e : EditEntry) (v : Nat) : Bool :=
  match e.kind with
  | 0 => decide (e.lo ≤ v) && decide (v ≤ e.hi)
  | 1 => decide (toSigned 32 e.lo ≤ toSigned 32 v) && decide (toSigned 32 v ≤ toSigned 32 e.hi)
  | _ => realIn e.lo e.hi v

/-- The edit entry of an EDIT_ID in the running image. -/
def editOf (s : State) (id : Nat) : Option EditEntry :=
  match s.plan.run with
  | some p => p.edits.find? (fun e => e.id == id)
  | none => none

/-- The lowest reason for which a list is refused, with its EDIT_ID; 0 accepts. Log entry 28 (DEDUCED, unsafe). -/
def editReason (s : State) (l : List (Nat × Nat)) : Nat × Nat :=
  match l.find? (fun x => (editOf s x.1).isNone) with
  | some x => (1, x.1)
  | none =>
    match l.find? (fun x => match editOf s x.1 with | some e => !editIn e x.2 | none => true) with
    | some x => (2, x.1)
    | none => if 16 ≤ s.plan.edits.length then (4, 0) else (0, 0)

/-- PARAM_EDIT: zp_param_edit. -/
def paramEdit (s : State) (cyc : Nat) (l : List (Nat × Nat)) : State :=
  if l.isEmpty ∨ 64 < l.length then answer s (.drv (-1) [])
  else if s.det.replay then answer s (.drv 0 [])
  else
    let r := editReason s l
    if r.1 ≠ 0 then answer (raise s 0x0B05 0xFFFF r.1 r.2) (.drv (if r.1 = 4 then -2 else -3) [])
    else
      let late := decide (62259 ≤ phase s) && decide (cyc ≤ s.phu.cycle + 1)
      let e : EditList := { cycle := cyc, notBefore := if late then s.phu.cycle + 2 else s.phu.cycle + 1, edits := l }
      answer { s with plan := { s.plan with edits := s.plan.edits ++ [e] } } (.drv 0 [])

/-- Whether a list's boundary has come. -/
def editDue (s : State) (e : EditList) : Bool := decide (e.cycle ≤ s.phu.cycle) && decide (e.notBefore ≤ s.phu.cycle)

/-- One edit written into the parameter section at `a`. -/
def editWrite (s : State) (a : Nat) (x : Nat × Nat) : State :=
  match editOf s x.1 with
  | some e => memPutLe s (a + e.off) e.width (x.2 % 2 ^ (8 * e.width))
  | none => s

/-- The current copy of the parameter section of a stack, with the edits, goes into the other copy, whose addresses of the section point
into itself. -/
def editCopy (s : State) (p : Plan) (l : List (Nat × Nat)) (k : Nat) : State :=
  let a := ssBase k + p.base + p.paramOff
  let src := a + s.plan.copy * p.copyOff
  let dst := a + (1 - s.plan.copy) * p.copyOff
  let s1 := memPut s dst (memBytes s src p.paramLen)
  let s1 := p.relocs.foldl (fun t o => memPutLe t (dst + o) 8 (memLe s (src + o) 8 + dst - src)) s1
  l.foldl (fun s x => editWrite s dst x) s1

/-- The content of an edit list's input record. -/
def editBytes (l : List (Nat × Nat)) : Bytes := l.flatMap (fun x => leBytes 2 x.1 ++ [0, 0] ++ leBytes 4 x.2)

/-- Edits at a boundary: the lists that are due apply in order of acceptance, or defer while a task of a cycle with the other copy runs. -/
def editBoundary (s : State) : State :=
  let l := s.plan.edits.filter (editDue s)
  match s.plan.run with
  | none => s
  | some p =>
    if l.isEmpty then s
    else if (allTasks s).any (fun t => t.pcopy != s.plan.copy) || s.sched.rels.any (fun r => r.pcopy != s.plan.copy) then
      l.foldl (fun s e => raise s 0x0B06 0xFFFF (e.cycle % 2 ^ 32) 0) s
    else
      let es := l.flatMap (·.edits)
      let s := editCopy (editCopy s p es 0) p es 1
      let recs := l.map (fun e => ({ typ := 6, source := 0, cycle := s.phu.cycle, phase := 0, content := editBytes e.edits } : InRec))
      { s with plan := { s.plan with copy := 1 - s.plan.copy, edits := s.plan.edits.filter (fun e => !editDue s e)
                                     editsApplied := (s.plan.editsApplied + l.length) % 2 ^ 32 }
               det := { s.det with recs := s.det.recs ++ recs } }

/-! ### Meanings -/

/-- PLAN_INSTALL: install command on 0x2B00:04 (R299). -/
def execPlanInstall (s : State) : Host.Outcome State Fault Refusal := .next (runIo s planInstall)
/-- PLAN_CANCEL (R303). -/
def execPlanCancel (s : State) : Host.Outcome State Fault Refusal := .next (runIo s planCancel)
/-- PLAN_VERIFY_DONE (R299, R300). Log entry 13 (DESIGN CHOICE, safe). -/
def execPlanVerifyDone (kernels : List (BitVec 32 × List (BitVec 8))) (s : State) : Host.Outcome State Fault Refusal :=
  .next (runIo s (fun s => planVerifyDone s (kernels.map (fun x => (x.1.toNat, x.2.map (·.toNat))))))
/-- PARAM_EDIT (R307). -/
def execParamEdit (cycle : BitVec 64) (edits : List (BitVec 16 × BitVec 32)) (s : State) : Host.Outcome State Fault Refusal :=
  .next (runDrv s (fun s => paramEdit s cycle.toNat (edits.map (fun e => (e.1.toNat, e.2.toNat)))))

end Sys2Proof.Machine
end

