-- ==== Sys2Proof/Machine/Select.lean ====
section
/-!
DEFINITION. Selection (R195 to R214): the key table, ordinals, ranks, sums and weights, the result block, the stages of a selection, its end
gate, the winner selection with the learned cost (R257), and the registers of R212.
-/
namespace Sys2Proof.Machine

/-! ### The exponential tables (R204) -/

/-- The first `n` terms of the series of 2^200 × e^-x at x = 2^-16, from term `i` of value `t`. -/
def expTerms : Nat → Nat → Int → Int
  | 0, _, _ => 0
  | n + 1, i, t => t + expTerms n (i + 1) (-(t / (65536 * (i + 1))))

/-- 2^200 × e^(-1/65536). -/
def expBase : Nat := (expTerms 14 0 (2 ^ 200)).toNat

/-- The power of a number scaled by 2^200, by the bits of the exponent. -/
def expPow : Nat → Nat → Nat → Nat → Nat
  | 0, _, _, acc => acc
  | n + 1, b, k, acc => expPow n (b * b / 2 ^ 200) (k / 2) (if k % 2 = 1 then acc * b / 2 ^ 200 else acc)

/-- round(2^31 × e^(-k / 65536)). -/
def expEntry (k : Nat) : Nat := (expPow 24 expBase k (2 ^ 200) + 2 ^ 168) / 2 ^ 169

/-- The weight of a value z with 0 ≤ z < 256, taken as UQ8.16. -/
def weightOf (zq : Nat) : Nat :=
  expEntry (zq / 65536 * 65536) * expEntry (zq / 256 % 256 * 256) / 2 ^ 31 * expEntry (zq % 256) / 2 ^ 31

/-! ### The invocation -/

/-- The body of a SELECT parameter block (R304). -/
structure SelArgs where
  param : Nat
  kind : Nat
  int : Bool
  k : Nat
  lambda : Nat
  table : Nat
  len : Nat
  nlist : Nat
  lists : Nat
  block : Nat
  ctrs : List Nat
  unknown : Bool
  main : Bool

/-- Reads the block; kind 0 keys are FP32, and the main selection uses RAD_INV_LAMBDA (R195, R204, R305). -/
def selArgs (s : State) (a : Nat) : SelArgs :=
  let fl := memGet s (a + 3)
  let main := bit fl 3
  { param := a, kind := memGet s (a + 16), int := memGet s (a + 16) != 0 && memGet s (a + 17) == 1, k := memLe s (a + 18) 2,
    lambda := if main then regF s Reg.radInvLambda else memLe s (a + 20) 4, table := memLe s (a + 24) 8,
    len := memLe s (a + 32) 4, nlist := memLe s (a + 36) 4, lists := memLe s (a + 40) 8, block := memLe s (a + 48) 8,
    ctrs := (List.range 4).map (fun i => memLe s (a + 56 + 2 * i) 2), unknown := bit fl 0, main := main }

/-- The winner selection: a SELECT of level 1 without MAIN. Log entry 30 (DEDUCED, unsafe). -/
def isWinner (x : SelArgs) (level : Nat) : Bool := !x.main && level == 1

/-- Address and entries of list `i`. -/
def selList (s : State) (x : SelArgs) (i : Nat) : Nat × Nat := (memLe s (x.lists + 16 * i) 8, memLe s (x.lists + 16 * i + 8) 4)

/-- Whether a list of the main selection is the partial list of the MAIN evaluation: it then stands for the records that the Pods of both
stacks wrote in the cycle (R150, R195). Log entry 46 (DEDUCED, unsafe). -/
def isPart (s : State) (x : SelArgs) (l : Nat × Nat) : Bool :=
  x.main && (match mainEval s with
    | some a => ownStore 0 (memLe s (a + 16) 8) == ownStore 0 l.1
    | none => false)

/-- The lists of an invocation. -/
def selLists (s : State) (x : SelArgs) : List (Nat × Nat) := (List.range x.nlist).map (selList s x)

/-- Whether an invocation reads the partial lists. -/
def usesParts (s : State) (x : SelArgs) : Bool := (selLists s x).any (isPart s x)

/-- Addresses of the records of the partial lists, in the order written. -/
def partRecs (s : State) : List Nat := s.pod.parts.flatMap (fun p => (List.range p.2).map (fun i => p.1 + 32 * i))

/-- Ordinal of a key (R197). -/
def keyOrd (int : Bool) (k : Nat) : Nat := if int then ordInt k else ordFp k

/-- The canonical key of an ordinal (R198). -/
def keyOf (int : Bool) (o : Nat) : Nat := if int then ordInt o else unOrdFp o

/-! ### Ordinals (R199) -/

/-- Starts of the family spans 1, 2, 3 and their end. -/
def spans (s : State) : Nat × Nat × Nat × Nat :=
  let a := quota s 0 + quota s 2 + quota s 3
  (a, a + quota s 1, a + quota s 1 + quota s 2, a + quota s 1 + quota s 2 + quota s 3)

/-- The ordinal of a candidate ID, none where it is masked. -/
def ordinalOf (s : State) (len id : Nat) : Option Nat :=
  let (a1, a2, a3, _) := spans s
  let i := id % 2 ^ 28
  let o := (match id / 2 ^ 28 with
    | 0 => if i < a1 then some i else none
    | 1 => if i < quota s 1 then some (a1 + i) else none
    | 2 =>
      let n := i % 2 ^ 18
      let o := i / 2 ^ 18 * perSeed s + n
      if n < perSeed s ∧ o < quota s 2 then some (a2 + o) else none
    | 3 =>
      let n := i % 2 ^ 16
      let o := i / 2 ^ 16 * perSurv s + n
      if n < perSurv s ∧ o < quota s 3 then some (a3 + o) else none
    | _ => none)
  o.filter (fun o => decide (o < len))

/-- The ID of an ordinal. -/
def idOf (s : State) (kind o : Nat) : Nat :=
  let (a1, a2, a3, _) := spans s
  if kind ≠ 0 then o
  else if o < a1 then o
  else if o < a2 then 2 ^ 28 + (o - a1)
  else if o < a3 then 2 * 2 ^ 28 + (o - a2) / perSeed s * 2 ^ 18 + (o - a2) % perSeed s
  else 3 * 2 ^ 28 + (o - a3) / perSurv s * 2 ^ 16 + (o - a3) % perSurv s

/-! ### Scan (R195, R196, R200) -/

/-- What a scan has found so far. -/
structure ScanAcc where
  st : State
  entries : Nat
  masked : Nat
  collapsed : Nat
  conflicts : Nat
  stale : Nat
  bad : List Nat
  nondet : Bool

/-- The Leek whose batch wrote a candidate's record in this cycle, for the reaction of event 0x0701 (R393). -/
def writerOf (s : State) (x : SelArgs) (id : Nat) : Nat :=
  if x.kind ≠ 0 then 0xFFFF else Smap.get (fun _ => 0xFFFF) s.pod.doneWho (2 * id)

/-- One entry that is not masked updates word `o` of the key table (R200, R201). -/
def tableUpdate (x : SelArgs) (a : ScanAcc) (id o key : Nat) : ScanAcc :=
  let e := keyOrd x.int key
  let w := memLe a.st (x.table + 4 * o) 4
  if w = 0 then { a with st := memPutLe a.st (x.table + 4 * o) 4 e }
  else if w = e then { a with collapsed := a.collapsed + 1 }
  else
    let s := memPutLe a.st (x.table + 4 * o) 4 (max w e)
    { a with st := raiseX s 0 0x0701 (writerOf s x id) id (keyOf x.int (max w e)) (keyOf x.int (min w e)) 0
             conflicts := a.conflicts + 1 }

/-- One result record of R150 (kind 0). -/
def scanRec (x : SelArgs) (cycle : Nat) (a : ScanAcc) (p : Nat) : ScanAcc :=
  let s := a.st
  let id := memLe s p 4
  let v := memGet s (p + 20) % 4
  let stale := decide (memLe s (p + 4) 4 ≠ cycle % 2 ^ 32)
  let o := ordinalOf s x.len id
  let ok := (v == 0 || (v == 2 && x.unknown)) && !stale && o.isSome
  let a := { a with entries := a.entries + 1, stale := a.stale + b2n stale, bad := if o.isNone then a.bad ++ [id] else a.bad,
                    nondet := a.nondet || bit (memGet s (p + 24)) 3, masked := a.masked + b2n (!ok) }
  if ok then tableUpdate x a id (o.getD 0) (fpAdd (memLe s (p + 8) 4) (memLe s (p + 12) 4)) else a

/-- One entry of kind 1. -/
def scanKey (x : SelArgs) (a : ScanAcc) (p : Nat) : ScanAcc :=
  let s := a.st
  let key := memLe s p 4
  let id := memLe s (p + 4) 4
  let bad := decide (id ≠ 0xFFFFFFFF ∧ x.len ≤ id)
  let ok := id != 0xFFFFFFFF && !bad && !(x.int && key == 2 ^ 31)
  let a := { a with entries := a.entries + 1, masked := a.masked + b2n (!ok), bad := if bad then a.bad ++ [id] else a.bad }
  if ok then tableUpdate x a id id key else a

/-- One list. -/
def scanList (x : SelArgs) (cycle : Nat) (a : ScanAcc) (l : Nat × Nat) : ScanAcc :=
  (List.range l.2).foldl (fun a i => if x.kind = 0 then scanRec x cycle a (l.1 + 32 * i) else scanKey x a (l.1 + 8 * i)) a

/-! ### The winner's list (R257) -/

/-- Whether the re-check record of a rank is a valid entry of this cycle (R149). -/
def rankValid (s : State) (blk r cycle : Nat) : Bool :=
  let p := memLe s (blk + 32) 8 + 32 * r
  let c := memLe s (rankAddr s blk r) 4
  decide (c ≠ 0xFFFFFFFF) && decide (memLe s p 4 = c) && decide (memLe s (p + 4) 4 = cycle % 2 ^ 32) &&
    decide (memGet s (p + 20) % 4 = 0)

/-- c_L of a rank, 0 where the learned cost is missing or negative, +∞ for a NaN. Log entry 54 (DEDUCED, unsafe). -/
def learned (s : State) (r : Nat) : Nat :=
  if s.cob.costMissing then 0
  else match s.cob.cl.find? (fun p => p.1 == r) with
    | none => 0
    | some p => if fpIsNaN p.2 then fpInf else if fpNeg p.2 then 0 else p.2

/-- The key of a rank in the winner selection. -/
def winnerKey (s : State) (blk r : Nat) : Nat :=
  let p := memLe s (blk + 32) 8 + 32 * r
  fpAdd (fpAdd (memLe s (p + 8) 4) (memLe s (p + 12) 4)) (fpMul (regF s Reg.cobLearnW) (learned s r))

/-- The winner selection's list of kind 1 is formed from the re-check records of the cycle. Log entry 30 (DEDUCED, unsafe). -/
def formWinner (s : State) (x : SelArgs) (cycle : Nat) : State :=
  match recheckBlock s with
  | none => s
  | some blk =>
    let l := selList s x 0
    (List.range l.2).foldl (fun s r =>
      if rankValid s blk r cycle then memPut s (l.1 + 8 * r) (leBytes 4 (winnerKey s blk r) ++ leBytes 4 r)
      else memPut s (l.1 + 8 * r) (leBytes 4 fpNaN ++ leBytes 4 0xFFFFFFFF)) s

/-! ### Runs -/

/-- A selection under way at a parameter block in a cycle. -/
def runOf (s : State) (param cycle : Nat) : Option SelRun := s.sel.runs.find? (fun r => r.param == param && r.cycle == cycle)

/-- Stores a run. -/
def runPut (s : State) (r : SelRun) : State :=
  { s with sel := { s.sel with runs := s.sel.runs.filter (fun x => !(x.param == r.param && x.cycle == r.cycle)) ++ [r] } }

/-- Drops a run. -/
def runDrop (s : State) (param cycle : Nat) : State :=
  { s with sel := { s.sel with runs := s.sel.runs.filter (fun x => !(x.param == param && x.cycle == cycle)) } }

/-- A selection that has done nothing. -/
def runNew (param cycle level : Nat) : SelRun :=
  { param := param, cycle := cycle, level := level, entries := 0, masked := 0, collapsed := 0, conflicts := 0, stale := 0, nondet := false
    lists := false, parts := 0, scanned := false, cmin := none, taken := [], selected := false, again := false }

/-- ACTIVE Radishes in ascending unit ID. -/
def radishes (s : State) : List Nat := (classUnits 5 0 ++ classUnits 5 1).filter (isActive s)

/-- The entries of the main selection divided among the Radishes in service (R208, R212). -/
def scanShares (s : State) (n : Nat) : Smap Nat :=
  let l := radishes s
  (l.zip (List.range l.length)).foldl (fun m (p : Nat × Nat) =>
    cntPut m (5 * idStack p.1 + idIndex p.1) ((p.2 + 1) * n / l.length - p.2 * n / l.length)) []

/-- The occupied words of the key table: ordinal and word. -/
def tableWords (s : State) (x : SelArgs) : List (Nat × Nat) :=
  let cells := s.mem.bytes.filter (fun c => decide (x.table ≤ c.1 ∧ c.1 < x.table + 4 * x.len))
  let os := cells.foldl (fun (l : List Nat) c =>
    let o := (c.1 - x.table) / 4
    if l.head? = some o then l else o :: l) []
  os.reverse.map (fun o => (o, memLe s (x.table + 4 * o) 4))

/-- Words of the key table are cleared to 0. -/
def tableClear (s : State) (x : SelArgs) (l : List (Nat × Nat)) : State :=
  l.foldl (fun s e => memPutLe s (x.table + 4 * e.1) 4 0) s

/-- The run of an invocation, with what begins it: a run whose Radish has left service starts again with a cleared table (R209), as does one
that follows a run of an earlier cycle never merged. -/
def runStart (s : State) (x : SelArgs) (t : Task) : SelRun × State :=
  match runOf s x.param t.cycle with
  | some r => if r.again then (runNew x.param t.cycle t.desc.crit, tableClear s x (tableWords s x)) else (r, s)
  | none =>
    let old := s.sel.runs.filter (fun r => r.param == x.param)
    let s := if old.isEmpty then s else old.foldl (fun s r => runDrop s r.param r.cycle) (tableClear s x (tableWords s x))
    (runNew x.param t.cycle t.desc.crit, if isWinner x t.desc.crit ∧ x.kind ≠ 0 then formWinner s x t.cycle else s)

/-- The scan, as far as its inputs stand: the lists once, then the records of the partial lists not yet scanned; events 0x0703 (R199), and with
the last entry 0x0705 (R196). Log entry 47 (DEDUCED, unsafe). -/
def scanStep (s : State) (x : SelArgs) (t : Task) (final : Bool) : State :=
  let (r, s) := runStart s x t
  let a : ScanAcc := { st := s, entries := r.entries, masked := r.masked, collapsed := r.collapsed, conflicts := r.conflicts,
                       stale := r.stale, bad := [], nondet := r.nondet }
  let a := if r.lists then a else ((selLists s x).filter (fun l => !isPart s x l)).foldl (scanList x t.cycle) a
  let new := if usesParts s x then (partRecs s).drop r.parts else []
  let a := new.foldl (scanRec x t.cycle) a
  let s := a.bad.foldl (fun s id => raise s 0x0703 0xFFFF id a.masked) a.st
  let s := regSet s Reg.radConflictTot (sat 32 (regGet s Reg.radConflictTot + (a.conflicts - r.conflicts)))
  let s := if final ∧ !r.scanned ∧ a.stale ≠ 0 then raise s 0x0705 0xFFFF a.stale 0 else s
  let s := if x.main ∧ final then { s with sel := { s.sel with scan := scanShares s a.entries } } else s
  runPut s { r with entries := a.entries, masked := a.masked, collapsed := a.collapsed, conflicts := a.conflicts, stale := a.stale,
                    nondet := a.nondet, lists := true, parts := r.parts + new.length, scanned := r.scanned || final }

/-- Minimum: the least ordinal of the table becomes known, 0 for an empty one. -/
def minStep (s : State) (x : SelArgs) (t : Task) : State :=
  match runOf s x.param t.cycle with
  | some r =>
    let c := (tableWords s x).foldl (fun m e => if m = 0 then e.2 else min m e.2) 0
    if r.cmin.isSome then s else runPut s { r with cmin := some c }
  | none => s

/-- Select: words of the table are read into the locals and cleared; `all` takes every word, else the range of Radish `u`. -/
def takeStep (s : State) (u : Nat) (x : SelArgs) (t : Task) (all : Bool) : State :=
  let s := minStep s x t
  match runOf s x.param t.cycle with
  | some r =>
    let l := radishes s
    let i := l.idxOf u
    let mine := fun (e : Nat × Nat) => all || (decide (i * x.len / l.length ≤ e.1) && decide (e.1 < (i + 1) * x.len / l.length))
    let w := (tableWords s x).filter mine
    runPut (tableClear s x w) { r with taken := r.taken ++ w, selected := r.selected || all }
  | none => s

/-! ### The result (R202 to R207) -/

/-- The order of the entries: by key, then by ID, which rises with the ordinal. -/
def entryLe (a b : Nat × Nat) : Bool := decide (a.2 < b.2) || (a.2 == b.2 && decide (a.1 ≤ b.1))

/-- Insertion halves of a merge. -/
def mergeBy : Nat → List (Nat × Nat) → List (Nat × Nat) → List (Nat × Nat)
  | 0, a, b => a ++ b
  | _ + 1, [], b => b
  | _ + 1, a, [] => a
  | n + 1, x :: a, y :: b => if entryLe x y then x :: mergeBy n a (y :: b) else y :: mergeBy n (x :: a) b

/-- Merge sort, halving `n` times. -/
def sortEntries : Nat → List (Nat × Nat) → List (Nat × Nat)
  | 0, l => l.foldl (fun acc x => insertBy entryLe x acc) []
  | n + 1, l =>
    if l.length ≤ 1 then l
    else
      let h := l.length / 2
      mergeBy l.length (sortEntries n (l.take h)) (sortEntries n (l.drop h))

/-- A key in the unit of its sum (R203), none for an infinite or NaN key. -/
def keyUnits (int : Bool) (o : Nat) : Option Int :=
  let k := keyOf int o
  if int then some (toSigned 32 k)
  else if !fpFin k then none
  else
    let (m, e) := fpDec k
    if 117 ≤ e then some (m * 2 ^ (e - 117))
    else
      let v : Nat := rne m.natAbs (117 - e)
      some (if m < 0 then -(v : Int) else (v : Int))

/-- The weight of an entry against c_min (R204); a negative z has no stated weight. Log entry 31 (DESIGN CHOICE, safe). -/
def entryWeight (int : Bool) (lambda cmin o : Nat) : Nat :=
  let c := keyOf int o
  if !int ∧ !fpFin c then 0
  else
    let d := if int then fpOfInt (toSigned 32 c - toSigned 32 (keyOf int cmin)) 0 else fpAdd c (fpNegate (keyOf int cmin))
    let z := fpMul d lambda
    if fpIsNaN z then 0
    else if fpNeg z ∧ z ≠ 2 ^ 31 then Config.weightNeg z % 2 ^ 32
    else if !fpFin z ∨ 256 * 2 ^ 16 ≤ fpFloor z 16 then 0
    else weightOf (fpFloor z 16).toNat

/-- Whether weights exist: at least one valid entry and a finite least key. -/
def weightValid (int : Bool) (l : List (Nat × Nat)) : Bool :=
  match l with
  | [] => false
  | e :: _ => int || fpFin (keyOf int e.2)

/-- What a selection gives, before it is written. -/
structure SelRes where
  valid : Nat
  short : Bool
  tieCnt : Nat
  tieSel : Nat
  ranks : List (Nat × Nat)
  bytes : Bytes

/-- The fill key (R202). -/
def fillKey (int : Bool) : Nat := if int then 2 ^ 31 else fpNaN

/-- The block from the entries in rank order (R202 to R207). -/
def selResult (s : State) (x : SelArgs) (r : SelRun) (nd : Bool) (l : List (Nat × Nat)) : SelRes :=
  let n := l.length
  let sel := l.take x.k
  let out := l.drop x.k
  let short := decide (n < x.k)
  let v := (sel.getLastD (0, 0)).2
  let same := fun (q : List (Nat × Nat)) => if short then 0 else (q.filter (fun e => e.2 == v)).length
  let wv := weightValid x.int l
  let cmin := (l.headD (0, 0)).2
  let wt := fun (e : Nat × Nat) => if wv then entryWeight x.int x.lambda cmin e.2 else 0
  let keys := fun (q : List (Nat × Nat)) => (q.filterMap (fun e => keyUnits x.int e.2)).foldl (fun a b => a + b) (0 : Int)
  let nonfin := fun (q : List (Nat × Nat)) => (q.filter (fun e => (keyUnits x.int e.2).isNone)).length
  let s24 := fun (i : Int) => leBytes 24 (ofSigned 192 i)
  let fl := b2n (decide (r.conflicts ≠ 0)) + 2 * b2n nd + 4 * b2n wv + 8 * b2n short
  let head := leBytes 4 0x52444B42 ++ leBytes 2 x.k ++ [b2n x.int, fl] ++ leBytes 4 r.cycle ++ leBytes 4 n ++ leBytes 4 r.entries ++
    leBytes 4 r.masked ++ leBytes 4 r.collapsed ++ leBytes 4 r.conflicts ++ leBytes 4 (same l) ++ leBytes 4 (same sel) ++
    leBytes 4 (nonfin sel) ++ leBytes 4 (nonfin out) ++ leBytes 4 (if n = 0 then fillKey x.int else keyOf x.int cmin) ++
    leBytes 4 x.lambda ++ zeros 8 ++ s24 (keys sel) ++ s24 (keys out) ++ s24 ((sumN (sel.map wt) : Nat) : Int) ++
    s24 ((sumN (out.map wt) : Nat) : Int) ++ zeros 32
  let ranks := sel.map (fun e => (idOf s x.kind e.1, keyOf x.int e.2))
  let body := sel.flatMap (fun e => leBytes 4 (idOf s x.kind e.1) ++ leBytes 4 (keyOf x.int e.2) ++ leBytes 4 (wt e) ++ leBytes 4 e.1)
  let fill := leBytes 4 0xFFFFFFFF ++ leBytes 4 (fillKey x.int) ++ leBytes 4 0 ++ leBytes 4 0xFFFFFFFF
  { valid := n, short := short, tieCnt := same l, tieSel := same sel, ranks := ranks
    bytes := head ++ body ++ (List.replicate (x.k - n) fill).flatten }

/-! ### What the main and the winner selection bring -/

/-- The selected candidates' records go to the re-check's list, rank by rank; a fill leaves an empty record (R124). -/
def writeRefined (s : State) (t : Task) (ranks : List (Nat × Nat)) (k : Nat) : State :=
  match recheckBlock s, modelOf s t.gen with
  | some blk, some m =>
    (List.range (min k (memLe s (blk + 24) 4))).foldl (fun s r =>
      match ranks[r]? with
      | some e => memPut s (rankAddr s blk r) (genCand s m t.gen t.cycle e.1).bytes
      | none => memPutLe s (rankAddr s blk r) 4 0xFFFFFFFF) s
  | _, _ => s

/-- The main selection's results: counts of R212, event 0x0702, and the records of the re-check. -/
def mainDone (s : State) (x : SelArgs) (t : Task) (r : SelRun) (res : SelRes) (nd : Bool) : State :=
  let c := [(0, r.entries), (1, r.masked), (2, r.collapsed), (3, r.conflicts), (4, res.valid), (5, res.tieCnt), (6, res.tieSel)]
  let s := { s with sel := { s.sel with cyc := c.foldl (fun m (p : Nat × Nat) => cntPut m p.1 p.2) [], mainDone := true,
                                        mainNondet := nd } }
  let s := if res.short then raise s 0x0702 0xFFFF res.valid x.k else s
  writeRefined s t res.ranks x.k

/-- The winner: the first rank of the winner selection, found among the records of the re-check (R350); none in a cycle that an overrun of
the evaluation, the re-check or a selection has left without one (R162, R210). Log entry 30 (DEDUCED, unsafe). -/
def winnerDone (s : State) (x : SelArgs) (res : SelRes) (nd : Bool) : State :=
  let s := { s with sel := { s.sel with winDone := true } }
  if s.pod.overrun ∨ s.sel.lostMain ∨ s.sel.lostWin then s else
  match res.ranks, recheckBlock s with
  | (id, key) :: _, some blk =>
    let rank := if x.kind ≠ 0 then some id
      else (List.range (memLe s (blk + 24) 4)).find? (fun r => memLe s (rankAddr s blk r) 4 == id)
    match rank with
    | none => s
    | some r =>
      let a := rankAddr s blk r
      let cand := memLe s a 4
      let rnd := bit (memGet s (memLe s (blk + 32) 8 + 32 * r + 24)) 3
      let w : Winner := { candId := cand, key := key, addr := a, leek := Smap.get (fun _ => 0xFFFF) s.pod.doneWho (2 * cand + 1),
                          nondet := nd || s.sel.mainNondet || rnd || s.cob.costNd }
      { s with sel := { s.sel with winId := cand, winKey := key }, safety := { s.safety with winner := some w } }
  | _, _ => s

/-- The merge: the locals are combined and the block is written. A block outside the image's regions is the fault of R310. -/
def selMerge (s : State) (u : Nat) (x : SelArgs) (t : Task) (k : State → State) : State :=
  let s := takeStep s u x t true
  match runOf s x.param t.cycle with
  | none => k s
  | some r =>
    let nd := r.nondet || (x.main && s.peers.lateCyc)
    let res := selResult s x r nd (sortEntries 32 r.taken)
    taskWrite (runDrop s x.param t.cycle) u x.block res.bytes (fun s =>
      k (if x.main then mainDone s x t r res nd else if isWinner x t.desc.crit then winnerDone s x res nd else s))

/-! ### Stages (R208) -/

/-- The stage of a task by the counter that released it, 1 to 4; 0 where none of the four did. -/
def selStage (x : SelArgs) (t : Task) : Nat :=
  match (List.range 4).find? (fun i => x.ctrs.getD i 0xFFFF == t.ctr) with
  | some i => i + 1
  | none => 0

/-- Whether a run was discarded at its end gate. -/
def selDead (s : State) (x : SelArgs) (t : Task) : Bool :=
  s.sel.dead.contains (x.param, t.cycle) ||
    (t.cycle == s.phu.cycle && ((x.main && s.sel.lostMain) || (isWinner x t.desc.crit && s.sel.lostWin)))

/-- Open tasks of a stage of an invocation beside one task. -/
def stageOthers (s : State) (x : SelArgs) (t : Task) (st : Nat) : List Task :=
  ((openTasks s).map (·.2)).filter (fun y => y.rid != t.rid && y.desc.cls == 5 && y.desc.param == t.desc.param && y.cycle == t.cycle && selStage x y == st)

/-- A SELECT task of a Radish completes a share of its stage; the last one of Select takes what is left, and the merge, or a task of no
stage, writes the block. The main selection scans while the evaluation runs with STREAM_EN = 1, else from EVAL_END on; lists that were not
handed over give it nothing (R162). `k` ends the task. Log entry 47 (DEDUCED, unsafe). -/
def selWork (s : State) (u : Nat) (t : Task) (k : State → State) : State :=
  let x := selArgs s t.desc.param
  let st := selStage x t
  let parts := usesParts s x
  if selDead s x t then k s
  else if !windowOk s x.table (4 * x.len) then windowFault s u
  else
    let s := if parts ∧ (st ≠ 1 ∨ !bit (regF s Reg.radCtrl) 0) then reachPhase s (evalEndPu s) else s
    if parts ∧ !s.pod.handed then k (if st = 1 then scanStep s x t false else s)
    else
      let s := scanStep s x t true
      match st with
      | 1 => k s
      | 2 => k (minStep s x t)
      | 3 => k (takeStep s u x t (stageOthers s x t 3).isEmpty)
      | _ => selMerge s u x t k

/-! ### End gates (R210) -/

/-- The selection that an end gate ends: the main one, the winner selection, or a background one by its parameter block. -/
inductive SelWhich where
  | main | win | bg (param : Nat)

/-- Whether an invocation of a level is the one meant. -/
def SelWhich.is (k : SelWhich) (x : SelArgs) (level : Nat) : Bool :=
  match k with
  | .main => x.main
  | .win => isWinner x level
  | .bg p => x.param == p && !x.main && !isWinner x level

/-- Open SELECT tasks of a selection. -/
def selOpen (s : State) (k : SelWhich) : List Task :=
  ((openTasks s).map (·.2)).filter (fun t => t.desc.cls == 5 && k.is (selArgs s t.desc.param) t.desc.crit)

/-- The stage that a run has come to. -/
def runStage (r : SelRun) : Nat := if !r.scanned then 1 else if r.cmin.isNone then 2 else if !r.selected then 3 else 4

/-- The first stage of a selection not completed: that of its open tasks, else of its run, else the scan. -/
def openStage (s : State) (l : List Task) (rs : List SelRun) : Nat :=
  let st := l.foldl (fun n t =>
    let st := selStage (selArgs s t.desc.param) t
    if st = 0 then n else min n st) 5
  if st < 5 then st else match rs with
    | r :: _ => runStage r
    | [] => if l.isEmpty then 1 else 4

/-- A selection's result is discarded: its run is dropped with what stands in its key table, and its tasks give nothing. -/
def selDrop (s : State) (param cycle : Nat) : State :=
  let x := selArgs s param
  let s := if (runOf s param cycle).isSome then runDrop (tableClear s x (tableWords s x)) param cycle else s
  if s.sel.dead.contains (param, cycle) then s else { s with sel := { s.sel with dead := s.sel.dead ++ [(param, cycle)] } }

/-- The end gate of a selection: when its merge is not written, event 0x0704, the result is discarded, and the main or the winner selection
leaves the cycle without a winner. -/
def selEnd (s : State) (k : SelWhich) : State :=
  let l := selOpen s k
  let rs := s.sel.runs.filter (fun r => k.is (selArgs s r.param) r.level)
  let done : Bool := match k with
    | .main => s.sel.mainDone
    | .win => s.sel.winDone
    | .bg _ => l.isEmpty && rs.isEmpty
  if done ∧ !imposedAt s 0x0704 then s
  else
    let s := raise s 0x0704 0xFFFF ((if done then 4 else openStage s l rs) * 2 ^ 16) 0
    let s := (l.map (fun t => (t.desc.param, t.cycle)) ++ rs.map (fun r => (r.param, r.cycle))).foldl (fun s p => selDrop s p.1 p.2) s
    let s := { s with sel := { s.sel with overruns := satInc 32 s.sel.overruns } }
    match k with
    | .main => { s with sel := { s.sel with lostMain := true }, safety := { s.safety with winner := none } }
    | .win => { s with sel := { s.sel with lostWin := true }, safety := { s.safety with winner := none } }
    | .bg _ => s

/-! ### The boundary (R212) -/

/-- A count of the cycle. -/
def selCnt (s : State) (i : Nat) : Nat := cnt s.sel.cyc i

/-- The "last cycle" registers load, and a new cycle begins. Runs of the cycle that ended are dropped with their tables. -/
def selBoundary (s : State) : State :=
  let s := regSet s Reg.radCycEntries (sat 32 (selCnt s 0))
  let s := regSet s Reg.radCycMasked (sat 32 (selCnt s 1))
  let s := regSet s Reg.radCycDup (sat 16 (selCnt s 3) * 2 ^ 16 + sat 16 (selCnt s 2))
  let s := regSet s Reg.radCycValid (sat 32 (selCnt s 4))
  let s := regSet s Reg.radCycTie (sat 16 (selCnt s 6) * 2 ^ 16 + sat 16 (selCnt s 5))
  let s := regSet (regSet s Reg.radWinId s.sel.winId) Reg.radWinKey s.sel.winKey
  let s := (List.range 10).foldl (fun s u => regSet s (Reg.radScan + 4 * u) (sat 32 (cnt s.sel.scan u))) s
  { s with sel := { s.sel with cyc := [], last := s.sel.cyc, winId := 0xFFFFFFFF, winKey := fpNaN, scan := [], mainDone := false, mainNondet := false,
                               winDone := false, lostMain := false, lostWin := false, dead := s.sel.dead.filter (fun d => decide (s.phu.cycle ≤ d.2 + 16)) } }

end Sys2Proof.Machine
end

