-- ==== Sys2Proof/Machine/TaskCmd.lean ====
section
/-!
DEFINITION. The commands that end a task (R279): completion by class with the operator's own work (R304), failed checks, and a missed end.
-/
namespace Sys2Proof.Machine

/-- FW_COPY: the bytes go to their destination (R304). -/
def copyWork (s : State) (u : Nat) (t : Task) : State :=
  let p := t.desc.param
  let n := memLe s (p + 32) 4
  let dst := memLe s (p + 24) 8
  let (b, s) := taskRead s u (memLe s (p + 16) 8) n
  taskWrite s u dst b (fun s => finishTask s u dst n [])

/-- HASH: the SHA-256 of the bytes goes to its destination (R304). -/
def hashWork (s : State) (u : Nat) (t : Task) : State :=
  let p := t.desc.param
  let dst := memLe s (p + 32) 8
  let (b, s) := taskRead s u (memLe s (p + 16) 8) (memLe s (p + 24) 4)
  taskWrite s u dst (sha256 b) (fun s => finishTask s u dst 32 [])

/-- A task whose recorded outcome replay imposes (R408): it ends as the record says, although it is done in time. -/
def replayStop (s : State) (u : Nat) (t : Task) : Option State :=
  let id := t.desc.taskId
  if imposed s 0x0A05 (some id) then some (failExec (raiseOnion s t.stack 0x0A05 u id u) u)
  else if imposed s 0x0A06 (some id) then
    some (endFailed (slotNext (raiseOnion s t.stack 0x0A06 u id (b2n t.rerun * 2 ^ 31 + u)) u) t u)
  else match t.desc.cls with
    | 4 =>
      (imposedRecs s 8).find? (fun r => getLe r.content 10 2 == 0x0801 && getLe r.content 12 4 == probWord s t) |>.map (fun r =>
        endFailed (slotNext (psnDiscard s u t (getLe r.content 16 4)) u) t u)
    | 3 =>
      match invOf s t with
      | some i => if lastTile i && imposed s 0x0902 (some i.slot) then some (invocationEnd s i) else none
      | none => none
    | _ => none

/-- A tile task whose block is empty: it writes nothing. -/
def noTile : TileOut :=
  { op := .elementwise .relu, col := 0, cols := 0, row := 0, rows := 0, role := .plain, loads := [], upset := [] }

/-- A schedule without variables and a problem without rows. -/
def noSolve : SolveOut :=
  { form := { vars := [], fA := [], fB := [], fD := [], fR := [], fT := [], fL := [], fU := [], fY := [], fZ := [], fX := [], fJ := 0 }
    rows := [], pred := [], newest := none }

/-- TASK_COMPLETE: the operator's work, then the end of R279. A Chard's check ends with its verdict, not here.
Log entry 45 (DESIGN CHOICE, unsafe). -/
def taskComplete (s : State) (u : Nat) (w : Work) : State :=
  if pushStalled s u then s else
  match running s u with
  | none => s
  | some t =>
    match replayStop s u t with
    | some s => s
    | none =>
    let s := if t.desc.cls = 0x0B then tracePoints s u else s
    match t.desc.cls, w with
    | 3, .tile o => tileWork s u t o (fun s => finishTask s u (taskTensor s u t 2).base (o.rows.toNat * o.cols.toNat) [])
    | 3, _ => tileWork s u t noTile (fun s => finishTask s u (taskTensor s u t 2).base 0 [])
    | 4, .solve o => solveWork s u t o (fun s a n => finishTask s u a n [])
    | 4, _ => solveWork s u t noSolve (fun s a n => finishTask s u a n [])
    | 5, _ => let x := selArgs s t.desc.param
              selWork s u t (fun s => finishTask s u x.block x.k [])
    | 7, _ => s
    | _, _ => if t.desc.opId = 0x0702 then copyWork s u t
              else if t.desc.opId = 0x0801 then hashWork s u t
              else finishTask s u 0 0 []

/-- TASK_CHECK_FAIL: a check of the unit's own task fails. -/
def checkFail (s : State) (u : Nat) (k : CheckFail) : State :=
  match running s u with
  | none => s
  | some t =>
    match k with
    | .residual row => if t.desc.cls = 4 then let (n, s) := cutRun s t u
                                           ueOther (residualFail s u t row.toNat n) u t else s
    | .abft => if t.desc.cls = 3 then ueOther (abftFail s u t) u t else s
    | .sparseMeta => if t.desc.cls = 3 then ueOther (sparseFail s u t) u t else s
    | .window => ueOther (windowFault s u) u t
    | .ue a => ueFail s u t a.toNat

/-- What comes from a unit that Watch may gate: a gated unit does nothing (R470). -/
def runClocked (s : State) (u : Nat) (f : State → State) : State := runArith s (fun s => if watchUnit s u then s else f s)

/-- TASK_COMPLETE (R279, R470). -/
def execTaskComplete (u : BitVec 16) (w : Work) (s : State) : Host.Outcome State Fault Refusal :=
  .next (runClocked s u.toNat (fun s => taskComplete s u.toNat w))
/-- TASK_CHECK_FAIL (R279). -/
def execTaskCheckFail (u : BitVec 16) (k : CheckFail) (s : State) : Host.Outcome State Fault Refusal :=
  .next (runClocked s u.toNat (fun s => checkFail s u.toNat k))
/-- END_MISSED (R284). -/
def execEndMissed (id : BitVec 32) (s : State) : Host.Outcome State Fault Refusal :=
  .next (runArith s (fun s => endMissed s id.toNat))

end Sys2Proof.Machine
end

