-- ==== Sys2Proof/Machine/Chard.lean ====
section
/-!
DEFINITION. The Chard's check (R351 to R355): its own sine and cosine, composition and placement, levers and inflation, the tests against
the obstacle plane and the peer capsules, and the verdict with SEG_DIGEST.
-/
namespace Sys2Proof.Machine

/-! ### Kinematics (R351) -/

/-- The Q1.30 number nearest to `v` in 2^-96 moved by `err` LSB, as far as it stays within 2^-28 of `v`.
Log entry 4 (DESIGN CHOICE, safe). -/
def within28 (v err : Int) : Int :=
  let n := rshUp v 66
  let ok := fun (k : Int) => decide (((n + k) * 2 ^ 66 - v).natAbs ≤ 2 ^ 68)
  let e := max (-4) (min 4 err)
  if ok e then n + e else if 0 < e then n + e - 1 else n + e + 1

/-- The Chard's sine. Log entry 4 (DESIGN CHOICE, safe). -/
def chardSin (q : Int) : Int := within28 (sin96 q) (Config.chardSinErr q)
/-- The Chard's cosine. Log entry 4 (DESIGN CHOICE, safe). -/
def chardCos (q : Int) : Int := within28 (cos96 q) (Config.chardCosErr q)

/-- `x / 2 ^ n` truncated towards zero. Log entry 63 (DEDUCED, unsafe). -/
def truncSh (x : Int) (n : Nat) : Int := truncDiv x (2 ^ n)

/-- R · c, each coordinate truncated, plus t. Log entry 63 (DEDUCED, unsafe). -/
def placeTr (p : Pose) (c : List Int) : List Int :=
  [0, 1, 2].map (fun i => truncSh (vi p.r (3 * i) * vi c 0 + vi p.r (3 * i + 1) * vi c 1 + vi p.r (3 * i + 2) * vi c 2) 30 + vi p.t i)

/-- The product of two 3 × 4 matrices, each element truncated towards zero. -/
def mulTr (a b : Pose) : Pose :=
  { r := [0, 1, 2].flatMap (fun i => [0, 1, 2].map (fun j =>
      truncSh (vi a.r (3 * i) * vi b.r j + vi a.r (3 * i + 1) * vi b.r (3 + j) + vi a.r (3 * i + 2) * vi b.r (6 + j)) 30))
    t := placeTr a b.t }

/-- The axis along which a joint moves, for a prismatic, base X or base Y joint (R94). -/
def slideAxis (typ : Nat) : Option Nat := match typ with | 1 => some 2 | 2 => some 0 | 3 => some 1 | _ => none

/-- M(q) of a joint. -/
def jointMove (j : Joint) (q : Int) : Pose :=
  match slideAxis j.typ with
  | some a => { r := rotId, t := [0, 1, 2].map (fun i => if i = a then q else 0) }
  | none =>
    let c := chardCos q
    let s := chardSin q
    { r := [c, -s, 0, s, c, 0, 0, 0, 2 ^ 30], t := [0, 0, 0] }

/-- Link poses from the world outward: two products for each joint. -/
def chardCompose (m : Model) (q : List Int) : List Pose :=
  m.joints.zip (List.range m.joints.length) |>.foldl (fun (acc : List Pose) x =>
    let p := if x.1.parent = 0xFF then Pose.id else acc.getD x.1.parent Pose.id
    acc ++ [mulTr (mulTr p { r := x.1.rOrg, t := x.1.tOrg }) (jointMove x.1 (vi q x.2))]) []

/-! ### Levers and inflation (R352) -/

/-- A norm rounded up. -/
def normUp (v : List Int) : Nat := isqrtUp (dot v v).toNat

/-- A joint by number. -/
def Model.joint (m : Model) (i : Nat) : Joint := m.joints.getD i ⟨0, 0xFF, 0, [], [], 0, 0, 0, 0, 0, 0⟩

/-- The chain from the world to a link, outermost last; `fuel` covers its length. -/
def chainTo (m : Model) : Nat → Nat → List Nat
  | 0, _ => []
  | fuel + 1, l => if l = 0xFF then [] else chainTo m fuel (m.joint l).parent ++ [l]

/-- The chain of a capsule. -/
def capChain (m : Model) (c : Capsule) : List Nat := chainTo m 33 c.link

/-- The travel that a prismatic joint adds to a lever. -/
def slideReach (j : Joint) : Nat := if (slideAxis j.typ).isSome then max j.qMin.natAbs j.qMax.natAbs else 0

/-- L_c(j): 0 for a joint off the chain. -/
def chardLever (m : Model) (c : Capsule) (j : Nat) : Nat :=
  let ch := capChain m c
  if !ch.contains j then 0
  else if (slideAxis (m.joint j).typ).isSome then 65536
  else
    let after := (ch.dropWhile (· != j)).drop 1
    sumN (after.map (fun k => normUp (m.joint k).tOrg + slideReach (m.joint k))) + max (normUp c.p0) (normUp c.p1) + c.r.toNat

/-- The sweep bound of a capsule between two places, each product rounded up. -/
def chardSweep (m : Model) (lev : List Nat) (q0 q1 : List Int) : Nat :=
  sumN ((List.range m.joints.length).map (fun j =>
    ceilDiv ((vi q1 j - vi q0 j).natAbs * lev.getD j 0) (2 ^ (m.joint j).frac)))

/-- The places of a check: q(0) to q(B), b1 to b7. -/
def chardPlaces (wp : List (List Int)) (b : Nat) : List (List Int) := wp.take (b + 1) ++ (stopBranch wp b).drop 1

/-- The name of place `i` (R355). -/
def placeName (b i : Nat) : Nat := if i ≤ b then i else 0x80 + (i - b)

/-- Half the larger bound of a capsule to the neighbouring places, rounded up. -/
def chardHalf (m : Model) (lev : List Nat) (pl : List (List Int)) (i : Nat) : Nat :=
  let d := fun k => chardSweep m lev (pl.getD k []) (pl.getD (k + 1) [])
  let l := if i = 0 then 0 else d (i - 1)
  let r := if i + 1 < pl.length then d i else 0
  (max l r + 1) / 2

/-! ### Distance tests (R353, R354) -/

/-- Whether point `p` lies closer than `r` to the segment `a` to `b`, compared exactly. -/
def segNear (a b p : List Int) (r : Int) : Bool :=
  let e := vsub b a
  let w := vsub p a
  let den := dot e e
  let k := dot w e
  if den = 0 ∨ k ≤ 0 then decide (dot w w < r * r)
  else if den ≤ k then decide (dot (vsub p b) (vsub p b) < r * r)
  else decide (den * dot w w - k * k < den * (r * r))

/-- Whether the segments a0 to a1 and b0 to b1 come closer than `r`, compared exactly: at a pair of inner points, else at an end. -/
def segsNear (a0 a1 b0 b1 : List Int) (r : Int) : Bool :=
  let d1 := vsub a1 a0
  let d2 := vsub b1 b0
  let w := vsub a0 b0
  let a := dot d1 d1
  let b := dot d1 d2
  let c := dot d2 d2
  let det := a * c - b * b
  let s := b * dot d2 w - c * dot d1 w
  let t := a * dot d2 w - b * dot d1 w
  let gap := vsub (vadd (vscale det w) (vscale s d1)) (vscale t d2)
  (decide (0 < det ∧ 0 ≤ s ∧ s ≤ det ∧ 0 ≤ t ∧ t ≤ det) && decide (dot gap gap < det * det * (r * r))) ||
    segNear a0 a1 b0 r || segNear a0 a1 b1 r || segNear b0 b1 a0 r || segNear b0 b1 a1 r

/-- The integers from `a` to `b`. -/
def intSpan (a b : Int) : List Int := (List.range (b - a + 1).toNat).map (fun i => a + (i : Nat))

/-- Whether a placed capsule of grown radius `r` fails against the obstacle plane, OBST outside the fine box (R353, R74); lengths in 1/100 LSB, in which a fine voxel is
131,072 wide. -/
def obstHit (v : WVer) (a b : List Int) (r : Int) : Bool :=
  let a := vscale 100 a
  let b := vscale 100 b
  let r := 100 * r
  let span := fun (i : Nat) => intSpan ((min (vi a i) (vi b i) - r) / 131072 - 1) ((max (vi a i) (vi b i) + r) / 131072 + 1)
  (span 0).any (fun x => (span 1).any (fun y => (span 2).any (fun z =>
    segNear a b [(2 * x + 1) * 65536, (2 * y + 1) * 65536, (2 * z + 1) * 65536] r && obstBit v x y z)))

/-! ### The check -/

/-- What a check reads: model, version, M_C in LSB, B, and the capsules of each waypoint. -/
structure ChardCtx where
  m : Model
  v : WVer
  mc : Int
  b : Nat
  caps : List (List WCap)

/-- The cause bits of one capsule at place `i`: PEER 2, OBST 1. -/
def capsuleCause (x : ChardCtx) (pl : List (List Int)) (poses : List Pose) (i : Nat) (c : Capsule) : Nat :=
  let lev := (List.range x.m.joints.length).map (chardLever x.m c)
  let r : Int := c.r + ((3 * (capChain x.m c).length + chardHalf x.m lev pl i : Nat) : Int)
  let p := poses.getD c.link Pose.id
  let a := placeTr p c.p0
  let b := placeTr p c.p1
  b2n (obstHit x.v a b (r + x.mc + 1136)) +
    2 * b2n ((x.caps.getD i []).any (fun k => segsNear a b k.a k.b (r + k.r + x.mc)))

/-- Whether a joint lies outside its limits at a place. -/
def chardLimit (m : Model) (q : List Int) : Bool :=
  (List.range m.joints.length).any (fun j =>
    !(m.joint j).continuous && (decide (vi q j < (m.joint j).qMin) || decide ((m.joint j).qMax < vi q j)))

/-- A failing place: its number, the first failing capsule (0xFF when only a limit fails) and the cause bits LIMIT 4, PEER 2, OBST 1. -/
structure ChardFail where
  place : Nat
  capsule : Nat
  cause : Nat
  deriving DecidableEq, Repr

/-- Judges place `i`. Log entry 63 (DEDUCED, unsafe). -/
def chardAt (x : ChardCtx) (pl : List (List Int)) (i : Nat) : Option ChardFail :=
  let q := pl.getD i []
  let poses := chardCompose x.m q
  let lim := if chardLimit x.m q then 4 else 0
  let hit := (x.m.caps.zip (List.range x.m.caps.length)).findSome? (fun c =>
    let k := capsuleCause x pl poses i c.1
    if k = 0 then none else some (c.2, k))
  match hit with
  | some (c, k) => some { place := placeName x.b i, capsule := c, cause := lim + k }
  | none => if lim = 0 then none else some { place := placeName x.b i, capsule := 0xFF, cause := 4 }

/-- The first failing place, in order (R352, R355). Log entry 63 (DEDUCED, unsafe). -/
def chardCheck (x : ChardCtx) (wp : List (List Int)) : Option ChardFail :=
  let pl := chardPlaces wp x.b
  (List.range pl.length).findSome? (chardAt x pl)

/-- SEG_DIGEST (R355) of 32 waypoints and their branch. -/
def segDigest (wp : List (List Int)) (b : Nat) : Bytes :=
  (sha256 ((wp ++ (stopBranch wp b).drop 1).flatMap (fun q => q.flatMap (fun x => leBytes 4 (ofSigned 32 x))))).take 8

/-! ### The verdict -/

/-- The Chard's verdict on its task: the record's address and B stand in the descriptor's arguments.
Log entry 35 (DESIGN CHOICE, safe). -/
def chardVerdict (s : State) (u : Nat) (t : Task) (clk : Nat) : Option Verdict :=
  match modelOf s t.gen with
  | none => none
  | some m =>
    let c := recAt s t.desc.arg0
    let b := t.desc.arg1 % 256
    let x : ChardCtx := { m := m, v := verOf s t.ver, mc := mmUp s.safety.par.mC, b := b, caps := setOf s t.cycle }
    let f := chardCheck x c.wp
    some { unit := u, candId := c.id, cycle := c.cycleLo, clear := f.isNone, place := (f.map (·.place)).getD 0xFF,
           capsule := (f.map (·.capsule)).getD 0xFF, cause := (f.map (·.cause)).getD 0, digest := segDigest c.wp b, clk := clk }

/-- The register CHD_UNIT_u of a Chard. -/
def chdUnitReg (u : Nat) : Nat := Reg.chdUnit + 4 * (3 * idStack u + idIndex u)

/-- One more check of a Chard, and one more BLOCKED verdict where `blk` says so; both saturate. -/
def chdUnitCount (s : State) (u : Nat) (blk : Bool) : State :=
  let v := regGet s (chdUnitReg u)
  regSet s (chdUnitReg u) (satInc 16 (field v 0 16) + 2 ^ 16 * (if blk then satInc 16 (field v 16 16) else field v 16 16))

/-- CHARD_VERDICT: the Chard of unit `u` ends its check after `clk` clk; the Husk takes a verdict up to 61,604 pu of its cycle. -/
def chardDone (s : State) (u clk : Nat) : State :=
  match running s u with
  | none => s
  | some t =>
    if t.desc.opId ≠ 0x0601 then s
    else
      let v := chardVerdict s u t clk
      let s := regSet s Reg.chdCycClk clk
      let s := match v with
        | some v => chdUnitCount s u (!v.clear)
        | none => s
      let s := finishTask s u 0 0 []
      if t.cycle = s.phu.cycle ∧ phase s ≤ 61604 ∧ !s.safety.compared then { s with safety := { s.safety with verdict := v } } else s

/-- CHARD_VERDICT (R351 to R355). -/
def execChardVerdict (u : BitVec 16) (clk : BitVec 32) (s : State) : Host.Outcome State Fault Refusal :=
  .next (runArith s (fun s => chardDone s u.toNat clk.toNat))

end Sys2Proof.Machine
end

