-- ==== Sys2Proof/Machine/Husk.lean ====
section
/-!
DEFINITION. The Husk: CHARD_PUSH (R350), the comparison and its window (R357 to R359), the permit's grant, hold, pattern and lapse
(R360 to R362), stop requests (R363), safety parameters (R368 to R370) and the safe state (R364).
-/
namespace Sys2Proof.Machine

/-! ### The Chard push (R350) -/

/-- Whether a stack has an ACTIVE Chard. -/
def chardActive (s : State) (k : Nat) : Bool := (classUnits 7 k).any (isActive s)

/-- Whether a stack has a Chard that may claim a check (R278, R392). -/
def chardClaims (s : State) (k : Nat) : Bool := (classUnits 7 k).any (fun u => isActive s u && !(unitOf s u).goldBad)

/-- The stack to which the re-checks of the next cycle are confined: the one without an ACTIVE Chard. -/
def recheckStack (s : State) : Option Nat :=
  match chardActive s 0, chardActive s 1 with
  | false, true => some 0
  | true, false => some 1
  | _, _ => none

/-- The CHARD_VERIFY descriptor: the fields of its parameter block stand in ARG0 (record) and ARG1 (B, PIN).
Log entry 35 (DESIGN CHOICE, safe). -/
def chardDesc (s : State) (w : Winner) (k : Nat) : Desc :=
  { opId := 0x0601, cls := 7, suspend := false, rerunEn := false, stackSel := k, crit := 0, taskId := 0x0601, param := 0,
    doneCtr := 0xFFFF, failCtr := 0xFFFF, outQueue := 0xFFFFF, startBy := 0xFFFF, endBy := 61604, endCyc := 0, budget := 0xFFFF,
    arg0 := w.addr, arg1 := s.safety.par.b + 256 * pinOf s, resvBad := false }

/-- CHARD_PUSH: after the winner selection and not before 58,982 pu, to the stack opposite to the winner's. -/
def chardPush (s : State) : State :=
  match s.safety.winner with
  | none => s
  | some w =>
    if s.safety.pushed ∨ s.safety.compared then s
    else
      let s := reachPhase s 58982
      let k := 1 - idStack w.leek
      let f := { s.safety with pushed := true, chardStack := k, noChard := !chardClaims s k }
      let s := { s with safety := f }
      if f.noChard then s
      else
        let t : Task := { desc := chardDesc s w k, rid := s.sched.nextRid, cycle := s.phu.cycle, stack := k, byHusk := true, pcopy := 0,
                          rerun := false, excl := none, began := false, startCycle := 0, startPhase := 0, lateChecked := false,
                          resumed := false, ueRegion := none, ctr := 0xFFFF, ver := s.world.cur.version, gen := s.model.gen, wgen := s.cob.wGen, inv := 0, warm := 0 }
        readyTail { s with sched := { s.sched with nextRid := s.sched.nextRid + 1 } } t

/-! ### The comparison (R357 to R359) -/

/-- CHD_STAT after a check on the Chard's stack: 0 CLEAR, 1 BLOCKED, 2 missing. -/
def chdStat (s : State) (v : Nat) : State := regSet s Reg.chdStat (v * 64 + s.safety.chardStack * 32)

/-- A withheld frame for a missing verdict or digest: event 0x0D03 with its reason. Log entry 48 (DEDUCED, unsafe). -/
def chardMissing (s : State) (unit why : Nat) : State :=
  let s := chdStat (regCount s Reg.chdMissing) 2
  let s := { s with safety := { s.safety with outcome := 2 } }
  raise s 0x0D03 unit s.phu.cycle why

/-- A disagreement (R357, R359): the window, and at DIS_COUNT of them event 0x0D02 and DISABLE of the Chard. -/
def chardDisagree (s : State) (w : Winner) (v : Verdict) : State :=
  let s := chdStat (regCount s Reg.chdDisagree) 1
  let s := regSet (regSet s Reg.chdLastDis s.phu.cycle) Reg.chdLastCause (v.place * 2 ^ 24 + v.capsule * 2 ^ 16 + v.cause)
  let s := raise s 0x0D01 w.leek v.candId (v.place * 2 ^ 24 + v.capsule * 2 ^ 16 + v.cause)
  let l := inWindow s.phu.cycle s.safety.par.disWindow s.safety.disCycles ++ [s.phu.cycle]
  let s := { s with safety := { s.safety with outcome := 1, disCycles := l } }
  if s.safety.par.disCount ≤ l.length then
    let s := raise s 0x0D02 v.unit v.unit l.length
    let s := { s with safety := { s.safety with disCycles := [] } }
    judgePath (firmwareCmd s v.unit 2).2 v.unit
  else s

/-- The segment of a winner's refined record (R347, R348, R355). -/
def segOf (s : State) (w : Winner) : Seg :=
  let c := recAt s w.addr
  let b := s.safety.par.b
  { gen := s.phu.cycle, candId := w.candId, key := w.key, wp := c.wp, branch := stopBranch c.wp b, dtUs := c.dtUs, nj := c.nj, b := b,
    pin := pinOf s, planGen := s.plan.gen, modelGen := s.model.gen, nondet := w.nondet, digest := segDigest c.wp b, age := 0 }

/-- COMPARISON: at 61,605 pu. Only agreement commits, in the states that commit (R36, R42). Log entry 48 (DEDUCED, unsafe). -/
def comparison (s : State) : State :=
  if s.safety.compared ∨ !phaseRuns s then s
  else
    let s := reachPhase s 61605
    let s := { s with safety := { s.safety with compared := true } }
    match s.safety.winner with
    | none => { s with safety := { s.safety with outcome := 3 } }
    | some w =>
      match (if imposedAt s 0x0D03 then none else s.safety.verdict) with
      | none => chardMissing s 0xFFFF (if s.safety.noChard then 2 else 1)
      | some v =>
        if v.candId ≠ w.candId then chardMissing s 0xFFFF 1
        else if !v.clear then chardDisagree s w v
        else
          let g := segOf s w
          if v.digest ≠ g.digest then chardMissing s v.unit 3
          else
            let s := chdStat (regCount s Reg.chdAgree) 0
            if publishes s then { s with safety := { s.safety with outcome := 0, next := some g } }
            else { s with safety := { s.safety with outcome := 4 } }

/-! ### The permit (R360 to R362) -/

/-- Condition 3 of R360 under a set of parameters: T_b declared, B ≥ PIN and N_B ≥ L + 1. Log entry 48 (DEDUCED, unsafe). -/
def cond3 (s : State) (p : SParams) : Bool :=
  p.tB != 0 && decide (pinOf s ≤ p.b) && decide (horizonL s p.tB + 1 ≤ horizonNB s p.b (dtUs s))

/-- Condition 4 of R360: M_P − M_C covers the model-error budget. -/
def cond4 (s : State) (p : SParams) : Bool := decide (objN s 0x4000 9 + 1000 * p.mC ≤ 1000 * p.mP)

/-- A robot model and a plan image are installed. -/
def installed (s : State) : Bool := s.model.cur.isSome && s.plan.run.isSome

/-- The first condition of R360 that fails, 0 when all hold; `g` is the segment that this publication commits. -/
def grantFail (s : State) (g : Option Seg) : Nat :=
  let p := s.safety.par
  if !s.safety.lock then 1
  else if !installed s then 2
  else if !cond3 s p then 3
  else if !cond4 s p then 4
  else if !fsoeOk s then 5
  else if s.safety.stopReq then 6
  else if s.phu.st ≠ .locked then 7
  else match g with
    | none => 8
    | some g => if lNow s ≤ horizonH s g (s.phu.cycle + 1) then 0 else 8

/-- The grant at a publication (R360), in the life-cycle state OPERATIONAL only (R497): event 0x0D05 for the next cycle, or event 0x0D09 when condition 8 alone has failed for 16
publications in a row. Log entry 47 (DEDUCED, unsafe). -/
def grantStep (s : State) (g : Option Seg) : State :=
  if s.safety.permit ∨ s.safety.grant ∨ s.safety.safeState ∨ s.det.replay ∨ s.svc.life ≠ 2 then s
  else
    match grantFail s g with
    | 0 =>
      let s := { s with safety := { s.safety with grant := true, blockRun := 0, firstCycle := s.phu.cycle + 1 } }
      raise s 0x0D05 huskId (s.phu.cycle + 1) 0
    | 8 =>
      let n := s.safety.blockRun + 1
      if n = 16 then raise { s with safety := { s.safety with blockRun := 0 } } 0x0D09 huskId 8 0
      else { s with safety := { s.safety with blockRun := n } }
    | _ => { s with safety := { s.safety with blockRun := 0 } }

/-- The Husk at a boundary: the segment that a publication committed starts to execute (R347, R429), the permit of R360 begins, PERMIT_A follows R362, and the
permit lapses when H(n) falls below L or a condition on model, plan or budget is lost (R361, R366).
Log entry 11 (DEDUCED, unsafe); Log entry 48 (DEDUCED, unsafe). -/
def permitBoundary (s : State) : State :=
  let f := s.safety
  let runs := match f.next, f.published with | some g, true => some g | _, _ => f.exe
  let f := { f with exe := runs.map (fun g => { g with age := g.age + 1 }), next := none, winner := none, pushed := false,
                    noChard := false, verdict := none, compared := false, published := false, outcome := 3, permit := f.permit || f.grant, grant := false }
  let first := s.safety.grant && !s.safety.permit
  let s := { s with safety := f, pod := { s.pod with onlyStack := recheckStack s } }
  if !f.permit then s
  else if horizonNow s < lNow s then lapse s 1
  else if !s.safety.lock ∨ !installed s ∨ !cond4 s s.safety.par ∨ s.det.replay then lapse s 6
  else if first then { s with safety := { s.safety with permitA := true, permitB := true } }
  else { s with safety := { s.safety with permitA := (s.phu.cycle + s.safety.firstCycle) % 2 == 0 } }

/-- PERMIT_B_TOGGLE: at 16,384 pu of a permitted cycle PERMIT_B is the complement of PERMIT_A (R362). -/
def permitBToggle (s : State) : State :=
  if s.safety.permit ∧ phaseRuns s then
    let s := reachPhase s 16384
    { s with safety := { s.safety with permitB := !s.safety.permitA } }
  else s

/-! ### Stop requests (R363) -/

/-- A write of STOP: event 0x0D0A and the lapse. -/
def stopRequest (s : State) : State :=
  lapse (raise { s with safety := { s.safety with stopReq := true } } 0x0D0A huskId 2 0) 3

/-- A write of RELEASE. -/
def stopRelease (s : State) : State := { s with safety := { s.safety with stopReq := false } }

/-! ### Safety parameters (R368 to R370) -/

/-- The 15 bytes of a set (R369). -/
def sparBytes (p : SParams) : Bytes :=
  leBytes 2 p.mP ++ leBytes 2 p.mS ++ leBytes 2 p.mC ++ leBytes 4 p.tB ++ [p.b % 256, p.disCount % 256] ++ leBytes 2 p.disWindow ++
    [p.fsoeReq % 256]

/-- The CRC of a set. -/
def sparCrc (p : SParams) : Nat := crc32 (sparBytes p)

/-- A set with one value replaced, by sub-index 1 to 8. -/
def sparPut (p : SParams) (x : Nat × Nat) : SParams :=
  match x.1 with
  | 1 => { p with mP := x.2 } | 2 => { p with mS := x.2 } | 3 => { p with mC := x.2 } | 4 => { p with tB := x.2 }
  | 5 => { p with b := x.2 } | 6 => { p with disCount := x.2 } | 7 => { p with disWindow := x.2 } | 8 => { p with fsoeReq := x.2 }
  | _ => p

/-- The value of a sub-index in force. -/
def sparGet (p : SParams) (sub : Nat) : Nat :=
  match sub with
  | 1 => p.mP | 2 => p.mS | 3 => p.mC | 4 => p.tB | 5 => p.b | 6 => p.disCount | 7 => p.disWindow | 8 => p.fsoeReq | _ => 0

/-- The ranges of R376; 9 stands for TAMPER_ACTION, which follows the same procedure (R504). -/
def sparRange (sub v : Nat) : Bool :=
  match sub with
  | 1 => decide (1 ≤ v ∧ v ≤ 500) | 2 => decide (v ≤ 200) | 3 => decide (v ≤ 499)
  | 4 => v == 0 || decide (10000 ≤ v ∧ v ≤ 5000000) | 5 => decide (2 ≤ v ∧ v ≤ 15) | 6 => decide (2 ≤ v ∧ v ≤ 15)
  | 7 => decide (256 ≤ v ∧ v ≤ 65535) | 8 | 9 => decide (v ≤ 1) | _ => false

/-- The staged set: values in force with the staged ones in their place. -/
def sparNew (s : State) : SParams := s.safety.staged.foldl sparPut s.safety.par

/-- A refusal (R370): the staged values are discarded, the lock re-engages, event 0x0D08. -/
def sparRefuse (s : State) (reason : Nat) : State :=
  let s := { s with safety := { s.safety with staged := [], spStatus := .refused, spReason := reason, confirmed := none } }
  raise s 0x0D08 huskId reason 0

/-- An abort of an object access, counted (R422, 0x2001:07). -/
def sdoAbort (s : State) (code : Nat) : State :=
  answer { s with od := { s.od with aborts := satInc 32 s.od.aborts } } (.sdoAbort code)

/-- Whether the mailbox serves CoE (R418). -/
def coeUp (s : State) : Bool := s.od.al == .preop || s.od.al == .safeop || s.od.al == .op

/-- A CoE request is served where the mailbox is up. -/
def withCoe (s : State) (f : State → State) : State := if coeUp s then f s else answer s .noMailbox

/-- SPARAM_UNLOCK: the CRC in force unlocks; another value is refused with reason 1. Log entry 48 (DEDUCED, unsafe). -/
def sparUnlock (s : State) (v : Nat) : State :=
  if s.safety.spStatus = .unlocked ∨ s.safety.spStatus = .confirmed then sdoAbort s 0x08000020
  else if v = sparCrc s.safety.par then
    answer { s with safety := { s.safety with spStatus := .unlocked, staged := [], unlockCycle := s.phu.bcount } } .sdoOk
  else sdoAbort (sparRefuse s 1) 0x08000000

/-- SPARAM_STAGE: a value within its range is staged while unlocked. -/
def sparStage (s : State) (sub v : Nat) : State :=
  if !sparRange sub v then sdoAbort s 0x06090030
  else if s.safety.spStatus ≠ .unlocked then sdoAbort s 0x08000020
  else answer { s with safety := { s.safety with staged := s.safety.staged ++ [(sub, v)] } } .sdoOk

/-- The reason for which a set is refused, 0 accepts (R370); a set that leaves T_b undeclared is not held to condition 3. -/
def sparJudge (s : State) (v : Nat) : Nat :=
  let p := sparNew s
  if v ≠ sparCrc p then 2
  else if p.mP ≤ p.mC ∨ !cond4 s p then 3
  else if p.tB ≠ 0 ∧ !cond3 s p then 4
  else 0

/-- SPARAM_CONFIRM: the confirmation of the staged set. Log entry 48 (DEDUCED, unsafe). -/
def sparConfirm (s : State) (v : Nat) : State :=
  if s.safety.spStatus ≠ .unlocked then sdoAbort s 0x08000020
  else
    match sparJudge s v with
    | 0 => answer { s with safety := { s.safety with spStatus := .confirmed, confirmed := some (s.now, sparNew s) } } .sdoOk
    | r => sdoAbort (sparRefuse s r) 0x08000000

/-- SPARAM_TIMEOUT: 65,536 cycles after the unlock without a confirmation (R370). -/
def sparTimeout (s : State) : State :=
  if s.safety.spStatus = .unlocked ∧ s.safety.unlockCycle + 65536 ≤ s.phu.bcount then sparRefuse s 5 else s

/-- A confirmed set takes effect at a boundary, not at one of the clk of its confirmation (R370), with event 0x0D07; POD_MARGIN takes the new M_P
and M_S (R369, R376). -/
def sparBoundary (s : State) : State :=
  match s.safety.confirmed with
  | none => s
  | some (tick, p) =>
    if tick = s.now then s
    else
    let ta := (s.safety.staged.filter (fun (x : Nat × Nat) => x.1 == 9)).getLast?
    let s := { s with safety := { s.safety with par := p, staged := [], confirmed := none, spStatus := .locked,
                                                applied := satInc 32 s.safety.applied }
                      svc := { s.svc with tamperAction := (ta.map (·.2)).getD s.svc.tamperAction } }
    let s := regLoad s Reg.podMargin (p.mP * 2 ^ 16 + p.mS)
    let r : InRec := { typ := 5, source := 0, cycle := s.phu.cycle, phase := 0, content := sparBytes p }
    let s := { s with det := { s.det with recs := s.det.recs ++ [r] } }
    raise (recordWrite s) 0x0D07 huskId (sparCrc p) 0

/-! ### The safe state (R364) -/

/-- The cause code of event 0x0D06. -/
def safeCode : SafeCause → Nat
  | .path => 1 | .huskPair => 2 | .clock => 3 | .temperature => 4 | .supply => 5

/-- Whether the state bears out a detected condition: the verdict path by the units, a clock by a failed source of which 50 ms have
passed; a comparator, a sensor or a supply monitor reports the others. -/
def safeHolds (s : State) : SafeCause → Bool
  | .path => pathLost s
  | .clock => s.cpm.failed.any (fun p => decide (p.2 + 450000000 ≤ s.now))
  | _ => true

/-- SAFE_STATE. -/
def safeDetect (s : State) (c : SafeCause) : State := if safeHolds s c then enterSafe s (safeCode c) else s

/-! ### Meanings -/

/-- CHARD_PUSH (R350). -/
def execChardPush (s : State) : Host.Outcome State Fault Refusal := .next (runArith s chardPush)
/-- COMPARISON (R357). -/
def execComparison (s : State) : Host.Outcome State Fault Refusal := .next (runArith s comparison)
/-- PERMIT_B_TOGGLE (R362). -/
def execPermitBToggle (s : State) : Host.Outcome State Fault Refusal := .next (runArith s permitBToggle)
/-- HSK_STOP_REQUEST (R363). -/
def execHskStopRequest (s : State) : Host.Outcome State Fault Refusal :=
  .next (runApp s (fun s => answer (stopRequest s) .busOk))
/-- HSK_STOP_RELEASE (R363). -/
def execHskStopRelease (s : State) : Host.Outcome State Fault Refusal :=
  .next (runApp s (fun s => answer (stopRelease s) .busOk))
/-- SPARAM_UNLOCK (R369). -/
def execSparamUnlock (v : BitVec 32) (s : State) : Host.Outcome State Fault Refusal :=
  .next (runIo s (fun s => withCoe s (fun s => sparUnlock s v.toNat)))
/-- SPARAM_STAGE: sub-index 1 to 8 of 0x4000 (R369). -/
def execSparamStage (sub : Fin 8) (v : BitVec 32) (s : State) : Host.Outcome State Fault Refusal :=
  .next (runIo s (fun s => withCoe s (fun s => sparStage s (sub.val + 1) v.toNat)))
/-- SPARAM_CONFIRM (R369). -/
def execSparamConfirm (v : BitVec 32) (s : State) : Host.Outcome State Fault Refusal :=
  .next (runIo s (fun s => withCoe s (fun s => sparConfirm s v.toNat)))
/-- SPARAM_TIMEOUT (R370). -/
def execSparamTimeout (s : State) : Host.Outcome State Fault Refusal := .next (runIo s sparTimeout)
/-- SAFE_STATE (R364). -/
def execSafeState (c : SafeCause) (s : State) : Host.Outcome State Fault Refusal := .next (runAon s (fun s => safeDetect s c))

end Sys2Proof.Machine
end

