-- ==== Sys2Proof/Machine/Publish.lean ====
section
/-!
DEFINITION. PUBLICATION (R429): the publication record and its extension (R428), the safe data and the FSoE slave frame (R363, R430), the
provenance digest (R402, R403), and the robot's own intent frame (R188).
-/
namespace Sys2Proof.Machine

/-! ### Provenance (R402, R403) -/

/-- The reproducibility signature (R403). -/
def signature (s : State) : Bytes :=
  [0xB0, s.svc.grade % 2, 1, 0] ++ (List.range 17).flatMap (fun c => leBytes 2 (s.svc.ucode.getD c 0)) ++ zeros 10

/-- The weights digest (R402): an unused slot counts as zeros. -/
def weightsDigest (s : State) : Bytes :=
  sha256 ((List.range 16).flatMap (fun k =>
    let used : Bool := (match s.plan.run with | some p => (p.slots[k]?).any (·.used) | none => false)
    if used then fit 32 (Smap.get (fun _ => zeros 32) s.cob.weights k) else zeros 32))

/-- Bytes of a bit list, the first bit the least significant of byte 0. -/
def bitBytes (n : Nat) (l : List Bool) : Bytes := (List.range n).map (fun i => ofBits ((l.drop (8 * i)).take 8))

/-- The 336 bytes under the provenance digest. -/
def provBytes (s : State) : Bytes :=
  fit 32 (match s.plan.run with | some p => p.digest | none => []) ++ weightsDigest s ++ fit 32 s.det.chain ++
    leBytes 8 s.svc.run.version ++ bitBytes 184 s.det.dismap ++ signature s

/-! ### The record (R428) -/

/-- L-based horizon field: H(n) − L + 1 of the carried segment while the permit is held or granted, else 0. -/
def lapseIn (s : State) (g : Option Seg) : Nat :=
  match g with
  | some g => if s.safety.permit || s.safety.grant then horizonH s g s.phu.cycle + 1 - lNow s else 0
  | none => 0

/-- An entry of the stopping-branch summary: the step from `a` to `b`. -/
def branchEntry (m : Option Model) (g : Seg) (k : Nat) (a b : List Int) : Bytes :=
  let v := match m with
    | some m => maxN ((List.range m.bounds.length).map (fun i => ceilDiv (sweep m i a b * 10 ^ 9) (65536 * g.dtUs)))
    | none => 0
  let steps := (b.zip a).map (fun x => (x.1 - x.2).natAbs)
  let top := maxN steps
  leBytes 4 ((g.b + k) * g.dtUs) ++ leBytes 4 v ++ leBytes 4 top ++ [(steps.findIdx? (· == top)).getD 0, 0, 0, 0]

/-- The summary: b_{−1} is q(B − 1). -/
def branchSummary (m : Option Model) (g : Seg) : Bytes :=
  let pts := g.wp.getD (g.b - 1) [] :: g.branch
  (List.range 8).flatMap (fun k => branchEntry m g k (pts.getD k []) (pts.getD (k + 1) []))

/-- Joint `j` of a segment at waypoint `w`, 0 beyond NJ. -/
def segJoint (g : Seg) (w j : Nat) : Bytes := leBytes 4 (ofSigned 32 (vi (g.wp.getD w []) j))

/-- Waypoints 0 to 15 of joints 0 to 11. -/
def segWaypoints (g : Seg) : Bytes := (List.range 16).flatMap (fun w => (List.range 12).flatMap (segJoint g w))

/-- The extension: joints 12 to 31 at waypoints 0 to 15. -/
def segExt (g : Seg) : Bytes := (List.range 20).flatMap (fun i => (List.range 16).flatMap (fun w => segJoint g w (12 + i)))

/-- Joints that the TxPDO carries. -/
def carriedJoints (s : State) : Nat := 12 + objN s 0x1A01 0 / 8

/-- Joints of the model. -/
def modelJoints (s : State) : Nat := match s.model.cur with | some m => m.joints.length | none => 0

/-- Whether the model has more joints than the TxPDO carries. -/
def jShort (s : State) : Bool := decide (carriedJoints s < modelJoints s)

/-- STATUS. Log entry 48 (DEDUCED, unsafe). -/
def txStatus (s : State) (g : Option Seg) : Nat :=
  let o := s.safety.outcome
  b2n (s.safety.permit || s.safety.grant) + 2 * b2n s.safety.segNew + 4 * b2n (o == 1 || o == 2) +
    8 * b2n ((g.map (·.nondet)).getD false) + 16 * b2n s.od.stale + 32 * b2n (jShort s) + 64 * b2n (degraded s != 0) +
    128 * b2n s.det.replay

/-- The publication record, 1,024 bytes, carrying segment `g`. -/
def txRecord (s : State) (g : Option Seg) : Bytes :=
  let n := fun (f : Seg → Nat) => (g.map f).getD 0
  let head := leBytes 2 (txStatus s g) ++ [s.safety.outcome, s.safety.cause] ++ leBytes 4 s.phu.cycle ++
    leBytes 4 ((g.map (·.gen)).getD 0xFFFFFFFF) ++ slice s.od.rx 0 4 ++ leBytes 2 (sat 16 (lapseIn s g)) ++
    [modelJoints s, s.safety.par.b, pinOf s, phuStatus s.phu.st, 0, 0] ++ leBytes 4 (n (·.dtUs)) ++ leBytes 4 (n (·.candId)) ++
    leBytes 4 (n (·.key)) ++ leBytes 4 s.plan.gen ++ leBytes 4 s.model.gen ++ zeros 4 ++ fit 8 ((g.map (·.digest)).getD []) ++ zeros 8 ++
    fit 32 s.det.prov ++ zeros 32
  let body := match g with
    | some g => branchSummary s.model.cur g ++ segWaypoints g
    | none => []
  fit 1024 (head ++ body)

/-! ### FSoE (R363, R430) -/

/-- The safe data of the cycle: two bytes. Log entry 48 (DEDUCED, unsafe). -/
def safeData (s : State) (g : Option Seg) : Nat × Nat :=
  let o := s.safety.outcome
  let h := match g with | some g => horizonH s g s.phu.cycle | none => 0
  (b2n (s.safety.permit || s.safety.grant) + 2 * b2n s.safety.segNew + 4 * b2n (o == 1 || o == 2) + 8 * b2n (decide (h < 2 * lNow s)) +
      16 * (s.safety.cause % 16), min 255 (lapseIn s g))

/-- The slave frame: the command of the master's frame, the safe data in the data state, fail-safe zeros in Reset, the master's data
echoed while the connection is set up; CRC_0 is open. Log entry 36 (DESIGN CHOICE, safe). -/
def slaveFrame (s : State) : State :=
  let f := s.od.fsoe
  let (crc, s) := takeFreeBytes s 2
  let d := match f.st with
    | .data => [f.sample0, f.sample1]
    | .reset => [0, 0]
    | _ => slice f.mframe 1 2
  { s with od := { s.od with fsoe := { f with sframe := f.mframe.take 1 ++ d ++ crc ++ leBytes 2 f.connId } } }

/-! ### Publication (R429) -/

/-- OUTCOME of a publication (R428). -/
def pubOutcome (s : State) : Nat :=
  if !installed s then 5 else if !publishes s then 4 else if s.safety.compared then s.safety.outcome else 3

/-- Event 0x100A, once per plan or model generation. -/
def jShortEvent (s : State) : State :=
  let key := s.plan.gen * 2 ^ 32 + s.model.gen + 1
  if jShort s ∧ s.od.jShortGen ≠ key then
    raise { s with od := { s.od with jShortGen := key } } 0x100A 0x6800 (modelJoints s) (carriedJoints s)
  else s

/-- The SM3 buffer is written in SAFEOP and OP (R418, R429). -/
def writeTx (s : State) : State :=
  if s.od.al = .safeop ∨ s.od.al = .op then
    let g := s.od.lastCarried
    let s := slaveFrame s
    { s with od := { s.od with tx := txRecord s g, txExt := (g.map segExt).getD [], txWrites := satInc 32 s.od.txWrites } }
  else s

/-- FW_PUBLISH tasks end with the publication (R304). -/
def endPublishTasks (s : State) : State :=
  (classUnits 0x0B 0 ++ classUnits 0x0B 1).foldl (fun s u =>
    match running s u with
    | some t => if t.desc.opId = 0x0701 then finishTask s u 0 0 [] else s
    | none => s) s

/-- PUBLICATION: at 62,259 pu, once per cycle. Log entry 52 (DEDUCED, unsafe). -/
def publication (s : State) : State :=
  if s.safety.published ∨ !phaseRuns s then s
  else
    let s := reachPhase s 62259
    let o := pubOutcome s
    let g := if o = 0 then s.safety.next else none
    let f := { s.safety with published := true, outcome := o, next := g, segNew := g.isSome }
    let s := { s with safety := f }
    let s := grantStep s g
    let carried := if o ≤ 3 then (match g with | some g => some g | none => s.safety.exe) else s.od.lastCarried
    let s := { s with od := { s.od with lastCarried := carried } }
    let s := if publishes s then { s with phu := { s.phu with pubStatus := phuStatus s.phu.st } } else s
    let s := if o ≤ 3 then { s with det := { s.det with prov := sha256 (provBytes s) } } else s
    let s := if o ≤ 3 ∧ (carried.map (·.nondet)).getD false then { s with det := { s.det with nondet := satInc 32 s.det.nondet } } else s
    let d := safeData s carried
    let s := { s with od := { s.od with fsoe := { s.od.fsoe with sample0 := d.1, sample1 := d.2 } } }
    endPublishTasks (publishIntent (writeTx (jShortEvent s)))

/-- PUBLICATION (R429). -/
def execPublication (s : State) : Host.Outcome State Fault Refusal := .next (runArith s publication)

end Sys2Proof.Machine
end

