-- ==== Sys2Proof/Machine/Reset.lean ====
section
/-!
DEFINITION. Reset and boot (R13, R386, R473 to R475): what survives a reset, the steps of the boot sequence, and the end of a unit's TEST.
-/
namespace Sys2Proof.Machine

/-! ### Reset (R473) -/

/-- What eMRAM keeps of a unit: retirement, strikes, and a retirement that falls due (R13, R381, R480). -/
def unitKept (r : UnitRec) : UnitRec :=
  { UnitRec.off with st := if r.st = .retired then .retired else .offline, strikes := r.strikes, retireFor := r.retireFor }

/-- The unit records after a reset; the Husk, in the always-on domain, keeps its own unless the whole device resets.
Log entry 8 (DESIGN CHOICE, unsafe); Log entry 16 (DEDUCED, unsafe). -/
def unitsKept (s : State) (full : Bool) : Smap UnitRec :=
  s.units.filterMap (fun p =>
    let r := if p.1 = huskId ∧ !full then p.2 else unitKept p.2
    if r = UnitRec.off then none else some (p.1, r))

/-- Service life after a reset: what eMRAM and the fuses hold stays (R480, R497).
Log entry 8 (DESIGN CHOICE, unsafe); Log entry 16 (DEDUCED, unsafe). -/
def svcKept (v : Svc) (full : Bool) : Svc :=
  { v with run := .none, old := none, pend := none, fwSt := .idle, reason := 0, rollbackBy := none, stagedAt := 0, repair := none,
           retries := 0, ucStatus := .idle, ucDefer := 0, lifePend := none, report := [], reportSt := 0,
           sinceSnap := 0, aged := if full then [] else v.aged }

/-- A reset (R473): of the whole device, or of everything except the always-on domain. eMRAM stays: unit records, region and page lists,
stored objects, safety parameters, the publication counter, the black box and service life (R480). Log entry 16 (DEDUCED, unsafe). -/
def resetTo (s : State) (full : Bool) (cause : Nat) : State :=
  let z := State.reset
  let m := s.mem
  { z with
    pending := s.pending
    now := s.now
    freeCtr := s.freeCtr
    units := unitsKept s full
    mem := { z.mem with retired := m.retired, remap := m.remap, sparesOut := m.sparesOut, pages := m.pages }
    diag := { z.diag with huskFail := !full && s.diag.huskFail }
    peers := { z.peers with pubStore := s.peers.pubStore }
    od := { z.od with stored := s.od.stored }
    safety := { z.safety with par := s.safety.par, cause := if s.svc.life = 3 then 6 else 0 }
    logs := { z.logs with box := s.logs.box, bseq := s.logs.bseq, chain := s.logs.chain, lastCause := s.logs.lastCause }
    svc := svcKept s.svc full
    cpm := { z.cpm with boot := if full then .aonReset else .mainReset, cause := cause, watchOk := !full && s.cpm.watchOk,
                        bootSel := s.cpm.bootSel, aonTick := s.cpm.aonTick }
    pins := if full then z.pins else
      { z.pins with temps := s.pins.temps, rails := s.pins.rails, dieT := s.pins.dieT, excluded := s.pins.excluded, warnRun := s.pins.warnRun
                    limitRun := s.pins.limitRun, supWarnRun := s.pins.supWarnRun, supLimitRun := s.pins.supLimitRun, warn := s.pins.warn
                    supWarn := s.pins.supWarn, tMax := s.pins.tMax, supWarns := s.pins.supWarns, tapIr := s.pins.tapIr } }

/-- AON_PORST_LOW: the whole device. Log entry 16 (DEDUCED, unsafe). -/
def aonPorstLow (s : State) : State := resetTo s true 1

/-- AON_PORST_RELEASE: the always-on domain starts, and the Husk enters TEST with ENABLE_PENDING (R13). -/
def aonPorstRelease (s : State) : State :=
  if s.cpm.boot ≠ .aonReset then s
  else
    let s := { s with cpm := { s.cpm with boot := .mainReset, watchOk := true, aonTick := s.now } }
    unitUpd s huskId (fun r => { r with st := .test, ep := true })

/-- PORST_LOW. Log entry 16 (DEDUCED, unsafe). -/
def porstLow (s : State) : State := if s.cpm.boot = .aonReset then s else resetTo s false 2

/-- The boot sequence starts: event 0x1208 names the cause of the reset (R473). -/
def bootStart (s : State) (bootSel : Bool) : State :=
  let s := { s with cpm := { s.cpm with boot := .booting, step := 0, bootTick := s.now, lockTries := 0, bootSel := bootSel }
                    svc := { s.svc with bootCnt := (s.svc.bootCnt + 1) % 2 ^ 32 } }
  raise s 0x1208 0xFFFF s.cpm.cause 0

/-- Time passes until tick `t`. Log entry 6 (DEDUCED, safe). -/
def reachTick (s : State) (t : Nat) : State := advance s (t - s.now)

/-- PORST_RELEASE: BOOT_SEL is sampled (R474). Until AON_PORST_N has been high for 100 µs the level of PORST_N counts as low (R443). -/
def porstRelease (s : State) (bootSel : Bool) : State :=
  if s.cpm.boot = .mainReset then bootStart (reachTick s (s.cpm.aonTick + 900000)) bootSel else s

/-- A device reset, cause 3: as PORST_N low, and the boot follows with BOOT_SEL as it was sampled. Log entry 16 (DEDUCED, unsafe). -/
def deviceReset (s : State) : State :=
  let s := resetTo s false 3
  bootStart s s.cpm.bootSel

/-! ### Steps 1 to 4 (R475) -/

/-- REFCLK_STABLE: 65,536 good cycles of 40 ns (R462); step 1 of a boot. -/
def refclkStable (s : State) : State :=
  if s.cpm.boot = .booting ∧ !s.cpm.refOk then
    let s := reachTick s (s.cpm.bootTick + 23592960)
    { s with cpm := { s.cpm with refOk := true, step := 1 } }
  else s

/-- The order of firmware versions: major, minor, patch, build (R486). -/
def verKey (v : Nat) : Nat := field v 0 16 * 2 ^ 48 + field v 16 16 * 2 ^ 32 + field v 32 16 * 2 ^ 16 + field v 48 16

/-- The stack whose image-store copy boots: VALID, with the higher version (R489). -/
def bootCopy (s : State) : Option Nat :=
  let v := s.svc
  if v.store0 = .valid ∧ v.store1 = .valid then some (if verKey v.img0.version < verKey v.img1.version then 1 else 0)
  else if v.store0 = .valid then some 0
  else if v.store1 = .valid then some 1
  else none

/-- Every unit that may serve enters TEST with ENABLE_PENDING by an ENABLE (R13, R14, R475). -/
def testAll (s : State) : State :=
  allUnits.foldl (fun s u => if u = huskId ∨ unitSt s u = .retired then s else unitEvent s u .enable) s

/-- Object values at boot: the stored ones, the rest at their defaults (R432), in force. -/
def bootObjects (s : State) : State :=
  { s with od := { s.od with obj := s.od.stored, force := s.od.stored } }

/-- Boot-time recovery (R474, R490): AL state BOOT. -/
def bootRecovery (s : State) : State :=
  { s with cpm := { s.cpm with boot := .recovery }, od := { s.od with al := .boot, phyReset := false }
           mem := { s.mem with svcMask0 := 3, svcMask1 := 3 } }

/-- Step 3: the firmware image of a VALID copy starts, the other copy is rewritten from it (R489), xSPI and I3C are ungated, the registers
are loaded, the areas laid out, the PHY resets released, EtherCAT enters INIT and the PHU loads its source.
Log entry 60 (DEDUCED, unsafe). -/
def bootFirmware (s : State) (imageOk : Bool) : State :=
  match (if s.cpm.bootSel ∨ !imageOk then none else bootCopy s) with
  | none => bootRecovery s
  | some k =>
    let img := if k = 0 then s.svc.img0 else s.svc.img1
    let v := { s.svc with run := img, repair := some (1 - k) }
    let s := { s with svc := if k = 0 then { v with store1 := .writing } else { v with store0 := .writing }
                      mem := { s.mem with svcMask0 := 3, svcMask1 := 3 }
                      od := { s.od with al := .init, phyReset := false }
                      peers := { s.peers with pubSeq := (s.peers.pubStore + 65536) % 2 ^ 32 } }
    let s := bootObjects s
    let s := gateWrite s 0xC00
    let s := ungateEnabled (layOut (loadAll s))
    let s := regLoad s Reg.podMargin (s.safety.par.mP * 2 ^ 16 + s.safety.par.mS)
    let s := { s with cpm := { s.cpm with step := 3 } }
    let src := field (regGet s Reg.phuCtrl) 0 2
    testAll (if src = 1 ∨ src = 2 then srcSelect s src else s)

/-- PLL_LOCK_CHECK: 16,384 REFCLK cycles after REFCLK is judged stable or after the last count (R462). Three further counts may follow;
then the boot stops with event 0x1206. Log entry 61 (DESIGN CHOICE, unsafe). -/
def pllLockCheck (s : State) (locks : Nat) (imageOk osOk : Bool) : State :=
  if s.cpm.boot = .booting ∧ s.cpm.refOk ∧ s.cpm.step = 1 then
    let s := advance s 5898240
    let s := { s with cpm := { s.cpm with pllLock := locks, osOk := osOk } }
    if locks = 15 then bootFirmware { s with cpm := { s.cpm with step := 2 } } imageOk
    else if s.cpm.lockTries < 3 then { s with cpm := { s.cpm with lockTries := s.cpm.lockTries + 1 } }
    else raise { s with cpm := { s.cpm with boot := .stopped } } 0x1206 0xFFFF 2 1
  else s

/-! ### Steps 4 to 6 -/

/-- Whether a unit is a DDR5 channel. -/
def isChan (u : Nat) : Bool := idClass u == 0x0E

/-- A SPARE takes an ACTIVE place that its pool has left (R386). -/
def fillPools (s : State) : State :=
  allUnits.foldl (fun s u =>
    if unitSt s u = .spare ∧ countIn s (poolUnits u) .active < poolTarget u then
      w1cSet (unitUpd s u (fun r => { r with st := .active })) Reg.uctlEvent 0
    else s) s

/-- Whether any unit that the predicate names is still in TEST. -/
def testing (s : State) (f : Nat → Bool) : Bool := allUnits.any (fun u => f u && unitSt s u == .test)

/-- The safety lock is set and FAULT_N rises when the Husk has passed and step 4 has ended (R368, R386). -/
def setLock (s : State) : State :=
  if isActive s huskId ∧ 4 ≤ s.cpm.step ∧ !s.safety.lock then
    { s with safety := { s.safety with lock := true, faultN := true }, diag := { s.diag with injection := 1 } }
  else s

/-- Step 4 ends: pools are filled, and the lock is set. -/
def bootTested (s : State) : State :=
  let s := fillPools s
  setLock { s with cpm := { s.cpm with step := 4 } }

/-- Steps 5 and 6: every channel trained, then the OS image; a channel that is not trained stops the boot.
Log entry 61 (DESIGN CHOICE, unsafe). -/
def bootMemory (s : State) : State :=
  if [0, 1, 2, 3].all (fun n => (chanGet s n).trained) then
    if s.cpm.osOk then { s with cpm := { s.cpm with step := 6, boot := .up, appUp := true } }
    else raise { s with cpm := { s.cpm with step := 5, boot := .stopped } } 0x1206 0xFFFF 6 2
  else { s with cpm := { s.cpm with boot := .stopped } }

/-- The boot goes on when the tests it waits for have ended. Log entry 60 (DEDUCED, unsafe). -/
def bootNext (s : State) : State :=
  if s.cpm.boot ≠ .booting ∨ s.cpm.step < 3 then s
  else
    let s := if s.cpm.step = 3 ∧ !testing s (fun u => !isChan u && u != huskId) then bootTested s else s
    if s.cpm.step = 4 ∧ !testing s isChan then bootMemory s else s

/-- A channel's TEST: its trainings follow its BIST (R336, R387). A failed training of step `w` raises 0x0C05.
Log entry 61 (DESIGN CHOICE, unsafe). -/
def chanTestEnd (s : State) (u : Nat) (r : TestRes) : State :=
  if unitSt s u ≠ .test then s
  else
    let n := 2 * idStack u + idIndex u
    match r with
    | .pass => chanUpd (testEnd s u .pass) n (fun c => { c with trained := true, sc0 := true, sc1 := true })
    | .march w => testFail (raise s 0x0C05 u n w.toNat) u 2
    | _ => testEnd s u r

/-- UNIT_TEST_END. The Husk's own failure at the start leaves the lock unset. -/
def unitTestEnd (s : State) (u : Nat) (r : TestRes) : State :=
  let s := bootNext (if isChan u then chanTestEnd s u r else testEnd s u r)
  if u = huskId then setLock s else s

/-! ### Meanings -/

/-- AON_PORST_LOW (R443, R473). -/
def execAonPorstLow (s : State) : Host.Outcome State Fault Refusal := .next (aonPorstLow s)
/-- AON_PORST_RELEASE (R13). -/
def execAonPorstRelease (s : State) : Host.Outcome State Fault Refusal := .next (aonPorstRelease s)
/-- PORST_LOW (R473). -/
def execPorstLow (s : State) : Host.Outcome State Fault Refusal := .next (if aonUp s then porstLow s else s)
/-- PORST_RELEASE (R475). -/
def execPorstRelease (bootSel : Bool) (s : State) : Host.Outcome State Fault Refusal := .next (runAon s (fun s => porstRelease s bootSel))
/-- REFCLK_STABLE (R462). -/
def execRefclkStable (s : State) : Host.Outcome State Fault Refusal := .next (runAon s refclkStable)
/-- PLL_LOCK_CHECK (R462). Log entry 13 (DESIGN CHOICE, safe). -/
def execPllLockCheck (locks : BitVec 4) (imageOk osOk : Bool) (s : State) : Host.Outcome State Fault Refusal :=
  .next (runAon s (fun s => pllLockCheck s locks.toNat imageOk osOk))
/-- UNIT_TEST_END (R14, R387). Log entry 13 (DESIGN CHOICE, safe). -/
def execUnitTestEnd (u : BitVec 16) (r : TestRes) (s : State) : Host.Outcome State Fault Refusal :=
  .next (if u.toNat = huskId then runAon s (fun s => unitTestEnd s u.toNat r) else run s (fun s => unitTestEnd s u.toNat r))

end Sys2Proof.Machine
end

