-- ==== Sys2Proof/Machine/Service.lean ====
section
/-!
DEFINITION. Service life (R480 to R504): watchdogs, the update of firmware and microcode, attestation, the life cycle, tamper inputs, the
log copy and the background records.
-/
namespace Sys2Proof.Machine

/-! ### Watchdogs (R482) -/

/-- FW_WATCHDOG: the processor leaves service by fault, its event counts, and the service processor acts on it by R381.
Log entry 60 (DEDUCED, unsafe). -/
def fwWatchdog (s : State) (u : Nat) : State :=
  if idClass u = 0x0B ∧ (unitSt s u = .active ∨ unitSt s u = .draining) then
    let s := raise s 0x1302 u u (field (regGet s Reg.svcCtrl) 0 8)
    let s := faultOut (countFault s u) u
    unitUpd (probFail s 0x1302) u (fun r => { r with actDue := true })
  else s

/-! ### Firmware update (R486 to R491) -/

/-- An image header in memory (R486). -/
def fwImage (s : State) (a : Nat) : FwImage :=
  { version := memLe s (a + 8) 8, minVersion := memLe s (a + 16) 8,
    ucode := (List.range 17).map (fun c => memLe s (a + 24 + 2 * c) 2), len := memLe s (a + 60) 4 }

/-- Whether MAGIC, FORMAT, STEPPING, the grade or the lengths of an image are wrong (reason 1). -/
def fwBadHeader (s : State) (a len : Nat) : Bool :=
  let total := memLe s (a + 60) 4
  memLe s a 4 != 0x5A465749 || memLe s (a + 4) 2 != 1 || memGet s (a + 6) != 0xB0 || !bit (memGet s (a + 7)) (s.svc.grade % 2) ||
    decide (8380752 < total) || decide (len < total + 7856)

/-- Whether the signature behind an image is right (R486, R487). Log entry 21 (DESIGN CHOICE, unsafe). -/
def fwSigned (s : State) (a : Nat) : Bool :=
  let total := memLe s (a + 60) 4
  slhVerify s.svc.fwKey (memBytes s a total) (memBytes s (a + total) 7856)

/-- Whether SECT_DIGEST is that of the section table, which stands behind the header (R486). Log entry 59 (DESIGN CHOICE, unsafe). -/
def fwSections (s : State) (a : Nat) : Bool :=
  memBytes s (a + 64) 32 == sha256 (memBytes s (a + 128) (memLe s (a + 58) 2 * Config.fwSectLen))

/-- A refusal with its reason (R491). -/
def fwRefuse (s : State) (reason unit : Nat) : State :=
  raise { s with svc := { s.svc with fwSt := .refused, reason := reason, pend := none } } 0x1305 0xFFFF reason unit

/-- Whether a further update may start. -/
def fwIdle (s : State) : Bool := s.svc.fwSt == .idle || s.svc.fwSt == .rolledBack || s.svc.fwSt == .refused

/-- Verification of the image at `a` starts; an update under way refuses a further one and goes on itself. -/
def fwInstallAt (s : State) (a len : Nat) : State :=
  if fwIdle s then
    { s with svc := { s.svc with fwSt := .verifying, pendAddr := a, pendLen := len, switchCycle := objW s 0x5000 3, pend := none } }
  else raise { s with svc := { s.svc with reason := 4 } } 0x1305 0xFFFF 4 0xFFFF

/-- FW_INSTALL: in recovery the image stands in the free area of Stack 0's shared store (R490). -/
def fwInstall (s : State) : State :=
  if s.cpm.boot = .recovery then fwInstallAt s (ssBase 0) s.od.foeBytes else fwInstallAt s (objW s 0x5000 1) (objW s 0x5000 2)

/-- Writing of the stored copies starts with that of Stack 0. Log entry 59 (DESIGN CHOICE, unsafe). -/
def fwWrite (s : State) : State :=
  { s with svc := { s.svc with fwSt := .writing, writingStack := 0, retries := 0, store0 := .writing, repair := none } }

/-- FW_VERIFY_DONE. -/
def fwVerifyDone (s : State) : State :=
  if s.svc.fwSt ≠ .verifying then s
  else
    let a := s.svc.pendAddr
    let img := fwImage s a
    if fwBadHeader s a s.svc.pendLen then fwRefuse s 1 0xFFFF
    else if !fwSigned s a ∨ !fwSections s a then fwRefuse s 2 0xFFFF
    else if verKey img.version < verKey s.svc.floor then fwRefuse s 3 0xFFFF
    else
      let s := { s with svc := { s.svc with pend := some img } }
      if s.cpm.boot = .recovery then fwWrite { s with svc := { s.svc with run := img, pend := none } }
      else { s with svc := { s.svc with fwSt := .staging } }

/-- Firmware processors that may serve. -/
def fwUnits (s : State) : List Nat := (classUnits 0x0B 0 ++ classUnits 0x0B 1).filter (fun u => unitSt s u != .retired)

/-- FW_STAGED: every processor and the Husk hold the image in their idle banks, or `failed` could not stage it. -/
def fwStaged (s : State) (failed : Option Nat) : State :=
  if s.svc.fwSt ≠ .staging then s
  else
    match failed with
    | some u => fwRefuse s 5 u
    | none =>
      let v := (s.svc.pend.getD .none).version
      raise { s with svc := { s.svc with fwSt := .staged, stagedAt := s.phu.bcount } } 0x1303 0xFFFF v ((fwUnits s).length + 1)

/-- Whether the firmware switch is due at this boundary. -/
def fwDue (s : State) : Bool :=
  s.phu.atBound && s.svc.fwSt == .staged && decide (s.svc.stagedAt < s.phu.bcount) &&
    (s.svc.switchCycle == 0 || decide (s.svc.switchCycle ≤ s.phu.cycle))

/-- FW_SWITCH: the code banks exchange, and probation begins. The change enters the black box (R495). -/
def fwSwitch (s : State) : State :=
  match s.svc.pend with
  | none => s
  | some img =>
    if fwDue s then
      let v := { s.svc with old := some s.svc.run, run := img, pend := none, bank := 1 - s.svc.bank, fwSt := .probation,
                            probEnd := s.phu.cycle + objN s 0x5000 7, rollbackBy := none }
      boxAdd (raise { s with svc := v } 0x1304 0xFFFF img.version s.phu.cycle) 6 [] []
    else s

/-- PROBATION_END. -/
def probationEnd (s : State) : State :=
  if s.phu.atBound ∧ s.svc.fwSt = .probation ∧ s.svc.rollbackBy.isNone ∧ s.svc.probEnd ≤ s.phu.cycle then fwWrite s else s

/-- FW_END_PROBATION. -/
def fwEndProbation (s : State) : State :=
  if s.svc.fwSt = .probation ∧ s.svc.rollbackBy.isNone then fwWrite s else s

/-- FW_CANCEL: a pending image is discarded unless it switches in this clk; in probation the update rolls back.
Log entry 59 (DESIGN CHOICE, unsafe). -/
def fwCancel (s : State) : State :=
  match s.svc.fwSt with
  | .verifying | .staging | .staged => if fwDue s then s else { s with svc := { s.svc with fwSt := .idle, pend := none } }
  | .probation => probFail s 0
  | _ => s

/-- FW_ROLLBACK, at the boundary after its cause: every unit returns to its old bank. -/
def fwRollback (s : State) : State :=
  match s.svc.rollbackBy, s.svc.old with
  | some c, some img =>
    if s.phu.atBound ∧ s.svc.fwSt = .probation then
      let v := { s.svc with run := img, old := none, bank := 1 - s.svc.bank, fwSt := .rolledBack, rollbackBy := none }
      boxAdd (raise { s with svc := v } 0x1306 0xFFFF c s.phu.cycle) 6 [] []
    else s
  | _, _ => s

/-- A copy of the image store takes a state, and an image with VALID. -/
def storeSet (s : State) (k : Nat) (st : StoreSt) : State :=
  let img0 := if st = .valid ∧ k = 0 then s.svc.run else s.svc.img0
  let img1 := if st = .valid ∧ k = 1 then s.svc.run else s.svc.img1
  { s with svc := { s.svc with img0 := img0, img1 := img1, store0 := if k = 0 then st else s.svc.store0
                               store1 := if k = 1 then st else s.svc.store1 } }

/-- The write of copy k of an update has ended, `ok` or for good: Stack 1 follows Stack 0; then the floor rises when both copies are
VALID, and the device is idle again. In recovery the device resets itself (R490). -/
def storeNext (s : State) (k : Nat) : State :=
  if k = 0 then storeSet { s with svc := { s.svc with writingStack := 1, retries := 0 } } 1 .writing
  else
    let good := s.svc.store0 == .valid && s.svc.store1 == .valid
    let up := good && decide (verKey s.svc.floor < verKey s.svc.run.minVersion)
    let s := { s with svc := { s.svc with fwSt := .idle, old := none, retries := 0
                                          floor := if up then s.svc.run.minVersion else s.svc.floor } }
    let s := if up then recordWrite s else s
    let s := if good then raise s 0x1307 0xFFFF 1 1 else s
    if s.cpm.boot = .recovery then deviceReset s else s

/-- STORE_WRITE_DONE: a copy is written and read back, or the write failed and is redone up to 3 times (R489). A copy that the boot
rewrites is served first. Log entry 59 (DESIGN CHOICE, unsafe). -/
def storeWriteDone (s : State) (ok : Bool) : State :=
  let k := s.svc.repair.getD s.svc.writingStack
  if s.svc.repair.isNone ∧ s.svc.fwSt ≠ .writing then s
  else if !ok ∧ s.svc.retries < 3 then { s with svc := { s.svc with retries := s.svc.retries + 1 } }
  else
    let s := if ok then storeSet s k .valid else raise s 0x1307 0xFFFF k 2
    if s.svc.repair.isSome then { s with svc := { s.svc with repair := none, retries := 0 } } else storeNext s k

/-! ### Microcode (R492) -/

/-- UCODE_SWITCH_COMMAND: one class at a time; every unit of it stages the revision of the running image.
Log entry 59 (DESIGN CHOICE, unsafe). -/
def ucodeCommand (s : State) : State :=
  if s.svc.ucStatus.busy then s
  else
    let c := objW s 0x5001 1
    { s with svc := { s.svc with ucClass := c, ucSwitch := objW s 0x5001 2, ucStatus := .verifying, ucDefer := 0
                                 ucRev := s.svc.run.ucode.getD c 0 } }

/-- UCODE_STAGED. -/
def ucodeStaged (s : State) : State :=
  if s.svc.ucStatus = .verifying then { s with svc := { s.svc with ucStatus := .staged, ucStagedAt := s.phu.bcount } } else s

/-- Whether the class switches at this boundary. -/
def ucodeDue (s : State) : Bool := switchDue s s.svc.ucStatus s.svc.ucSwitch s.svc.ucStagedAt

/-- UCODE_SWITCH: the whole class changes in one clk; while `unstaged` units have not staged it is deferred, and the 16th deferral
refuses it (R107). Log entry 59 (DESIGN CHOICE, unsafe). -/
def ucodeSwitch (s : State) (unstaged : Nat) : State :=
  if !ucodeDue s then s
  else if unstaged ≠ 0 then
    if 15 ≤ s.svc.ucDefer then { s with svc := { s.svc with ucStatus := .refused, ucDefer := 0 } }
    else { s with svc := { s.svc with ucStatus := .deferred, ucDefer := s.svc.ucDefer + 1, ucStagedAt := s.phu.bcount } }
  else
    let v := { s.svc with ucode := s.svc.ucode.set s.svc.ucClass s.svc.ucRev, ucStatus := .idle, ucDefer := 0 }
    raise { s with svc := v } 0x130E 0xFFFF s.svc.ucClass s.svc.ucRev

/-- UCODE_CANCEL: up to the clk before the switch boundary. -/
def ucodeCancel (s : State) : State :=
  if s.svc.ucStatus.busy ∧ !ucodeDue s then { s with svc := { s.svc with ucStatus := .idle, ucDefer := 0 } } else s

/-! ### Attestation (R499) -/

/-- BSEQ of the newest black-box entry. -/
def bseqNewest (s : State) : Nat := match s.logs.box.getLast? with | some e => e.bseq | none => 0

/-- The nonce that 0x5002:01 holds. -/
def nonce (s : State) : Bytes := leBytes 32 (objW s 0x5002 1)

/-- ATTEST_REQUEST. -/
def attestRequest (s : State) : State := { s with svc := { s.svc with reportSt := if s.svc.haveKeys then 1 else 3 } }

/-- Bytes 0 to 255 of the report. Log entry 21 (DESIGN CHOICE, unsafe). -/
def attestBytes (s : State) : Bytes :=
  nonce s ++ leBytes 8 s.svc.serial ++ [s.svc.life] ++ zeros 7 ++ leBytes 8 s.svc.run.version ++ fit 48 (signature s) ++
    fit 32 (match s.plan.run with | some p => p.digest | none => []) ++ weightsDigest s ++
    fit 16 (match s.model.cur with | some m => m.digest | none => []) ++ sha256 (bitBytes 184 s.det.dismap) ++
    leBytes 4 (sparCrc s.safety.par) ++ leBytes 4 s.svc.tamper ++ leBytes 8 s.phu.cycle ++ leBytes 4 (bseqNewest s) ++ fit 16 s.logs.chain ++
    leBytes 4 s.svc.bootCnt

/-- ATTEST_DONE: the signature's bytes are free. Log entry 59 (DESIGN CHOICE, unsafe). -/
def attestDone (s : State) : State :=
  if s.svc.reportSt = 1 then
    let (sig, s) := takeFreeBytes s 17088
    let r := attestBytes s ++ sig
    raise { s with svc := { s.svc with report := r, reportSt := 2 } } 0x130B 0xFFFF (getLe (sha256 r) 0 4) 0
  else s

/-! ### Life cycle (R497, R498) -/

/-- Whether R497 allows a transition by a signed command. -/
def lifeAllowed (a b : Nat) : Bool := [(2, 3), (2, 4), (3, 2), (3, 4)].contains (a, b)

/-- CPM_GATE in a life-cycle state: the debug access port has its clock in MANUFACTURE, and on command in SERVICE (R467, R497).
Log entry 57 (DEDUCED, unsafe). -/
def gateIn (life v : Nat) : Nat := if life = 0 ∨ life = 3 then v else v % 2 ^ 13

/-- What a life-cycle state leaves of the permit: only OPERATIONAL has one, and SERVICE shows lapse cause 6 (R497). In RETIRED it lapses with
cause 6 too. Log entry 59 (DESIGN CHOICE, unsafe). -/
def lifePermit (s : State) (t : Nat) : State := if t = 2 then s else if t = 3 then noPermit s else lapse s 6

/-- A change of state takes effect: both secure regions are wiped, the entry and the event are written, RETIRED erases the private
keys, the permit ends outside OPERATIONAL, and the debug access port closes outside MANUFACTURE and SERVICE. -/
def lifeApply (s : State) : State :=
  match s.svc.lifePend with
  | none => s
  | some (t, key) =>
    let old := s.svc.life
    let s := wipeStart (wipeStart s 0 2) 1 2
    let v := { s.svc with life := t, lifePend := none, planKey := if key = [] then s.svc.planKey else some key
                          haveKeys := s.svc.haveKeys && t != 4 }
    let s := lifePermit (raise (boxAdd (recordWrite { s with svc := v }) 3 [] []) 0x1309 0xFFFF t old) t
    let s := if s.pins.tapIr = .extest then { s with pins := { s.pins with tapIr := .bypass } } else s
    if bit (regGet s Reg.cpmGate) 13 then gateWrite s (gateIn t (regGet s Reg.cpmGate)) else s

/-- A change is due at the next boundary, or at once while no phase runs. -/
def lifeSet (s : State) (t : Nat) (key : Bytes) : State :=
  let s := { s with svc := { s.svc with lifePend := some (t, key) } }
  if phaseRuns s then s else lifeApply s

/-- Whether a signed command is refused (R498, R497). Log entry 59 (DESIGN CHOICE, unsafe). -/
def lifeRefused (s : State) (b : Bytes) : Bool :=
  let t := getLe b 0 1
  let clr := getLe b 1 1
  let noKey := slice b 40 32 == zeros 32
  let cur := s.svc.life
  slice b 8 32 != nonce s || !planSigned s (slice b 0 72) (slice b 72 7856) || decide (4 ≤ clr) || slice b 2 6 != zeros 6 ||
    (t != cur && !lifeAllowed cur t) || (t == cur && noKey && clr == 0) || (clr != 0 && !(cur == 3 && t == 3)) ||
    (t == cur && cur != 2 && cur != 3) || (cur == 2 && t == 3 && (s.safety.permit || s.safety.grant))

/-- LIFECYCLE_COMMAND: whether it is accepted, and its effect. -/
def lifeCommand (s : State) (b : Bytes) : Bool × State :=
  let t := getLe b 0 1
  let key := slice b 40 32
  if lifeRefused s b then (false, raise s 0x1309 0xFFFF t 0xFF)
  else
    let v := { s.svc with tamper := s.svc.tamper - (s.svc.tamper &&& getLe b 1 1) }
    let noKey := key == zeros 32
    if t = s.svc.life then (true, { s with svc := { v with planKey := if noKey then v.planKey else some key } })
    else (true, lifeSet { s with svc := v } t (if noKey then [] else key))

/-- PLAN_KEY_WRITE: the first key in PROVISIONED, and the move to OPERATIONAL. Log entry 59 (DESIGN CHOICE, unsafe). -/
def planKeyWrite (s : State) (key : Bytes) : Bool × State :=
  if s.svc.life = 1 ∧ s.svc.lifePend.isNone then (true, lifeSet s 2 (fit 32 key)) else (false, s)

/-- A write that an owner accepts or refuses with 0x08000000 (R498, R504). -/
def answered (x : Bool × State) : State := if x.1 then answer x.2 .sdoOk else sdoAbort x.2 0x08000000

/-- PROVISIONING: keys generated inside the Husk, whose values are free. -/
def provisioning (s : State) : State :=
  if s.svc.life = 0 ∧ s.svc.lifePend.isNone then
    let (a, s) := takeFreeBytes s 32
    let (b, s) := takeFreeBytes s 7888
    lifeSet { s with svc := { s.svc with idKey := a, attKey := b, haveKeys := true } } 1 []
  else s

/-! ### Tamper inputs (R500) -/

/-- TAMPER: the wipes, the flag, the entry, the event, and with TAMPER_ACTION the stop request. Log entry 60 (DEDUCED, unsafe). -/
def tamper (s : State) (n : Nat) : State :=
  let s := wipeStart (wipeStart s 0 1) 1 1
  let s := { s with svc := { s.svc with tamper := setBit s.svc.tamper n, tamperCnt := satInc 32 s.svc.tamperCnt } }
  let s := raise (boxAdd (recordWrite s) 5 [] []) 0x1308 0xFFFF n s.svc.tamperCnt
  if s.svc.tamperAction = 1 then stopRequest s else s

/-! ### Boundaries (R484, R493 to R497) -/

/-- Records that the log copy holds (R484). -/
def copyCap : Nat := 262144

/-- Order of the copy. -/
def seqLe (a b : EvRec) : Bool := decide (a.seq ≤ b.seq)

/-- Event 0x1301 for the records of stack k that were overwritten before the driver read them. Log entry 9 (DEDUCED, unsafe). -/
def logLost (s : State) (k n : Nat) : State :=
  if n = 0 then s
  else raise { s with logs := { s.logs with overruns := satInc 32 s.logs.overruns } } 0x1301 0xFFFF n k

/-- The service processors copy their new records at a boundary. Log entry 59 (DESIGN CHOICE, unsafe). -/
def logBoundary (s : State) : State :=
  let l := s.logs
  let new := sortBy seqLe (l.ring0.drop l.copied0 ++ l.ring1.drop l.copied1)
  let all := l.copy ++ new
  let out := all.take (all.length - copyCap)
  let n := fun (k : Nat) => (out.filter (fun r => evStack r == k)).length
  let s := { s with logs := { l with copy := all.drop (all.length - copyCap), copied0 := l.ring0.length, copied1 := l.ring1.length
                                     lost0 := 0, lost1 := 0 } }
  logLost (logLost s 0 (l.lost0 + n 0)) 1 (l.lost1 + n 1)

/-- The ACTIVE service processors (R328, R482). -/
def svcUnits (s : State) : List Nat :=
  (fwUnits s).filter (fun u => isActive s u && bit (if idStack u = 0 then s.mem.svcMask0 else s.mem.svcMask1) (idIndex u))

/-- A sector of the records area may move to a fresh place once 2^20 writes have been made (R480): whether one does, and which, is free.
Log entry 59 (DESIGN CHOICE, unsafe). -/
def wearStep (s : State) : State :=
  if s.svc.writes < 1048576 then s
  else
    let (f, s) := takeFree s
    if bit f 0 then raise s 0x130D 0xFFFF (field f 1 1) (field f 2 32) else s

/-- The boundary of this chapter: a life-cycle change, the cycles since the last snapshot, the log copy, and the trace points of the service
processors' work. Log entry 41 (DESIGN CHOICE, unsafe). -/
def svcBoundary (s : State) : State :=
  let s := wearStep (logBoundary (lifeApply { s with svc := { s.svc with sinceSnap := s.svc.sinceSnap + 1 } }))
  if traceMask s = 0 then s else (svcUnits s).foldl tracePoints s

/-- TELEMETRY_SNAPSHOT. -/
def snapshot (s : State) : State :=
  if 4194304 ≤ s.svc.sinceSnap then boxAdd { s with svc := { s.svc with sinceSnap := 0 } } 2 [] [] else s

/-- AGING_CHECK: the monitors, as (die, monitor), that depart by more than 5 %; each reports once per power-up (R494). -/
def agingCheck (s : State) (l : List (Nat × Nat)) : State :=
  if s.phu.atBound ∧ s.phu.bcount % 65536 = 0 then
    l.foldl (fun s (x : Nat × Nat) =>
      if s.svc.aged.contains (4 * x.1 + x.2) then s
      else raise { s with svc := { s.svc with aged := s.svc.aged ++ [4 * x.1 + x.2] } } 0x130C 0xFFFF x.1 x.2) s
  else s

/-! ### Meanings -/

/-- FW_WATCHDOG (R482). -/
def execFwWatchdog (u : BitVec 16) (s : State) : Host.Outcome State Fault Refusal := .next (runIo s (fun s => fwWatchdog s u.toNat))
/-- FW_INSTALL (R487). -/
def execFwInstall (s : State) : Host.Outcome State Fault Refusal := .next (runIo s fwInstall)
/-- FW_VERIFY_DONE (R487). -/
def execFwVerifyDone (s : State) : Host.Outcome State Fault Refusal := .next (runIo s fwVerifyDone)
/-- FW_STAGED (R487). -/
def execFwStaged (failed : Option (BitVec 16)) (s : State) : Host.Outcome State Fault Refusal :=
  .next (runIo s (fun s => fwStaged s (failed.map (·.toNat))))
/-- FW_SWITCH (R487). -/
def execFwSwitch (s : State) : Host.Outcome State Fault Refusal := .next (runIo s fwSwitch)
/-- FW_CANCEL (R488). -/
def execFwCancel (s : State) : Host.Outcome State Fault Refusal := .next (runIo s fwCancel)
/-- FW_END_PROBATION (R488). -/
def execFwEndProbation (s : State) : Host.Outcome State Fault Refusal := .next (runIo s fwEndProbation)
/-- PROBATION_END (R487). -/
def execProbationEnd (s : State) : Host.Outcome State Fault Refusal := .next (runIo s probationEnd)
/-- FW_ROLLBACK (R488). -/
def execFwRollback (s : State) : Host.Outcome State Fault Refusal := .next (runIo s fwRollback)
/-- STORE_WRITE_DONE (R489). -/
def execStoreWriteDone (ok : Bool) (s : State) : Host.Outcome State Fault Refusal := .next (runIo s (fun s => storeWriteDone s ok))
/-- UCODE_SWITCH_COMMAND (R492). -/
def execUcodeSwitchCommand (s : State) : Host.Outcome State Fault Refusal := .next (runIo s ucodeCommand)
/-- UCODE_STAGED (R492). -/
def execUcodeStaged (s : State) : Host.Outcome State Fault Refusal := .next (runIo s ucodeStaged)
/-- UCODE_SWITCH (R492). -/
def execUcodeSwitch (unstaged : BitVec 8) (s : State) : Host.Outcome State Fault Refusal :=
  .next (runIo s (fun s => ucodeSwitch s unstaged.toNat))
/-- UCODE_CANCEL (R492). -/
def execUcodeCancel (s : State) : Host.Outcome State Fault Refusal := .next (runIo s ucodeCancel)
/-- ATTEST_REQUEST (R499). -/
def execAttestRequest (s : State) : Host.Outcome State Fault Refusal := .next (runIo s attestRequest)
/-- ATTEST_DONE (R499). -/
def execAttestDone (s : State) : Host.Outcome State Fault Refusal := .next (runIo s attestDone)
/-- LIFECYCLE_COMMAND (R498). -/
def execLifecycleCommand (b : Bytes) (s : State) : Host.Outcome State Fault Refusal :=
  .next (runIo s (fun s => answered (lifeCommand s b)))
/-- PLAN_KEY_WRITE (R497). -/
def execPlanKeyWrite (key : Bytes) (s : State) : Host.Outcome State Fault Refusal := .next (runIo s (fun s => answered (planKeyWrite s key)))
/-- PROVISIONING (R497). -/
def execProvisioning (s : State) : Host.Outcome State Fault Refusal := .next (runIo s provisioning)
/-- TAMPER (R500). -/
def execTamper (n : Fin 2) (s : State) : Host.Outcome State Fault Refusal := .next (runAon s (fun s => tamper s n.val))
/-- TELEMETRY_SNAPSHOT (R493). -/
def execTelemetrySnapshot (s : State) : Host.Outcome State Fault Refusal := .next (runIo s snapshot)
/-- AGING_CHECK (R494). -/
def execAgingCheck (l : List (Fin 4 × Fin 4)) (s : State) : Host.Outcome State Fault Refusal :=
  .next (runIo s (fun s => agingCheck s (l.map (fun x => (x.1.val, x.2.val)))))

end Sys2Proof.Machine
end

