-- ==== Sys2Proof/Machine/Clock.lean ====
section
/-!
DEFINITION. Clock failure, clock gating, power states, DVFS and the power cap (R461 to R472).
-/
namespace Sys2Proof.Machine

/-! ### Clock failure (R463 to R465) -/

/-- The permit pins and FAULT_N go static low, and the permit lapses with cause 4 (R464). -/
def clockLow (s : State) : State :=
  let s := lapse s 4
  { s with safety := { s.safety with permitA := false, permitB := false, faultN := false } }

/-- The bits of PLL_LOCK that a failed source clears: all of them for REFCLK. -/
def lostLocks (src lock : Nat) : Nat := if src = 1 then 0 else lock - (lock &&& 2 ^ (src - 2))

/-- CLK_FAIL: source 1 to 5 of R476 fails; a PLL that counts as failed already does not fail again. -/
def clkFail (s : State) (src : Nat) : State :=
  if srcFailed s src then s
  else
    let s := clockLow s
    let s := raise s 0x1201 0xFFFF src s.phu.cycle
    { s with cpm := { s.cpm with failed := s.cpm.failed ++ [(src, s.now)], fails := satInc 32 s.cpm.fails
                                 refOk := s.cpm.refOk && src != 1, pllLock := lostLocks src s.cpm.pllLock } }

/-- Units that execute descriptors and stop with a source: the engines with REFCLK and PLL_ARITH, firmware processors and hash engines
with REFCLK and PLL_IO (R461). -/
def stoppedUnits (src : Nat) : List Nat :=
  let eng := if src = 1 ∨ src = 2 then [3, 4, 5, 6, 7] else []
  let io := if src = 1 ∨ src = 5 then [0x0B, 0x0C] else []
  (eng ++ io).flatMap (fun c => classUnits c 0 ++ classUnits c 1)

/-- The tasks whose units stopped fail at rejoin (R464); a task that has not begun stays. -/
def failStopped (s : State) (src : Nat) : State :=
  let s := (stoppedUnits src).foldl (fun s u => match (unitOf s u).exec with
    | some t => if t.began then failExec s u else s
    | none => s) s
  if src = 1 ∨ src = 2 then (s.pod.evals.filter (·.started)).foldl (fun s e => evalFail s e 0xFFFF) s else s

/-- CLK_RESTORED: the counts of R462 have ended `dt` ticks after the last command, and the logic rejoins. Log entry 57 (DEDUCED, unsafe). -/
def clkRestored (s : State) (src dt : Nat) : State :=
  match s.cpm.failed.find? (fun (p : Nat × Nat) => p.1 == src) with
  | none => s
  | some p =>
    let s := advance s dt
    let rest := s.cpm.failed.filter (fun (x : Nat × Nat) => x.1 != src)
    let lock := if src = 1 then 15 else s.cpm.pllLock ||| 2 ^ (src - 2)
    let c := { s.cpm with failed := rest, refOk := s.cpm.refOk || src == 1
                          pllLock := rest.foldl (fun l (x : Nat × Nat) => lostLocks x.1 l) lock }
    let s := raise { s with cpm := c } 0x1202 0xFFFF src ((s.now - p.2) / 9000)
    let s := failStopped s src
    let s := if (src = 1 ∨ src = 2) ∧ s.phu.st ≠ .off then toAcquire s false none else s
    if s.safety.lock ∧ s.cpm.failed.isEmpty then { s with safety := { s.safety with faultN := true } } else s

/-- CLK_TIMEOUT: 50 ms after the failure, with the source not good again. -/
def clkTimeout (s : State) (src : Nat) : State :=
  match s.cpm.failed.find? (fun (p : Nat × Nat) => p.1 == src) with
  | none => s
  | some p => enterSafe (reachTick s (p.2 + 450000000)) 3

/-- WATCH_OSC_FAIL: the pins go low at once; after 131,072 REFCLK cycles the record of fixed content is written and PWR_KILL_N asserted. -/
def watchFail (s : State) : State :=
  if !s.cpm.watchOk then s
  else
    let s := clockLow { s with cpm := { s.cpm with watchOk := false, fails := satInc 32 s.cpm.fails } }
    let s := raise s 0x1201 0xFFFF 6 s.phu.cycle
    enterSafeWith (advance s 47185920) 3 true

/-! ### DVFS and the power cap (R471, R472) -/

/-- CAP in 0.1 W, at most 55 W. -/
def capNow (s : State) : Nat := min 550 (field (regF s Reg.cpmCap) 0 16)

/-- The highest point that DVFS_CEIL allows; 3 acts as 2 (R478). Log entry 57 (DEDUCED, unsafe). -/
def dvfsCeil (s : State) : Nat := min 2 (field (regF s Reg.cpmCtrl) 0 2)

/-- The point changes, with its event and count; a step up that waits is dropped. Log entry 57 (DEDUCED, unsafe). -/
def pointSet (s : State) (p why : Nat) : State :=
  if s.cpm.point = p then s
  else raise { s with cpm := { s.cpm with point := p, upTo := none, coolMs := 0, dvfsCnt := satInc 32 s.cpm.dvfsCnt } } 0x1203 0xFFFF p why

/-- One point down, as far as point 2: the frequency first, then the lower voltage is asked for. -/
def goDown (s : State) (why : Nat) : State :=
  let p := min 2 (s.cpm.point + 1)
  let ask := if p = s.cpm.point then s.cpm.voltAt else some s.now
  pointSet { s with cpm := { s.cpm with upTo := none, coolMs := 0, voltAt := ask } } p why

/-- A temperature warning: one point down, and a ceiling one point below the point that was in force (R472). -/
def tempDown (s : State) : State :=
  let p := min 2 (s.cpm.point + 1)
  goDown { s with cpm := { s.cpm with tempHold := true, capCeil := p } } 2

/-- The warning has cleared (R456). -/
def tempClear (s : State) : State := { s with cpm := { s.cpm with tempHold := false, capCeil := 0 } }

/-- A 1 ms average: above CAP − 2 W one point down; after 100 averages below CAP − 5 W a step up is asked of the PMIC where no ceiling
forbids it. -/
def capAverage (s : State) (avg : Nat) : State :=
  let cap := capNow s
  let s := { s with cpm := { s.cpm with avg := avg, coolMs := if avg + 50 < cap then min 100 (s.cpm.coolMs + 1) else 0 } }
  if cap < avg + 20 then goDown s 1
  else if 100 ≤ s.cpm.coolMs ∧ s.cpm.upTo.isNone ∧ max s.cpm.capCeil (dvfsCeil s) < s.cpm.point then
    { s with cpm := { s.cpm with upTo := some (s.cpm.point - 1), voltAt := some s.now } }
  else s

/-- CAP_ESTIMATE: a 50 µs estimate in 0.1 W, and the 1 ms average when one ends with it. Log entry 57 (DEDUCED, unsafe). -/
def capEstimate (s : State) (est : Nat) (avg : Option Nat) : State :=
  let s := { s with cpm := { s.cpm with peakCur := max s.cpm.peakCur est } }
  let s := if capNow s < est then
      let s := goDown s 1
      raise s 0x1204 0xFFFF est s.cpm.point
    else s
  match avg with
  | some a => capAverage s a
  | none => s

/-- PMIC_VOLTAGE_DONE: the voltage asked for stands; after a step up the frequency switches. -/
def voltageDone (s : State) : State :=
  let p := s.cpm.upTo.getD s.cpm.point
  pointSet { s with cpm := { s.cpm with volt := p, voltAt := none } } p 4

/-- The boundary of this chapter: the ceiling object, the power state (R469), and the peak of the cycle that ends. -/
def powerBoundary (s : State) : State :=
  let w := field (regF s Reg.cpmCtrl) 8 2 == 1
  let s := { s with cpm := { s.cpm with peak := s.cpm.peakCur, peakCur := 0 } }
  let s := if w ≠ s.cpm.watch then raise { s with cpm := { s.cpm with watch := w } } 0x1205 0xFFFF (if w then 1 else 2) 0 else s
  if s.cpm.point < dvfsCeil s then pointSet { s with cpm := { s.cpm with voltAt := some s.now } } (dvfsCeil s) 3
  else if s.cpm.upTo.any (fun p => decide (p < dvfsCeil s)) then { s with cpm := { s.cpm with upTo := none } }
  else s

/-- The first permit ends the boot: step 8 and CPM_BOOT.BOOT_MS (R475, R478). -/
def bootPermit (s : State) : State :=
  if s.safety.permit ∧ s.cpm.step < 8 then
    { s with cpm := { s.cpm with step := 8, bootMs := sat 16 ((s.now - s.cpm.bootTick) / 9000000) } }
  else s

/-- A plan image that has switched in ends step 7. -/
def bootPlan (s : State) : State := if s.cpm.step = 6 ∧ s.plan.run.isSome then { s with cpm := { s.cpm with step := 7 } } else s

/-! ### Registers of the CPM (R478) -/

/-- The power state's code (R468). -/
def pstate (s : State) : Nat := if s.cpm.watch then 1 else 2

/-- CPM_CLK_STAT. -/
def clkStat (s : State) : Nat :=
  b2n s.cpm.watchOk * 2 ^ 10 + b2n s.cpm.refOk * 2 ^ 9 + ofBits ([2, 3, 4, 5].map (srcFailed s)) * 16 + s.cpm.pllLock % 16

/-- The CPM registers computed from the state. -/
def cpmRead (s : State) (o : Nat) : Option Nat :=
  let c := s.cpm
  if o = Reg.cpmStat then
    some (pstate s * 256 + c.point * 16 + c.capCeil * 4 + b2n c.tempHold * 2 + b2n (!c.failed.isEmpty || !c.watchOk))
  else if o = Reg.cpmPower then some (sat 16 c.peak * 2 ^ 16 + sat 16 c.avg)
  else if o = Reg.cpmClkStat then some (clkStat s)
  else if o = Reg.cpmRstCause then some (c.cause % 8)
  else if o = Reg.cpmBoot then some (c.bootMs * 2 ^ 16 + c.step)
  else if o = Reg.cpmDvfsCnt then some c.dvfsCnt
  else none

/-! ### Meanings -/

/-- CLK_FAIL (R464). -/
def execClkFail (src : Fin 5) (s : State) : Host.Outcome State Fault Refusal := .next (run s (fun s => clkFail s (src.val + 1)))
/-- CLK_RESTORED (R464). -/
def execClkRestored (src : Fin 5) (dt : BitVec 32) (s : State) : Host.Outcome State Fault Refusal :=
  .next (run s (fun s => clkRestored s (src.val + 1) dt.toNat))
/-- CLK_TIMEOUT (R465). -/
def execClkTimeout (src : Fin 5) (s : State) : Host.Outcome State Fault Refusal := .next (run s (fun s => clkTimeout s (src.val + 1)))
/-- WATCH_OSC_FAIL (R465). -/
def execWatchOscFail (s : State) : Host.Outcome State Fault Refusal := .next (runAon s watchFail)
/-- CPM_GATE_WRITE (R467, R368). -/
def execCpmGateWrite (who : Writer) (v : BitVec 32) (s : State) : Host.Outcome State Fault Refusal :=
  .next (run s (fun s => if lockedOut s who then s else gateWrite s (gateIn s.svc.life v.toNat)))
/-- CAP_ESTIMATE (R472). Log entry 13 (DESIGN CHOICE, safe). -/
def execCapEstimate (est : BitVec 16) (avg : Option (BitVec 16)) (s : State) : Host.Outcome State Fault Refusal :=
  .next (run s (fun s => capEstimate s est.toNat (avg.map (·.toNat))))
/-- PMIC_VOLTAGE_DONE (R471). -/
def execPmicVoltageDone (s : State) : Host.Outcome State Fault Refusal := .next (runIo s voltageDone)
/-- APP_CLUSTER_RESET (R473, R313): only the application cores, whose state lies outside this model; everything else runs on. -/
def execAppClusterReset (s : State) : Host.Outcome State Fault Refusal := .next (run s (fun s => s))

end Sys2Proof.Machine
end

