-- ==== Sys2Proof/Machine/Det.lean ====
section
/-!
DEFINITION. Determinism and replay (R397 to R413): the chained input digest, NONDET, the record ring and stream, checkpoints, replay and
its divergence, and the hash engines' known answers.
-/
namespace Sys2Proof.Machine

/-! ### The chained input digest (R400, R401) -/

/-- The 48 bytes of an input record. -/
def inBytes (r : InRec) : Bytes :=
  [r.typ, r.source % 256, 0, 0] ++ leBytes 4 r.cycle ++ leBytes 2 r.phase ++ [0, 0] ++ leBytes 4 r.content.length ++ sha256 r.content

/-- Order of the records: TYPE, phase stamp, SOURCE. -/
def inLe (a b : InRec) : Bool :=
  let ka := (a.typ, a.cycle * 65536 + a.phase, a.source)
  let kb := (b.typ, b.cycle * 65536 + b.phase, b.source)
  decide (ka.1 < kb.1) || (ka.1 == kb.1 && (decide (ka.2.1 < kb.2.1) || (ka.2.1 == kb.2.1 && decide (ka.2.2 ≤ kb.2.2))))

/-- D of cycle `c` from the digest before it. Log entry 51 (DESIGN CHOICE, unsafe). -/
def chainStep (base : Bytes) (c : Nat) (l : List InRec) : Bytes :=
  sha256 (base ++ leBytes 8 c ++ (sortBy inLe l).flatMap inBytes)

/-! ### The record ring and stream (R406) -/

/-- Bytes that a ring record takes. Log entry 37 (DESIGN CHOICE, unsafe). -/
def ringSize : RingRec → Nat
  | .input _ r => 48 + r.content.length
  | .chain _ _ => 0
  | .ckpt k => Config.ckptBytes k.cycle

/-- Whether a ring record is a checkpoint. -/
def isCkpt : RingRec → Bool
  | .ckpt _ => true
  | _ => false

/-- The oldest records up to the next checkpoint are discarded until the ring holds at most `cap` bytes.
Log entry 37 (DESIGN CHOICE, unsafe). -/
def ringTrim (cap : Nat) : Nat → List RingRec → List RingRec
  | 0, l => l
  | n + 1, l => if sumN (l.map ringSize) ≤ cap then l else ringTrim cap n ((l.drop 1).dropWhile (fun x => !isCkpt x))

/-- DET_CTRL.REC_RING and REC_STREAM; REPLAY forces both to 0 (R412). -/
def recRing (s : State) : Bool := bit (regF s Reg.detCtrl) 1 && !bit (regF s Reg.detCtrl) 3
/-- The stream bit. -/
def recStream (s : State) : Bool := bit (regF s Reg.detCtrl) 2 && !bit (regF s Reg.detCtrl) 3

/-- Bytes of the ring. -/
def ringCapacity (s : State) : Nat := regF s Reg.detRecSize * 2 ^ 20

/-- Whether the ring can be written: its region lies in the fitted DDR5 and its channels are trained. -/
def ringOpen (s : State) : Bool :=
  inDdr s (recBase s) (ringCapacity s) && (s.mem.ch0.trained || s.mem.ch1.trained || s.mem.ch2.trained || s.mem.ch3.trained)

/-- Whether the stream takes records: the link of port 0 is up. -/
def streamOpen (s : State) : Bool := s.pins.pcs0

/-- Records enter the ring, and the oldest leave a full one. Log entry 37 (DESIGN CHOICE, unsafe). -/
def ringPush (s : State) (l : List RingRec) : State :=
  if recRing s then
    if ringOpen s then
      let r := ringTrim (ringCapacity s) (s.det.ring.length + l.length) (s.det.ring ++ l)
      { s with det := { s.det with ring := r } }
    else if l.isEmpty then s else raise s 0x0F02 0xFFFF (l.filter (fun x => !isCkpt x)).length 2
  else s

/-- A record leaves in a datagram of its own: the sequence number, the record and its content, under MACsec as the port has it; none where
the port does not send it or a datagram does not hold it. Log entry 37 (DESIGN CHOICE, unsafe). -/
def streamOne (s : State) (r : InRec) : Option State :=
  let b := leBytes 4 s.det.streamSeq ++ inBytes r ++ r.content
  if !streamOpen s ∨ 65507 < b.length then none
  else
    let (pcp, s) := takeFree s
    let t := sendOn { s with peers := { s.peers with sent := [] } } 0 (pcp % 8) b
    if t.peers.sent.isEmpty then none
    else some { t with
      peers := { t.peers with sent := s.peers.sent }
      det := { t.det with streamSeq := (t.det.streamSeq + 1) % 2 ^ 32, streamed := t.det.streamed ++ t.peers.sent } }

/-- Records leave on the stream; those dropped raise event 0x0F02, once per cycle. -/
def streamPush (s : State) (l : List InRec) : State :=
  if !recStream s then s
  else
    let x := l.foldl (fun (x : State × Nat) r => match streamOne x.1 r with | some t => (t, x.2) | none => (x.1, x.2 + 1)) (s, 0)
    if x.2 = 0 ∨ x.1.det.dropCyc = s.phu.cycle + 1 then x.1
    else raise { x.1 with det := { x.1.det with dropCyc := s.phu.cycle + 1 } } 0x0F02 0xFFFF x.2 1

/-! ### Checkpoints (R407) -/

/-- The bytes of the CARRY regions of the running image. -/
def carryBytes (s : State) : List (Nat × Bytes) :=
  match s.plan.run with
  | some p => (p.regions.filter (·.carry)).map (fun r => (r.addr, memBytes s r.addr r.size))
  | none => []

/-- The checkpoint of this boundary. -/
def ckptNow (s : State) : Ckpt :=
  { cycle := s.phu.cycle, world := s.world, slots := s.peers.slots, carry := carryBytes s, exe := s.safety.exe }

/-- CHECKPOINT: in the clk of the boundary at which it is due; the next D starts from zeros (R400). -/
def checkpoint (s : State) : State :=
  if s.phu.atBound ∧ s.det.ckptDue then
    let s := { s with det := { s.det with ckptDue := false, sinceCkpt := 0, chainZero := true } }
    ringPush s [.ckpt (ckptNow s)]
  else s

/-! ### Known answers (R413) -/

/-- The unit of hash engine e. -/
def hashUnit (e : Nat) : Nat := unitId 0x0C (e / 2) (e % 2)

/-- The known-answer digest of every ACTIVE hash engine, every 4,096 boundaries; `bad` is an engine whose digest is wrong. -/
def katRun (s : State) (bad : Option Nat) : State :=
  if s.phu.bcount % 4096 ≠ 0 then s
  else (List.range 4).foldl (fun s e =>
    if !isActive s (hashUnit e) then s
    else if bad = some e then
      raise { s with det := { s.det with katFail := s.det.katFail.filter (· != e) ++ [e] } } 0x0F05 (hashUnit e) (hashUnit e) 0
    else { s with det := { s.det with katPass := cntPut s.det.katPass e (satInc 16 (cnt s.det.katPass e)) } }) s

/-- HSH_STAT of engine e. -/
def hashStat (s : State) (e : Nat) : Nat :=
  let busy := match (unitOf s (hashUnit e)).exec with | some t => t.began | none => false
  cnt s.det.katPass e * 2 ^ 16 + 2 * b2n (s.det.katFail.contains e) + b2n busy

/-! ### Replay (R408, R409) -/

/-- The last cycle of the recorded ring. -/
def ringLast (s : State) : Nat := maxN (s.det.ring.filterMap (fun x => match x with | .input n _ => some n | .chain n _ => some n | .ckpt k => some k.cycle))

/-- Replay starts at a boundary, from which the Husk grants no permit: the state of the ring's first checkpoint and its cycle number; D starts from zeros. -/
def replayLoad (s : State) : State :=
  match s.det.ring.findSome? (fun x => match x with | .ckpt k => some k | _ => none) with
  | none => noPermit { s with det := { s.det with replay := true, replayDone := true, replayEnd := s.phu.cycle } }
  | some k =>
    let s := { s with
      phu := { s.phu with cycle := k.cycle }
      world := k.world
      peers := { s.peers with slots := k.slots, ring := [] }
      safety := { s.safety with exe := k.exe }
      det := { s.det with replay := true, replayDone := false, diverged := false, replayEnd := ringLast s, chain := zeros 32,
                          chainZero := true } }
    noPermit (k.carry.foldl (fun s p => memPut s p.1 p.2) s)

/-- What the coming cycle consumes enters the blocks as if it had arrived: frames to fuse, ring entries to admit.
Log entry 51 (DESIGN CHOICE, unsafe). -/
def replayFeed (s : State) : State :=
  let l := ringOf s (s.phu.cycle + 1)
  let fr := l.filterMap (fun r => match r.what with | .frame f => some f | _ => none)
  let en := l.filterMap (fun r => match r.what with | .entry e => some e | _ => none)
  { s with world := { s.world with inputs := s.world.inputs ++ fr }, peers := { s.peers with ring := s.peers.ring ++ en } }

/-- A replayed model installation takes effect. -/
def replayModel (s : State) (r : InRec) : State :=
  match r.what with
  | .model m => modelExchange { s with model := { s.model with pend := some m, status := .staged } }
  | .prims a n => { memPut s a r.content with cand := { s.cand with primAddr := a, primN := n, primStatus := 2 } }
  | .weights a n =>
    let g := (s.cob.wGen + 1) % 2 ^ 32
    { memPut s a r.content with
      cob := { s.cob with weights := Smap.set (fun _ => zeros 32) s.cob.weights r.source (sha256 r.content), wGen := g,
                          wSets := s.cob.wSets ++ [(r.source, g, a, n)] } }
  | _ => s

/-- What takes effect at this boundary (types 3 to 7): the RxPDO, IMU samples, edit lists and tables. Object writes take effect with the objects.
Log entry 51 (DESIGN CHOICE, unsafe). -/
def replayInputs (s : State) : State :=
  if !s.det.replay ∨ s.det.replayDone then s
  else
    (ringOf s s.phu.cycle).foldl (fun s r =>
      match r.typ with
      | 3 => if r.content.isEmpty then s else rxPush s 0 (some r.content) none
      | 4 => { s with pins := { s.pins with imuSample := r.content, imuCur := satInc 16 s.pins.imuCur } }
      | 6 =>
        let l := (List.range (r.content.length / 8)).map (fun i => (getLe r.content (8 * i) 2, getLe r.content (8 * i + 4) 4))
        { s with plan := { s.plan with edits := s.plan.edits ++ [{ cycle := s.phu.cycle, notBefore := 0, edits := l }] } }
      | 7 => replayModel s r
      | _ => s) s

/-- The records that D of a cycle covers: in replay, the recorded inputs and choices and the outcomes of the run itself. -/
def recsFor (s : State) : List InRec :=
  if s.det.replay && !s.det.replayDone then (ringOf s s.phu.cycle).filter (fun r => r.typ != 8) ++ s.det.recs.filter (fun r => r.typ == 8)
  else s.det.recs

/-- What names a timing outcome: its code with the slot, task or problem that it belongs to; a seed buffer's COUNT and COMPLETE.
Log entry 51 (DESIGN CHOICE, unsafe). -/
def outcomeKey (r : InRec) : Bytes :=
  if r.content.length = 32 then
    let code := getLe r.content 10 2
    slice r.content 10 2 ++ (if code = 0x0801 ∨ code = 0x0902 ∨ code = 0x0A05 ∨ code = 0x0A06 then slice r.content 12 4 else [])
  else r.content

/-- Outcomes of the run that the record does not hold, and a chain that departs from the recorded one: event 0x0F03. -/
def replayCheck (s : State) (chain : Bytes) (live : List InRec) : State :=
  if !s.det.replay ∨ s.det.replayDone then s
  else
    let rec8 := ((ringOf s s.phu.cycle).filter (fun r => r.typ == 8)).map outcomeKey
    let code := fun (r : InRec) => if r.content.length = 32 then getLe r.content 10 2 else 0
    match (live.filter (fun r => r.typ == 8)).find? (fun r => !rec8.contains (outcomeKey r)) with
    | some r => raise { s with det := { s.det with diverged := true } } 0x0F03 0xFFFF s.phu.cycle (8 * 2 ^ 24 + 1 * 2 ^ 16 + code r)
    | none =>
      match s.det.ring.findSome? (fun x => match x with | .chain n d => if n = s.phu.cycle then some d else none | _ => none) with
      | some d =>
        if d ≠ chain ∧ !s.det.diverged then
          raise { s with det := { s.det with diverged := true } } 0x0F03 0xFFFF s.phu.cycle (3 * 2 ^ 16)
        else s
      | none => s

/-! ### The boundary -/

/-- Event 0x0F01 for the cycle that ends: its choice records (R405, R410). Log entry 52 (DEDUCED, unsafe). -/
def nondetEvent (s : State) (ended : Nat) : State :=
  let n := (s.det.recs.filter (fun r => r.typ == 9)).length
  if n = 0 then s else raise s 0x0F01 0xFFFF ended n

/-- D of the cycle that a boundary opens, its records written to ring and stream, and what falls due: a checkpoint where recording starts
or its interval ends. Log entry 11 (DEDUCED, unsafe); Log entry 52 (DEDUCED, unsafe). -/
def detBoundary (s : State) : State :=
  let live := s.det.recs
  let base := if s.det.chainZero then zeros 32 else s.det.chain
  let l := recsFor s
  let chain := chainStep base s.phu.cycle l
  let s := replayCheck s chain live
  let s := { s with det := { s.det with base := base, cur := l, chain := chain, chainZero := false, recs := [], streamed := [] } }
  let on := recRing s || recStream s
  let was := s.det.recording
  let s := if was ∧ on then
      streamPush (ringPush s (l.map (RingRec.input s.phu.cycle) ++ [.chain s.phu.cycle chain])) l
    else s
  let n := s.det.sinceCkpt + 1
  let due := on && (!was || decide (objN s 0x2D00 6 ≤ n))
  { s with det := { s.det with recording := on, sinceCkpt := n, ckptDue := due } }

/-- Records that a switch of this boundary adds join those of the cycle (R400). -/
def detRefresh (s : State) : State :=
  if s.det.recs.isEmpty ∨ (s.det.replay ∧ !s.det.replayDone) then s
  else
    let l := s.det.cur ++ s.det.recs
    let add := s.det.recs
    let chain := chainStep s.det.base s.phu.cycle l
    let s := { s with det := { s.det with cur := l, chain := chain, recs := [] } }
    if s.det.recording ∧ !s.det.ckptDue then streamPush (ringPush s (add.map (RingRec.input s.phu.cycle) ++ [.chain s.phu.cycle chain])) add else s

/-- Replay at a boundary, after its latches: entry, feed, and the end with event 0x0F04. -/
def replayBoundary (s : State) : State :=
  let want := bit (regF s Reg.detCtrl) 3
  if want ∧ !s.det.replay then replayFeed (replayLoad s)
  else if !want then { s with det := { s.det with replay := false, replayDone := false } }
  else if s.det.replayDone then s
  else if s.det.replayEnd < s.phu.cycle then
    raise { s with det := { s.det with replayDone := true } } 0x0F04 0xFFFF s.det.replayEnd 0
  else replayFeed s

/-- DET_REC_STAT: seconds held and checkpoints. -/
def detRecStat (s : State) : Nat :=
  let first := (s.det.ring.findSome? (fun x => match x with | .ckpt k => some k.cycle | _ => none)).getD (ringLast s)
  sat 16 ((ringLast s - first) * declNs s / 10 ^ 9) * 2 ^ 16 + sat 16 (s.det.ring.filter isCkpt).length

/-- CHECKPOINT (R407). -/
def execCheckpoint (s : State) : Host.Outcome State Fault Refusal := .next (runArith s checkpoint)

end Sys2Proof.Machine
end

