-- ==== Sys2Proof/Machine/Pins.lean ====
section
/-!
DEFINITION. Pins and interfaces (R443 to R460): the temperature and supply monitors, the power-fail record, the IMU port, I3C, the links of
the Ethernet ports, and JTAG.
-/
namespace Sys2Proof.Machine

/-! ### Temperatures (R455, R456) -/

/-- Sensors of a die: 0 and 1 the compute dies, 2 and 3 the base dies, 4 the Husk's. -/
def dieSensors (d : Nat) : List Nat :=
  match d with
  | 0 => List.range 6
  | 1 => (List.range 6).map (· + 6)
  | 2 => [12, 13]
  | 3 => [14, 15]
  | _ => [16]

/-- Twice the median of a list of temperatures. Log entry 58 (DEDUCED, unsafe). -/
def median2 (l : List Int) : Int :=
  let l := sortBy (fun a b => decide (a ≤ b)) l
  l.getD ((l.length - 1) / 2) 0 + l.getD (l.length / 2) 0

/-- Sensors of a die that are not excluded. -/
def dieLeft (s : State) (d : Nat) : List Nat := (dieSensors d).filter (fun i => !s.pins.excluded.contains i)

/-- A sensor reading in 0.1 °C. -/
def sensorT (s : State) (i : Nat) : Int := s.pins.temps.getD i 0

/-- Sensors more than 15 °C from the median of their die are excluded, with event 0x1106. Log entry 58 (DEDUCED, unsafe). -/
def excludeSensors (s : State) (d : Nat) : State :=
  let l := dieLeft s d
  let m := median2 (l.map (sensorT s))
  (l.filter (fun i => decide (300 < (2 * sensorT s i - m).natAbs))).foldl (fun s i =>
    raise { s with pins := { s.pins with excluded := s.pins.excluded ++ [i] } } 0x1106 0xFFFF d (i - (dieSensors d).headD 0)) s

/-- The hottest sensor that is not excluded stands for its die. Log entry 58 (DEDUCED, unsafe). -/
def dieTemp (s : State) (d : Nat) : Option Int :=
  match (dieLeft s d).map (sensorT s) with
  | [] => none
  | x :: t => some (t.foldl max x)

/-- T_max in 0.1 °C (R1). -/
def tJunction (s : State) : Int := if s.svc.grade = 0 then 1050 else 1250

/-- A run of readings beyond a threshold, saturating at 20. -/
def runNext (m : Smap Nat) (k : Nat) (beyond : Bool) : Smap Nat := cntPut m k (if beyond then min 20 (cnt m k + 1) else 0)

/-- The warning of a die: raised after 20 readings, and again only once its reading has come back by 3 °C.
Log entry 58 (DEDUCED, unsafe). -/
def dieWarn (s : State) (d : Nat) (t : Int) : State :=
  let p := s.pins
  let s := { s with pins := { p with warnRun := runNext p.warnRun d (decide (tJunction s - 50 ≤ t))
                                     limitRun := runNext p.limitRun d (decide (tJunction s + 50 < t) || decide (t < -450)) } }
  if s.pins.warn.contains d then
    if t ≤ tJunction s - 80 then
      let s := { s with pins := { s.pins with warn := s.pins.warn.filter (· != d) } }
      if s.pins.warn.isEmpty then tempClear s else s
    else s
  else if cnt s.pins.warnRun d = 20 then
    tempDown (raise { s with pins := { s.pins with warn := s.pins.warn ++ [d] } } 0x1101 0xFFFF d (ofSigned 32 t))
  else s

/-- One die of a reading. -/
def dieRead (s : State) (d : Nat) : State :=
  let s := excludeSensors s d
  match dieTemp s d with
  | none => s
  | some t => dieWarn { s with pins := { s.pins with tMax := max s.pins.tMax t } } d t

/-- Whether the temperature monitor asks for the safe state: a die beyond its limits for 20 readings, or with fewer than 3 sensors left
after an exclusion. -/
def tempLimit (s : State) : Bool :=
  (List.range 5).any (fun d => cnt s.pins.limitRun d == 20 ||
    (decide ((dieLeft s d).length < 3) && decide ((dieLeft s d).length < (dieSensors d).length)))

/-! ### Rails (R444, R455, R456) -/

/-- Set value of a core rail at a DVFS point, in mV. -/
def coreMv (p : Nat) : Nat := match p with | 0 => 750 | 1 => 650 | _ => 550

/-- Set values in mV that bound the window of a rail, by code 1 to 11: both the old and the new one of a core rail while a commanded
change is under way, for at most 500 µs. -/
def railSet (s : State) (r : Nat) : Nat × Nat :=
  let new := coreMv (s.cpm.upTo.getD s.cpm.point)
  let old := coreMv s.cpm.volt
  let moving := s.cpm.voltAt.any (fun t => decide (s.now ≤ t + 4500000))
  match r with
  | 1 | 2 => if moving then (min new old, max new old) else (new, new)
  | 3 => (750, 750) | 4 | 5 => (800, 800) | 6 => (1100, 1100) | 7 => (850, 850)
  | 10 => (3300, 3300)
  | _ => (1800, 1800)

/-- Whether a rail lies outside its set value by more than `pc` per cent. Log entry 57 (DEDUCED, unsafe). -/
def railOut (s : State) (r mv pc : Nat) : Bool :=
  let w := railSet s r
  decide (mv * 100 < w.1 * (100 - pc)) || decide (w.2 * (100 + pc) < mv * 100)

/-- One rail of a reading. -/
def railRead (s : State) (r : Nat) : State :=
  let mv := s.pins.rails.getD (r - 1) 0
  let p := s.pins
  let s := { s with pins := { p with supWarnRun := runNext p.supWarnRun r (railOut s r mv 5), supLimitRun := runNext p.supLimitRun r (railOut s r mv 8) } }
  if s.pins.supWarn.contains r then
    if railOut s r mv 4 then s else { s with pins := { s.pins with supWarn := s.pins.supWarn.filter (· != r) } }
  else if cnt s.pins.supWarnRun r = 20 then
    raise { s with pins := { s.pins with supWarn := s.pins.supWarn ++ [r], supWarns := satInc 32 s.pins.supWarns } } 0x1102 0xFFFF r mv
  else s

/-- Whether a rail has been beyond ±8 % for 20 readings. -/
def supplyLimit (s : State) : Bool := (List.range 12).any (fun r => cnt s.pins.supLimitRun r == 20)

/-- MONITOR_SAMPLE: 17 temperatures in 0.1 °C and 11 rails in mV; both limits together are cause 4. -/
def monitorSample (s : State) (temps : List Int) (rails : List Nat) : State :=
  let s := { s with pins := { s.pins with temps := temps, rails := rails } }
  let s := (List.range 5).foldl dieRead s
  let s := ((List.range 11).map (· + 1)).foldl railRead s
  let s := { s with pins := { s.pins with dieT := (List.range 5).map (fun d => (dieTemp s d).getD 0) } }
  if tempLimit s then enterSafe s 4 else if supplyLimit s then enterSafe s 5 else s

/-! ### Power fail (R445, R496) -/

/-- POWER_FAIL: the final entry of cause 6, with event 0x1103. -/
def powerFail (s : State) : State :=
  let s := raise (boxAdd s 4 [] (finalBody s 6)) 0x1103 0xFFFF s.phu.cycle 0
  { s with logs := { s.logs with lastCause := 6 } }

/-! ### IMU (R452) -/

/-- Whether the IMU port has its clock. -/
def imuOn (s : State) : Bool := bit (regGet s Reg.cpmGate) 12

/-- IMU_DRDY: an edge `dt` ticks after the last command. Too early or during a read it is ignored and counted. -/
def imuDrdy (s : State) (dt : Nat) : State :=
  let s := advance s dt
  if !imuOn s then s
  else
    let early := s.pins.imuLast.any (fun t => decide (s.now < t + objN s 0x2E02 5 * 9000))
    if s.pins.imuBusy ∨ early then
      { s with pins := { s.pins with imuIgn := s.pins.imuIgn + 1, imuMiss := satInc 32 s.pins.imuMiss } }
    else
      { s with pins := { s.pins with imuBusy := true, imuLast := some s.now, imuCycle := s.phu.cycle, imuPhase := phase s } }

/-- IMU_SAMPLE_DONE: the sample takes the stamp of its edge and enters the input records (R400, R401). Replay discards it (R408). -/
def imuDone (s : State) (b : Bytes) : State :=
  if !s.pins.imuBusy then s
  else
    let b := fit (objN s 0x2E02 4) b
    let r : InRec := { typ := 4, source := 0, cycle := s.pins.imuCycle, phase := s.pins.imuPhase, content := b }
    if s.det.replay then { s with pins := { s.pins with imuBusy := false } }
    else
      { s with pins := { s.pins with imuBusy := false, imuSample := b, imuCur := satInc 16 s.pins.imuCur }
               det := { s.det with recs := s.det.recs ++ [r] } }

/-- The boundary of this chapter: the samples of the cycle that ends, and event 0x1104. -/
def pinsBoundary (s : State) : State :=
  let n := s.pins.imuIgn
  let s := { s with pins := { s.pins with imuCnt := s.pins.imuCur, imuCur := 0, imuIgn := 0 } }
  if n = 0 then s else raise s 0x1104 0xFFFF n 0

/-! ### I3C (R451) -/

/-- I3C_IBI: target `a` raises an in-band interrupt; its service ends well, or with a NACK or a timeout and event 0x1105.
Log entry 58 (DEDUCED, unsafe). -/
def i3cIbi (s : State) (a : Nat) (err : Option Nat) : State :=
  if !bit (regGet s Reg.cpmGate) 11 then s
  else
    let s := { s with pins := { s.pins with ibi := satInc 32 s.pins.ibi, lastIbi := a } }
    match err with
    | none => s
    | some e => raise { s with pins := { s.pins with i3cErrs := satInc 32 s.pins.i3cErrs } } 0x1105 0xFFFF a e

/-! ### Ethernet links (R451, R173) -/

/-- The link of a port. -/
def setPcs (s : State) (p : Nat) (b : Bool) : State :=
  { s with pins := if p = 0 then { s.pins with pcs0 := b } else { s.pins with pcs1 := b } }

/-- SERDES_LOCK: lock is lost, or auto-negotiation is refused. -/
def serdesLock (s : State) (p why : Nat) : State := if gateOn s p then raise (setPcs s p false) 0x1107 0xFFFF p why else s

/-- PCS_LOCK. -/
def pcsLock (s : State) (p : Nat) : State := if gateOn s p then setPcs s p true else s

/-- GPTP_SYNC: synchronisation is gained on a port that has its link, or lost. Log entry 53 (DESIGN CHOICE, unsafe). -/
def gptpSync (s : State) (p : Nat) (on : Bool) : State :=
  let b := on && gateOn s p && (if p = 0 then s.pins.pcs0 else s.pins.pcs1)
  { s with pins := if p = 0 then { s.pins with gptp0 := b } else { s.pins with gptp1 := b } }

/-! ### JTAG (R453) -/

/-- The TAP takes an instruction. Log entry 10 (PRESUMED, unsafe). -/
def tapTake (s : State) (i : TapIr) : State := { s with pins := { s.pins with tapIr := i } }

/-- A JTAG operation runs whenever the device is powered (R449). -/
def runTap (s : State) (f : State → State) : State := if s.safety.safeState then s else f (answer s .none)

/-- What the boundary-scan cells capture is free: their order lies outside the specification.
Log entry 38 (DESIGN CHOICE, safe). -/
def scanOut (s : State) (i : TapIr) (preload : Bytes) : State :=
  let (v, s) := takeFree s
  answer (tapTake { s with pins := { s.pins with bscan := preload } } i) (.jtag v)

/-- EXTEST is taken in MANUFACTURE only; elsewhere the TAP keeps its instruction. Log entry 58 (DEDUCED, unsafe). -/
def jtagExtest (s : State) (preload : Bytes) : State := if s.svc.life = 0 then scanOut s .extest preload else s

/-! ### Meanings -/

/-- MONITOR_SAMPLE (R455, R456). Log entry 13 (DESIGN CHOICE, safe). -/
def execMonitorSample (temps : List (BitVec 16)) (rails : List (BitVec 16)) (s : State) : Host.Outcome State Fault Refusal :=
  .next (runAon s (fun s => if s.cpm.watchOk then monitorSample s (temps.map (·.toInt)) (rails.map (·.toNat)) else s))
/-- POWER_FAIL (R496). -/
def execPowerFail (s : State) : Host.Outcome State Fault Refusal := .next (run s powerFail)
/-- IMU_DRDY (R452). -/
def execImuDrdy (dt : BitVec 32) (s : State) : Host.Outcome State Fault Refusal := .next (runIo s (fun s => imuDrdy s dt.toNat))
/-- IMU_SAMPLE_DONE (R452). -/
def execImuSampleDone (b : Bytes) (s : State) : Host.Outcome State Fault Refusal := .next (runIo s (fun s => imuDone s b))
/-- I3C_IBI (R451). -/
def execI3cIbi (a : BitVec 7) (err : Option Bool) (s : State) : Host.Outcome State Fault Refusal :=
  .next (runIo s (fun s => i3cIbi s a.toNat (err.map (fun timeout => if timeout then 2 else 1))))
/-- SERDES_LOCK (R451, R458). -/
def execSerdesLock (p : Fin 2) (refused : Bool) (s : State) : Host.Outcome State Fault Refusal :=
  .next (runIo s (fun s => serdesLock s p.val (if refused then 2 else 1)))
/-- PCS_LOCK (R451). -/
def execPcsLock (p : Fin 2) (s : State) : Host.Outcome State Fault Refusal := .next (runIo s (fun s => pcsLock s p.val))
/-- GPTP_SYNC (R173, R43). -/
def execGptpSync (p : Fin 2) (on : Bool) (s : State) : Host.Outcome State Fault Refusal := .next (runIo s (fun s => gptpSync s p.val on))
/-- TRST_LOW (R473): the TAP only, which returns to IDCODE. -/
def execTrstLow (s : State) : Host.Outcome State Fault Refusal := .next (runTap s (fun s => tapTake s .idcode))
/-- JTAG_IDCODE (R453). -/
def execJtagIdcode (s : State) : Host.Outcome State Fault Refusal := .next (runTap s (fun s => answer (tapTake s .idcode) (.jtag 0x17240B57)))
/-- JTAG_BYPASS (R453). -/
def execJtagBypass (s : State) : Host.Outcome State Fault Refusal := .next (runTap s (fun s => answer (tapTake s .bypass) (.jtag 0)))
/-- JTAG_SAMPLE_PRELOAD (R453). -/
def execJtagSamplePreload (preload : Bytes) (s : State) : Host.Outcome State Fault Refusal :=
  .next (runTap s (fun s => scanOut s .sample preload))
/-- JTAG_EXTEST (R453). -/
def execJtagExtest (preload : Bytes) (s : State) : Host.Outcome State Fault Refusal := .next (runTap s (fun s => jtagExtest s preload))

end Sys2Proof.Machine
end

