-- ==== Sys2Proof/Machine/RegRead.lean ====
section
/-!
DEFINITION. What a control register reads as: the word as written, or the value that the state gives a read-only register (R6, R7, and the
register tables of the chapters).
-/
namespace Sys2Proof.Machine

/-- Word `i` of a byte string. -/
def word32 (b : Bytes) (i : Nat) : Nat := getLe b (4 * i) 4

/-- UCTL registers (R26 to R30, R19). -/
def uctlRead (s : State) (o : Nat) : Option Nat :=
  if o = Reg.uctlId then some (uctlIdWord s)
  else if o = Reg.uctlUnitStat then some (unitStat s)
  else if Reg.uctlClassCnt ≤ o ∧ o < Reg.uctlClassCnt + 68 then some (classCnt s ((o - Reg.uctlClassCnt) / 4))
  else if Reg.uctlDismap ≤ o ∧ o ≤ Reg.uctlDismap45 then some (dismapWord s ((o - Reg.uctlDismap) / 4))
  else none

/-- PHU registers (R48, R49). -/
def phuRead (s : State) (o : Nat) : Option Nat :=
  let t := tcShown s
  let p := s.phu
  if o = Reg.phuStat then some (sat 8 p.inTol * 256 + phuCode p.st)
  else if o = Reg.phuPhase then some (phase s)
  else if o = Reg.phuErr then some (ofSigned 32 (errQ8 p.err))
  else if o = Reg.phuPeriod then some (p.pAvg % 2 ^ 28)
  else if o = Reg.phuTcCycleLo then some (s.phu.tc.cycle % 2 ^ 32)
  else if o = Reg.phuTcCycleHi then some (t.cycle / 2 ^ 32)
  else if o = Reg.phuTcDcLo then some (t.dc % 2 ^ 32)
  else if o = Reg.phuTcDcHi then some (t.dc / 2 ^ 32)
  else if o = Reg.phuTcGptpNs then some t.gptpNs
  else if o = Reg.phuTcGptpSLo then some (t.gptpS % 2 ^ 32)
  else if o = Reg.phuTcGptpSHi then some (t.gptpS / 2 ^ 32)
  else if o = Reg.phuTcFlags then some (tcFlags s)
  else if o = Reg.phuBarStat then
    some (ofSigned 16 p.returnDev * 2 ^ 16 + (match p.bar with | .idle => 0 | .ready => 1 | .released => 2))
  else none

/-- The Chard window and the Husk's status window (R373, R375). -/
def huskRead (s : State) (o : Nat) : Option Nat :=
  let f := s.safety
  if o = Reg.chdWindow then some (inWindow s.phu.cycle f.par.disWindow f.disCycles).length
  else if o = Reg.hskPermit then
    some (f.cause * 256 + b2n f.stopReq * 16 + b2n f.runEnable * 8 + b2n f.segNew * 4 + b2n f.lock * 2 + b2n f.permit)
  else if o = Reg.hskHorizon then
    some ((if f.permit then sat 16 (horizonNow s + 1 - lNow s) else 0) * 2 ^ 16 + sat 16 (horizonNow s))
  else if o = Reg.hskSegCycleLo then some (match f.exe with | some g => g.gen | none => 0)
  else if o = Reg.hskSegDigest then some (match f.exe with | some g => getLe g.digest 0 4 | none => 0)
  else if o = Reg.hskParamCrc then some (sparCrc f.par)
  else none

/-- DET and HSH registers (R411 to R413). -/
def detRead (s : State) (o : Nat) : Option Nat :=
  if Reg.detSeed ≤ o ∧ o < Reg.detSeed + 16 then
    let i := (o - Reg.detSeed) / 4
    some (objN s 0x2401 (1 + i / 2) / 2 ^ (32 * (i % 2)))
  else if Reg.detProv ≤ o ∧ o < Reg.detProv + 32 then some (word32 s.det.prov ((o - Reg.detProv) / 4))
  else if Reg.detChain ≤ o ∧ o < Reg.detChain + 32 then some (word32 s.det.chain ((o - Reg.detChain) / 4))
  else if o = Reg.detRecStat then some (detRecStat s)
  else if o = Reg.detNondetCnt then some (sat 32 s.det.nondet)
  else if Reg.hshStat ≤ o ∧ o < Reg.hshStat + 16 then some (hashStat s ((o - Reg.hshStat) / 4))
  else none

/-- AL state codes (R435). -/
def alCodeOf : AlSt → Nat
  | .init => 1 | .preop => 2 | .boot => 3 | .safeop => 4 | .op => 8

/-- The slave controller's registers (R435). -/
def ecatRead (s : State) (o : Nat) : Option Nat :=
  let d := s.od
  let port := fun (lost err : Nat) (link : Bool) => sat 8 lost * 2 ^ 16 + sat 8 err * 256 + b2n link * 2 + b2n link
  if o = Reg.ecatAl then some (d.alCode * 2 ^ 16 + b2n d.alErr * 16 + alCodeOf d.al)
  else if o = Reg.ecatRxpdo then some (sat 16 d.staleRun * 2 ^ 16 + b2n d.stale)
  else if o = Reg.ecatFsoe then some (d.fsoe.connId * 2 ^ 16 + fsCode d.fsoe.st)
  else if o = Reg.ecatFoe then some (d.foeFile * 2 ^ 24 + sat 24 (d.foeBytes / 1024))
  else if o = Reg.ecatPort then some (port d.lost0 d.err0 d.link0)
  else if o = Reg.ecatPort + 0x40 then some (port d.lost1 d.err1 d.link1)
  else none

/-- Update status codes of 0x5000:05. -/
def fwCode : FwSt → Nat
  | .idle => 0 | .verifying => 1 | .staging => 2 | .staged => 3 | .probation => 4 | .writing => 5 | .refused => 6 | .rolledBack => 7

/-- SVC registers (R503). -/
def svcRead (s : State) (o : Nat) : Option Nat :=
  if o = Reg.svcSeq then some s.logs.seq
  else if o = Reg.svcFw then some (s.svc.reason * 16 + fwCode s.svc.fwSt)
  else if o = Reg.svcLc then some (sat 16 s.svc.tamperCnt * 2 ^ 16 + s.svc.tamper * 256 + s.svc.life)
  else if o = Reg.svcBbox then some (bseqNewest s)
  else none

/-- The unit that a per-unit register belongs to (R466). -/
def regUnit (o : Nat) : Option Nat :=
  if Reg.radScan ≤ o ∧ o < Reg.radScan + 40 then let i := (o - Reg.radScan) / 4; some (unitId 5 (i / 5) (i % 5))
  else if Reg.psnUnit ≤ o ∧ o < Reg.psnUnit + 72 then let i := (o - Reg.psnUnit) / 4; some (unitId 4 (i / 9) (i % 9))
  else if Reg.cobUnit ≤ o ∧ o < Reg.cobUnit + 544 then let i := (o - Reg.cobUnit) / 4; some (unitId 3 (i / 68) (i % 68))
  else if Reg.chdUnit ≤ o ∧ o < Reg.chdUnit + 24 then let i := (o - Reg.chdUnit) / 4; some (unitId 7 (i / 3) (i % 3))
  else none

/-- Whether an engine is clock-gated: OFFLINE, SPARE or RETIRED, or gated by Watch (R466, R470). Log entry 57 (DEDUCED, unsafe). -/
def clockGated (s : State) (u : Nat) : Bool :=
  decide (idClass u ≤ 7) && (unitSt s u == .offline || unitSt s u == .spare || unitSt s u == .retired || watchUnit s u)

/-- The value that the state gives the register at `o`, none for a register that holds its word. -/
def regState (s : State) (o : Nat) : Option Nat :=
  match o / 0x100000 with
  | 0x00 => uctlRead s o
  | 0x01 => onionRead s ((o - Reg.onionCtrl) / 0x10000) (o % 0x10000)
  | 0x02 => qmgrRead s (o - Reg.qmgrCtrl)
  | 0x04 => mrwRead s (o - 0x400000)
  | 0x05 => podRead s (o - 0x500000)
  | 0x07 => if o = Reg.psnEstStat then some (estStat s) else if o = Reg.psnBgStat then some (bgStat s) else none
  | 0x09 => huskRead s o
  | 0x0A => cpmRead s o
  | 0x0B => sscRead s (o - 0xB00000)
  | 0x0C => ddrRead s (o - 0xC00000)
  | 0x0D => ethRead s (o - Reg.ethCtrl)
  | 0x0E => ecatRead s o
  | 0x0F => if o % 0x100 = 8 then some (csiStat s ((o - 0xF00000) / 0x100)) else none
  | 0x10 => phuRead s o
  | 0x11 => detRead s o
  | 0x12 => detRead s o
  | 0x13 => svcRead s o
  | 0x1000 => huskRead s o
  | _ => none

/-- What a register reads as: 0 while its unit is clock-gated or for a write-only one, else what the state gives it, else its word; REPLAY
makes REC_RING and REC_STREAM read 0 (R412), and DET_STRICT ADMIT_LATE and ADAPT_TILE (R404). -/
def regRead (s : State) (o : Nat) : Nat :=
  if (regUnit o).any (clockGated s) then 0
  else if (regFind o).any (fun r => r.acc == .wo) then 0
  else match regState s o with
    | some v => v % 2 ^ 32
    | none =>
      let w := regGet s o
      if o = Reg.detCtrl ∧ bit w 3 then w - (w &&& 6)
      else if o = Reg.ethCtrl ∧ detStrict s then w - (w &&& 0x20)
      else if o = Reg.cobCtrl ∧ detStrict s then w - (w &&& 2)
      else w

end Sys2Proof.Machine
end

