-- ==== Sys2Proof/Machine/ObjRead.lean ====
section
/-!
DEFINITION. What an object sub-index reads as (R420, R421, and the object tables of the chapters): the value as written, or the value that
the state gives a read-only one.
-/
namespace Sys2Proof.Machine
open Sys2Proof.Config

/-- Characters of a name as bytes. -/
def chars (x : String) : Bytes := x.toList.map (fun c => c.toNat)

/-- Decimal digits of a number below 65,536. -/
def digits (n : Nat) : Bytes :=
  let l := [10000, 1000, 100, 10].map (fun p => 48 + n / p % 10)
  l.dropWhile (· == 48) ++ [48 + n % 10]

/-- "major.minor.patch.build" of a firmware version (R425, R486). -/
def versionName (v : Nat) : Bytes :=
  digits (field v 0 16) ++ [46] ++ digits (field v 16 16) ++ [46] ++ digits (field v 32 16) ++ [46] ++ digits (field v 48 16)

/-- A field of a frame object 0x2006 or 0x2007 (R432). -/
def frameField (b : Bytes) (sub : Nat) : Nat := if sub ≤ 3 then getLe b (sub - 1) 1 else getLe b (2 * sub - 5) 2

/-- Standard and identity objects (R425, R432). -/
def roStd (s : State) (idx sub : Nat) : Option Int :=
  let d := s.od
  match idx, sub with
  | 0x1001, 0 => some (b2n d.alErr + 128 * b2n (degraded s != 0))
  | 0x1018, 1 => some 0xB57
  | 0x1018, 2 => some (0x724000 + s.svc.grade % 2)
  | 0x1018, 3 => some 0xB00001
  | 0x1018, 4 => some (s.svc.serial % 2 ^ 32)
  | 0x1C00, i => some i
  | 0x1C12, 1 => some 0x1600
  | 0x1C12, 2 => some 0x1700
  | 0x1C32, 1 | 0x1C33, 1 => some (if objF s 0x2100 1 = 1 then 2 else 1)
  | 0x1C32, 2 | 0x1C33, 2 => some (objF s 0x2100 2)
  | 0x2000, 2 => some (s.svc.grade % 2)
  | 0x2000, 4 => some s.svc.serial
  | 0x2000, 5 => some s.svc.life
  | 0x2000, 6 => some s.svc.run.version
  | 0x2001, 1 => some (alCodeOf d.al)
  | 0x2001, 2 => some d.alCode
  | 0x2001, 4 => some (sat 16 d.staleRun)
  | 0x2001, 5 => some d.latches
  | 0x2001, 6 => some d.txWrites
  | 0x2001, 7 => some d.aborts
  | 0x2001, 8 => some d.err0
  | 0x2001, 9 => some d.err1
  | 0x2001, 0xA => some d.foeStatus
  | 0x2001, 0xB => some d.foeErr
  | 0x2002, 2 => some (fsCode d.fsoe.st)
  | 0x2002, 3 => some d.fsoe.wdMs
  | 0x2002, 4 => some d.fsoe.connId
  | 0x2002, 5 => some d.fsoe.resets
  | 0x2002, 6 => some d.fsoe.reason
  | 0x2003, i => some (getLe d.tx (8 * (i - 1)) 8)
  | 0x2004, i => some (getLe d.rx (8 * (i - 1)) 8)
  | 0x2005, i => some (getLe d.txExt (8 * (i - 1)) 8)
  | 0x2006, i => some (frameField d.fsoe.mframe i)
  | 0x2007, i => some (frameField d.fsoe.sframe i)
  | _, _ => none

/-- Objects of the control cycle, the world, the model and the candidates (R50, R83, R110, R132). The measured period is p_avg in whole ns.
Log entry 67 (DESIGN CHOICE, unsafe). -/
def roFront (s : State) (idx sub : Nat) : Option Int :=
  let m := s.model
  match idx, sub with
  | 0x2100, 5 => some (phuCode s.phu.st)
  | 0x2100, 6 => some s.phu.cycle
  | 0x2100, 7 => some (errQ8 s.phu.err)
  | 0x2100, 8 => some (s.phu.pAvg / 9)
  | 0x2100, 9 => some s.phu.pubStatus
  | 0x2101, 6 => some (regRead s Reg.phuBarStat % 4)
  | 0x2101, 7 => some s.phu.returnDev
  | 0x2200, 0x13 => some s.world.cur.version
  | 0x2200, 0x14 => some (regRead s Reg.mrwPoolFree)
  | 0x2201, 5 => some s.world.cur.margin
  | 0x2300, 1 => some m.gen
  | 0x2300, 2 => some (match m.cur with | some x => getLe x.digest 0 8 | none => 0)
  | 0x2300, 3 => some (match m.cur with | some x => x.joints.length | none => 0)
  | 0x2300, 4 => some (match m.cur with | some x => x.spheres.length | none => 0)
  | 0x2300, 5 => some (match m.cur with | some x => x.vDecl | none => 0)
  | 0x2300, 9 => some m.status.code
  | 0x2300, 0xA => some m.reason
  | 0x2300, 0xB => some (vrNow s)
  | 0x2301, i => some (m.latched.getD (i - 1) 0)
  | 0x2400, 9 => some s.cand.genLast
  | 0x2400, 0xA => some s.cand.seedsLast
  | 0x2400, 0xB => some s.cand.reassignedLast
  | 0x2400, 0xC => some s.cand.noBaseCycles
  | 0x2405, 4 => some s.cand.primStatus
  | 0x2405, 5 => some s.cand.primN
  | i, 0x21 => if 0x2210 ≤ i ∧ i < 0x2230 then some (regRead s (Reg.mrwStreamStat + 16 * (i - 0x2210)) / 2 ^ 29 : Nat) else none
  | i, 0x22 => if 0x2210 ≤ i ∧ i < 0x2230 then some (regRead s (Reg.mrwStreamRej + 16 * (i - 0x2210)) : Nat) else none
  | _, _ => none

/-- The slot that 0x2604:01 selects. -/
def slotSel (s : State) : PeerSlot := Smap.get (fun _ => PeerSlot.none) s.peers.slots (objW s 0x2604 1)

/-- Objects of collision checking, the peers and selection (R170, R194, R214). -/
def roMid (s : State) (idx sub : Nat) : Option Int :=
  let r := regRead s
  match idx, sub with
  | 0x2500, 1 => some s.safety.par.mP
  | 0x2500, 2 => some s.safety.par.mS
  | 0x2500, 9 => some (podsInService s).length
  | 0x2500, 0xA => some (r Reg.podCycClear)
  | 0x2500, 0xB => some (r Reg.podCycBlocked)
  | 0x2500, 0xC => some (r Reg.podCycUnknown)
  | 0x2500, 0xD => some (r Reg.podCycBatch / 2 ^ 16 : Nat)
  | 0x2500, 0xE => some (r Reg.podCycUtil)
  | 0x2500, 0xF => some (r Reg.podOverrun)
  | 0x2600, 0xA => some (r Reg.ethPeerCnt % 2 ^ 16 : Nat)
  | 0x2600, 0xB => some (r Reg.ethPeerCnt / 2 ^ 16 : Nat)
  | 0x2600, 0xC => some (sat 16 s.peers.admitLast)
  | 0x2600, 0xD => some (sat 16 s.peers.rejectLast)
  | 0x2600, 0xE => some (r Reg.ethRingDrop)
  | 0x2603, 0xB => some s.peers.pubLast
  | 0x2604, 2 => some (getLe (slotSel s).frame 4 4)
  | 0x2604, 3 => some (match (slotSel s).st with | .empty => 0 | .live => 1 | .standing => 2)
  | 0x2604, 4 => some (getLe (slotSel s).frame 8 4)
  | 0x2604, 5 => some (sat 32 (slotSel s).age)
  | 0x2604, 6 => some (sat 32 (slotSel s).gaps)
  | 0x2700, 4 => some (r Reg.radCycValid)
  | 0x2700, 5 => some (r Reg.radCycMasked)
  | 0x2700, 6 => some (sat 32 (cnt s.sel.last 2) : Nat)
  | 0x2700, 7 => some (sat 32 (cnt s.sel.last 3) : Nat)
  | 0x2700, 8 => some (r Reg.radConflictTot)
  | 0x2700, 9 => some (sat 32 (cnt s.sel.last 5) : Nat)
  | 0x2700, 0xA => some (r Reg.radWinId)
  | 0x2700, 0xB => some (r Reg.radWinKey)
  | 0x2700, 0xC => some s.sel.overruns
  | _, _ => none

/-- Objects of the solver, the neural engines, scheduling and the plan image (R240, R263, R292, R315). -/
def roBack (s : State) (idx sub : Nat) : Option Int :=
  let r := regRead s
  let p := s.plan
  match idx, sub with
  | 0x2800, 8 => some (r Reg.psnCycRefine % 2 ^ 16 : Nat)
  | 0x2800, 9 => some (r Reg.psnCycRefine / 2 ^ 16 : Nat)
  | 0x2800, 0xA => some (r Reg.psnCycFlags / 2 ^ 16 : Nat)
  | 0x2800, 0xB => some (sat 32 s.psn.pivLast)
  | 0x2800, 0xD => some (r Reg.psnChkFail)
  | 0x2800, 0xE => some (r Reg.psnDlMiss)
  | 0x2800, 0xF => some (r Reg.psnCycIter)
  | 0x2801, 5 => some s.psn.estLast
  | 0x2801, 6 => some s.psn.estMiss
  | 0x2801, 7 => some s.psn.estReg
  | 0x2900, 4 => some (r Reg.cobCycTiles)
  | 0x2900, 5 => some (r Reg.cobCycRerun)
  | 0x2900, 6 => some (r Reg.cobAbftFail)
  | 0x2900, 7 => some (r Reg.cobDlMiss)
  | 0x2900, 8 => some (activeCount s 3 0 + activeCount s 3 1)
  | 0x2900, 9 => some (r Reg.cobCycMacs)
  | 0x2900, 0xA => some (r Reg.cobSeedStat % 2 ^ 16 : Nat)
  | 0x2900, 0xB => some s.world.lateMasks
  | 0x2901, 5 => some s.cob.wStatus
  | 0x2901, 6 => some (getLe (weightOfSlot s (objW s 0x2901 1)) 0 8)
  | 0x2901, 7 => some s.cob.wGen
  | 0x2A00, 5 => some (r Reg.onionCycTasks + r (Reg.onionCycTasks + 0x10000))
  | 0x2A00, 6 => some (r Reg.onionCycRel + r (Reg.onionCycRel + 0x10000))
  | 0x2A00, 7 => some (sat 32 s.sched.overTotal)
  | 0x2A00, 8 => some (sat 32 s.sched.missTotal)
  | 0x2A00, 9 => some (sat 32 s.sched.disarmTotal)
  | 0x2A00, 0xA => some (maxN (s.sched.highLast.map (·.2)))
  | 0x2A00, 0xB => some (r Reg.qmgrCycStall)
  | 0x2A00, 0xC => some (sat 32 s.sched.superTotal)
  | 0x2B00, 5 => some p.status.code
  | 0x2B00, 6 => some p.reason
  | 0x2B00, 7 => some p.gen
  | 0x2B00, 8 => some (match p.run with | some x => x.imageId | none => 0)
  | 0x2B00, 9 => some (match p.run with | some x => getLe x.digest 0 8 | none => 0)
  | 0x2B00, 0xA => some (match p.run with | some x => x.ctrPlan | none => 0)
  | 0x2B00, 0xB => some (match p.run with | some x => x.queuePlan | none => 0)
  | 0x2B00, 0xD => some p.abandoned
  | 0x2B00, 0xE => some p.editsApplied
  | 0x2B00, 0xF => some (getLe (planKeyId s) 0 8)
  | _, _ => none

/-- Objects of memory, determinism, pins and clocks (R343, R414, R459, R479). -/
def roBase (s : State) (idx sub : Nat) : Option Int :=
  let m := s.mem
  match idx, sub with
  | 0x2C00, 9 => some (trainedGb s)
  | 0x2C00, 0xA => some (retiredOn s 0 + retiredOn s 1)
  | 0x2C00, 0xC => some (sat 32 (m.ce0 + m.ce1))
  | 0x2C00, 0xD => some (sat 32 (m.ue0 + m.ue1))
  | 0x2C00, 0xE => some (sat 32 (sumN ([0, 1, 2, 3].map (fun n => (chanGet s n).ue))))
  | 0x2C01, i => some (areaOff s ((i - 1) % 5))
  | 0x2C02, 1 => some m.pages.length
  | 0x2C02, i => some (m.pages.getD (i - 2) 0)
  | 0x2D00, 9 => some s.svc.run.version
  | 0x2D00, 0xA => some (sat 32 s.det.nondet)
  | 0x2D00, 0xB => some (getLe s.det.prov 0 8)
  | 0x2D00, 0xC => some (detRecStat s / 2 ^ 16 : Nat)
  | 0x2E00, 1 => some (s.pins.dieT.getD 0 0)
  | 0x2E00, 2 => some (s.pins.dieT.getD 1 0)
  | 0x2E00, 3 => some (s.pins.dieT.getD 4 0)
  | 0x2E00, 4 => some (s.pins.rails.getD 0 0)
  | 0x2E00, 5 => some (s.pins.rails.getD 1 0)
  | 0x2E00, 6 => some (s.pins.rails.getD 3 0)
  | 0x2E00, 7 => some (s.pins.rails.getD 4 0)
  | 0x2E00, 8 => some (s.pins.rails.getD 5 0)
  | 0x2E00, 9 => some s.pins.tMax
  | 0x2E00, 0xA => some s.pins.supWarns
  | 0x2E02, 6 => some s.pins.imuCnt
  | 0x2E02, 7 => some s.pins.imuMiss
  | 0x2E03, 3 => some s.pins.i3cErrs
  | 0x2F00, 4 => some (pstate s)
  | 0x2F00, 5 => some s.cpm.point
  | 0x2F00, 6 => some (arithMHz s)
  | 0x2F00, 7 => some (sat 16 s.cpm.avg)
  | 0x2F00, 8 => some (sat 16 s.cpm.peak)
  | 0x2F00, 9 => some s.cpm.dvfsCnt
  | 0x2F00, 0xA => some s.cpm.fails
  | 0x2F00, 0xB => some s.cpm.cause
  | 0x2F00, 0xC => some s.cpm.bootMs
  | 0x2F00, 0xD => some s.cpm.step
  | _, _ => none

/-- The procedure status code of 0x4001:04. -/
def spCode : SpStatus → Nat
  | .locked => 0 | .unlocked => 1 | .confirmed => 2 | .refused => 3

/-- The image version that the store would boot (0x5000:08). -/
def storedVersion (s : State) : Nat :=
  match bootCopy s with
  | some 0 => s.svc.img0.version
  | some _ => s.svc.img1.version
  | none => 0

/-- Objects of the safety concept, diagnostics and service life (R376, R396, R504). -/
def roSafe (s : State) (idx sub : Nat) : Option Int :=
  let f := s.safety
  let d := s.diag
  let u := unitOf s (objW s 0x4101 1)
  match idx, sub with
  | 0x4001, 3 => some (sparCrc f.par)
  | 0x4001, 4 => some (spCode f.spStatus)
  | 0x4001, 5 => some f.spReason
  | 0x4001, 6 => some f.applied
  | 0x4002, 1 => some (b2n f.permit)
  | 0x4002, 2 => some f.cause
  | 0x4002, 3 => some (sat 32 (horizonNow s))
  | 0x4002, 4 => some (match f.exe with | some g => g.gen | none => 0)
  | 0x4002, 5 => some (regRead s Reg.chdDisagree)
  | 0x4002, 6 => some (regRead s Reg.chdMissing)
  | 0x4100, 7 => some d.lasting
  | 0x4100, 8 => some (allUnits.filter (fun u => unitSt s u == .retired)).length
  | 0x4100, 9 => some d.goldFails
  | 0x4100, 0xA => some d.goldSheds
  | 0x4100, 0xB => some d.injection
  | 0x4100, 0xC => some d.rotations
  | 0x4100, 0xD => some (degraded s)
  | 0x4101, 2 => some (sat 8 u.faults.length)
  | 0x4101, 3 => some (sat 8 u.strikes)
  | 0x4101, 4 => some u.lastFault
  | 0x4101, 5 => some u.goldDefer
  | 0x4101, 6 => some u.lastTest
  | 0x4101, 7 => some u.lastResult
  | 0x5000, 5 => some (fwCode s.svc.fwSt)
  | 0x5000, 6 => some s.svc.reason
  | 0x5000, 8 => some (storedVersion s)
  | 0x5000, 9 => some s.svc.floor
  | 0x5000, 0xA => some (s.logs.box.filter (fun e => e.btype == 5)).length
  | 0x5001, 4 => some s.svc.ucStatus.code
  | 0x5002, 3 => some s.svc.reportSt
  | 0x5003, 1 => some s.svc.life
  | 0x5003, 5 => some s.svc.tamper
  | 0x5003, 6 => some s.svc.tamperCnt
  | 0x5004, 1 => some s.logs.box.length
  | 0x5004, 2 => some (bseqNewest s)
  | 0x5004, 3 => some (getLe s.logs.chain 0 8)
  | 0x5004, 4 => some s.logs.lastCause
  | 0x5004, 5 => some s.logs.overruns
  | _, _ => none

/-- The value that the state gives a read-only number, none where the object holds its own. Log entry 18 (DEDUCED, safe). -/
def roVal (s : State) (idx sub : Nat) : Option Int :=
  if sub = 0 ∧ 0x2000 ≤ idx then none
  else if idx < 0x2100 then roStd s idx sub
  else if idx < 0x2500 then roFront s idx sub
  else if idx < 0x2800 then roMid s idx sub
  else if idx < 0x2C00 then roBack s idx sub
  else if idx < 0x4000 then roBase s idx sub
  else roSafe s idx sub

/-- Byte strings that the state gives. -/
def roBytes (s : State) (idx sub : Nat) : Option Bytes :=
  match idx, sub with
  | 0x1008, 0 => some (chars (if s.svc.grade = 0 then "ZP7240-B0-I" else "ZP7240-B0-E"))
  | 0x1009, 0 => some (chars "B0")
  | 0x100A, 0 => some (fit 23 (versionName s.svc.run.version))
  | 0x2D01, 1 => some (fit 48 (signature s))
  | 0x5002, 4 => some (fit 17344 s.svc.report)
  | 0x5002, 5 => some (fit 32 s.svc.idKey)
  | 0x5002, 6 => some (fit 7888 s.svc.attKey)
  | _, _ => none

/-- The value in force of a safety parameter (R420). -/
def rwsVal (s : State) (idx sub : Nat) : Nat := if idx = 0x4000 then sparGet s.safety.par sub else s.svc.tamperAction

/-- The bytes that a readable sub-index with row `o` reads as. -/
def objBytes (s : State) (o : ObjDef) (idx sub : Nat) : Bytes :=
  match roBytes s idx sub with
  | some b => b
  | none =>
    match o.acc with
    | .ro => match roVal s idx sub with
      | some v => tyEnc o.ty v
      | none => tyEnc o.ty (objF s idx sub)
    | .rws => tyEnc o.ty (rwsVal s idx sub)
    | _ => tyEnc o.ty (objGet s idx sub)

/-- A read of one sub-index: its bytes, or an abort code (R420, R422, R424). -/
def objReadOne (s : State) (idx sub : Nat) : Nat ⊕ Bytes :=
  match objFind idx sub with
  | none => .inl (if objExists idx then 0x06090011 else 0x06020000)
  | some o => if o.acc = .wo then .inl 0x06010001 else .inr (objBytes s o idx sub)

/-- The sub-indices of an object in ascending order. -/
def objSubs (idx : Nat) : List Nat := (List.range 256).filter (fun i => (objFind idx i).isSome)

end Sys2Proof.Machine
end

