-- ==== Sys2Proof/Machine/ObjWrite.lean ====
section
/-!
DEFINITION. Writes of objects (R420 to R423): the checks of the access path, command objects, the boundary at which a value takes effect,
and the SDO and driver services.
-/
namespace Sys2Proof.Machine
open Sys2Proof.Config

/-- How a request reaches the dictionary. -/
inductive Via where
  | mailbox
  | driver
  deriving DecidableEq, Repr

/-! ### Ranges -/

/-- Limits that other objects give (R50, R51, R61, R65, R83, R194), on the values as they stand with the write. -/
def rngPer (s : State) (rule idx sub : Nat) (v : Int) : Bool :=
  let w := objGet s idx
  match rule with
  | 50 => decide (objGet s 0x2100 3 ≤ v) && decide (v ≤ 8191)
  | 51 => match sub with | 4 => decide (v ≤ 3) | _ => decide (v ≤ 7)
  | 61 => decide (0 < w 3) && decide (w 4 < 0) && decide (-127 ≤ w 7) && decide (w 7 < w 5) && decide (w 5 ≤ w 6) && decide (w 6 ≤ 127)
  | 65 => if sub = 0xA ∨ sub = 0xD then decide (2 ≤ v) && decide (v ≤ 128) else decide (4 ≤ v) && decide (v ≤ 256)
  | 82 => if sub = 0xA then decide (v ≤ 2048) else decide (v ≤ 1536)
  | 83 =>
    if sub = 0x10 then
      let n := match s.model.cur with | some m => m.joints.length | none => 32
      decide (v < n)
    else decide (w 0x1E ≤ v) && decide (v ≤ 65535)
  | 194 => if sub = 2 then decide (w 1 ≤ v) && decide (v ≤ 60000) else decide (w 7 < v) && decide (v ≤ 20000)
  | _ => true

/-- What a range alone does not say of a sub-index: the ring position and the tolerances hold together (R50). -/
def rngWith (s : State) (idx sub : Nat) : Bool :=
  if idx = 0x2101 ∧ (sub = 2 ∨ sub = 3) then decide (objGet s 0x2101 3 < objGet s 0x2101 2)
  else if idx = 0x2100 ∧ sub = 3 then decide (objGet s 0x2100 3 ≤ objGet s 0x2100 4)
  else true

/-- Whether a value lies in the stated range; `s` holds the values of the whole write. -/
def rngOk (s : State) (o : ObjDef) (idx sub : Nat) (v : Int) : Bool :=
  rngWith s idx sub &&
  match o.rng with
  | .any => true
  | .span lo hi => decide (lo ≤ v) && decide (v ≤ hi)
  | .orZero lo hi => v == 0 || (decide (lo ≤ v) && decide (v ≤ hi))
  | .vals l => l.contains v
  | .mult m => v % m == 0
  | .ddrMult m => v % m == 0 && decide (v < ddrBytes s)
  | .laterCycle => v == 0 || decide ((s.phu.cycle : Int) < v)
  | .real lo hi => realIn lo hi v.toNat
  | .multTo m hi => v % m == 0 && decide (0 ≤ v) && decide (v ≤ hi)
  | .per rule => rngPer s rule idx sub v

/-! ### Access -/

/-- The internal mark of an abort that means a busy target (R422): the code itself stands below it. -/
def busyMark : Nat := 2 ^ 32
/-- A busy target. -/
def busyCode : Nat := busyMark + 0x08000022

/-- The address, length and command objects of the target of a file (R431). -/
def foeObjs : Nat → List (Nat × Nat)
  | 1 => [(0x5000, 1), (0x5000, 2), (0x5000, 4)]
  | 2 => [(0x2B00, 1), (0x2B00, 2), (0x2B00, 4)]
  | 3 => [(0x2901, 2), (0x2901, 3), (0x2901, 4)]
  | 4 => [(0x2405, 1), (0x2405, 2), (0x2405, 3)]
  | 5 => [(0x2300, 6), (0x2300, 8)]
  | _ => []

/-- Whether an open transfer holds an object. -/
def foeHolds (s : State) (idx sub : Nat) : Bool :=
  match s.od.foe with
  | some x => (foeObjs x.file).contains (idx, sub)
  | none => false

/-- Whether RWP values may be written (R418, R420). -/
def rwpOpen (s : State) : Bool := s.od.al == .init || s.od.al == .preop

/-- The abort code for which the access of one sub-index is refused, the lowest that applies (R422, R505); 0 goes on. `inRange` says
that the value lies in its range. -/
def accCheck (s : State) (via : Via) (o : ObjDef) (idx sub : Nat) (b : Bytes) (inRange : Bool) : Nat :=
  if o.acc = .ro then 0x06010002
  else if b.length ≠ tyBytes o.ty then 0x06070010
  else if !inRange then 0x06090030
  else if via = .driver ∧ (o.acc = .rws ∨ idx = 0x4001) then 0x08000020
  else if o.acc = .rwp ∧ !rwpOpen s then 0x08000022
  else if foeHolds s idx sub then busyCode
  else 0

/-! ### Command objects -/

/-- What a command object or another special one does with its value: the abort code, 0 accepts, and the state. -/
abbrev Did := Nat × State

/-- Accepted. -/
def did (s : State) : Did := (0, s)

/-- An installation: a busy owner refuses it under its own rule, and the access finds its target busy. -/
def instDo (busy refused : Bool) (s : State) : Did := (if busy then busyCode else if refused then 0x08000000 else 0, s)

/-- The answer that an operation left, as an abort code, taken back out. -/
def codeOf (s0 s : State) : Did :=
  match s.resp with
  | .sdoAbort c => (c, { s with resp := s0.resp, od := { s.od with aborts := s0.od.aborts } })
  | _ => (0, { s with resp := s0.resp })

/-- Firmware command 0x5000:04 (R487). -/
def fwDo (s : State) (v : Nat) : Did :=
  match v with
  | 1 => instDo (!fwIdle s) false (fwInstall s)
  | 2 => did (fwCancel s)
  | _ => did (fwEndProbation s)

/-- STORE_PARAMETERS: every RW and RWP value as it is written goes to eMRAM (R425). -/
def storeParams (s : State) : State :=
  let keep := s.od.obj.filter (fun p => match objFind (p.1 / 256) (p.1 % 256) with | some o => o.acc == .rw || o.acc == .rwp | none => false)
  recordWrite { s with od := { s.od with stored := keep } }

/-- RESTORE_DEFAULTS: the store is cleared; the defaults apply from the next power-up (R425). -/
def restoreDefaults (s : State) : State := recordWrite { s with od := { s.od with stored := [] } }

/-- DEVICE_RESET_COMMAND: in AL state INIT or PREOP and without a permit (R473). -/
def resetCommand (s : State) : Did :=
  if rwpOpen s ∧ !s.safety.permit then did (deviceReset s) else (0x08000000, s)

/-- Whether a live input of types 3 to 7 is discarded: replay takes the recorded ones instead (R408). -/
def discards (s : State) (idx : Nat) : Bool := s.det.replay && decide (0x2000 ≤ idx) && idx != 0x2D00

/-- An RW value waits for the next boundary (R423); an RWP value for the state to leave PREOP. -/
def writeVal (s : State) (o : ObjDef) (idx sub : Nat) (v : Int) : State :=
  if discards s idx then s
  else
    let s := objSet s idx sub v
    if o.acc = .rw then { s with od := { s.od with pendW := s.od.pendW ++ [(idx, sub, v, s.now)] } } else s

/-- PSTATE_REQUEST: Watch is refused while the permit is held (R469). -/
def pstateWrite (s : State) (o : ObjDef) (v : Int) : Did :=
  if v = 1 ∧ s.safety.permit then (0x08000000, s) else did (writeVal s o 0x2F00 3 v)

/-- The effect of an accepted write. `ok` is the outcome that the owner's own check of the content has: a signature (R498), the entries of
a primitive table (R120). -/
def applyOne (s : State) (o : ObjDef) (idx sub : Nat) (b : Bytes) (ok : Bool) : Did :=
  let n := ofLe b
  let v := tyVal o.ty n
  match idx, sub with
  | 0x1010, 1 => did (storeParams s)
  | 0x1011, 1 => did (restoreDefaults s)
  | 0x2300, 8 => if n = 1 then instDo s.model.status.busy (oldBankHeld s) (modelInstall s) else did (modelCancel s)
  | 0x2405, 3 => if n = 1 then instDo false (primReason s ok != 0) (primInstall s ok) else did (primCancel s)
  | 0x2603, 0xC => did (departure s)
  | 0x2901, 4 => if n = 1 then did (weightInstall s) else did (weightCancel s)
  | 0x2B00, 4 => if n = 1 then instDo s.plan.status.busy false (planInstall s) else did (planCancel s)
  | 0x2F00, 3 => pstateWrite s o v
  | 0x2F01, 1 => resetCommand s
  | 0x4001, 1 => codeOf s (sparUnlock s n)
  | 0x4001, 2 => codeOf s (sparConfirm s n)
  | 0x5000, 4 => fwDo s n
  | 0x5001, 3 => if n = 1 then instDo s.svc.ucStatus.busy false (ucodeCommand s) else did (ucodeCancel s)
  | 0x5002, 2 => if s.svc.reportSt = 1 then (busyCode, s) else did (attestRequest s)
  | 0x5003, 2 => let r := lifeCommand s b; instDo false (!r.1) r.2
  | 0x5003, 3 => let r := planKeyWrite s b; instDo false (!r.1) r.2
  | _, _ => if o.acc = .rws then codeOf s (sparStage s (if idx = 0x4000 then sub else 9) n) else did (writeVal s o idx sub v)

/-! ### One write -/

/-- The state as it would stand with the value, for the checks of its range. -/
def withVal (s : State) (o : ObjDef) (idx sub : Nat) (b : Bytes) : State := objSet s idx sub (tyVal o.ty (ofLe b))

/-- The code for which a write is refused by the checks of the access path. -/
def writeCheck (s s' : State) (via : Via) (idx sub : Nat) (b : Bytes) : Nat :=
  match objFind idx sub with
  | none => if objExists idx then 0x06090011 else 0x06020000
  | some o => accCheck s via o idx sub b (rngOk s' o idx sub (tyVal o.ty (ofLe b)))

/-- A write of one sub-index. -/
def writeOne (s : State) (via : Via) (idx sub : Nat) (b : Bytes) (ok : Bool) : Did :=
  match objFind idx sub with
  | none => (writeCheck s s via idx sub b, s)
  | some o =>
    let c := writeCheck s (withVal s o idx sub b) via idx sub b
    if c ≠ 0 then (c, s) else applyOne s o idx sub b ok

/-! ### Complete access (R415, R422) -/

/-- Bytes of a sub-index in complete access: sub-index 0 takes two. Log entry 26 (PRESUMED, unsafe). -/
def caBytes (idx sub : Nat) : Nat :=
  if sub = 0 then 2 else match objFind idx sub with | some o => tyBytes o.ty | none => 0

/-- Whether an object allows complete access: it has sub-indices beyond 0. -/
def caAllowed (idx : Nat) : Bool := (objSubs idx).any (fun i => i != 0)

/-- The data of each sub-index, in order. Log entry 26 (PRESUMED, unsafe). -/
def caSplit (idx : Nat) : List Nat → Bytes → List (Nat × Bytes)
  | [], _ => []
  | i :: t, b => (i, (b.take (caBytes idx i)).take (if i = 0 then 1 else caBytes idx i)) :: caSplit idx t (b.drop (caBytes idx i))

/-- The writes of a complete access to `s0`, in order, up to the lowest sub-index that the access path or its owner refuses; an RO one is
accepted with the value in force. `s'` holds the values of the whole write. Log entry 26 (PRESUMED, unsafe). -/
def caRun (s0 s' : State) (via : Via) (ok : Bool) (idx : Nat) : List (Nat × Bytes) → State → Did
  | [], s => (0, s)
  | x :: t, s =>
    match objFind idx x.1 with
    | none => (writeCheck s0 s' via idx x.1 x.2, s)
    | some o =>
      if o.acc = .ro ∧ objBytes s0 o idx x.1 = x.2 then caRun s0 s' via ok idx t s
      else
        let c := writeCheck s0 s' via idx x.1 x.2
        if c ≠ 0 then (c, s)
        else
          let r := applyOne s o idx x.1 x.2 ok
          if r.1 ≠ 0 then r else caRun s0 s' via ok idx t r.2

/-- A complete-access write from sub-index `start`: all or nothing. Log entry 26 (PRESUMED, unsafe). -/
def writeAll (s : State) (via : Via) (idx start : Nat) (b : Bytes) (ok : Bool) : Did :=
  let subs := (objSubs idx).filter (fun i => decide (start ≤ i))
  if !objExists idx then (0x06020000, s)
  else if !caAllowed idx ∨ 1 < start then (0x06010000, s)
  else if b.length ≠ sumN (subs.map (caBytes idx)) then (0x06070010, s)
  else
    let l := caSplit idx subs b
    let s' := l.foldl (fun t (x : Nat × Bytes) => match objFind idx x.1 with
      | some o => if o.acc = .ro then t else withVal t o idx x.1 x.2
      | none => t) s
    let r := caRun s s' via ok idx l s
    if r.1 ≠ 0 then (r.1, s) else r

/-- A complete-access read. -/
def readAll (s : State) (idx start : Nat) : Nat ⊕ Bytes :=
  let subs := (objSubs idx).filter (fun i => decide (start ≤ i))
  if !objExists idx then .inl 0x06020000
  else if !caAllowed idx ∨ 1 < start then .inl 0x06010000
  else
    match subs.findSome? (fun i => match objReadOne s idx i with | .inl c => some c | .inr _ => none) with
    | some c => .inl c
    | none => .inr (subs.flatMap (fun i => match objReadOne s idx i with | .inr b => fit (caBytes idx i) b | .inl _ => []))

/-! ### Answers -/

/-- An abort over the mailbox, without the internal mark. -/
def sdoEnd (r : Did) : State := if r.1 = 0 then answer r.2 .sdoOk else sdoAbort r.2 (r.1 % busyMark)

/-- The driver's code for an abort (R312, R422). -/
def drvCode (c : Nat) : Int :=
  if c = 0 then 0
  else if busyMark ≤ c then -2
  else if c = 0x08000000 then -3
  else if c = 0x06010001 ∨ c = 0x06010002 ∨ c = 0x08000020 ∨ c = 0x08000022 then -4
  else -1

/-- The driver's return. -/
def drvEnd (r : Did) : State := answer r.2 (.drv (drvCode r.1) [])

/-- SDO_UPLOAD. -/
def sdoUpload (s : State) (idx sub : Nat) (complete : Bool) : State :=
  match (if complete then readAll s idx sub else objReadOne s idx sub) with
  | .inl c => sdoAbort s c
  | .inr b => answer s (.sdoData b)

/-- SDO_DOWNLOAD. -/
def sdoDownload (s : State) (idx sub : Nat) (complete : Bool) (b : Bytes) (ok : Bool) : State :=
  sdoEnd (if complete then writeAll s .mailbox idx sub b ok else writeOne s .mailbox idx sub b ok)

/-- DRIVER_OBJ_READ: `len` bytes are asked for. -/
def drvRead (s : State) (idx sub len : Nat) : State :=
  match objReadOne s idx sub with
  | .inl c => answer s (.drv (drvCode c) [])
  | .inr b => if b.length = len then answer s (.drv 0 b) else answer s (.drv (-1) [])

/-! ### SDO information (R415) -/

/-- The CoE code of a data type (R421); the names of 0x1008 to 0x100A are VISIBLE_STRINGs. Log entry 26 (PRESUMED, unsafe). -/
def tyCode (o : ObjDef) : Nat :=
  match o.ty with
  | .u8 => 5 | .u16 => 6 | .u32 => 7 | .u64 => 0x1B | .i8 => 2 | .i16 => 3 | .i32 => 4 | .real32 => 8
  | .octets _ => if o.idx < 0x2000 then 9 else 0xA

/-- Read rights in PREOP, SAFEOP and OP as bits 0 to 2, write rights as bits 3 to 5. Log entry 26 (PRESUMED, unsafe). -/
def accBits : ObjAcc → Nat
  | .ro => 7 | .rw => 0x3F | .wo => 0x38 | .rwp => 0xF | .rws => 0x3F

/-- Every object, ascending. -/
def objList : List Nat := (sortBy (fun a b => decide (a ≤ b)) (objTable.flatMap (fun o => (List.range o.idxN).map (fun i => o.idx + i)))).eraseDups

/-- SDO_INFO: the list of objects; an object's index, type of its first entry and highest sub-index; an entry's type, length in bits
and rights. -/
def sdoInfo (s : State) : InfoReq → State
  | .list => answer s (.infoList objList)
  | .object i =>
    let i := i.toNat
    match (objSubs i).findSome? (fun k => objFind i k) with
    | some o => answer s (.infoList [i, tyCode o, maxN (objSubs i)])
    | none => sdoAbort s 0x06020000
  | .entry i k =>
    match objFind i.toNat k.toNat with
    | some o => answer s (.infoList [tyCode o, 8 * tyBytes o.ty, accBits o.acc])
    | none => sdoAbort s (if objExists i.toNat then 0x06090011 else 0x06020000)

/-! ### Taking effect -/

/-- The input record of an object value that takes effect (R400). Log entry 26 (PRESUMED, unsafe). -/
def objRec (s : State) (ph idx sub : Nat) (v : Int) : InRec :=
  let ty := match objFind idx sub with | some o => o.ty | none => .u64
  { typ := 5, source := 0, cycle := s.phu.cycle, phase := ph, content := leBytes 2 idx ++ [sub] ++ tyEnc ty v }

/-- The registers of an object take its value as firmware's writes of them do: the source is selected by R31, and the barrier follows its
settings (R45, R46). -/
def objWrite (s : State) (idx sub : Nat) : State :=
  if idx = 0x2100 ∧ sub = 1 then
    let v := objN s idx sub
    if v = 1 ∨ v = 2 then srcSelect s v else srcOff s v
  else
    let s := loadObj s idx sub
    if idx = 0x2101 then barDrive s else s

/-- One value takes effect, with its record. -/
def objTake (s : State) (ph : Nat) (x : Nat × Nat × Int) : State :=
  let s := objWrite (objPut s x.1 x.2.1 x.2.2) x.1 x.2.1
  { s with det := { s.det with recs := s.det.recs ++ [objRec s ph x.1 x.2.1 x.2.2] } }

/-- The recorded object writes that replay brings back at this boundary. Log entry 51 (DESIGN CHOICE, unsafe). -/
def objReplayed (s : State) : List (Nat × Nat × Int) :=
  if s.det.replay ∧ !s.det.replayDone then
    ((ringOf s s.phu.cycle).filter (fun r => r.typ == 5 && decide (3 < r.content.length))).filterMap (fun r =>
      let i := getLe r.content 0 2
      let k := getLe r.content 2 1
      match objFind i k with
      | some o => if discards s i then some (i, k, tyVal o.ty (ofLe (r.content.drop 3))) else none
      | none => none)
  else []

/-- RW values take effect at a boundary, in order of acceptance; one accepted in its clk waits for the following boundary (R423). -/
def objBoundary (s : State) : State :=
  let l := objReplayed s ++ (s.od.pendW.filter (fun x => x.2.2.2 != s.now)).map (fun x => (x.1, x.2.1, x.2.2.1))
  l.foldl (fun s x => objTake s 0 x) { s with od := { s.od with pendW := s.od.pendW.filter (fun x => x.2.2.2 == s.now) } }

/-- The RWP values that differ from those in force. -/
def rwpPending (s : State) : List (Nat × Nat × Int) :=
  let l := (s.od.obj ++ s.od.force).map (·.1)
  (sortBy (fun a b => decide (a ≤ b)) l).eraseDups.filterMap (fun k =>
    match objFind (k / 256) (k % 256) with
    | some o => if o.acc = .rwp ∧ objGet s (k / 256) (k % 256) ≠ objF s (k / 256) (k % 256) then
        some (k / 256, k % 256, objGet s (k / 256) (k % 256)) else none
    | none => none)

/-- The state leaves PREOP: areas are laid out again, RWP values are loaded into their registers, and enabled blocks are ungated
(R417, R330, R467). -/
def leavePreop (s : State) : State :=
  let s := layOut s
  let s := (rwpPending s).foldl (fun s x => objTake s (phase s) x) s
  ungateEnabled s

/-! ### Meanings -/

/-- SDO_UPLOAD (R420, R422). -/
def execSdoUpload (idx : BitVec 16) (sub : BitVec 8) (complete : Bool) (s : State) : Host.Outcome State Fault Refusal :=
  .next (runIo s (fun s => withCoe s (fun s => sdoUpload s idx.toNat sub.toNat complete)))
/-- SDO_DOWNLOAD (R420, R422). -/
def execSdoDownload (idx : BitVec 16) (sub : BitVec 8) (complete : Bool) (b : Bytes) (ok : Bool) (s : State) :
    Host.Outcome State Fault Refusal :=
  .next (runIo s (fun s => withCoe s (fun s => sdoDownload s idx.toNat sub.toNat complete b ok)))
/-- SDO_INFO (R415). -/
def execSdoInfo (r : InfoReq) (s : State) : Host.Outcome State Fault Refusal := .next (runIo s (fun s => withCoe s (fun s => sdoInfo s r)))
/-- DRIVER_OBJ_READ (R311, R420). -/
def execDriverObjRead (idx : BitVec 16) (sub : BitVec 8) (len : BitVec 32) (s : State) : Host.Outcome State Fault Refusal :=
  .next (runDrv s (fun s => drvRead s idx.toNat sub.toNat len.toNat))
/-- DRIVER_OBJ_WRITE (R311, R420). -/
def execDriverObjWrite (idx : BitVec 16) (sub : BitVec 8) (b : Bytes) (ok : Bool) (s : State) : Host.Outcome State Fault Refusal :=
  .next (runDrv s (fun s => drvEnd (writeOne s .driver idx.toNat sub.toNat b ok)))
/-- STORE_PARAMETERS (R425). -/
def execStoreParameters (s : State) : Host.Outcome State Fault Refusal := .next (runIo s (fun s => answer (storeParams s) .sdoOk))
/-- RESTORE_DEFAULTS (R425). -/
def execRestoreDefaults (s : State) : Host.Outcome State Fault Refusal := .next (runIo s (fun s => answer (restoreDefaults s) .sdoOk))
/-- DEVICE_RESET_COMMAND (R473). -/
def execDeviceResetCommand (s : State) : Host.Outcome State Fault Refusal := .next (runIo s (fun s => sdoEnd (resetCommand s)))
/-- PSTATE_REQUEST: 0 Run, 1 Watch (R469). -/
def execPstateRequest (v : Fin 2) (s : State) : Host.Outcome State Fault Refusal :=
  .next (runIo s (fun s => sdoEnd (writeOne s .mailbox 0x2F00 3 [v.val] true)))

end Sys2Proof.Machine
end

