-- ==== Sys2Proof/Machine/Ecat.lean ====
section
/-!
DEFINITION. The EtherCAT slave (R415 to R434): AL states, SyncManagers and Distributed Clocks, the RxPDO latch, the FSoE connection, files over
FoE, and the ports.
-/
namespace Sys2Proof.Machine

/-- The unit of the slave controller in events. -/
def ecatId : Nat := 0x6800

/-! ### Files over FoE: the end of a transfer (R431) -/

/-- The number of a file, 0 for an unknown name. -/
def foeNo : FoeName → Nat
  | .zpfw => 1 | .zpplan => 2 | .zpwgt => 3 | .zpprim => 4 | .zpmodel => 5 | .zpbbox => 6 | .other => 0

/-- A transfer fails or is refused: error status, code and event 0x1007. -/
def foeFail (s : State) (file code : Nat) : State :=
  let s := { s with od := { s.od with foe := none, foeStatus := 3, foeErr := code } }
  answer (raise s 0x1007 ecatId file code) (.foeError code)

/-- An open transfer ends unfinished; the code of such an end is open. Log entry 39 (DESIGN CHOICE, safe). -/
def foeAbandon (s : State) : State :=
  match s.od.foe with
  | none => s
  | some x =>
    let (c, s) := takeFree s
    let s := { s with od := { s.od with foe := none, foeStatus := 3, foeErr := c % 65536 } }
    raise s 0x1007 ecatId x.file (c % 65536)

/-- A transfer is complete. -/
def foeDone (s : State) (file n : Nat) : State :=
  let s := { s with od := { s.od with foe := none, foeStatus := 2, foeFile := file, foeBytes := n } }
  raise s 0x1006 ecatId file n

/-! ### AL states (R417, R418) -/

/-- Whether a SyncManager stands as R424 lays it out. -/
def smIs (c : SmCfg) (start len : Nat) (mailbox : Bool) : Bool :=
  c.start == start && c.len == len && c.mailbox == mailbox && c.on

/-- The status code of a refused request for state `t`, 0 grants it (R417). A request for the present state changes nothing.
Log entry 25 (DEDUCED, unsafe). -/
def alJudge (s : State) (t : Nat) : Nat :=
  let d := s.od
  if t = 1 ∨ t = alCodeOf d.al then 0
  else
    match d.al, t with
    | .init, 2 => if smIs d.sm0 0x1000 1024 true && smIs d.sm1 0x1400 1024 true then 0 else 0x16
    | .init, 3 => if s.cpm.boot = .recovery then 0 else 0x11
    | .preop, 4 =>
      if !(smIs d.sm2 0x1800 199 false && smIs d.sm3 0x1C00 (1031 + 8 * objW s 0x1A01 0) false) then 0x17
      else if objW s 0x1C13 0 ≠ 3 ∧ objW s 0x1A01 0 ≠ 0 then 0x1E
      else if objW s 0x2100 1 = 1 ∧ !d.sync0 then 0x30
      else if objW s 0x2100 1 = 1 ∧ d.sync0Ns ≠ objW s 0x2100 2 then 0x35
      else 0
    | .safeop, 8 => if !d.rxSeen then 0x19 else if s.phu.st ≠ .locked then 0x1A else 0
    | _, _ => 0x11

/-- The AL state of a code. -/
def alOf : Nat → AlSt
  | 2 => .preop | 3 => .boot | 4 => .safeop | 8 => .op | _ => .init

/-- The AL state changes with event 0x1001: FSoE leaves with OP (R430), RWP values take effect on leaving PREOP, an open transfer ends with
the mailbox (R418). Log entry 25 (DEDUCED, unsafe). -/
def alSet (s : State) (n : AlSt) (code : Nat) (err : Bool) : State :=
  let old := s.od.al
  let s := { s with od := { s.od with al := n, alCode := code, alErr := err, rxSeen := s.od.rxSeen && (old == n || n != .safeop) } }
  if old = n then s
  else
    let s := raise s 0x1001 ecatId (alCodeOf n) code
    let s := if old = .op then fsoeReset s 0 else s
    let s := if n = .init ∨ n = .boot then foeAbandon s else s
    if old = .preop then leavePreop s else s

/-- AL_STATE_REQUEST: granted, or refused with the error flag and a status code. Log entry 25 (DEDUCED, unsafe). -/
def alRequest (s : State) (t : Nat) : State :=
  match alJudge s t with
  | 0 => alSet s (alOf t) 0 false
  | c => { s with od := { s.od with alCode := c, alErr := true } }

/-- SM2_WATCHDOG: 100 ms without a buffer in OP. -/
def sm2Watchdog (s : State) : State := if s.od.al = .op then alSet s .safeop 0x1B true else s

/-! ### Slave-controller registers (R424, R415) -/

/-- One SyncManager takes a configuration. -/
def smSet (s : State) (n : Nat) (c : SmCfg) : State :=
  let d := s.od
  { s with od := match n with
    | 0 => { d with sm0 := c }
    | 1 => { d with sm1 := c }
    | 2 => { d with sm2 := c }
    | _ => { d with sm3 := c } }

/-- ESC_REGISTER_ACCESS. Log entry 56 (DESIGN CHOICE, unsafe). -/
def escAccess (s : State) : EscAcc → State
  | .sm n start len mailbox on => smSet s n.val { start := start.toNat, len := len.toNat, mailbox := mailbox, on := on }
  | .sync0 on ns => { s with od := { s.od with sync0 := on, sync0Ns := ns.toNat } }
  | .dcTime valid => { s with od := { s.od with dcSync := valid } }
  | .rxError p => { s with od := if p.val = 0 then { s.od with err0 := satInc 32 s.od.err0 } else { s.od with err1 := satInc 32 s.od.err1 } }
  | .ramError a => raise s 0x1009 ecatId ecatId a.toNat

/-! ### Ports (R415, R419) -/

/-- ECAT_LINK_CHANGE: a lost link closes the loop, with event 0x1004; no link rises while the PHYs are held in reset.
Log entry 56 (DESIGN CHOICE, unsafe). -/
def ecatLink (s : State) (p : Nat) (up : Bool) : State :=
  let was := if p = 0 then s.od.link0 else s.od.link1
  if s.od.phyReset ∨ was = up then s
  else
    let s := { s with od := if p = 0 then { s.od with link0 := up } else { s.od with link1 := up } }
    if up then s
    else
      let s := { s with od := if p = 0 then { s.od with lost0 := satInc 8 s.od.lost0 } else { s.od with lost1 := satInc 8 s.od.lost1 } }
      raise s 0x1004 ecatId p 0

/-! ### Process data in (R426, R427) -/

/-- RXPDO_BUFFER_DONE: 192 bytes of robot state and the 7 of the FSoE master frame. In replay the recorded state takes its place.
Log entry 56 (DESIGN CHOICE, unsafe). -/
def rxDone (s : State) (b : Bytes) : State :=
  if s.od.al ≠ .safeop ∧ s.od.al ≠ .op then s
  else
    rxPush { s with od := { s.od with rxSeen := true } } s.now (if s.det.replay then none else some (fit 192 b)) (some (fit 7 (b.drop 192)))

/-- The latch of the boundary, with its input record; a stale one has length 0. A buffer completed in the clk of the boundary belongs to the next
one. Log entry 56 (DESIGN CHOICE, unsafe). -/
def rxLatch (s : State) : State :=
  let d := s.od
  let live := d.al == .op || (s.det.replay && !s.det.replayDone)
  let q := d.rxQ.filter (fun x => x.tick != s.now)
  let new := (q.filterMap (·.state)).getLast?
  let buf := new.getD []
  let good := live && new.isSome && bit (getLe buf 4 2) 0
  let rec3 : InRec := { typ := 3, source := 0, cycle := s.phu.cycle, phase := 0, content := if good then buf else [] }
  let s := { s with det := { s.det with recs := s.det.recs ++ [rec3] } }
  let frame := if d.al = .safeop ∨ d.al = .op then ((q.filterMap (·.frame)).getLast?).getD d.fsoe.mframe else d.fsoe.mframe
  let d := { d with rxQ := d.rxQ.filter (fun x => x.tick == s.now), latches := satInc 32 d.latches, fsoe := { d.fsoe with mframe := frame } }
  if good then
    let s := { s with od := { d with rx := buf, rxValid := true, odomValid := bit (getLe buf 4 2) 1, stale := false, staleRun := 0 } }
    memPut s (ssBase 0 + areaOff s 4) (slice s.od.rx 160 32)
  else
    let n := d.staleRun + 1
    let s := { s with od := { d with rxValid := false, odomValid := false, stale := true, staleRun := n } }
    if n = field (regF s Reg.ecatCtrl) 8 8 then raise s 0x1002 ecatId n 0 else s

/-! ### FSoE (R430) -/

/-- FSOE_FRAME_RX, in the clk of the boundary: the frame as the FSoE rules judge it. A connection is set up step by step, its watchdog and
application parameters are checked, and the data state needs AL state OP. Log entry 27 (PRESUMED, unsafe). -/
def fsoeFrame (s : State) (r : FsoeIn) : State :=
  let f := s.od.fsoe
  let put := fun (f : Fsoe) => { s with od := { s.od with fsoe := f } }
  if !s.phu.atBound ∨ objN s 0x2002 1 = 0 ∨ (s.od.al ≠ .safeop ∧ s.od.al ≠ .op) then s
  else
    match r with
    | .session => if f.st = .reset then put { f with st := .session } else s
    | .connection c => if f.st = .session then put { f with st := .connection, connId := c.toNat } else s
    | .parameter wd par =>
      if f.st ≠ .connection then s
      else
        let s := put { f with st := .parameter }
        if wd.toNat < 2 ∨ 1000 < wd.toNat then fsoeReset s 9
        else if par.toNat ≠ sparCrc s.safety.par % 65536 then fsoeReset s 11
        else { s with od := { s.od with fsoe := { s.od.fsoe with wdMs := wd.toNat } } }
    | .data =>
      if s.od.al = .op ∧ (f.st = .parameter ∨ f.st = .data) then
        fsoeCheck { put { f with st := .data } with safety := { s.safety with runEnable := bit (getLe f.mframe 1 1) 0 } }
      else s
    | .error e => fsoeReset s e.toNat

/-! ### Files (R431) -/

/-- Whether the owner of a file's target reports VERIFYING, STAGED or pending. -/
def foeBusy (s : State) (file : Nat) : Bool :=
  match file with
  | 1 => s.svc.fwSt == .verifying || s.svc.fwSt == .staging || s.svc.fwSt == .staged
  | 2 => s.plan.status.busy
  | 3 => s.cob.wCheck.isSome || s.cob.wPend.isSome
  | 4 => s.cand.primPend.isSome
  | 5 => s.model.status.busy
  | _ => false

/-- Target and room of a file: what its memory and its length object leave. -/
def foeTarget (s : State) (file : Nat) : Nat × Nat :=
  let ddr := fun (a hi : Nat) => (a, min hi (ddrBytes s - a))
  match file with
  | 1 => if s.cpm.boot = .recovery then (ssBase 0, 8388608) else ddr (objW s 0x5000 1) 8388608
  | 2 => ddr (objW s 0x2B00 1) 16785072
  | 3 => ddr (objW s 0x2901 2) 4294967232
  | 4 => ddr (objW s 0x2405 1) (ddrBytes s)
  | _ => (ssBase 0 + objW s 0x2300 6, secureOff - objW s 0x2300 6)

/-- The code for which a request is refused at once, the lowest that applies (R431, R505); 0 takes it. With FoE disabled every request is
refused with 0x8002 (R435). Log entry 55 (DEDUCED, unsafe). -/
def foeRefuse (s : State) (n : FoeName) (write : Bool) (password : Nat) : Nat :=
  let k := foeNo n
  if !bit (regF s Reg.ecatCtrl) 0 then 0x8002
  else if k = 0 ∨ (write ∧ k = 6) ∨ (!write ∧ k ≠ 6) then 0x8001
  else if write ∧ foeBusy s k then 0x8002
  else if s.od.al = .boot ∧ k ≠ 1 then 0x8009
  else if password ≠ 0 then 0x800A
  else 0

/-- Whether the mailbox serves FoE (R418). -/
def foeUp (s : State) : Bool := s.od.al != .init

/-- A FoE request where the mailbox is up. -/
def withFoe (s : State) (f : State → State) : State := if foeUp s then f s else answer s .noMailbox

/-- FOE_WRITE_OPEN. Log entry 55 (DEDUCED, unsafe). -/
def foeOpen (s : State) (n : FoeName) (password : Nat) : State :=
  let s := foeAbandon s
  match foeRefuse s n true password with
  | 0 =>
    let t := foeTarget s (foeNo n)
    let x : FoeX := { file := foeNo n, base := t.1, room := t.2, packet := 1, got := 0 }
    answer { s with od := { s.od with foe := some x, foeStatus := 1, foeFile := x.file, foeBytes := 0 } } .foeAck
  | c => foeFail s (foeNo n) c

/-- The length object that the end of a transfer sets. Log entry 55 (DEDUCED, unsafe). -/
def foeLength (s : State) (file n : Nat) : State :=
  let w := fun (idx sub : Nat) =>
    let s := objSet s idx sub n
    { s with od := { s.od with pendW := s.od.pendW ++ [(idx, sub, (n : Int), s.now)] } }
  match file with
  | 2 => w 0x2B00 2
  | 3 => w 0x2901 3
  | _ => s

/-- FOE_DATA: a packet of less than 1,012 bytes is the last. Log entry 55 (DEDUCED, unsafe). -/
def foeData (s : State) (packet : Nat) (b : Bytes) : State :=
  match s.od.foe with
  | none => answer s (.foeError 0x8005)
  | some x =>
    if x.room < x.got + b.length then foeFail s x.file 0x8003
    else if packet ≠ x.packet then foeFail s x.file 0x8005
    else
      let s := memPut s (x.base + x.got) b
      let n := x.got + b.length
      let s := { s with od := { s.od with foe := some { x with packet := packet + 1, got := n }, foeBytes := n } }
      if b.length < 1012 then answer (foeLength (foeDone s x.file n) x.file n) .foeAck else answer s .foeAck

/-- The file ZPBBOX (R496): each ring in BSEQ order, then the seal; its signature is free. Log entry 55 (DEDUCED, unsafe). -/
def boxFile (s : State) : Bytes × State :=
  let ring := s.logs.box.flatMap boxBytes
  let (sig, s) := takeFreeBytes s 17088
  let ends := leBytes 4 (match s.logs.box.head? with | some e => e.bseq | none => 0) ++ leBytes 4 (bseqNewest s)
  (ring ++ ring ++ nonce s ++ ends ++ s.logs.chain ++ sig, s)

/-- FOE_READ. Log entry 55 (DEDUCED, unsafe). -/
def foeRead (s : State) (n : FoeName) (password : Nat) : State :=
  match foeRefuse s n false password with
  | 0 =>
    let (b, s) := boxFile s
    answer (foeDone s 6 b.length) (.foeData b)
  | c => foeFail s (foeNo n) c

/-! ### Meanings -/

/-- What comes by EtherCAT frame: nothing while the PHYs are held in reset (R419). -/
def runEcat (s : State) (f : State → State) : State := if s.od.phyReset then s else runIo s f

/-- AL_STATE_REQUEST (R417). -/
def execAlStateRequest (t : BitVec 4) (s : State) : Host.Outcome State Fault Refusal := .next (runEcat s (fun s => alRequest s t.toNat))
/-- SM2_WATCHDOG (R417). -/
def execSm2Watchdog (s : State) : Host.Outcome State Fault Refusal := .next (runIo s sm2Watchdog)
/-- ESC_REGISTER_ACCESS (R424, R415). -/
def execEscRegisterAccess (a : EscAcc) (s : State) : Host.Outcome State Fault Refusal := .next (runEcat s (fun s => escAccess s a))
/-- ECAT_LINK_CHANGE (R415, R433). -/
def execEcatLinkChange (p : Fin 2) (up : Bool) (s : State) : Host.Outcome State Fault Refusal :=
  .next (runIo s (fun s => ecatLink s p.val up))
/-- SII_WRITE (R415): refused, with event 0x1008. -/
def execSiiWrite (s : State) : Host.Outcome State Fault Refusal := .next (runEcat s (fun s => raise s 0x1008 ecatId 0 0))
/-- RXPDO_BUFFER_DONE (R427). -/
def execRxpdoBufferDone (b : Bytes) (s : State) : Host.Outcome State Fault Refusal := .next (runEcat s (fun s => rxDone s b))
/-- FSOE_FRAME_RX (R430). -/
def execFsoeFrameRx (r : FsoeIn) (s : State) : Host.Outcome State Fault Refusal := .next (runIo s (fun s => fsoeFrame s r))
/-- FSOE_WATCHDOG (R430). -/
def execFsoeWatchdog (s : State) : Host.Outcome State Fault Refusal := .next (runAon s (fun s => fsoeReset s 5))
/-- FOE_WRITE_OPEN (R431). -/
def execFoeWriteOpen (n : FoeName) (password : BitVec 32) (s : State) : Host.Outcome State Fault Refusal :=
  .next (runEcat s (fun s => withFoe s (fun s => foeOpen s n password.toNat)))
/-- FOE_DATA (R431). -/
def execFoeData (packet : BitVec 32) (b : Bytes) (s : State) : Host.Outcome State Fault Refusal :=
  .next (runEcat s (fun s => withFoe s (fun s => foeData s packet.toNat b)))
/-- FOE_READ (R431, R496). -/
def execFoeRead (n : FoeName) (password : BitVec 32) (s : State) : Host.Outcome State Fault Refusal :=
  .next (runEcat s (fun s => withFoe s (fun s => foeRead s n password.toNat)))

end Sys2Proof.Machine
end

