-- ==== Sys2Proof/Machine/Bus.lean ====
section
/-!
DEFINITION. The physical map as the application cluster sees it (R22 to R24) and writes of registers under their access codes (R7).
-/
namespace Sys2Proof.Machine

/-! ### Registers -/

/-- The unit ID of a writer (R20). Log entry 19 (DEDUCED, unsafe). -/
def writerUnit : Writer → Nat
  | .cluster c => coreId c.val
  | .firmware i => unitId 0x0B (i.val / 13) (i.val % 13)

/-- A UCTL command by its code (R28); 0 is none. -/
def unitCommand (s : State) (cmd : Nat) : State :=
  match cmd with
  | 0 => s
  | 2 => disableCmd s
  | c => clusterCmd s c

/-- HSK_STOP (R375): a stop goes before a release. Log entry 48 (DEDUCED, unsafe). -/
def huskStop (s : State) (v : Nat) : State := if bit v 0 then stopRequest s else if bit v 1 then stopRelease s else s

/-- A word of ETH_SAK_p: the last one installs the key (R192). Log entry 53 (DESIGN CHOICE, unsafe). -/
def sakWrite (s : State) (p i v : Nat) : State :=
  if i = 7 then sakInstall s p v
  else
    let x := ethPort s p
    ethPortSet s p { x with sak := (fit 7 x.sak).set i v }

/-- A write-only register takes a word. Log entry 64 (DESIGN CHOICE, unsafe). -/
def woWrite (s : State) (o v : Nat) : State :=
  if o = Reg.uctlUnitCmd then unitCommand s (v % 8)
  else if o = Reg.hskStop then huskStop s v
  else if Reg.ethSak0 ≤ o ∧ o < Reg.ethSak0 + 32 then sakWrite s 0 ((o - Reg.ethSak0) / 4) v
  else if Reg.ethSak1 ≤ o ∧ o < Reg.ethSak1 + 32 then sakWrite s 1 ((o - Reg.ethSak1) / 4) v
  else s

/-- A register that reads back takes a word, its reserved bits apart. The source select acts at once (R31); the queue table's address
changes only before the first plan image (R290). Log entry 64 (DESIGN CHOICE, unsafe). -/
def rwWrite (s : State) (o v mask : Nat) : State :=
  if o = Reg.uctlUnitSel then unitSelect s (v % 65536)
  else if o = Reg.phuCtrl then (if v % 4 = 1 ∨ v % 4 = 2 then srcSelect s (v % 4) else srcOff s (v % 4))
  else if o = Reg.cpmGate then gateWrite s (gateIn s.svc.life (v % 2 ^ 14))
  else if (o = Reg.qmgrQtabLo ∨ o = Reg.qmgrQtabHi) ∧ s.plan.everInstalled then s
  else
    let s := regSet s o (v &&& mask)
    if o = Reg.phuBarCtrl then barDrive s else s

/-- A register write under its access code (R7); a register without a row, and a per-unit register of a gated unit, takes none.
Log entry 64 (DESIGN CHOICE, unsafe). -/
def regWrite (s : State) (who : Writer) (o v : Nat) : State :=
  if (regUnit o).any (clockGated s) then s
  else
    match regFind o with
    | none => s
    | some r =>
      match r.acc with
      | .ro => s
      | .wo => woWrite s o v
      | .w1c => w1cClear s o (v &&& r.mask)
      | .rw => rwWrite s o v r.mask
      | .rwl => if lockedOut s who then s else rwWrite s o v r.mask

/-- The peripheral block of a register, when it is gated (R467). -/
def gatedBlock (s : State) (o : Nat) : Option Nat :=
  match gateBitOf o with
  | some b => if gateOn s b then none else some b
  | none => none

/-- An access to a gated block: a bus error and event 0x1207. Log entry 17 (DESIGN CHOICE, unsafe). -/
def gatedAccess (s : State) (who : Writer) (b : Nat) : State :=
  let u := writerUnit who
  answer (raise s 0x1207 u b u) .busError

/-- REGISTER_WRITE: one word to the register at offset `o`. Log entry 64 (DESIGN CHOICE, unsafe). -/
def registerWrite (s : State) (who : Writer) (o v : Nat) : State :=
  match gatedBlock s o with
  | some b => gatedAccess s who b
  | none => if (regFind o).isSome then answer (regWrite s who o v) .busOk else answer s .busError

/-- A register read by a core of the cluster; the time correspondence freezes and thaws with its reads (R43). -/
def registerRead (s : State) (c : Fin 8) (o : Nat) : State :=
  match gatedBlock s o with
  | some b => gatedAccess s (.cluster c) b
  | none =>
    if o = Reg.phuTcCycleLo then tcFreeze s
    else if o = Reg.phuTcFlags then tcThaw s
    else if (regFind o).isSome then answer s (.busData (regRead s o))
    else answer s .busError

/-! ### The map -/

/-- Base of the control registers. -/
def ctrlBase : Nat := 0x2200000000

/-- What an address falls into. -/
inductive MapArea where
  | ddr
  | store (k : Nat)
  | secure (k : Nat)
  | local'
  | sync
  | reg
  | emram
  | none
  deriving DecidableEq, Repr

/-- The area of an address (R22). Log entry 17 (DESIGN CHOICE, unsafe). -/
def mapArea (s : State) (a : Nat) : MapArea :=
  if a < 0x2000000000 then (if a < ddrBytes s then .ddr else .none)
  else if a < ssBase 2 then
    let k := (a - ssBase 0) / 0x8000000
    if isSecure a then .secure k else .store k
  else if 0x2100000000 ≤ a ∧ a < 0x2200000000 then .local'
  else if ctrlBase + 0x300000 ≤ a ∧ a < ctrlBase + 0x380000 then .sync
  else if ctrlBase ≤ a ∧ a < ctrlBase + 0x1400000 then .reg
  else if 0x2300000000 ≤ a ∧ a < 0x2300010000 then .reg
  else if 0x2400000000 ≤ a ∧ a < 0x2402000000 then .emram
  else .none

/-- The area of an access of `n` bytes; none where it leaves one. Log entry 17 (DESIGN CHOICE, unsafe). -/
def accessArea (s : State) (a n : Nat) : MapArea :=
  let x := mapArea s a
  if mapArea s (a + n - 1) = x then x else .none

/-- Local bytes of a class (R23). Log entry 40 (DESIGN CHOICE, unsafe). -/
def localSize : Nat → Nat
  | 1 => 0x10000 | 2 => 0x80000 | 3 => 0x40000 | 4 => 0x100000 | 5 => 0x40000 | 6 => 0x100000 | _ => 0

/-- The unit of a local window. -/
def windowUnit (a : Nat) : Nat := unitId (field a 28 4) (field a 27 1) (field a 20 7)

/-- A byte of a local memory at its window's address: a Leek's two banks (R104), and what units have written to theirs.
Log entry 40 (DESIGN CHOICE, unsafe). -/
def localByte (s : State) (a : Nat) : Nat :=
  let u := windowUnit a
  let o := a % 0x100000
  if idClass u = 1 then
    let x := banksOf s u
    (if o < 0x8000 then x.1 else x.2).getD (o % 0x8000) 0
  else memGet s a

/-- A read of a local window: 0 while the unit is gated (R23). Log entry 40 (DESIGN CHOICE, unsafe). -/
def localRead (s : State) (a n : Nat) : State :=
  let u := windowUnit a
  if idClass u = 0 ∨ 6 < idClass u ∨ !unitExists u ∨ localSize (idClass u) < a % 0x100000 + n then answer s .busError
  else if clockGated s u then answer s (.busData 0)
  else answer s (.busData (ofLe ((List.range n).map (fun i => localByte s (a + i)))))

/-- A byte of eMRAM that the model holds: the black-box rings (R480, R495). Log entry 50 (DESIGN CHOICE, unsafe). -/
def emramByte (s : State) (a : Nat) : Option Nat :=
  let o := a % 0x1000000
  if 0x800000 ≤ o ∧ o < 0xC00000 then
    (s.logs.box.find? (fun e => e.bseq % 32768 == (o - 0x800000) / 128)).map (fun e => (boxBytes e).getD (o % 128) 0)
  else none

/-- A read of the eMRAM window: bytes that the model does not hold are free. Log entry 50 (DESIGN CHOICE, unsafe). -/
def emramRead (s : State) (a n : Nat) : State :=
  let (f, s) := takeFreeBytes s n
  answer s (.busData (ofLe ((List.range n).map (fun i => (emramByte s (a + i)).getD (f.getD i 0)))))

/-- An access of the secure region by a core: a read of 0 or an ignored write, with event 0x0C0B (R328).
Log entry 17 (DESIGN CHOICE, unsafe). -/
def secureAccess (s : State) (c : Fin 8) (k : Nat) (r : Resp) : State := answer (raise s 0x0C0B 0xFFFF (coreId c.val) k) r

/-- Whether the DDR5 channels of an access serve it. Log entry 17 (DESIGN CHOICE, unsafe). -/
def ddrServes (s : State) (a n : Nat) : Bool := (chanGet s (ddrChan a)).trained && (chanGet s (ddrChan (a + n - 1))).trained

/-- A read of memory: `err` is an error that it finds, uncorrectable or not; a word that stands uncorrectable errs anyway (R323, R324,
R334). -/
def memRead (s : State) (a n : Nat) (err : Option Bool) : State :=
  if err = some true ∨ ueAt s a ∨ ueAt s (a + n - 1) then
    answer (readUncorrectable s (if err ≠ some true ∧ !ueAt s a then a + n - 1 else a)) .busError
  else
    let s := if err = some false then readCorrected s a else s
    let (b, s) := shownBytes s a n
    answer s (.busData (ofLe b))

/-- A load of the shared store: the word that an earlier write of the same clk has changed reads as it stood before (R318). -/
def storeLoad (s : State) (old : Option Bytes) (a n : Nat) (err : Option Bool) : State :=
  let t := memRead s a n err
  match old, t.resp with
  | some w, .busData v =>
    let b := (List.range n).map (fun i => if (a + i) / 64 = a / 64 then w.getD ((a + i) % 64) 0 else v / 2 ^ (8 * i) % 256)
    answer t (.busData (ofLe b))
  | _, _ => t

/-- A load of `n` bytes. Log entry 17 (DESIGN CHOICE, unsafe). -/
def busLoad (s : State) (c : Fin 8) (a n : Nat) (err : Option Bool) (rivals : List BankReq) : State :=
  match accessArea s a n with
  | .ddr => if ddrServes s a n then memRead s a n err else answer s .busError
  | .store _ => let (old, s) := bankTurn s c.val a .read
                bankRun s c.val a .read (fun s => storeLoad s old a n err) rivals
  | .secure k => secureAccess s c k (.busData 0)
  | .local' => localRead s a n
  | .sync => if n = 8 ∧ a % 8 = 0 then answer s (.busData (ctrShown s ((a - ctrlBase - 0x300000) / 8))) else answer s .busError
  | .reg => if n = 4 ∧ a % 4 = 0 then registerRead s c (a - ctrlBase) else answer s .busError
  | .emram => emramRead s a n
  | .none => answer s .busError

/-- A store. Log entry 17 (DESIGN CHOICE, unsafe). Log entry 40 (DESIGN CHOICE, unsafe). -/
def busStore (s : State) (c : Fin 8) (a : Nat) (b : Bytes) (rivals : List BankReq) : State :=
  let n := b.length
  match accessArea s a n with
  | .ddr => if ddrServes s a n then answer (memPut s a b) .busOk else answer s .busError
  | .store _ => let act := storeAct a n
                let s := (bankTurn s c.val a act).2
                bankRun s c.val a act (fun s => answer (memPut s a b) .busOk) rivals
  | .secure k => secureAccess s c k .busOk
  | .sync =>
    if n = 8 ∧ a % 8 = 0 then answer (syncCtrWrite s ((a - ctrlBase - 0x300000) / 8) (ofLe b)) .busOk else answer s .busError
  | .reg => if n = 4 ∧ a % 4 = 0 then registerWrite s (.cluster c) (a - ctrlBase) (ofLe b) else answer s .busError
  | .local' | .emram | .none => answer s .busError

/-- One access of a core of the cluster. -/
def busAccess (s : State) (c : Fin 8) (op : BusOp) (rivals : List BankReq) : State :=
  match op with
  | .load a n err => busLoad s c a.toNat n.toNat err rivals
  | .store a b => busStore s c a.toNat b rivals

/-- Whether an access reaches DDR5 while PLL_MEM is failed: it waits (R461, R464). Log entry 17 (DESIGN CHOICE, unsafe). -/
def busWaits (s : State) (op : BusOp) : Bool :=
  srcFailed s 4 && (match op with | .load a _ _ => decide (a.toNat < 0x2000000000) | .store a _ => decide (a.toNat < 0x2000000000))

/-! ### Meanings -/

/-- BUS_ACCESS (R22 to R24, R317 to R320, R323, R324, R328, R374). -/
def execBusAccess (core : Fin 8) (op : BusOp) (rivals : List BankReq) (s : State) : Host.Outcome State Fault Refusal :=
  .next (runApp s (fun s => if busWaits s op then s else busAccess s core op rivals))
/-- REGISTER_WRITE (R6, R7, R368, R466, R467): the byte offset from the control base. -/
def execRegisterWrite (who : Writer) (o : BitVec 40) (v : BitVec 32) (s : State) : Host.Outcome State Fault Refusal :=
  .next (match who with
    | .cluster c => runApp s (fun s => registerWrite s (.cluster c) o.toNat v.toNat)
    | .firmware i => if ioUp s then runArith s (fun s => registerWrite s (.firmware i) o.toNat v.toNat) else s)

end Sys2Proof.Machine
end

