-- ==== Sys2Proof/Machine/Boundary.lean ====
section
/-!
DEFINITION. The cycle boundary (R40), the gates (R38, R39) with what the plan image ties to them, and the switches of a boundary (R104,
R301).
-/
namespace Sys2Proof.Machine

/-! ### The latched robot state (R97, R98, R103) -/

/-- The joint positions of the RxPDO in force, reduced (R97, R426). -/
def rxJoints (s : State) (m : Model) : List Int :=
  (m.joints.zip (List.range m.joints.length)).map (fun x => wrapJoint x.1 (getLeS s.od.rx (8 + 4 * x.2) 4))

/-- Where a joint stands: 0 inside its limits or CONTINUOUS, 1 below, 2 above. -/
def limitSide (j : Joint) (q : Int) : Nat := if j.continuous then 0 else if q < j.qMin then 1 else if j.qMax < q then 2 else 0

/-- Event 0x0304 for each joint that is newly outside (R103). -/
def stateLimits (s : State) (m : Model) : State :=
  let l := (List.range m.joints.length).filterMap (fun i =>
    match m.joints[i]? with
    | some j => let k := limitSide j (vi s.model.latched i); if k = 0 then none else some (i, k)
    | none => none)
  let s := l.foldl (fun s (x : Nat × Nat) =>
    if s.model.fresh ∨ !s.model.outside.contains x.1 then raise s 0x0304 0xFFFF (x.1 * 256 + x.2) 0 else s) s
  { s with model := { s.model with outside := l.map (·.1), fresh := false } }

/-- Base x, y and yaw of the RxPDO's odometry (R426). -/
def odomBase (s : State) : List Int := [0, 1, 2].map (fun i => getLeS s.od.rx (136 + 4 * i) 4)

/-- The link poses of the latched state. With a base pose from the odometry, its values stand for the base joints; a model without them
stands on it as on its world. Log entry 43 (DESIGN CHOICE, unsafe). -/
def posesFrom (s : State) (m : Model) (odom : Bool) : List Pose :=
  if !odom then compose m s.model.latched
  else if m.planar then compose m (odomBase s ++ s.model.latched.drop 3)
  else (compose m s.model.latched).map (Pose.mul (yawPose (odomBase s)))

/-- The link poses of this boundary go to the Marrows of each stack with an ACTIVE Leek (R55, R98); with POSE_SRC = 1 the base comes from
the odometry of the RxPDO, where that is valid (R427). -/
def linkPoses (s : State) (m : Model) : State :=
  let odom := bit (regF s Reg.mrwCtrl) 1
  let w := s.world
  let keep := w.poses.filter (fun p => decide (s.phu.cycle < p.cycle + 64) && decide (p.cycle < s.phu.cycle))
  let on := fun k => decide (0 < activeCount s 1 k)
  if !s.od.rxValid ∨ (odom ∧ !s.od.odomValid) ∨ (!on 0 ∧ !on 1) then { s with world := { w with poses := keep } }
  else { s with world := { w with poses := keep ++ [⟨s.phu.cycle, posesFrom s m odom, on 0, on 1⟩] } }

/-- What a boundary does with the latch; `check` judges the limits. -/
def jointTake (s : State) (check : Bool) : State :=
  match s.model.cur with
  | none => { s with model := { s.model with latched := [] } }
  | some m =>
    let s := { s with model := { s.model with latched := rxJoints s m } }
    linkPoses (if check then stateLimits s m else s) m

/-- The base position latched at this boundary, for re-centring (R67, R98). Log entry 43 (DESIGN CHOICE, unsafe). -/
def latchedBase (s : State) : Option (List Int) :=
  match s.model.cur with
  | some m => if s.od.rxValid then some (basePos m s.model.latched) else none
  | none => none

/-! ### What a plan image ties to its gates -/

/-- A version number that no version has. Log entry 43 (DESIGN CHOICE, unsafe). -/
def noVer : Nat := 2 ^ 64

/-- A problem is suspended: its working set and its position go to SAVE_ADDR, bytes that only the Parsnips read, and the unit is released
with the problem at the head of its list (R229). Log entry 45 (DESIGN CHOICE, unsafe). -/
def suspend (s : State) (u : Nat) (t : Task) : State :=
  let p := t.desc.param + 16
  let n := 1024 * memLe s (memLe s (p + 8) 8 + 52) 2
  if !windowOk s (memLe s (p + 64) 8) n ∧ n ≠ 0 then windowFault s u
  else
    let (b, s) := takeFreeBytes s n
    let s := memPut s (memLe s (p + 64) 8) b
    slotNext (readyHead s { t with began := false, resumed := true, lateChecked := true, ver := noVer }) u

/-- What a slice's end gate does to a unit: a sliced task that has not started returns to its list; a problem is suspended; a tile task in
progress runs to its end (R229, R252). -/
def unitSliceEnd (s : State) (u : Nat) : State :=
  let s := match (unitOf s u).pref with
    | some t => if sliced s t then readyHead (unitUpd s u (fun r => { r with pref := none })) t else s
    | none => s
  match (unitOf s u).exec with
  | some t =>
    if !sliced s t then s
    else if !t.began then slotNext (readyHead s t) u
    else if t.desc.cls = 4 then suspend s u t
    else s
  | none => s

/-- A slice's end gate (R229, R239, R252, R309), with the steps that the BATCH problem has accepted so far: the units release what is not in
progress, and the world version of the slice is released. Log entry 43 (DESIGN CHOICE, unsafe); Log entry 45 (DESIGN CHOICE, unsafe). -/
def sliceEnd (s : State) (iters : Nat) : State :=
  let s := { s with sched := { s.sched with slice := false }, psn := { s.psn with bgIters := if (batchOpen s).isSome then iters else s.psn.bgIters } }
  let s := (s.units.map (·.1)).foldl unitSliceEnd s
  let free := fun (e : Eval) => if e.task.desc.suspend then { e with task := { e.task with ver := noVer } } else e
  { s with pod := { s.pod with evals := s.pod.evals.map free } }

/-- A slice's start gate: it reads the world version current now, and its budget starts anew (R264, R309). -/
def sliceStart (s : State) : State :=
  let take := fun (e : Eval) => if e.task.desc.suspend then { e with
    task := { e.task with ver := s.world.cur.version, startCycle := s.phu.cycle, startPhase := phase s } } else e
  wakePods { s with sched := { s.sched with slice := true }, pod := { s.pod with evals := s.pod.evals.map take } }

/-- The effect of a gate's role. Log entry 12 (DESIGN CHOICE, safe). -/
def roleOf (s : State) (r : GateRole) : State :=
  match r with
  | .selEnd => selEnd s .main
  | .winEnd => selEnd s .win
  | .bgSelEnd p => selEnd s (.bg p.toNat)
  | .recheckEnd => recheckEnd s
  | .sliceEnd iters => sliceEnd s iters.val
  | .sliceStart => sliceStart s
  | .costHead k => costDeadline s k.val
  | .retile k alt n => retile s k.val alt.val n.toNat

/-- What the image's own tables tie to the gates at phase `g`, numbers `i` on: EVAL_END, solver deadlines, model slots' deadline gates
(R162, R226, R252). Log entry 12 (DESIGN CHOICE, safe). -/
def gateEffects (s : State) (g i n : Nat) : State :=
  let s := match s.plan.run with
    | some p => if p.evalEnd = g then evalEnd s else s
    | none => s
  (List.range n).foldl (fun s k => (gateSlots s (i + k)).foldl slotDeadline s) (psnDeadline s g)

/-! ### Gates (R38, R39) -/

/-- The phase of the next gate not yet issued in this cycle, with how many share it. -/
def nextGate (s : State) : Option (Nat × Nat) :=
  match (gates s).drop s.phu.gatesDone with
  | [] => none
  | x :: t => some (x.1, 1 + sameGate x.1 t)

/-- The next gate value: what it ends, and its decrements into the issue queue. -/
def takeGate (s : State) (g n : Nat) (roles : List GateRole) : State :=
  let s := roles.foldl roleOf (gateEffects s g s.phu.gatesDone n)
  (openGate s).2

/-- The candidate inputs of the cycle, where a switch of the boundary has held their latch back. Log entry 11 (DEDUCED, unsafe). -/
def latchIfDue (s : State) : State := if s.cand.latchDue then detRefresh (candLatch s) else s

/-- GATE_ISSUE: what waits of the last value, or the next value with up to 8 of its decrements. Log entry 12 (DESIGN CHOICE, safe). -/
def gateIssue (s : State) (roles : List GateRole) : State :=
  if !phaseRuns s then s
  else if !s.phu.gateQ.isEmpty then issueEight s
  else
    let s := latchIfDue s
    match nextGate s with
    | none => s
    | some (g, n) =>
      let s := if s.phu.aligning.isSome then s else reachPhase s g
      issueEight (takeGate s g n roles)

/-- The gates at 0 pu (R40 step 5). -/
def zeroGates (s : State) : State :=
  match nextGate s with
  | some (0, n) => issueEight (takeGate s 0 n [])
  | _ => s

/-- Every gate of the running cycle that is not yet issued, each value at its phase (R38). Log entry 12 (DESIGN CHOICE, safe). -/
def restGates : Nat → State → State
  | 0, s => s
  | fuel + 1, s =>
    match nextGate s with
    | none => s
    | some (g, n) => restGates fuel (issueAll 64 (takeGate (reachPhase s g) g n []))

/-- Gate values of the rest of the cycle come into the issue queue until a clk's 8 wait. -/
def fillQueue : Nat → State → State
  | 0, s => s
  | fuel + 1, s =>
    if 8 ≤ s.phu.gateQ.length then s
    else match nextGate s with
      | none => s
      | some (g, n) => fillQueue fuel (takeGate s g n [])

/-- A hard alignment issues what is left of the cycle, 8 in each clk, in ascending phase and table order; the boundary falls in the clk
after the last (R39, R40). Log entry 12 (DESIGN CHOICE, safe). -/
def alignGates : Nat → State → State
  | 0, s => s
  | fuel + 1, s =>
    let s := fillQueue 8 s
    if s.phu.gateQ.isEmpty then s else alignGates fuel (nextClk (issueEight s))

/-- What is left of the gates of the cycle that ends. -/
def endGates (s : State) : State := if s.phu.aligning.isSome then alignGates 512 s else restGates 4096 (issueAll 512 s)

/-! ### The boundary -/

/-- Whether a switch of this boundary is still to be made, ahead of step 5 (R301). Log entry 11 (DEDUCED, unsafe). -/
def switchHold (s : State) : Bool := planDue s || modelDue s

/-- Step 5, with the latches that follow a switch: the latched state is composed under the model now in force, whose limits are first
judged at the next boundary (R103). Log entry 11 (DEDUCED, unsafe). -/
def finishSwitches (s : State) : State :=
  if switchHold s ∨ !s.phu.atBound then s else zeroGates (detRefresh (latchIfDue (jointTake s false)))

/-- The accumulator at the boundary (R40): the wait of an alignment adds no phase error. -/
def boundaryAcc (s : State) : State :=
  match s.phu.aligning with
  | some t => { s with phu := { s.phu with acc := s.phu.inc * (s.now - t) % 2 ^ 48 } }
  | none =>
    if s.phu.boundaryDue then s
    else if s.phu.inc = 0 then { s with phu := { s.phu with acc := 0 } }
    else advance s (ceilDiv (2 ^ 48 - s.phu.acc) s.phu.inc)

/-- Step 1: cycle number and phase status. Log entry 11 (DEDUCED, unsafe). -/
def boundaryOpen (s : State) : State :=
  let p := s.phu
  let c := match p.cycleLoad with
    | some c => c
    | none => if p.everTracked then (p.cycle + 1) % 2 ^ 64 else 0
  { s with phu := { p with cycle := c, everTracked := true, bcount := p.bcount + 1, status := phuStatus p.st, gatesDone := 0, gateQ := []
                           atBound := true, boundaryDue := false, aligning := none, cycleLoad := none } }

/-- Step 2 (R43). Log entry 11 (DEDUCED, unsafe). -/
def boundaryTime (s : State) (i : BoundaryIn) : State :=
  let t : Tc := { cycle := s.phu.cycle, dc := i.dcNs.toNat, gptpS := i.gptpS.toNat, gptpNs := i.gptpNs.toNat % 2 ^ 30
                  dcValid := s.od.dcSync, gptpValid := s.pins.gptp0 || s.pins.gptp1 }
  { s with phu := { s.phu with tc := t } }

/-- The registers of the cycle that ends load. Log entry 11 (DEDUCED, unsafe). -/
def boundaryCounts (s : State) : State :=
  memBoundary (cobBoundary (psnBoundary (selBoundary (podBoundary (peerBoundary (candCounts (schedBoundary (busyBoundary s))))))))

/-- Settings, the permit and the inputs take effect. Log entry 11 (DEDUCED, unsafe). -/
def boundaryInputs (s : State) : State :=
  jointTake (rxLatch (permitBoundary (replayInputs (powerBoundary (weightConv (objBoundary (sparBoundary (svcBoundary (pinsBoundary s))))))))) true

/-- The world freezes; counters, edits, weights, strikes and the boot step follow. Log entry 11 (DEDUCED, unsafe). -/
def boundaryWorld (s : State) (bad : Option (Nat × Nat)) (kat : Option Nat) : State :=
  let s := setBoundary (worldBoundary s bad (latchedBase s))
  katRun (bootPlan (bootPermit (strikesAtBoundary (weightBoundary (planLate (editBoundary (mode2Boundary s))))))) kat

/-- The Marrows whose digests differ (R77). -/
def badPair (i : BoundaryIn) : Option (Nat × Nat) := i.digestBad.map (fun p => (p.1.val, p.2.val))

/-- Edges that waited for the alignment are judged at its boundary clk, as edges of the new cycle (R40): by the accumulator of the boundary
clk, with the tick of their capture. Log entry 67 (DESIGN CHOICE, unsafe). -/
def waitedEdge (s : State) : State :=
  s.phu.waitEdge.foldl (fun s t => judgeEdge s s.phu.acc t (windowAt s (phase s))) { s with phu := { s.phu with waitEdge := [] } }

/-- CYCLE_BOUNDARY. Log entry 11 (DEDUCED, unsafe). -/
def cycleBoundary (s : State) (i : BoundaryIn) : State :=
  if !phaseRuns s then s
  else
    let s := endGates s
    let ended := s.phu.cycle
    let s := nondetEvent (forceRegs (boundaryOpen (boundaryAcc s))) ended
    let s := boundaryTime s i
    let s := boundaryCounts { s with det := { s.det with dismap := disMap s } }
    let s := boundaryWorld (boundaryInputs s) (badPair i) (i.katBad.map (·.val))
    let hold := switchHold s
    let s := if hold then s else candLatch s
    let s := replayBoundary (detBoundary s)
    waitedEdge (if hold then s else zeroGates s)

/-! ### Meanings -/

/-- CYCLE_BOUNDARY (R40). -/
def execCycleBoundary (i : BoundaryIn) (s : State) : Host.Outcome State Fault Refusal := .next (runArith s (fun s => cycleBoundary s i))
/-- GATE_ISSUE (R38, R39). -/
def execGateIssue (roles : List GateRole) (s : State) : Host.Outcome State Fault Refusal := .next (runArith s (fun s => gateIssue s roles))
/-- PLAN_SWITCH (R301, R302). -/
def execPlanSwitch (unstaged : BitVec 8) (s : State) : Host.Outcome State Fault Refusal :=
  .next (runArith s (fun s => finishSwitches (planSwitch s unstaged.toNat)))
/-- MODEL_SWITCH (R104, R107). -/
def execModelSwitch (unstaged : BitVec 8) (s : State) : Host.Outcome State Fault Refusal :=
  .next (runArith s (fun s => finishSwitches (modelSwitch s unstaged.toNat)))

end Sys2Proof.Machine
end

