-- ==== Sys2Proof/Machine/Dispatch.lean ====
section
/-!
DEFINITION. The dispatch of every command to its meaning.
-/
namespace Sys2Proof.Machine

/-- The effect of a command on everything but the queue. -/
def exec (i : Instr) (s : State) : Host.Outcome State Fault Refusal :=
  match i with
  | .uctlEnable => Sys2Proof.Machine.execUctlEnable s
  | .uctlDisable => Sys2Proof.Machine.execUctlDisable s
  | .uctlTest => Sys2Proof.Machine.execUctlTest s
  | .uctlRetire => Sys2Proof.Machine.execUctlRetire s
  | .uctlBadCommand c => Sys2Proof.Machine.execUctlBadCommand c s
  | .uctlUnitSelect u => Sys2Proof.Machine.execUctlUnitSelect u s
  | .unitTestEnd u r => Sys2Proof.Machine.execUnitTestEnd u r s
  | .drainComplete u => Sys2Proof.Machine.execDrainComplete u s
  | .syncEdge src dt => Sys2Proof.Machine.execSyncEdge src dt s
  | .phuSrcSelect who src => Sys2Proof.Machine.execPhuSrcSelect who src s
  | .phuSrcOff who three => Sys2Proof.Machine.execPhuSrcOff who three s
  | .captureWindowClose => Sys2Proof.Machine.execCaptureWindowClose s
  | .coastEntry => Sys2Proof.Machine.execCoastEntry s
  | .cycleLost => Sys2Proof.Machine.execCycleLost s
  | .cycleBoundary b => Sys2Proof.Machine.execCycleBoundary b s
  | .gateIssue roles => Sys2Proof.Machine.execGateIssue roles s
  | .heldGateIssue => Sys2Proof.Machine.execHeldGateIssue s
  | .stepInFall dt => Sys2Proof.Machine.execStepInFall dt s
  | .barrierForward => Sys2Proof.Machine.execBarrierForward s
  | .barrierRelease => Sys2Proof.Machine.execBarrierRelease s
  | .tcSnapshotRead => Sys2Proof.Machine.execTcSnapshotRead s
  | .tcFlagsRead => Sys2Proof.Machine.execTcFlagsRead s
  | .csiFrameStart p v num bad => Sys2Proof.Machine.execCsiFrameStart p v num bad s
  | .csiLongPacket p v dt payload bad crcOk => Sys2Proof.Machine.execCsiLongPacket p v dt payload bad crcOk s
  | .csiFrameEnd p v bad => Sys2Proof.Machine.execCsiFrameEnd p v bad s
  | .pointFragment src b => Sys2Proof.Machine.execPointFragment src b s
  | .framePoseReady n => Sys2Proof.Machine.execFramePoseReady n s
  | .frameFusionDone => Sys2Proof.Machine.execFrameFusionDone s
  | .versionBuildDone => Sys2Proof.Machine.execVersionBuildDone s
  | .fusionCutoff => Sys2Proof.Machine.execFusionCutoff s
  | .streamStale n => Sys2Proof.Machine.execStreamStale n s
  | .fovDecay n => Sys2Proof.Machine.execFovDecay n s
  | .maskMissing n => Sys2Proof.Machine.execMaskMissing n s
  | .worldStale => Sys2Proof.Machine.execWorldStale s
  | .modelInstall => Sys2Proof.Machine.execModelInstall s
  | .modelCancel => Sys2Proof.Machine.execModelCancel s
  | .modelStaged => Sys2Proof.Machine.execModelStaged s
  | .modelSwitch unstaged => Sys2Proof.Machine.execModelSwitch unstaged s
  | .primInstall njOk => Sys2Proof.Machine.execPrimInstall njOk s
  | .primCancel => Sys2Proof.Machine.execPrimCancel s
  | .releaseCopy stack level => Sys2Proof.Machine.execReleaseCopy stack level s
  | .readyStall stack level => Sys2Proof.Machine.execReadyStall stack level s
  | .heldDecrement => Sys2Proof.Machine.execHeldDecrement s
  | .syncCtrWrite ctr word => Sys2Proof.Machine.execSyncCtrWrite ctr word s
  | .taskClaim u => Sys2Proof.Machine.execTaskClaim u s
  | .taskStart u => Sys2Proof.Machine.execTaskStart u s
  | .taskComplete u w => Sys2Proof.Machine.execTaskComplete u w s
  | .taskCheckFail u k => Sys2Proof.Machine.execTaskCheckFail u k s
  | .budgetOverrun u => Sys2Proof.Machine.execBudgetOverrun u s
  | .endMissed id => Sys2Proof.Machine.execEndMissed id s
  | .huskSupervision id => Sys2Proof.Machine.execHuskSupervision id s
  | .queuePush q u b => Sys2Proof.Machine.execQueuePush q u b s
  | .queuePop q u => Sys2Proof.Machine.execQueuePop q u s
  | .queuePushResume q => Sys2Proof.Machine.execQueuePushResume q s
  | .queueStall q => Sys2Proof.Machine.execQueueStall q s
  | .podBatchStart g residue => Sys2Proof.Machine.execPodBatchStart g residue s
  | .probeRetire g pea cand wp pr residue => Sys2Proof.Machine.execProbeRetire g pea cand wp pr residue s
  | .podBatchComplete g => Sys2Proof.Machine.execPodBatchComplete g s
  | .stealRequest g => Sys2Proof.Machine.execStealRequest g s
  | .stealServe g => Sys2Proof.Machine.execStealServe g s
  | .stealReply g => Sys2Proof.Machine.execStealReply g s
  | .cacheRefillDone g l => Sys2Proof.Machine.execCacheRefillDone g l s
  | .ethFrameRx p sec ns d => Sys2Proof.Machine.execEthFrameRx p sec ns d s
  | .intentAdmit => Sys2Proof.Machine.execIntentAdmit s
  | .intentCompileDone => Sys2Proof.Machine.execIntentCompileDone s
  | .publication => Sys2Proof.Machine.execPublication s
  | .departureCommand => Sys2Proof.Machine.execDepartureCommand s
  | .sakInstall p w => Sys2Proof.Machine.execSakInstall p w s
  | .weightInstall => Sys2Proof.Machine.execWeightInstall s
  | .weightCancel => Sys2Proof.Machine.execWeightCancel s
  | .weightCheckDone => Sys2Proof.Machine.execWeightCheckDone s
  | .planInstall => Sys2Proof.Machine.execPlanInstall s
  | .planCancel => Sys2Proof.Machine.execPlanCancel s
  | .planVerifyDone kernels => Sys2Proof.Machine.execPlanVerifyDone kernels s
  | .planSwitch unstaged => Sys2Proof.Machine.execPlanSwitch unstaged s
  | .paramEdit cycle edits => Sys2Proof.Machine.execParamEdit cycle edits s
  | .busAccess core op rivals => Sys2Proof.Machine.execBusAccess core op rivals s
  | .registerWrite who o v => Sys2Proof.Machine.execRegisterWrite who o v s
  | .memStallLimit u clk => Sys2Proof.Machine.execMemStallLimit u clk s
  | .bgtestRegionStart k => Sys2Proof.Machine.execBgtestRegionStart k s
  | .bgtestRegionDone k failed => Sys2Proof.Machine.execBgtestRegionDone k failed s
  | .secureWipeDone k => Sys2Proof.Machine.execSecureWipeDone k s
  | .ddrScrubTick errs => Sys2Proof.Machine.execDdrScrubTick errs s
  | .ddrRefresh n twice hot => Sys2Proof.Machine.execDdrRefresh n twice hot s
  | .ddrRfmRequest n => Sys2Proof.Machine.execDdrRfmRequest n s
  | .ddrZqCal n => Sys2Proof.Machine.execDdrZqCal n s
  | .ddrOscMeasure n drift => Sys2Proof.Machine.execDdrOscMeasure n drift s
  | .ddrChannelFail n => Sys2Proof.Machine.execDdrChannelFail n s
  | .chardPush => Sys2Proof.Machine.execChardPush s
  | .chardVerdict u clk => Sys2Proof.Machine.execChardVerdict u clk s
  | .comparison => Sys2Proof.Machine.execComparison s
  | .permitBToggle => Sys2Proof.Machine.execPermitBToggle s
  | .fsoeFrameRx r => Sys2Proof.Machine.execFsoeFrameRx r s
  | .fsoeWatchdog => Sys2Proof.Machine.execFsoeWatchdog s
  | .hskStopRequest => Sys2Proof.Machine.execHskStopRequest s
  | .hskStopRelease => Sys2Proof.Machine.execHskStopRelease s
  | .sparamUnlock v => Sys2Proof.Machine.execSparamUnlock v s
  | .sparamStage sub v => Sys2Proof.Machine.execSparamStage sub v s
  | .sparamConfirm v => Sys2Proof.Machine.execSparamConfirm v s
  | .sparamTimeout => Sys2Proof.Machine.execSparamTimeout s
  | .safeState c => Sys2Proof.Machine.execSafeState c s
  | .rotationStep => Sys2Proof.Machine.execRotationStep s
  | .goldenSlotOpen k => Sys2Proof.Machine.execGoldenSlotOpen k s
  | .goldenBatchStart u => Sys2Proof.Machine.execGoldenBatchStart u s
  | .goldenBatchDone u r => Sys2Proof.Machine.execGoldenBatchDone u r s
  | .goldenSlotClose k => Sys2Proof.Machine.execGoldenSlotClose k s
  | .checkpoint => Sys2Proof.Machine.execCheckpoint s
  | .alStateRequest t => Sys2Proof.Machine.execAlStateRequest t s
  | .sm2Watchdog => Sys2Proof.Machine.execSm2Watchdog s
  | .sdoUpload idx sub complete => Sys2Proof.Machine.execSdoUpload idx sub complete s
  | .sdoDownload idx sub complete b ok => Sys2Proof.Machine.execSdoDownload idx sub complete b ok s
  | .sdoInfo r => Sys2Proof.Machine.execSdoInfo r s
  | .driverObjRead idx sub len => Sys2Proof.Machine.execDriverObjRead idx sub len s
  | .driverObjWrite idx sub b ok => Sys2Proof.Machine.execDriverObjWrite idx sub b ok s
  | .rxpdoBufferDone b => Sys2Proof.Machine.execRxpdoBufferDone b s
  | .foeWriteOpen n password => Sys2Proof.Machine.execFoeWriteOpen n password s
  | .foeData packet b => Sys2Proof.Machine.execFoeData packet b s
  | .foeRead n password => Sys2Proof.Machine.execFoeRead n password s
  | .ecatLinkChange p up => Sys2Proof.Machine.execEcatLinkChange p up s
  | .siiWrite => Sys2Proof.Machine.execSiiWrite s
  | .storeParameters => Sys2Proof.Machine.execStoreParameters s
  | .restoreDefaults => Sys2Proof.Machine.execRestoreDefaults s
  | .deviceResetCommand => Sys2Proof.Machine.execDeviceResetCommand s
  | .aonPorstLow => Sys2Proof.Machine.execAonPorstLow s
  | .aonPorstRelease => Sys2Proof.Machine.execAonPorstRelease s
  | .porstLow => Sys2Proof.Machine.execPorstLow s
  | .porstRelease bootSel => Sys2Proof.Machine.execPorstRelease bootSel s
  | .tamper n => Sys2Proof.Machine.execTamper n s
  | .powerFail => Sys2Proof.Machine.execPowerFail s
  | .imuDrdy dt => Sys2Proof.Machine.execImuDrdy dt s
  | .imuSampleDone b => Sys2Proof.Machine.execImuSampleDone b s
  | .i3cIbi a err => Sys2Proof.Machine.execI3cIbi a err s
  | .serdesLock p no => Sys2Proof.Machine.execSerdesLock p no s
  | .trstLow => Sys2Proof.Machine.execTrstLow s
  | .jtagIdcode => Sys2Proof.Machine.execJtagIdcode s
  | .jtagBypass => Sys2Proof.Machine.execJtagBypass s
  | .jtagSamplePreload preload => Sys2Proof.Machine.execJtagSamplePreload preload s
  | .jtagExtest preload => Sys2Proof.Machine.execJtagExtest preload s
  | .monitorSample temps rails => Sys2Proof.Machine.execMonitorSample temps rails s
  | .capEstimate est avg => Sys2Proof.Machine.execCapEstimate est avg s
  | .pmicVoltageDone => Sys2Proof.Machine.execPmicVoltageDone s
  | .clkFail src => Sys2Proof.Machine.execClkFail src s
  | .clkRestored src dt => Sys2Proof.Machine.execClkRestored src dt s
  | .clkTimeout src => Sys2Proof.Machine.execClkTimeout src s
  | .watchOscFail => Sys2Proof.Machine.execWatchOscFail s
  | .refclkStable => Sys2Proof.Machine.execRefclkStable s
  | .pllLockCheck locks imageOk osOk => Sys2Proof.Machine.execPllLockCheck locks imageOk osOk s
  | .pstateRequest v => Sys2Proof.Machine.execPstateRequest v s
  | .cpmGateWrite who v => Sys2Proof.Machine.execCpmGateWrite who v s
  | .fwWatchdog u => Sys2Proof.Machine.execFwWatchdog u s
  | .fwInstall => Sys2Proof.Machine.execFwInstall s
  | .fwCancel => Sys2Proof.Machine.execFwCancel s
  | .fwEndProbation => Sys2Proof.Machine.execFwEndProbation s
  | .fwVerifyDone => Sys2Proof.Machine.execFwVerifyDone s
  | .fwStaged failed => Sys2Proof.Machine.execFwStaged failed s
  | .fwSwitch => Sys2Proof.Machine.execFwSwitch s
  | .probationEnd => Sys2Proof.Machine.execProbationEnd s
  | .fwRollback => Sys2Proof.Machine.execFwRollback s
  | .storeWriteDone ok => Sys2Proof.Machine.execStoreWriteDone ok s
  | .ucodeSwitchCommand => Sys2Proof.Machine.execUcodeSwitchCommand s
  | .ucodeCancel => Sys2Proof.Machine.execUcodeCancel s
  | .ucodeSwitch unstaged => Sys2Proof.Machine.execUcodeSwitch unstaged s
  | .attestRequest => Sys2Proof.Machine.execAttestRequest s
  | .attestDone => Sys2Proof.Machine.execAttestDone s
  | .lifecycleCommand b => Sys2Proof.Machine.execLifecycleCommand b s
  | .planKeyWrite key => Sys2Proof.Machine.execPlanKeyWrite key s
  | .provisioning => Sys2Proof.Machine.execProvisioning s
  | .telemetrySnapshot => Sys2Proof.Machine.execTelemetrySnapshot s
  | .agingCheck l => Sys2Proof.Machine.execAgingCheck l s
  | .stepInRise => Sys2Proof.Machine.execStepInRise s
  | .ucodeStaged => Sys2Proof.Machine.execUcodeStaged s
  | .appClusterReset => Sys2Proof.Machine.execAppClusterReset s
  | .laneSync p on => Sys2Proof.Machine.execLaneSync p on s
  | .pcsLock p => Sys2Proof.Machine.execPcsLock p s
  | .gptpSync p on => Sys2Proof.Machine.execGptpSync p on s
  | .csiShortPacket p dt bad => Sys2Proof.Machine.execCsiShortPacket p dt bad s
  | .escRegisterAccess a => Sys2Proof.Machine.execEscRegisterAccess a s

end Sys2Proof.Machine
end

