-- ==== Sys2Proof/WellFormed.lean ====
section
/-!
DEFINITION. Well-formed commands: the operand values that a sender or an event can form. The types of `Instr` bound numbers and names;
what is left are the lengths of byte strings, that their members are bytes, and the number formats of R220.
-/
namespace Sys2Proof

/-- Whether every member of a byte string is a byte. -/
def Bytes.ok (b : Bytes) : Bool := b.all (fun x => decide (x < 256))

/-- A byte string of a given length. -/
def Bytes.okLen (n : Nat) (b : Bytes) : Bool := b.length == n && Bytes.ok b

/-- A FRAC of R220: −16 to 60. -/
def fracOk (f : Int) : Bool := decide (-16 ≤ f) && decide (f ≤ 60)

/-- An element of R219 with its FRAC. -/
def elemOk (p : Int × Int) : Bool := decide (p.1.natAbs < 2 ^ 31) && fracOk p.2

/-- The number formats of a schedule (R220, R221). -/
def SolveForm.wf (x : SolveForm) : Bool :=
  x.fA.all (fun r => r.all fracOk) && x.fB.all fracOk && x.fD.all fracOk && x.fR.all fracOk && x.fT.all (fun r => r.all fracOk) &&
    x.fL.all (fun r => r.all fracOk) && x.fU.all (fun r => r.all fracOk) && x.fY.all fracOk && x.fZ.all fracOk && x.fX.all fracOk &&
    fracOk x.fJ

/-- An assembled row: its weight, residual and Jacobian are elements. -/
def SolveRow.wf (x : SolveRow) : Bool := elemOk x.w && elemOk x.r && x.jac.all (fun p => elemOk p.2)

/-- An array operation keeps the limits of R248. -/
def ArrayOp.wf (x : ArrayOp) : Bool :=
  match x with
  | .matmul => true
  | .conv sx sy _ _ d g => decide (1 ≤ sx.val) && decide (1 ≤ sy.val) && decide (1 ≤ d.val) && decide (1 ≤ g.toNat) && decide (g.toNat ≤ 4096)
  | .convT _ _ g => decide (1 ≤ g.toNat) && decide (g.toNat ≤ 4096)

/-- The window of a mask is 1 to 4,096 (R249). -/
def AttnMask.wf (x : AttnMask) : Bool :=
  match x with
  | .none | .causal => true
  | .window w | .band w => decide (1 ≤ w.toNat) && decide (w.toNat ≤ 4096)

/-- An operation of a tile task. -/
def TileOp.wf (x : TileOp) : Bool :=
  match x with
  | .array a _ _ _ => a.wf
  | .attention _ _ m => m.wf
  | .norm (.group n) _ => decide (1 ≤ n.val)
  | .norm .layer _ | .norm .rms _ | .softmax | .elementwise _ | .reduce _ | .gather _ | .scatter _ _ => true

/-- What a completing task brings is formed of bytes and formats. -/
def Work.wf (w : Work) : Bool :=
  match w with
  | .plain => true
  | .tile o => o.op.wf
  | .solve o => o.form.wf && o.rows.all (fun l => l.all SolveRow.wf)

/-- A probe: a group of self-collision tests holds 1 to 4 pairs (R140, R152). -/
def ProbeKind.wf (p : ProbeKind) : Bool :=
  match p with
  | .pairs l => decide (1 ≤ l.length) && decide (l.length ≤ 4)
  | .bound _ | .body _ | .boundCap _ _ | .bodyCap _ _ => true

/-- A received frame's payload is a byte string. -/
def EthData.wf (d : EthData) : Bool :=
  match d with
  | .udp _ _ b => Bytes.ok b
  | .other => true

/-- An access moves 1 to 64 bytes (R22). -/
def BusOp.wf (o : BusOp) : Bool :=
  match o with
  | .load _ n _ => decide (1 ≤ n.toNat) && decide (n.toNat ≤ 64)
  | .store _ b => decide (1 ≤ b.length) && decide (b.length ≤ 64) && Bytes.ok b

/-- A request at a bank: one that writes brings the 64 bytes of a word (R317). -/
def BankReq.wf (r : BankReq) : Bool :=
  match r.act with
  | .read => true
  | .write _ b | .modify _ b => decide (b.length = 64) && Bytes.ok b

/-- Well-formed commands. -/
def Instr.wf (i : Instr) : Bool :=
  match i with
  | .csiLongPacket _ _ _ b _ _ => Bytes.ok b
  | .pointFragment _ b => Bytes.ok b
  | .taskComplete _ w => w.wf
  | .queuePush _ _ b => Bytes.okLen 64 b
  | .probeRetire _ _ _ _ p _ => p.wf
  | .ethFrameRx _ _ _ d => d.wf
  | .busAccess _ o r => o.wf && r.all BankReq.wf
  | .sdoDownload _ _ _ b _ => Bytes.ok b
  | .driverObjWrite _ _ b _ => Bytes.ok b
  | .rxpdoBufferDone b => Bytes.okLen 199 b
  | .foeData _ b => decide (b.length ≤ 1012) && Bytes.ok b
  | .imuSampleDone b => Bytes.ok b
  | .jtagSamplePreload b => Bytes.ok b
  | .jtagExtest b => Bytes.ok b
  | .monitorSample t r => t.length == 17 && r.length == 11
  | .lifecycleCommand b => Bytes.okLen 7928 b
  | .planKeyWrite k => Bytes.okLen 32 k
  | .uctlEnable | .uctlDisable | .uctlTest | .uctlRetire | .uctlBadCommand _ | .uctlUnitSelect _ | .unitTestEnd _ _
  | .drainComplete _ | .syncEdge _ _ | .phuSrcSelect _ _ | .phuSrcOff _ _ | .captureWindowClose | .coastEntry | .cycleLost
  | .cycleBoundary _ | .gateIssue _ | .heldGateIssue | .stepInFall _ | .barrierForward | .barrierRelease | .tcSnapshotRead
  | .tcFlagsRead | .csiFrameStart _ _ _ _ | .csiFrameEnd _ _ _ | .framePoseReady _ | .frameFusionDone | .versionBuildDone
  | .fusionCutoff | .streamStale _ | .fovDecay _ | .maskMissing _ | .worldStale | .modelInstall | .modelCancel | .modelStaged
  | .modelSwitch _ | .primInstall _ | .primCancel | .releaseCopy _ _ | .readyStall _ _ | .heldDecrement | .syncCtrWrite _ _
  | .taskClaim _ | .taskStart _ | .taskCheckFail _ _ | .budgetOverrun _ | .endMissed _ | .huskSupervision _ | .queuePop _ _
  | .queuePushResume _ | .queueStall _ | .podBatchStart _ _ | .podBatchComplete _ | .stealRequest _ | .stealServe _
  | .stealReply _ | .cacheRefillDone _ _ | .intentAdmit | .intentCompileDone | .publication | .departureCommand
  | .sakInstall _ _ | .weightInstall | .weightCancel | .weightCheckDone | .planInstall | .planCancel | .planVerifyDone _
  | .planSwitch _ | .paramEdit _ _ | .registerWrite _ _ _ | .memStallLimit _ _ | .bgtestRegionStart _ | .bgtestRegionDone _ _
  | .secureWipeDone _ | .ddrScrubTick _ | .ddrRefresh _ _ _ | .ddrRfmRequest _ | .ddrZqCal _ | .ddrOscMeasure _ _
  | .ddrChannelFail _ | .chardPush | .chardVerdict _ _ | .comparison | .permitBToggle | .fsoeFrameRx _ | .fsoeWatchdog
  | .hskStopRequest | .hskStopRelease | .sparamUnlock _ | .sparamStage _ _ | .sparamConfirm _ | .sparamTimeout | .safeState _
  | .rotationStep | .goldenSlotOpen _ | .goldenBatchStart _ | .goldenBatchDone _ _ | .goldenSlotClose _ | .checkpoint
  | .alStateRequest _ | .sm2Watchdog | .sdoUpload _ _ _ | .sdoInfo _ | .driverObjRead _ _ _ | .foeWriteOpen _ _ | .foeRead _ _
  | .ecatLinkChange _ _ | .siiWrite | .storeParameters | .restoreDefaults | .deviceResetCommand | .aonPorstLow
  | .aonPorstRelease | .porstLow | .porstRelease _ | .tamper _ | .powerFail | .imuDrdy _ | .i3cIbi _ _ | .serdesLock _ _
  | .trstLow | .jtagIdcode | .jtagBypass | .capEstimate _ _ | .pmicVoltageDone | .clkFail _ | .clkRestored _ _ | .clkTimeout _
  | .watchOscFail | .refclkStable | .pllLockCheck _ _ _ | .pstateRequest _ | .cpmGateWrite _ _ | .fwWatchdog _ | .fwInstall
  | .fwCancel | .fwEndProbation | .fwVerifyDone | .fwStaged _ | .fwSwitch | .probationEnd | .fwRollback | .storeWriteDone _
  | .ucodeSwitchCommand | .ucodeCancel | .ucodeSwitch _ | .attestRequest | .attestDone | .provisioning | .telemetrySnapshot
  | .agingCheck _ | .stepInRise | .ucodeStaged | .appClusterReset | .laneSync _ _ | .pcsLock _ | .gptpSync _ _
  | .csiShortPacket _ _ _ | .escRegisterAccess _ => true

end Sys2Proof
end

