-- ==== Sys2Proof/Machine/Step.lean ====
section
/-!
DEFINITION. One step: the command at the front of the queue, or one idle clk.
-/
namespace Sys2Proof.Machine

/-- A clk passes with no command (log entry 1): the tick count and a running phase advance (R33). Log entry 1 (DESIGN CHOICE, safe). -/
def idle (s : State) : State := advance s (ticksPerClk s)

/-- The command at the front of the queue runs with the rest of the queue; an empty queue idles.
Log entry 1 (DESIGN CHOICE, safe); Log entry 14 (DESIGN CHOICE, safe); Log entry 41 (DESIGN CHOICE, unsafe). -/
def step (s : State) : Host.Outcome State Fault Refusal :=
  match s.pending with
  | [] => .next (idle s)
  | c :: rest => if c.wf then exec c { s with pending := rest } else .fault .illFormed

/-- The state with the command that a word spells at the front of its queue; unchanged where it spells none.
Log entry 42 (DESIGN CHOICE, safe). -/
def State.withFetchWord (s : State) (nbits w : Nat) : State :=
  match decodeTableWord nbits w with
  | some c => { s with pending := c :: s.pending }
  | none => s

end Sys2Proof.Machine
end

