-- ==== Sys2Proof/Safety.lean ====
section
/-!
DEFINITION. What claims mean by a sound state: memory in its canonical form, no event left unrecorded, and the safe outputs of R361 and
R364.
-/
namespace Sys2Proof.Machine

/-- Memory is in its canonical form. Log entry 2 (DESIGN CHOICE, unsafe). -/
abbrev MemOk (s : State) : Prop := Memory.wf s.mem.bytes = true

/-- Every event raised has its reaction and its record (R379, R483). -/
abbrev Settled (s : State) : Prop := s.logs.buf = []

/-- Both permit outputs are static low and no permit is held or granted (R361). -/
abbrev PermitLow (s : State) : Prop :=
  s.safety.permit = false ∧ s.safety.grant = false ∧ s.safety.permitA = false ∧ s.safety.permitB = false

/-- The safe state of the device (R364): outputs low, FAULT_N asserted, PWR_KILL_N asserted. -/
abbrev Dead (s : State) : Prop := s.safety.safeState = true ∧ PermitLow s ∧ s.safety.faultN = false ∧ s.safety.pwrKill = true

/-- An event record that waits to be stamped at the end of the command (R483). -/
abbrev Raised (s : State) (code unit d0 d1 : Nat) : Prop :=
  ∃ r ∈ s.logs.buf, r.code = code ∧ r.unit = unit ∧ r.d0 = d0 % 2 ^ 32 ∧ r.d1 = d1 % 2 ^ 32

/-- The unit records are in canonical form. Log entry 2 (DESIGN CHOICE, unsafe). -/
abbrev UnitsOk (s : State) : Prop := Smap.wf unitDefault s.units = true

/-- The registers as written and in force are in canonical form. Log entry 2 (DESIGN CHOICE, unsafe). -/
abbrev RegsOk (s : State) : Prop := Smap.wf regReset s.regs = true ∧ Smap.wf regReset s.regsF = true

/-- The Pods are in canonical form. Log entry 2 (DESIGN CHOICE, unsafe). -/
abbrev PodsOk (s : State) : Prop := Smap.wf (fun _ => Pod.empty) s.pod.pods = true

/-- The streams are in canonical form, those of every checkpoint in the ring with them. Log entry 2 (DESIGN CHOICE, unsafe). -/
abbrev StreamsOk (s : State) : Prop :=
  Smap.wf (fun _ => Stream.off) s.world.streams = true ∧ ∀ k, RingRec.ckpt k ∈ s.det.ring → Smap.wf (fun _ => Stream.off) k.world.streams = true

/-- The counts of readings above a die's limit are in canonical form. Log entry 2 (DESIGN CHOICE, unsafe). -/
abbrev LimitsOk (s : State) : Prop := Smap.wf (fun _ => (0 : Nat)) s.pins.limitRun = true

/-- A run of steps from a state that ends in a next state each time. -/
inductive Reaches : State → State → Prop where
  | refl (s : State) : Reaches s s
  | tail (s t u : State) : Reaches s t → step t = .next u → Reaches s u

end Sys2Proof.Machine
end

