-- ==== Sys2Proof/Certificates/Slice0/Obligations.lean ====
section
/-!
DEFINITION. Statements for the provers. A command's next state is `flush t`: `t` holds the command's own effect, and `flush` gives the events
it has raised their reactions and records (R379, R483); where it raises none, the next state is `t` itself.
-/
open Sys2Proof Sys2Proof.Machine

/-! ### Units (R12 to R30, R386 to R396) -/

/-- R14, R28, R29: the commands ENABLE, TEST and RETIRE move an OFFLINE unit to TEST or RETIRED; nothing else changes but UCTL_EVENT,
CMD_RESULT and, for a retirement, its record. From any state an accepted command does what the table of R14 says of that state, and a refused
one changes nothing but its result and REFUSED. -/
def Obligations.UnitCommandsMoveOfflineUnit : Prop :=
  ∀ (s : State) (u : Nat), arithUp s = true → u = regGet s Reg.uctlUnitSel →
    (Settled s → unitExists u = true → idClass u ≠ 7 → idClass u ≠ 0x10 → unitSt s u = .offline →
      let chg := fun (st : UState) (ep : Bool) (f : List Nat) =>
        ({ w1cSet (unitSet s u { unitOf s u with st := st, ep := ep, faults := f, drain := none }) Reg.uctlEvent 0 with
           cmdResult := 0, resp := .none } : State)
      exec .uctlEnable s = .next (chg .test true []) ∧ exec .uctlTest s = .next (chg .test false []) ∧
      (UnitsOk s → exec .uctlRetire s =
        .next (flush (boxAdd (raise (recordWrite (chg .retired false (unitOf s u).faults)) 0x0E02 u u 4) 6 [] [])))) ∧
    (UnitsOk s →
      let r := unitOf s u
      let room := decide (countIn s (poolUnits u) .active < poolTarget u)
      (cmdJudge s true u 1 = 0 → ∃ t, exec .uctlEnable s = .next (flush t) ∧ t.cmdResult = 0 ∧
        (unitSt t u, (unitOf t u).ep) = unitNext .enable room r.st r.ep ∧ t.mem = s.mem ∧ t.phu = s.phu ∧ t.safety = s.safety) ∧
      (cmdJudge s true u 3 = 0 → ∃ t, exec .uctlTest s = .next (flush t) ∧ t.cmdResult = 0 ∧
        (unitSt t u, (unitOf t u).ep) = unitNext .test room r.st r.ep ∧ t.mem = s.mem ∧ t.phu = s.phu ∧ t.safety = s.safety) ∧
      (cmdJudge s true u 4 = 0 → ∃ t, exec .uctlRetire s = .next (flush t) ∧ t.cmdResult = 0 ∧
        (unitSt t u, (unitOf t u).ep) = unitNext .retire room r.st r.ep ∧ t.mem = s.mem ∧ t.phu = s.phu ∧ t.safety = s.safety)) ∧
    (Settled s →
      let no := fun (why : Nat) => ({ w1cSet s Reg.uctlEvent 1 with cmdResult := why, resp := .none } : State)
      (cmdJudge s true u 1 ≠ 0 → exec .uctlEnable s = .next (no (cmdJudge s true u 1))) ∧
      (cmdJudge s true u 3 ≠ 0 → exec .uctlTest s = .next (no (cmdJudge s true u 3))) ∧
      (cmdJudge s true u 4 ≠ 0 → exec .uctlRetire s = .next (no (cmdJudge s true u 4))))

/-- R14, R16, R17: DISABLE of an ACTIVE unit that no refusal protects starts its draining; the unit select and a bad code do what R28 and R29
say, the bad code changing nothing but its result and REFUSED; a command from the cluster to a Chard or the Husk is refused with reason 1, and
a DISABLE that the plan image's minimums forbid with reason 2. -/
def Obligations.DisableDrainsActiveUnit : Prop :=
  ∀ (s : State) (u : Nat), arithUp s = true → u = regGet s Reg.uctlUnitSel →
    let no := fun (why : Nat) => ({ w1cSet s Reg.uctlEvent 1 with cmdResult := why, resp := .none } : State)
    (unitExists u = true → idClass u ≠ 7 → idClass u ≠ 0x10 → unitSt s u = .active → belowMin s u = false → UnitsOk s →
      ∃ t, exec .uctlDisable s = .next (flush t) ∧ unitSt t u = .draining ∧ t.cmdResult = 0 ∧ t.mem.bytes = s.mem.bytes ∧ t.phu = s.phu) ∧
    (unitExists u = true → idClass u ≠ 7 → idClass u ≠ 0x10 → belowMin s u = true → Settled s → exec .uctlDisable s = .next (no 2)) ∧
    (Settled s → (∀ c : Fin 3, exec (.uctlBadCommand c) s = .next (no 3)) ∧
      ∀ v : BitVec 16, exec (.uctlUnitSelect v) s = .next { regSet s Reg.uctlUnitSel v.toNat with cmdResult := 0, resp := .none }) ∧
    (Settled s → unitExists u = true → idClass u = 7 ∨ idClass u = 0x10 →
      exec .uctlEnable s = .next (no 1) ∧ exec .uctlDisable s = .next (no 1) ∧ exec .uctlTest s = .next (no 1) ∧
        exec .uctlRetire s = .next (no 1))

/-- R14, R387: a TEST that passes ends in ACTIVE, SPARE or OFFLINE, one that fails in OFFLINE with the event of the step that failed, and a
drained unit leaves DRAINING. A TEST destroys only the unit's own local memory. -/
def Obligations.TestAndDrainEndAsTable : Prop :=
  ∀ (s : State) (u : BitVec 16), UnitsOk s → u.toNat ≠ huskId →
    (mainUp s = true → s.cpm.boot ≠ .booting → unitSt s u.toNat = .test →
      let ep := (unitOf s u.toNat).ep
      let room := decide (countIn s (poolUnits u.toNat) .active < poolTarget u.toNat)
      (∃ t, exec (.unitTestEnd u .pass) s = .next (flush t) ∧
        unitSt t u.toNat = (if ep then (if room then .active else .spare) else .offline) ∧ t.phu = s.phu ∧ t.safety = s.safety ∧
        (MemOk s → ∀ a, a < winBase u.toNat ∨ winBase u.toNat + 0x100000 ≤ a → memGet t a = memGet s a)) ∧
      (∀ w : BitVec 16, ∃ t, exec (.unitTestEnd u (.bist w)) s = .next (flush t) ∧ unitSt t u.toNat = .offline ∧
        Raised t 0x0E04 u.toNat u.toNat (65536 + w.toNat) ∧ t.mem = s.mem ∧ t.phu = s.phu) ∧
      (∀ w : BitVec 16, isChan u.toNat = false → ∃ t, exec (.unitTestEnd u (.march w)) s = .next (flush t) ∧ unitSt t u.toNat = .offline ∧
        Raised t 0x0E04 u.toNat u.toNat (2 * 65536 + w.toNat) ∧ t.phu = s.phu) ∧
      (∀ (c : BitVec 16) (m : Bool), ∃ t, exec (.unitTestEnd u (.inject c m)) s = .next (flush t) ∧ unitSt t u.toNat = .offline ∧
        Raised t 0x0E03 u.toNat u.toNat (c.toNat * 65536 + b2n m) ∧ t.phu = s.phu) ∧
      (∀ p : BitVec 16, ∃ t, exec (.unitTestEnd u (.golden p)) s = .next (flush t) ∧ unitSt t u.toNat = .offline ∧
        Raised t 0x0E05 u.toNat u.toNat (s.phu.cycle % 16 * 2 ^ 24 + p.toNat) ∧ t.phu = s.phu)) ∧
    (arithUp s = true → Settled s → unitSt s u.toNat = .draining → drained s u.toNat = true →
      ∃ t, exec (.drainComplete u) s = .next t ∧ unitSt t u.toNat = (if (unitOf s u.toNat).ep then .test else .offline) ∧
        t = { s with units := t.units, regs := t.regs, clk := t.clk, resp := .none })

/-- R388 to R392: a due rotation step advances the round-robin entry; golden slots open and close; a Pod's or a Chard's golden batch starts in
its slot and ends, one with a wrong result with event 0x0E05 against the unit that the result names. In Watch there are none (R470). -/
def Obligations.RotationAndGoldenSlots : Prop :=
  ∀ s : State, arithUp s = true → s.cpm.watch = false →
    (objN s 0x4100 4 ≠ 0 → autoSubst s = true → s.plan.run.isSome = true → s.phu.cycle % objN s 0x4100 4 = 0 →
      ∃ t, exec .rotationStep s = .next (flush t) ∧ t.diag.rotNext = (s.diag.rotNext + 1) % 80) ∧
    (s.plan.run.isSome = true → phaseRuns s = true →
      (∃ t, exec (.goldenSlotOpen .pods) s = .next (flush t) ∧ t.diag.podSlot = true) ∧
      ∃ t, exec (.goldenSlotOpen .chards) s = .next (flush t) ∧ t.diag.chardSlot = true ∧
        ∀ u ∈ t.diag.goldRun, idClass u ≠ 7) ∧
    (∀ u : BitVec 16, Settled s → u.toNat ∉ s.diag.goldRun →
      let run := { s.diag with goldRun := s.diag.goldRun ++ [u.toNat] }
      let chards := { run with goldChards := s.diag.goldChards ++ [u.toNat] }
      (idClass u.toNat = 7 → s.diag.chardSlot = true → isActive s u.toNat = true → (unitOf s u.toNat).exec.isNone = true →
        exec (.goldenBatchStart u) s = .next { unitUpd s u.toNat (fun r => { r with goldDefer := 0 }) with diag := chards, resp := .none }) ∧
      (idClass u.toNat = 1 → s.diag.podSlot = true → podInService s (podOf u.toNat) = true → (podGet s (podOf u.toNat)).exec.isNone = true →
        exec (.goldenBatchStart u) s = .next { podUpd (unitUpd s u.toNat (fun r => { r with goldDefer := 0 })) (podOf u.toNat)
          (fun p => { p with exec := some goldenBatch }) with diag := run, resp := .none })) ∧
    (∀ u : BitVec 16, u.toNat ∈ s.diag.goldRun →
      let g := podOf u.toNat
      let wrong := fun (m : Nat) => s.phu.cycle % 16 * 2 ^ 24 + m
      (idClass u.toNat = 7 → u.toNat ∈ s.diag.goldChards →
        (Settled s → exec (.goldenBatchDone u .pass) s = .next { unitUpd s u.toNat (fun r => { r with goldBad := false }) with
          diag := { s.diag with goldChards := s.diag.goldChards.filter (· != u.toNat) }, resp := .none }) ∧
        ∀ m : BitVec 16, ∃ t, exec (.goldenBatchDone u (.chard m)) s = .next (flush t) ∧ Raised t 0x0E05 u.toNat u.toNat (wrong m.toNat) ∧
          (UnitsOk s → (unitOf t u.toNat).goldBad = true) ∧ t.mem = s.mem) ∧
      (idClass u.toNat = 1 → (podGet s g).exec = some goldenBatch →
        (Settled s → exec (.goldenBatchDone u .pass) s =
          .next { unitUpd (podUpd s g (fun p => { p with exec := none })) u.toNat (fun r => { r with goldBad := false }) with resp := .none }) ∧
        (∀ m : BitVec 16, ∃ t, exec (.goldenBatchDone u (.centre m)) s = .next (flush t) ∧ Raised t 0x0E05 u.toNat u.toNat (wrong m.toNat) ∧
          t.mem = s.mem) ∧
        (∀ (i : Fin 17) (m v : BitVec 16), let pea := unitId 0 (idStack u.toNat) (17 * (g % 32) + i.val)
          ∃ t, exec (.goldenBatchDone u (.peas [(i, m, v)])) s = .next (flush t) ∧ Raised t 0x0E05 pea pea (wrong m.toNat) ∧ t.mem = s.mem) ∧
        ∀ (x y : Fin 17 × BitVec 16 × BitVec 16) (l : List (Fin 17 × BitVec 16 × BitVec 16)), x.2.2 ≠ 0 → y.2.2 ≠ 0 → x.1 ≠ y.1 → let cache := unitId 2 (idStack u.toNat) (g % 32)
          ∃ t m, exec (.goldenBatchDone u (.peas (x :: y :: l))) s = .next (flush t) ∧ Raised t 0x0E05 cache cache (wrong m) ∧ t.mem = s.mem)) ∧
    (s.diag.chardSlot = true → ∃ t, exec (.goldenSlotClose .chards) s = .next (flush t) ∧ t.diag.chardSlot = false) ∧
    (s.diag.podSlot = true → ∃ t, exec (.goldenSlotClose .pods) s = .next (flush t) ∧ t.diag.podSlot = false)

/-! ### Control cycle (R31 to R49) -/

/-- R31, R37: a source write takes the PHU from OFF to ACQUIRE with no phase, changes the source in ACQUIRE, is ignored while the phase is
tracked, and a write of 0 or 3 takes it to OFF from every state and lapses the permit. The cluster's writes are ignored under the safety
lock (R368). -/
def Obligations.SourceWritesMovePhu : Prop :=
  ∀ (s : State) (w : Writer) (src : SyncSrc) (three : Bool), arithUp s = true → Settled s →
    (lockedOut s w = false → s.phu.st = .off →
      ∃ t, exec (.phuSrcSelect w src) s = .next t ∧ t.phu.st = .acquire ∧ t.phu.src = srcNo src ∧ t.phu.acc = 0 ∧ t.phu.held = false ∧
        phaseRuns t = false ∧ t = { s with phu := t.phu, regs := t.regs, resp := .none }) ∧
    (lockedOut s w = false → s.phu.st = .acquire →
      ∃ t, exec (.phuSrcSelect w src) s = .next t ∧ t.phu.st = .acquire ∧ t.phu.src = srcNo src ∧
        (s.phu.src ≠ srcNo src → t.phu.lastEdge = none ∧ t.phu.inRange = false) ∧ t.phu.acc = s.phu.acc ∧ t.phu.inc = s.phu.inc ∧
        t = { s with phu := t.phu, regs := t.regs, resp := .none }) ∧
    (lockedOut s w = false → s.phu.st ≠ .off → s.phu.st ≠ .acquire → exec (.phuSrcSelect w src) s = .next { s with resp := .none }) ∧
    (lockedOut s w = false →
      ∃ t, exec (.phuSrcOff w three) s = .next (flush t) ∧ t.phu.st = .off ∧ t.phu.src = 0 ∧ phaseRuns t = false ∧
        (s.safety.permit = true ∨ s.safety.grant = true → PermitLow t ∧ Raised t 0x0D04 huskId 5 s.phu.cycle) ∧ t.mem = s.mem ∧
        t.units = s.units) ∧
    (lockedOut s w = true → exec (.phuSrcSelect w src) s = .next { s with resp := .none } ∧
      exec (.phuSrcOff w three) s = .next { s with resp := .none })

/-- R33, R37: an edge accepted in the capture window in LOCKED updates p_avg by 1/16 of the difference and the increment by the error, and
stays in LOCKED while the error is within UNLOCK_TOL; everything but the PHU, the time and the barrier's state keeps its value. The window
that an edge falls in when its boundary is due is log entry 65. -/
def Obligations.LockedEdgeRunsLoop : Prop :=
  ∀ (s : State) (src : SyncSrc) (dt : BitVec 32) (last : Nat), arithUp s = true → Settled s → s.phu.st = .locked → s.phu.src = srcNo src →
    s.phu.aligning = none → s.phu.lastEdge = some last →
    let a := advance s dt.toNat
    let e := phaseErr a.phu.acc
    let m := a.now - last
    inCapture (phase a) = true → s.phu.usedWin ≠ some (windowAt a (phase a)) →
    periodOk s m = true → (e.natAbs : Int) ≤ unlockTol s →
      ∃ t, exec (.syncEdge src dt) s = .next t ∧ t.phu.st = .locked ∧ t.phu.err = e ∧ t.phu.pAvg = loopAvg s.phu.pAvg m ∧
        t.phu.inc = loopInc e (loopAvg s.phu.pAvg m) ∧ t.phu.lastEdge = some a.now ∧ t.phu.cycle = s.phu.cycle ∧
        t = { s with phu := t.phu, now := t.now, resp := .none }

/-- R37, R47: an edge outside the capture window, or a second one in a window, is spurious: event 0x0104, and the loop keeps its values. The
window that an edge falls in when its boundary is due is log entry 65. -/
def Obligations.SpuriousEdgeIsIgnored : Prop :=
  ∀ (s : State) (src : SyncSrc) (dt : BitVec 32), arithUp s = true → s.phu.st ≠ .off → s.phu.st ≠ .acquire → s.phu.st ≠ .lost →
    s.phu.src = srcNo src → s.phu.aligning = none →
    let a := advance s dt.toNat
    let w := advance a (2 * ticksPerClk s)
    (inCapture (phase a) = false ∨ s.phu.usedWin = some (windowAt a (phase a))) →
      ∃ t, exec (.syncEdge src dt) s = .next (flush t) ∧ t.phu = w.phu ∧ Raised t 0x0104 0xFFFF (phase a) 0 ∧ t.safety = s.safety ∧
        t.mem = s.mem

/-- R37: without an edge the window's close takes LOCKED to MISS and TRACK to ACQUIRE with the increment held, and in a window that has had its
edge it changes nothing; half a cycle later MISS becomes COAST, and four cycles after that COAST becomes LOST. Each raises its event (R47).
That time passes to the window's close first is log entry 6. -/
def Obligations.MissedSyncCoastsThenIsLost : Prop :=
  ∀ s : State, arithUp s = true →
    (phaseRuns s = true → (reachPhase s 8192).phu.usedWin ≠ some s.phu.bcount →
      (s.phu.st = .locked → ∃ t, exec .captureWindowClose s = .next (flush t) ∧ t.phu.st = .miss ∧ t.phu.cycle = s.phu.cycle ∧
        Raised t 0x0101 0xFFFF s.phu.cycle 0 ∧ t.mem = s.mem) ∧
      (s.phu.st = .track → ∃ t, exec .captureWindowClose s = .next (flush t) ∧ t.phu.st = .acquire ∧ t.phu.held = true ∧
        Raised t 0x0101 0xFFFF s.phu.cycle 0)) ∧
    (phaseRuns s = true → s.phu.usedWin = some s.phu.bcount → Settled s →
      exec .captureWindowClose s = .next { reachPhase s 8192 with resp := .none }) ∧
    (s.phu.st = .miss → s.phu.missCycle = s.phu.bcount →
      ∃ t, exec .coastEntry s = .next (flush t) ∧ t.phu.st = .coast ∧ t.phu.inc = s.phu.inc ∧
        Raised t 0x0102 0xFFFF (ofSigned 32 (errQ8 s.phu.err)) 0 ∧ t.mem = s.mem) ∧
    (s.phu.st = .coast → s.phu.bcount = s.phu.coastCycle + 4 →
      ∃ t, exec .cycleLost s = .next (flush t) ∧ t.phu.st = .lost ∧ Raised t 0x0103 0xFFFF 4 0 ∧ t.mem = s.mem ∧
        (s.od.al = .op → t.od.al = .safeop ∧ t.od.alCode = 0x002C))

/-- R45: the barrier. A follower forwards the fall H ticks after STEP_IN fell; the master's release aligns to its launch plus
(N − 1) × H and a follower's to its fall plus (N − i) × H, each in TRACK with the cycle number of PHU_BAR_CYCLE and event 0x0108; STEP_IN is
followed by the pin's level. -/
def Obligations.BarrierForwardsAndReleases : Prop :=
  ∀ (s : State), arithUp s = true →
    let cyc := regGet s Reg.phuBarCycleHi * 2 ^ 32 + regGet s Reg.phuBarCycleLo
    (∀ tick, s.phu.fallTick = some tick → barPos s ≠ 0 → s.now ≤ tick + barHop s → Settled s →
      ∃ t, exec .barrierForward s = .next t ∧ t.phu.stepOut = false ∧ t.now = tick + barHop s ∧
        t = { s with phu := t.phu, now := t.now, resp := .none }) ∧
    (∀ tick, barReady s = true → (s.phu.launchTick = some tick ∧ barPos s = 0) ∨ (s.phu.fallTick = some tick ∧ barPos s ≠ 0) →
      ∃ t, exec .barrierRelease s = .next (flush t) ∧ t.phu.st = .track ∧ t.phu.bar = .released ∧
        t.phu.aligning = some (tick + (if barPos s = 0 then barN s - 1 else barN s - barPos s) * barHop s) ∧
        t.phu.cycleLoad = some cyc ∧ Raised t 0x0108 0xFFFF cyc 0 ∧ t.mem = s.mem) ∧
    (Settled s → ∃ t, exec .stepInRise s = .next t ∧ t.phu.stepIn = true ∧ t = { s with phu := t.phu, resp := .none }) ∧
    (∀ dt : BitVec 32, ∃ t, exec (.stepInFall dt) s = .next (flush t) ∧ t.phu.stepIn = false ∧ t.now = s.now + dt.toNat ∧ t.mem = s.mem)

/-- R43: a read of PHU_TC_CYCLE_LO answers the boundary's cycle number and freezes the other registers; a read of PHU_TC_FLAGS answers
DC_VALID and GPTP_VALID and ends the freeze. Nothing else changes. -/
def Obligations.TimeReadsFreezeAndThaw : Prop :=
  ∀ s : State, arithUp s = true → Settled s →
    (s.phu.tcFrozen = none → exec .tcSnapshotRead s =
      .next { s with phu := { s.phu with tcFrozen := some s.phu.tc }, resp := .busData (s.phu.tc.cycle % 2 ^ 32) }) ∧
    (s.phu.tcFrozen.isSome = true → exec .tcSnapshotRead s = .next { s with resp := .busData (s.phu.tc.cycle % 2 ^ 32) }) ∧
    exec .tcFlagsRead s = .next { s with phu := { s.phu with tcFrozen := none }, resp := .busData (tcFlags s) }

/-- R38, R39: a gate whose phase has come does what its roles and the image's tables tie to it and issues one decrement for each gate of that
value, up to 8 in the clk, each with the gate's phase for its stamp; those left wait in order for the next clks, and with none left nothing
happens. The roles of a gate and the time that passes to its phase are log entries 12 and 6, and that a clk issues once, log entry 66. -/
def Obligations.GatesIssueEightPerClk : Prop :=
  ∀ (s : State) (q : List (Nat × Nat)), arithUp s = true → s.phu.gateQ = q → phaseRuns s = true →
    let s0 := ({ s with resp := .none } : State)
    let eight := fun (s : State) => let c := ownClk s .gates
      flush (clkDecs { c with phu := { c.phu with gateQ := s.phu.gateQ.drop 8 } } ((s.phu.gateQ.take 8).map (fun x => ⟨x.2, 0xFFFF, x.1⟩)) [])
    (q ≠ [] → exec .heldGateIssue s = .next (eight s0) ∧ ∀ roles, exec (.gateIssue roles) s = .next (eight s0)) ∧
    (q = [] → Settled s → exec .heldGateIssue s = .next s0) ∧
    (∀ roles, q = [] →
      let l := latchIfDue s0
      (nextGate l = none → exec (.gateIssue roles) s = .next (flush l)) ∧
      ∀ g n, nextGate l = some (g, n) → exec (.gateIssue roles) s =
        .next (flush (issueEight (takeGate (if l.phu.aligning.isSome then l else reachPhase l g) g n roles)))) ∧
    (∀ p g n, q = [] → s.plan.run = some p → p.slots = [] → p.evalEnd ≠ g → nextGate s = some (g, n) → s.phu.aligning = none →
      s.cand.latchDue = false →
      let r := reachPhase s0 g
      deadlineTasks r g = [] →
      exec (.gateIssue []) s = .next (eight { r with
        phu := { r.phu with gatesDone := s.phu.gatesDone + n, gateQ := (p.gates.drop s.phu.gatesDone).take n } }))

/-- R36, R40, R43: a boundary opens the next cycle: its number is one more, or the one that a barrier has loaded, the phase status is the
state's, and the time correspondence takes the boundary's times. It holds with and without a plan image and at a hard alignment; in replay, or
where a write at this boundary starts one, the cycle number is the record's (R408). The first boundary of all has number 0. -/
def Obligations.BoundaryOpensNextCycle : Prop :=
  ∀ (s : State) (b : BoundaryIn), arithUp s = true → phaseRuns s = true → s.det.replay = false → bit (regGet s Reg.detCtrl) 3 = false →
    (∀ x ∈ s.od.pendW, x.1 ≠ 0x2D00) → RegsOk s →
      ∃ t, exec (.cycleBoundary b) s = .next (flush t) ∧
        t.phu.cycle = (match s.phu.cycleLoad with
          | some c => c
          | none => if s.phu.everTracked then (s.phu.cycle + 1) % 2 ^ 64 else 0) ∧
        t.phu.bcount = s.phu.bcount + 1 ∧ t.phu.everTracked = true ∧ t.phu.status = phuStatus s.phu.st ∧ t.phu.tc.cycle = t.phu.cycle ∧
        t.phu.tc.dc = b.dcNs.toNat ∧ t.phu.tc.gptpS = b.gptpS.toNat ∧ t.phu.waitEdge = [] ∧
        (s.plan.run = none → s.plan.pend = none → s.phu.gateQ = [] → s.phu.waitEdge = [] → s.phu.aligning = none → t.phu.atBound = true)

/-! ### World model (R50 to R82) -/

/-- R52, R82: on an enabled port a frame start opens a frame on its virtual channel, a depth packet with a good checksum adds its payload,
an embedded packet gives the frame its header, one with a bad checksum marks the channel's frame CORRUPT and is counted, an uncorrectable header
marks every frame of the port CORRUPT and is counted, Line Start and Line End are ignored, and packets of no enabled stream are counted. Nothing
else changes, and on a port that is not enabled nothing does. That a frame start drops a frame still open is log entry 68. -/
def Obligations.CsiPacketsBuildFrame : Prop :=
  ∀ (s : State) (p : Fin 8) (v : Fin 4), ioUp s = true → Settled s →
    let err := Reg.csiErr + 0x100 * p.val
    let count := fun (lo n : Nat) => regField s err lo n (satInc n (field (regGet s err) lo n))
    let opened := fun (f : OpenFrame → OpenFrame) => s.world.csiOpen.map (fun o => if o.port = p.val ∧ o.vc = v.val then f o else o)
    (csiEn s p.val = true →
      (∀ num : BitVec 16, exec (.csiFrameStart p v num false) s = .next { s with
        world := { s.world with csiOpen := s.world.csiOpen.filter (fun o => !(o.port == p.val && o.vc == v.val)) ++
          [{ port := p.val, vc := v.val, num := num.toNat, hdr := none, data := [], corrupt := false }] }, resp := .none }) ∧
      (∀ b : Bytes, (csiStream s 1 p.val v.val).isSome = true → exec (.csiLongPacket p v 0x2E b false true) s = .next { s with
        world := { s.world with csiOpen := opened (fun o => { o with data := o.data ++ b }) }, resp := .none }) ∧
      (∀ b : Bytes, exec (.csiLongPacket p v 0x12 b false true) s = .next { s with
        world := { s.world with csiOpen := opened (fun o =>
          { o with hdr := if o.hdr.isNone ∧ 16 ≤ b.length then some (b.take 16) else o.hdr }) }, resp := .none }) ∧
      (∀ (dt : BitVec 6) (b : Bytes), dt ≠ 0x12 → (dt = 0x2E → csiStream s 1 p.val v.val = none) →
        (dt = 0x30 → csiStream s 2 p.val v.val = none) →
          exec (.csiLongPacket p v dt b false true) s = .next { count 0 8 with resp := .none }) ∧
      (∀ (dt : BitVec 6) (b : Bytes), ∃ t, exec (.csiLongPacket p v dt b false false) s = .next t ∧
        t.world.csiOpen = opened (fun o => { o with corrupt := true }) ∧
        ((dt = 0x2E ∧ (csiStream s 1 p.val v.val).isSome = true) ∨ dt = 0x12 → t.regs = (count 16 16).regs) ∧
        t = { s with world := { s.world with csiOpen := t.world.csiOpen, streams := t.world.streams }, regs := t.regs, resp := .none }) ∧
      (∃ t, exec (.csiFrameStart p v 0 true) s = .next t ∧ t.regs = (count 8 8).regs ∧
        t.world.csiOpen = s.world.csiOpen.map (fun o => if o.port = p.val then { o with corrupt := true } else o) ∧
        t = { s with world := { s.world with csiOpen := t.world.csiOpen, streams := t.world.streams }, regs := t.regs, resp := .none } ∧
        (∀ num, exec (.csiFrameStart p v num true) s = .next t) ∧ (∀ dt b ok, exec (.csiLongPacket p v dt b true ok) s = .next t) ∧
        exec (.csiFrameEnd p v true) s = .next t ∧ ∀ dt, exec (.csiShortPacket p dt true) s = .next t) ∧
      (∀ dt : BitVec 6, (dt = 2 ∨ dt = 3 → exec (.csiShortPacket p dt false) s = .next { s with resp := .none }) ∧
        (dt ≠ 2 → dt ≠ 3 → exec (.csiShortPacket p dt false) s = .next { count 0 8 with resp := .none }))) ∧
    (csiEn s p.val = false → ∀ (num : BitVec 16) (dt : BitVec 6) (b : Bytes) (bad ok : Bool),
      exec (.csiFrameStart p v num bad) s = .next { s with resp := .none } ∧
      exec (.csiLongPacket p v dt b bad ok) s = .next { s with resp := .none } ∧
      exec (.csiFrameEnd p v bad) s = .next { s with resp := .none } ∧ exec (.csiShortPacket p dt bad) s = .next { s with resp := .none }) ∧
    (∀ on : Bool, exec (.laneSync p on) s = .next { s with
      world := { s.world with lanes := Smap.set (fun _ => false) s.world.lanes p.val on }, resp := .none })

/-- R52, R54 to R56: a frame end closes the channel's frame and submits it: a CORRUPT one is rejected with reason 1; a point fragment for a
claimed stream is held until its frame is whole and then submitted; an unclaimed one is counted; a frame that waits for its boundary is
judged with its poses, and one whose boundary has none is rejected with reason 6. Memory, the PHU and the safety state keep their values. -/
def Obligations.FramesCloseAndAreJudged : Prop :=
  ∀ s : State,
    (∀ (p : Fin 8) (v : Fin 4), ioUp s = true → csiEn s p.val = true →
      (∃ t, exec (.csiFrameEnd p v false) s = .next (flush t) ∧ (∀ o ∈ t.world.csiOpen, ¬ (o.port = p.val ∧ o.vc = v.val)) ∧
        t.mem = s.mem ∧ t.safety = s.safety ∧ t.phu = s.phu) ∧
      (∀ o i, s.world.csiOpen.find? (fun o => o.port == p.val && o.vc == v.val) = some o → csiStream s 1 p.val v.val = some i →
        o.corrupt = true → ∃ t, exec (.csiFrameEnd p v false) s = .next (flush t) ∧ Raised t 0x0201 0xFFFF (256 + i) 0 ∧
          t.world.inputs = s.world.inputs) ∧
      (s.world.csiOpen.find? (fun o => o.port == p.val && o.vc == v.val) = none → Settled s →
        exec (.csiFrameEnd p v false) s = .next { s with resp := .none })) ∧
    (∀ (src : PointSrc) (b : Bytes), ioUp s = true → ∃ t, exec (.pointFragment src b) s = .next (flush t) ∧ t.mem = s.mem ∧
      t.safety = s.safety ∧ t.phu = s.phu) ∧
    (∀ (p : Fin 2) (b : Bytes), ioUp s = true → Settled s →
      (List.range 32).find? (fun i => strEn s i && strKind s i == 3 && strPort s i == p.val && field (strCfg s i) 0 8 == getLe b 2 1) = none →
      exec (.pointFragment (.udp p) b) s = .next { regCount s (Reg.ethOther + 0x40 * p.val) with resp := .none }) ∧
    (∀ (src : PointSrc) (b : Bytes) (i : Nat), ioUp s = true →
      (match src with
        | .udp p => (List.range 32).find? (fun i => strEn s i && strKind s i == 3 && strPort s i == p.val &&
            field (strCfg s i) 0 8 == getLe b 2 1) = some i
        | .csi p v => csiEn s p.val = true ∧ csiStream s 2 p.val v.val = some i ∧
            s.world.csiOpen.any (fun o => o.port == p.val && o.vc == v.val && o.corrupt) = false) →
      let n := getLe b 18 2
      let a : PointAsm := { counter := getLe b 4 4, timeNs := getLe b 8 8, count := n, parts := [(getLe b 16 2, b.drop 32)], corrupt := false }
      getLe b 0 2 = 0x4A50 → getLe b 20 2 ≠ 0 → getLe b 20 2 ≤ 180 → b.length = 32 + 8 * getLe b 20 2 → (strGet s i).asm = none →
      getLe b 16 2 < n → n ≤ 1024 →
      (n ≠ 1 → Settled s → exec (.pointFragment src b) s = .next { s with
        world := { s.world with streams := Smap.set (fun _ => Stream.off) s.world.streams i { strGet s i with asm := some a } }, resp := .none }) ∧
      (n = 1 → exec (.pointFragment src b) s = .next (flush (asmEnd { s with resp := .none } i a true)))) ∧
    (∀ n : Fin 32, arithUp s = true → ∃ t, exec (.framePoseReady n) s = .next (flush t) ∧ t.mem = s.mem ∧ t.safety = s.safety ∧
      t.phu = s.phu) ∧
    (∀ (n : Fin 32) (f : Frame) (since : Nat), arithUp s = true → (strGet s n.val).waiting = [(f, since)] → f.stream = n.val →
      (sensorPose s n.val f.time = none → nearestBoundary f.time ≤ (s.phu.cycle : Int) →
        ∃ t, exec (.framePoseReady n) s = .next (flush t) ∧ Raised t 0x0201 0xFFFF (6 * 256 + n.val) 0 ∧ t.world.inputs = s.world.inputs) ∧
      (∀ pose, sensorPose s n.val f.time = some (pose, true) → StreamsOk s → (strGet s n.val).st = .fresh → bit (regF s Reg.mrwCtrl) 0 = true →
        s.det.replay = false → (strGet s n.val).lastFp ≠ some f.fp →
        ∃ t, exec (.framePoseReady n) s = .next (flush t) ∧ t.world.inputs = s.world.inputs ++ [{ f with pose := some pose }] ∧
          (strGet t n.val).lastPose = some pose ∧ (strGet t n.val).waiting = []))

/-- R62, R63, R75: the Marrows fuse the first frame that can be fused and it leaves the queue; the cut-off closes admission; with nothing
left to fuse the version's build is done. -/
def Obligations.FusionConsumesAndCutoffCloses : Prop :=
  ∀ s : State, arithUp s = true →
    (∀ f, (sortBy frameLe s.world.inputs).find? (fusable s) = some f → bit (regF s Reg.mrwCtrl) 0 = true → s.world.done = false →
      ∃ t, exec .frameFusionDone s = .next (flush t) ∧ t.world.inputs = s.world.inputs.erase f ∧ t.world.fused = s.world.fused ++ [f] ∧
        t.mem = s.mem ∧ t.safety = s.safety ∧ t.phu = s.phu) ∧
    (Settled s → s.world.inputs.any (fusable s) = false → exec .frameFusionDone s = .next { s with resp := .none }) ∧
    (phaseRuns s = true → ∃ t, exec .fusionCutoff s = .next (flush t) ∧ t.world.cut = true ∧ t.mem = s.mem ∧ t.safety = s.safety) ∧
    (s.world.done = false → s.world.inputs.any (fusable s) = false → s.world.cut = true →
      ∃ t, exec .versionBuildDone s = .next (flush t) ∧ t.world.done = true ∧ t.world.cur = s.world.cur ∧ t.mem = s.mem ∧
        (marginOver s = true → Raised t 0x020A 0xFFFF s.world.h 0))

/-- R59, R64, R73: a stream ages to STALE and to DECAYED, a missing mask and an old world are reported, each with its event. -/
def Obligations.StreamsAgeAndWorldStales : Prop :=
  ∀ s : State, arithUp s = true →
    (∀ n : Fin 32, (strGet s n.val).st = .fresh → field (strLim s n.val) 8 8 ≤ (strGet s n.val).age →
      ∃ t, exec (.streamStale n) s = .next (flush t) ∧ Raised t 0x0202 0xFFFF (512 + n.val) 0 ∧
        t.world = { s.world with streams := Smap.set (fun _ => Stream.off) s.world.streams n.val { strGet s n.val with st := .stale } } ∧
        t.mem = s.mem) ∧
    (∀ n : Fin 32, (strGet s n.val).st = .stale → field (strLim s n.val) 16 16 ≤ (strGet s n.val).age →
      ∃ t, exec (.fovDecay n) s = .next (flush t) ∧ (∃ swept, Raised t 0x0204 0xFFFF (swept * 256 + n.val) 0) ∧
        t.world.streams = Smap.set (fun _ => Stream.off) s.world.streams n.val { strGet s n.val with st := .decayed } ∧
        t.world.sweeps = s.world.sweeps ++ [n.val] ∧ t.mem = s.mem) ∧
    (∀ (n : Fin 32) (f : Frame), s.world.inputs = [f] → f.stream = n.val → strPerson s n.val = true → f.maskLate = false →
      f.mask = none → f.stamp / 65536 < s.phu.cycle → cutoffPu s ≤ phase s →
      ∃ t, exec (.maskMissing n) s = .next (flush t) ∧ t.world.inputs = [{ f with maskLate := true }] ∧ Raised t 0x020B 0xFFFF n.val 0 ∧
        t.mem = s.mem) ∧
    (worldIsStale s = true → s.world.staleRaised = false →
      ∃ t, exec .worldStale s = .next (flush t) ∧ t.world = { s.world with staleRaised := true } ∧
        Raised t 0x0209 0xFFFF (s.phu.cycle - s.world.cur.version) 0 ∧ t.mem = s.mem)

/-! ### Robot model and candidates (R84 to R130) -/

/-- R104, R107: an install command records the image and starts its check; a busy one, or one while tasks of the last generation hold their
bank, is refused with reason 7; a cancel drops the pending model, and with it a tied plan image; a checked image is STAGED with its tables and
its copies in the pending banks, one that fails a check is refused with the reason. Nothing else changes. -/
def Obligations.ModelInstallStagesImage : Prop :=
  ∀ s : State, ioUp s = true →
    (Settled s → s.det.replay = false → s.model.status.busy = false → oldBankHeld s = false →
      exec .modelInstall s = .next { s with
        model := { s.model with
          status := .verifying, pend := none, pendAddr := ssBase 0 + objW s 0x2300 6, pendSwitch := objW s 0x2300 7, deferrals := 0 },
        resp := .none }) ∧
    (s.det.replay = false → s.model.status.busy = true →
      ∃ t, exec .modelInstall s = .next (flush t) ∧ t.model = { s.model with reason := 7 } ∧ Raised t 0x0301 0xFFFF 7 0 ∧ t.mem = s.mem) ∧
    (s.det.replay = false → s.model.status.busy = false → oldBankHeld s = true →
      ∃ t, exec .modelInstall s = .next (flush t) ∧ t.model = { s.model with reason := 7, status := .refused } ∧
        Raised t 0x0301 0xFFFF 7 0 ∧ t.mem = s.mem) ∧
    (Settled s → s.model.status.busy = true → modelDue s = false → tied s = false →
      exec .modelCancel s = .next { s with model := { s.model with status := .idle, pend := none, deferrals := 0 }, resp := .none }) ∧
    (s.model.status.busy = true → modelDue s = false → tied s = true → ∃ t, exec .modelCancel s = .next (flush t) ∧
      t.model = { s.model with status := .idle, pend := none, deferrals := 0 } ∧ t.plan.status = .refused ∧ t.plan.pend = none ∧
        Raised t 0x0B01 0xFFFF 5 0 ∧ t.mem = s.mem) ∧
    (s.model.status = .verifying →
      let b0 := memBytes s s.model.pendAddr (min (memLe s (s.model.pendAddr + 44) 4) 29504)
      let b := fit (max 64 b0.length) b0
      (modelReason b = 0 → Settled s →
        exec .modelStaged s = .next ((bankLeeks s).foldl bankCopy { s with
          model := { s.model with
            status := .staged, pend := some (readModel b), pendImg := b, stagedAt := s.phu.bcount,
            structural := structuralChange s.model.cur (readModel b) },
          resp := .none })) ∧
      (modelReason b ≠ 0 → ∃ t, exec .modelStaged s = .next (flush t) ∧
        t.model = { s.model with status := .refused, reason := modelReason b, pend := none, deferrals := 0 } ∧
          Raised t 0x0301 0xFFFF (modelReason b) 0 ∧ t.mem = s.mem))

/-- R104, R107: at its boundary a model that needs no plan image switches when every unit has staged: the pending model is in force, the
generation rises and event 0x0302 is raised; with units left it is deferred with event 0x0303, and the 16th time refused with reason 8. A
structural one without its plan image is refused with reason 6. -/
def Obligations.ModelSwitchExchangesBanks : Prop :=
  ∀ (s : State) (m : Model) (n : BitVec 8), arithUp s = true → modelDue s = true → s.model.pend = some m →
    (s.model.structural = false →
      (∃ t, exec (.modelSwitch 0) s = .next (flush t) ∧ t.model.cur = some m ∧ t.model.gen = (s.model.gen + 1) % 2 ^ 32 ∧
        t.model.old = s.model.cur ∧ t.model.status = .idle ∧ Raised t 0x0302 0xFFFF ((s.model.gen + 1) % 2 ^ 32) 0) ∧
      (n ≠ 0 → s.model.deferrals < 15 → ∃ t, exec (.modelSwitch n) s = .next (flush t) ∧ t.model.cur = s.model.cur ∧
        t.model.status = .deferred ∧ t.model.deferrals = s.model.deferrals + 1 ∧ Raised t 0x0303 0xFFFF n.toNat 0) ∧
      (n ≠ 0 → 15 ≤ s.model.deferrals → ∃ t, exec (.modelSwitch n) s = .next (flush t) ∧ t.model.cur = s.model.cur ∧
        t.model.status = .refused ∧ t.model.pend = none ∧ Raised t 0x0301 0xFFFF 8 0)) ∧
    (s.model.structural = true → tied s = false → s.plan.status ≠ .verifying → ∃ t, exec (.modelSwitch n) s = .next (flush t) ∧
      t.model.cur = s.model.cur ∧ t.model.status = .refused ∧ t.model.pend = none ∧ Raised t 0x0301 0xFFFF 6 0)

/-- R120, R254: the primitive table and the weight sets: an accepted install is pending, a refused one raises its event, a cancel drops
what is pending, a checked weight set whose digest is the declared one is pending, and one of another digest is refused with event 0x0907.
Nothing else changes. -/
def Obligations.TablesInstallAndCancel : Prop :=
  ∀ s : State, ioUp s = true → Settled s →
    (∀ ok : Bool, s.det.replay = false → primReason s ok = 0 → exec (.primInstall ok) s = .next { s with
      cand := { s.cand with primPend := some (objW s 0x2405 1, objW s 0x2405 2), primStatus := 1 }, resp := .none }) ∧
    (∀ ok : Bool, s.det.replay = false → primReason s ok ≠ 0 → ∃ t, exec (.primInstall ok) s = .next (flush t) ∧
      t.cand.primPend = s.cand.primPend ∧ Raised t 0x0404 0xFFFF (primReason s ok) 0 ∧ t.mem = s.mem) ∧
    (s.cand.primPend.isSome = true → exec .primCancel s = .next { s with
      cand := { s.cand with primPend := none, primStatus := if s.cand.primN = 0 then 0 else 2 }, resp := .none }) ∧
    (s.cand.primPend = none → exec .primCancel s = .next { s with resp := .none }) ∧
    (s.det.replay = false → exec .weightInstall s = .next { s with
      cob := { s.cob with wCheck := some (objW s 0x2901 1, objW s 0x2901 2, objW s 0x2901 3) }, resp := .none }) ∧
    (exec .weightCancel s = .next { s with
      cob := { s.cob with wCheck := none, wPend := none, wStatus := if s.cob.weights.isEmpty then 0 else 2 }, resp := .none }) ∧
    (∀ k a n, s.cob.wCheck = some (k, a, n) →
      (declaredDigest s k = some (sha256 (memBytes s a n)) → exec .weightCheckDone s = .next { s with
        cob := { s.cob with wCheck := none, wPend := some (k, a, memBytes s a n), wStatus := 1 }, resp := .none }) ∧
      (declaredDigest s k ≠ some (sha256 (memBytes s a n)) → ∃ t, exec .weightCheckDone s = .next (flush t) ∧
        t.cob = { s.cob with wCheck := none, wStatus := if s.cob.wPend.isSome then 1 else 3 } ∧ Raised t 0x0907 0xFFFF 5 k ∧ t.mem = s.mem))

/-! ### Scheduling and queues (R264 to R292) -/

/-- R268 to R272: a held decrement of an armed counter above 1 lowers its COUNT by one, and of one at 1 in MODE 0 disarms it and queues its
release; one of a disarmed counter, wherever it stands among a clk's decrements, is counted with event 0x0A02 and changes no counter; the
cluster writes a counter at or above CTR_PLAN and cannot write one below. -/
def Obligations.SyncCountersDecrementAndLoad : Prop :=
  ∀ s : State, arithUp s = true →
    (∀ d : Decr, s.sched.held0 = [d] → s.sched.held1 = [] →
      let clk := clkNow (if s.sched.heldTick = s.now then nextClk s else s)
      let w := ctrGet s d.ctr
      cnt clk.dec d.ctr < 4 →
      (ctrArmed w = true → 2 ≤ ctrCount w →
        ∃ t, exec .heldDecrement s = .next (flush t) ∧ t.sched.ctrs = (ctrSet s d.ctr (ctrWithCount w (ctrCount w - 1))).sched.ctrs ∧
          t.sched.held0 = [] ∧ t.sched.held1 = [] ∧ t.sched.rels = s.sched.rels ∧ t.mem = s.mem ∧ t.units = s.units) ∧
      (ctrArmed w = true → ctrCount w = 1 → ctrMode w = 0 → clk.rel.contains d.ctr = false →
        let x := ctrSet s d.ctr (ctrDisarm (ctrWithCount w 0))
        ∃ t, exec .heldDecrement s = .next (flush t) ∧ t.sched.ctrs = x.sched.ctrs ∧ t.sched.held0 = [] ∧ t.sched.held1 = [] ∧
          t.sched.rels.length = s.sched.rels.length + (if field (ctrGet x d.ctr) 32 8 = 0 then 0 else 1) ∧ t.mem = s.mem ∧
          t.units = s.units) ∧
      (ctrArmed w = false →
        ∃ t, exec .heldDecrement s = .next (flush t) ∧ t.sched.ctrs = s.sched.ctrs ∧
          t.sched.disarmTotal = satInc 32 s.sched.disarmTotal ∧ Raised t 0x0A02 d.src d.ctr d.src ∧ t.mem = s.mem)) ∧
    (∀ (a : ClkAcc) (d : Decr), cnt a.used d.ctr < 4 → a.wait.any (fun x => x.ctr == d.ctr) = false → ctrArmed (ctrGet a.st d.ctr) = false →
      (decOne a d).st.sched = { a.st.sched with disarmTotal := satInc 32 a.st.sched.disarmTotal } ∧ (decOne a d).rel = a.rel ∧
        (decOne a d).wait = a.wait ∧ Raised (decOne a d).st 0x0A02 d.src d.ctr d.src) ∧
    (∀ (n : BitVec 16) (w : BitVec 64), appUp s = true → Settled s →
      exec (.syncCtrWrite n w) s = .next (if n.toNat < ctrPlan s then { s with resp := .busOk }
        else { ctrSet s n.toNat w.toNat with resp := .busOk }))

/-- R273, R275, R276: the engine of a level copies the next descriptor of its release into its ready list with the next release number, and the
release is done; a class 0x01 descriptor becomes an evaluation of the Pods; one that a check refuses raises event 0x0A07; an engine stalled past
1,024 clk raises event 0x0A01 (that it does so once for a list is log entry 45). -/
def Obligations.ReleaseCopiesDescriptor : Prop :=
  ∀ (s : State) (k : Fin 2) (l : Fin 4), arithUp s = true →
    (∀ (r : Release) (d0 : Desc), s.sched.rels = [r] → r.stack = k.val → r.level = l.val → r.next = 0 → r.descs = [d0] →
      let off := if r.pcopy = 1 then (match s.plan.run with | some p => p.copyOff | none => 0) else 0
      let d := { d0 with param := d0.param + (if r.ctr < ctrPlan s then off else 0) }
      (descReject d false = 0 → watchGates s d (isEstimate s d.param) = false → slotBad s s.cob.noWeights d = false →
        (d.cls ≠ 1 → (readyGet s (readyKey d.cls (chooseStack s d r.ctr) d.crit)).length < 512 →
          ∃ t, exec (.releaseCopy k l) s = .next (flush t) ∧ t.sched.rels = [] ∧ t.sched.nextRid = s.sched.nextRid + 1 ∧ t.mem = s.mem ∧
            t.pod = s.pod ∧ t.safety = s.safety) ∧
        (d.cls = 1 → ∃ t e, exec (.releaseCopy k l) s = .next (flush t) ∧ t.sched.rels = [] ∧ t.sched.nextRid = s.sched.nextRid + 1 ∧
          t.pod.evals = s.pod.evals ++ [e] ∧ e.task.desc = d ∧ e.total = d.arg0 ∧ e.done = 0 ∧ t.units = s.units ∧ t.mem = s.mem ∧
          t.safety = s.safety)) ∧
      (descReject d false ≠ 0 → ∃ t, exec (.releaseCopy k l) s = .next (flush t) ∧ Raised t 0x0A07 0xFFFF d.taskId (descReject d false) ∧
        t.mem = s.mem ∧ t.pod = s.pod ∧ t.safety = s.safety)) ∧
    (∀ d n, engineHead s k.val l.val = some (d, n) → cnt s.sched.stalledEng (k.val * 4 + l.val) ≠ 0 →
      let g := chooseStack s d n
      let key := readyKey d.cls g l.val
      key ∉ s.sched.stallReported →
      ∃ t, exec (.readyStall k l) s = .next (flush t) ∧ t.sched.stallReported = s.sched.stallReported ++ [key] ∧
        (∃ n, Raised t 0x0A01 (unitId 8 g 0) (d.cls * 256 + g * 16 + l.val) n) ∧ t.mem = s.mem)

/-- R277, R279, R283, R304, R310: an ACTIVE unit with an empty slot claims the first entry it may take, into its execution slot or behind the
task there; it begins a task whose block agrees, and fails one whose block does not with event 0x0B08; a HASH or FW_COPY task writes its result
to its destination and leaves the unit; a write outside the window fails with event 0x0B07; a Cob's, a Parsnip's and a Radish's task ends with
the work of its class; a failed check of each kind raises its event. -/
def Obligations.TaskIsClaimedRunAndEnded : Prop :=
  ∀ (s : State) (u : BitVec 16) (tk : Task), arithUp s = true →
    let r := unitOf s u.toNat
    let s0 := ({ s with resp := .none } : State)
    (∀ k l, Settled s → r.st = .active → readyClass (idClass u.toNat) = true → watchUnit s u.toNat = false →
      chardWaits s u.toNat = false → claimFrom s u.toNat [0, 1, 2, 3] = some (k, tk, l) →
      let c := readyPut (ownClk s0 (.claim u.toNat)) k l
      (r.exec = none → exec (.taskClaim u) s = .next (unitSet c u.toNat { r with exec := some tk })) ∧
      (r.exec.isSome = true → r.pref = none → exec (.taskClaim u) s = .next (unitSet c u.toNat { r with pref := some tk }))) ∧
    (r.exec = some tk → tk.began = false →
      (Settled s → tk.desc.startBy = 0xFFFF → headerOk s tk = true → startReject s tk.desc = none →
        exec (.taskStart u) s = .next { unitSet s u.toNat { r with exec := some (begun s tk) } with resp := .none }) ∧
      (headerOk s tk = false → tk.byHusk = false → ∃ t, exec (.taskStart u) s = .next (flush t) ∧
        Raised t 0x0B08 u.toNat tk.desc.taskId tk.desc.opId ∧ t.mem = s.mem)) ∧
    (running s u.toNat = some tk → watchUnit s u.toNat = false →
      (pushStalled s u.toNat = false → s.det.replay = false →
        (∀ w, tk.desc.cls = 0x0C → tk.desc.opId = 0x0801 →
          let p := tk.desc.param
          let dst := memLe s (p + 32) 8
          let h := sha256 (taskRead s0 u.toNat (memLe s (p + 16) 8) (memLe s (p + 24) 4)).1
          (windowOk s dst h.length = true → UnitsOk s → r.pref = none → tk.desc.outQueue = 0xFFFFF → tk.desc.doneCtr = 0xFFFF →
            ∃ t, exec (.taskComplete u w) s = .next (flush t) ∧ t.mem.bytes = cellPut s.mem.bytes dst h ∧
              t.units = Smap.set unitDefault s.units u.toNat { r with exec := none, pref := none } ∧ t.safety = s.safety) ∧
          (windowOk s dst h.length = false →
            ∃ t, exec (.taskComplete u w) s = .next (flush t) ∧ Raised t 0x0B07 u.toNat tk.desc.taskId u.toNat ∧
              t.mem.bytes = s.mem.bytes)) ∧
        (∀ w, tk.desc.cls = 0x0B → tk.desc.opId = 0x0702 →
          let p := tk.desc.param
          let n := memLe s (p + 32) 4
          let dst := memLe s (p + 24) 8
          let b := (taskRead (tracePoints s0 u.toNat) u.toNat (memLe s (p + 16) 8) n).1
          (windowOk s dst b.length = true → UnitsOk s → r.pref = none → tk.desc.outQueue = 0xFFFFF → tk.desc.doneCtr = 0xFFFF →
            ∃ t, exec (.taskComplete u w) s = .next (flush t) ∧ t.mem.bytes = cellPut s.mem.bytes dst b ∧
              t.units = Smap.set unitDefault s.units u.toNat { r with exec := none, pref := none } ∧ t.safety = s.safety) ∧
          (windowOk s dst b.length = false →
            ∃ t, exec (.taskComplete u w) s = .next (flush t) ∧ Raised t 0x0B07 u.toNat tk.desc.taskId u.toNat ∧
              t.mem.bytes = s.mem.bytes)) ∧
        (∀ o, tk.desc.cls = 3 → exec (.taskComplete u (.tile o)) s = .next (flush (tileWork s0 u.toNat tk o
          (fun s => finishTask s u.toNat (taskTensor s u.toNat tk 2).base (o.rows.toNat * o.cols.toNat) [])))) ∧
        (∀ o, tk.desc.cls = 4 → exec (.taskComplete u (.solve o)) s =
          .next (flush (solveWork s0 u.toNat tk o (fun s a n => finishTask s u.toNat a n [])))) ∧
        (∀ w, tk.desc.cls = 5 → exec (.taskComplete u w) s = .next (flush (selWork s0 u.toNat tk
          (fun s => finishTask s u.toNat (selArgs s0 tk.desc.param).block (selArgs s0 tk.desc.param).k []))))) ∧
      (∃ t, exec (.taskCheckFail u .window) s = .next (flush t) ∧ Raised t 0x0B07 u.toNat tk.desc.taskId u.toNat ∧
        t.mem.bytes = s.mem.bytes) ∧
      (∀ row, tk.desc.cls = 4 → ∃ t, exec (.taskCheckFail u (.residual row)) s = .next (flush t) ∧
        Raised t 0x0802 u.toNat u.toNat row.toNat ∧ t.mem.bytes = s.mem.bytes) ∧
      (tk.desc.cls = 3 → ∃ t, exec (.taskCheckFail u .abft) s = .next (flush t) ∧
        Raised t 0x0901 u.toNat u.toNat (modelSlot s tk % 16 * 2 ^ 28 + tileNo s tk % 2 ^ 28) ∧ t.mem.bytes = s.mem.bytes) ∧
      (tk.desc.cls = 3 → ∃ t, exec (.taskCheckFail u .sparseMeta) s = .next (flush t) ∧
        Raised t 0x0905 u.toNat (modelSlot s tk) (tileNo s tk) ∧ t.mem.bytes = s.mem.bytes) ∧
      ∀ a, exec (.taskCheckFail u (.ue a)) s = .next (flush (ueFail s0 u.toNat tk a.toNat)))

/-- R284, R286: a task over its BUDGET raises event 0x0A05, as does an evaluation, one past its END_BY event 0x0A06, and one that the Husk
supervises, by its own copy of the image's limits, event 0x0A08; each is counted, and memory is unchanged. That time passes to the phase after a
limit is log entry 6. -/
def Obligations.LateTasksAreReported : Prop :=
  ∀ (s : State) (tk : Task), arithUp s = true →
    (∀ u : BitVec 16, running s u.toNat = some tk → tk.desc.budget < elapsed (reachBudget s tk) tk →
      ∃ t, exec (.budgetOverrun u) s = .next (flush t) ∧ t.sched.overTotal = satInc 32 s.sched.overTotal ∧
        Raised t 0x0A05 u.toNat tk.desc.taskId u.toNat ∧ t.mem.bytes = s.mem.bytes) ∧
    (∀ (u : BitVec 16) (e : Eval), running s u.toNat = none → evalRun s u.toNat = some e → e.started = true →
      e.task.desc.budget < elapsed (reachBudget s e.task) e.task →
      ∃ t, exec (.budgetOverrun u) s = .next (flush t) ∧ t.sched.overTotal = satInc 32 s.sched.overTotal ∧
        Raised t 0x0A05 u.toNat e.task.desc.taskId u.toNat ∧ t.pod.evals = s.pod.evals.filter (fun x => x.task.rid != e.task.rid) ∧
        t.mem = s.mem) ∧
    (∀ (id : BitVec 32) (u : Option Nat), openTask s id.toNat = some (u, tk) → endPassed (reachEnd s tk) tk = true →
      ∃ t, exec (.endMissed id) s = .next (flush t) ∧ t.sched.missTotal = satInc 32 s.sched.missTotal ∧
        Raised t 0x0A06 (u.getD 0xFFFF) id.toNat (b2n tk.rerun * 2 ^ 31 + u.getD 0xFFFF) ∧ t.mem.bytes = s.mem.bytes) ∧
    (∀ (id : BitVec 32) (u : Option Nat), openTask s id.toNat = some (u, tk) → tk.desc.crit < 2 →
      let h := huskView s tk
      let e := reachEnd s h
      endPassed e h = true →
      ∃ t, exec (.huskSupervision id) s = .next (flush t) ∧ t.sched.superTotal = satInc 32 s.sched.superTotal ∧
        Raised t 0x0A08 (unitId 8 tk.stack 0) id.toNat (phase (advance e ((64 - clkLate e h) * ticksPerClk e))) ∧ t.mem = s.mem ∧
        t.units = s.units)

/-- R281, R282: queues whose HEAD and TAIL the cache holds. A push to an enabled queue that is not full writes its 64 bytes at TAIL and
nothing else in memory, one to a full queue stalls its unit, which pushes and pops nothing until it resumes at TAIL; a pop answers the 64 bytes
at HEAD, or EMPTY, and writes no memory; a disabled queue raises event 0x0A0A; a stall past its limit raises event 0x0A09. -/
def Obligations.QueuesKeepFirstInFirstOut : Prop :=
  ∀ (s : State) (q : BitVec 20) (u : BitVec 16) (hd tl : Nat), arithUp s = true →
    (pushStalled s u.toNat = true → Settled s →
      (∀ b, exec (.queuePush q u b) s = .next { s with resp := .none }) ∧ exec (.queuePop q u) s = .next { s with resp := .none }) ∧
    (pushStalled s u.toNat = false → qEn s q.toNat = false →
      (∀ b, ∃ t, exec (.queuePush q u b) s = .next (flush t) ∧ Raised t 0x0A0A u.toNat q.toNat u.toNat ∧ t.mem = s.mem) ∧
      ∃ t, exec (.queuePop q u) s = .next (flush t) ∧ Raised t 0x0A0A u.toNat q.toNat u.toNat ∧ t.mem = s.mem) ∧
    (s.sched.qcache.find? (fun e => e.1 == q.toNat) = some (q.toNat, hd, tl) → qEn s q.toNat = true →
      (∀ b : Bytes, pushStalled s u.toNat = false →
        (qFill hd tl ≠ qSize s q.toNat →
          ∃ t, exec (.queuePush q u b) s = .next (flush t) ∧ t.mem.bytes = cellPut s.mem.bytes (qEntry s q.toNat tl) (fit 64 b) ∧
            t.sched.pushes = satInc 32 s.sched.pushes ∧ t.units = s.units) ∧
        (qFill hd tl = qSize s q.toNat →
          ∃ t, exec (.queuePush q u b) s = .next (flush t) ∧ t.mem = s.mem ∧ t.units = s.units ∧
            t.sched.stalls = s.sched.stalls ++ [⟨q.toNat, u.toNat, fit 64 b, s.now, s.now, false, [], false⟩])) ∧
      (pushStalled s u.toNat = false → Settled s →
        (hd ≠ tl → ∃ t, exec (.queuePop q u) s = .next t ∧ t.resp = .entry (memBytes s (qEntry s q.toNat hd) 64) ∧
          t.sched.qcache.find? (fun e => e.1 == q.toNat) = some (q.toNat, (hd + 1) % 2 ^ 32, tl) ∧
          t = { s with sched := { s.sched with qcache := t.sched.qcache }, resp := t.resp }) ∧
        (hd = tl → ∃ t, exec (.queuePop q u) s = .next t ∧ t.resp = .empty ∧
          t = { s with sched := { s.sched with qcache := t.sched.qcache }, resp := t.resp })) ∧
      (∀ x : Stall, s.sched.stalls.find? (fun x => x.queue == q.toNat) = some x → qFill hd tl ≠ qSize s q.toNat →
        ∃ t, exec (.queuePushResume q) s = .next (flush t) ∧ t.mem.bytes = cellPut s.mem.bytes (qEntry s q.toNat tl) (fit 64 x.entry) ∧
          t.sched.stalls = s.sched.stalls.erase x) ∧
      (∀ x : Stall, s.sched.stalls.find? (fun x => x.queue == q.toNat) = some x → qFill hd tl = qSize s q.toNat → Settled s →
        ∃ t, exec (.queuePushResume q) s = .next t ∧ t.mem = s.mem ∧ t.sched.stalls = s.sched.stalls)) ∧
    (∀ x : Stall, s.sched.stalls.find? (fun x => x.queue == q.toNat) = some x →
      s.sched.stalls.any (fun y => y.queue == q.toNat && y.reported) = false →
      ∃ t, exec (.queueStall q) s = .next (flush t) ∧ Raised t 0x0A09 x.unit q.toNat x.unit ∧ t.mem = s.mem)


/-! ### Collision checking (R152 to R168) -/

/-- R157, R283, R304, R378: a Pod in service, or draining with one batch left, that holds no batch takes the first batch of its highest-level
task, which starts the evaluation with its first batch; a block whose header disagrees fails the evaluation with event 0x0B08; a residue mismatch
of the Leek raises event 0x0E09 instead and takes none. Nothing outside the Pods and the count of candidates changes otherwise. -/
def Obligations.PodTakesNextBatch : Prop :=
  ∀ (s : State) (g : Fin 64) (r : BRange) (e : Eval), arithUp s = true → podTakes s g.val = true → (podGet s g.val).exec = none →
    watchUnit s (leekOf g.val) = false → nextRange s (podGet s g.val).list = some r → evalOf s r.rid = some e →
    let leek := leekOf g.val
    let b : Batch := { rid := r.rid, num := r.lo, level := e.task.desc.crit, golden := false, acc := [], written := [] }
    let n := if e.main then sat 32 (s.cand.generated + (batchIds s r.lo).length) else s.cand.generated
    (e.started = true →
      (Settled s → exec (.podBatchStart g none) s = .next { podUpd s g.val (fun p => { p with
          list := takeFirst r p.list, exec := some b }) with cand := { s.cand with generated := n }, resp := .none }) ∧
      (∀ k : Fin 3, ∃ t, exec (.podBatchStart g (some k)) s = .next (flush t) ∧ t.pod = s.pod ∧ Raised t 0x0E09 leek leek (4 + k.val) ∧
        t.mem = s.mem ∧ t.safety = s.safety)) ∧
    (e.started = false → headerOk s e.task = true → e.task.desc.startBy = 0xFFFF →
      let a := evalUpd s e.task.rid (fun x => { x with started := true, task := begun s x.task })
      (Settled s → exec (.podBatchStart g none) s = .next { podUpd a g.val (fun p => { p with
          list := takeFirst r p.list, exec := some b }) with cand := { s.cand with generated := n }, resp := .none }) ∧
      (∀ k : Fin 3, ∃ t, exec (.podBatchStart g (some k)) s = .next (flush t) ∧ t.pod = a.pod ∧ Raised t 0x0E09 leek leek (4 + k.val) ∧
        t.mem = s.mem)) ∧
    (e.started = false → headerOk s e.task = false → e.task.desc.startBy = 0xFFFF →
      ∀ x : Option (Fin 3), ∃ t, exec (.podBatchStart g x) s = .next (flush t) ∧ Raised t 0x0B08 leek e.task.desc.taskId e.task.desc.opId ∧
        t.pod.evals = s.pod.evals.filter (fun x => x.task.rid != e.task.rid) ∧ t.mem = s.mem)

/-- R103, R142, R146, R152, R155, R161, R378: a probe that a Pea retires looks its lines up in the Pod's cache and enters its candidate's
accumulators; with the last test that the verdict takes, the candidate's record is written in its place, and a place outside the window fails
the evaluation with event 0x0B07; a candidate that its limits fail is not probed; a residue mismatch of the Pea discards the result with event
0x0E09. -/
def Obligations.ProbesAccumulateInBatch : Prop :=
  ∀ (s : State) (g : Fin 64) (pea : Fin 17) (cand : Fin 64) (wp : Fin 40) (pr : ProbeKind) (b : Batch) (e : Eval) (m : Model) (i : Nat)
    (c : CandRec), arithUp s = true → s.cpm.watch = false → PodsOk s →
    let unit := unitId 0 (g.val / 32) (17 * (g.val % 32) + pea.val)
    peaRuns s unit = true → (podGet s g.val).exec = some b → evalOf s b.rid = some e → modelOf s e.task.gen = some m →
    (batchCands s m e b.num)[cand.val]? = some (i, c) →
    let x := evCtx s m e.task
    (limitWp m c.dtUs c.wp = none → wp.val < 32 ∨ (wp.val ≠ 32 ∧ evalBranch s e = true) →
      let p := probeCache (podGet s g.val) s.now pea.val (probeLines x c wp.val pr) (nextLines x c wp.val pr)
      let acc := accAdd b.acc cand.val ((probeTests pr).map (fun t => (wp.val, t))) (probeOuts x c wp.val pr)
      let r := evalCand x c (evalBranch s e) (firstFeasible s e)
      let last := !b.written.contains cand.val && r.tests.all (fun t => (accTests acc cand.val).contains t)
      (last = false → Settled s → exec (.probeRetire g pea cand wp pr none) s =
        .next { podPut s g.val { p with exec := some { b with acc := acc } } with resp := .none }) ∧
      (last = true → recOk s e i = true → ∃ t, exec (.probeRetire g pea cand wp pr none) s = .next (flush t) ∧
        t.mem.bytes = cellPut s.mem.bytes (listBase s e g.val + 32 * i) r.bytes ∧ t.safety = s.safety ∧
        (firstFeasible s e = false → t.pod.evals = s.pod.evals ∧
          podGet t g.val = { p with exec := some { b with acc := acc, written := b.written ++ [cand.val] } })) ∧
      (last = true → recOk s e i = false → ∃ t, exec (.probeRetire g pea cand wp pr none) s = .next (flush t) ∧
        Raised t 0x0B07 (leekOf g.val) e.task.desc.taskId (leekOf g.val) ∧ t.mem = s.mem ∧
        t.pod.evals = s.pod.evals.filter (fun x => x.task.rid != e.task.rid)) ∧
      ∀ k : Fin 3, ∃ t, exec (.probeRetire g pea cand wp pr (some k)) s = .next (flush t) ∧ podGet t g.val = p ∧
        Raised t 0x0E09 unit unit (1 + k.val) ∧ t.mem = s.mem) ∧
    ((limitWp m c.dtUs c.wp).isSome = true → Settled s → ∀ k, exec (.probeRetire g pea cand wp pr k) s = .next { s with resp := .none })

/-- R150, R161, R275, R310: a completed batch writes the records of its candidates that are not yet written, 32 bytes each in their places of the
list, and nothing else in memory without a queue; the Pod is free, the batch is counted, and with the last one the evaluation ends; a record
outside the window is not written and fails the evaluation with event 0x0B07; a batch whose Leek's push has stalled waits, and a golden one ends
elsewhere (R389). The places of the lists are log entry 46. -/
def Obligations.BatchCompletionWritesRecords : Prop :=
  ∀ (s : State) (g : Fin 64) (b : Batch), arithUp s = true → s.cpm.watch = false → (podGet s g.val).exec = some b →
    let leek := leekOf g.val
    (b.golden = true ∨ s.sched.stalls.any (fun x => x.unit == leek) = true → Settled s →
      exec (.podBatchComplete g) s = .next { s with resp := .none }) ∧
    (b.golden = false → s.sched.stalls.any (fun x => x.unit == leek) = false →
      (evalOf s b.rid = none → Settled s →
        exec (.podBatchComplete g) s = .next { podUpd s g.val (fun p => { p with exec := none }) with resp := .none }) ∧
      ∀ e, evalOf s b.rid = some e →
        let res := batchRes s e b
        let rest := (res.zip (List.range res.length)).filter (fun x => !b.written.contains x.2)
        (res.all (fun x => recOk s e x.1) = true →
          let w := rest.foldl (fun s x => writeRec s g.val e x.2 x.1.1 x.1.2.1.id x.1.2.2) ({ s with resp := .none } : State)
          exec (.podBatchComplete g) s = .next (flush (batchEnd (countRes w e res) g.val b leek (listBase s e g.val) res.length)) ∧
          (PodsOk s → e.task.desc.outQueue = 0xFFFFF → firstFeasible s e = false → ∃ t, exec (.podBatchComplete g) s = .next (flush t) ∧
            t.mem.bytes = rest.foldl (fun m x => cellPut m (listBase s e g.val + 32 * x.1.1) x.1.2.2.bytes) s.mem.bytes ∧
            t.safety = s.safety ∧ t.units = s.units ∧ (podGet t g.val).exec = none ∧
            (e.done + 1 < e.total → podGet t g.val = { podGet s g.val with exec := none } ∧
              (evalOf t b.rid).map (·.done) = some (e.done + 1)) ∧
            (e.total ≤ e.done + 1 → evalOf t b.rid = none))) ∧
        (res.all (fun x => recOk s e x.1) = false → ∃ t, exec (.podBatchComplete g) s = .next (flush t) ∧
          Raised t 0x0B07 leek e.task.desc.taskId leek ∧ t.mem = s.mem ∧
          t.pod.evals = s.pod.evals.filter (fun x => x.task.rid != e.task.rid)))

/-- R155, R158, R159: a dry Pod's request enters the port of the next Pod of its ring, a full port turns the last of its entries away with BUSY, and
a round without a batch ends in idling, or in another round where it met BUSY; the oldest entry of a port is served: nothing for a Pod out of
service, else the batches that the victim gives; a reply with batches joins the thief's list, or is left stealable where the thief has left
service, and one without ends the asking; a refilled line enters the cache, and what waits for its place goes. Nothing outside the Pods changes
but the clk that a port has served in. What a victim gives is log entry 46. -/
def Obligations.StealingAndRefillMovePodsOnly : Prop :=
  ∀ (s : State) (g : Fin 64), arithUp s = true → Settled s → s.cpm.watch = false →
    let p := podGet s g.val
    (podInService s g.val = true → p.idle = false → p.exec = none → p.list = [] → p.asking = none → p.reply = none → s.pod.evals ≠ [] →
      let next := (List.range 63).find? (fun i => decide (p.asked ≤ i) && ringOk s g.val ((g.val + i + 1) % 64))
      (∀ i, next = some i →
        let v := (g.val + i + 1) % 64
        let a := podUpd s g.val (fun p => { p with asked := i + 1, asking := some v })
        let q := portAdd (podGet a v).port s.now g.val
        let c := podUpd a v (fun p => { p with port := q.1 })
        (q.2 = none → exec (.stealRequest g) s = .next { c with resp := .none }) ∧
        ∀ o, q.2 = some o → exec (.stealRequest g) s =
          .next { podUpd c o (fun p => { p with reply := some [], replyBusy := true }) with resp := .none }) ∧
      (next = none → exec (.stealRequest g) s = .next { podUpd s g.val (fun p =>
        if p.busy then { p with asked := 0, busy := false } else { p with idle := true, asked := 0 }) with resp := .none })) ∧
    (∀ x rest, p.port = x :: rest → PodsOk s →
      let c := ownClk ({ s with resp := .none } : State) (.steal g.val)
      let q := podUpd c g.val (fun p => { p with port := rest })
      (podInService s x.2 = false → exec (.stealServe g) s = .next (podUpd q x.2 (fun p => { p with asking := none }))) ∧
      (podInService s x.2 = true → x.2 ≠ g.val →
        let got := stealGive q g.val x.2
        let n := rangeCount got
        ∃ t, exec (.stealServe g) s = .next t ∧ t = { c with pod := t.pod } ∧ t.pod.cycStolen = s.pod.cycStolen + n ∧
          podGet t g.val = { p with port := rest, list := rangeMinus p.list got, left := rangeMinus p.left got, given := p.given + n } ∧
          podGet t x.2 = { podGet s x.2 with reply := some got, replyBusy := false, stolen := (podGet s x.2).stolen + n } ∧
          ∀ h, h ≠ g.val → h ≠ x.2 → podGet t h = podGet s h)) ∧
    (p.port = [] → exec (.stealServe g) s = .next { s with resp := .none }) ∧
    (p.reply = some [] → exec (.stealReply g) s = .next { podPut s g.val { p with
      reply := none, asking := none, busy := p.busy || p.replyBusy, replyBusy := false } with resp := .none }) ∧
    (∀ got, p.reply = some got → got ≠ [] →
      let q := { p with reply := none, asking := none, asked := 0, busy := false, replyBusy := false }
      (podInService s g.val = true → exec (.stealReply g) s =
        .next { podPut s g.val { q with list := got.foldl rangeAdd p.list } with resp := .none }) ∧
      (podInService s g.val = false → exec (.stealReply g) s =
        .next { wakePods (podPut s g.val { q with left := p.left ++ got }) with resp := .none })) ∧
    (p.reply = none → exec (.stealReply g) s = .next { s with resp := .none }) ∧
    (∀ l : CacheLine, p.refills.any (fun m => m.line == lineNo l) = true → exec (.cacheRefillDone g l) s = .next { podUpd s g.val (fun p =>
      cacheSend { p with refills := p.refills.filter (fun m => m.line != lineNo l), lines := cacheInsert p.lines (lineNo l) } s.now) with
      resp := .none })

/-! ### Peers (R170 to R193) and publication (R429) -/

/-- R171, R172, R178: MACsec judges a frame of a running port first and raises its SA's packet number; one that may not pass is counted and
dropped. A Krytan datagram that passes enters the receive ring with its receive stamp, or is dropped from a full ring, and is counted; one for
another address or UDP port is counted; a fusion datagram is a point fragment. A key installs for its association number in both channels with
packet number 1. Nothing else changes, and on a port that does not run nothing does. That one SAK serves both channels is log entry 53. -/
def Obligations.EthernetFramesEnterRing : Prop :=
  ∀ (s : State) (p : Fin 2), ioUp s = true → Settled s →
    let need := bit (regF s Reg.ethCtrl) 4
    (ethOn s p.val = true →
      (∀ sec, (secCheck s p.val sec).1 = false → ∀ ns d,
        exec (.ethFrameRx p sec ns d) s = .next { regCount s (Reg.ethSecErr + 0x40 * p.val) with resp := .none }) ∧
      (∀ sec, (secCheck s p.val sec).1 = true →
        let a := (secCheck s p.val sec).2
        let other := ({ regCount a (Reg.ethOther + 0x40 * p.val) with resp := .none } : State)
        let c := regCount a (Reg.ethRxCnt + 0x40 * p.val)
        ∀ ns : BitVec 64, exec (.ethFrameRx p sec ns .other) s = .next other ∧
          ∀ (dst : BitVec 32) (port : BitVec 16) (b : Bytes),
            let mine := dst.toNat = regF s Reg.ethIpv4 ∨ dst.toNat = regF s Reg.ethMcast
            (¬ mine → exec (.ethFrameRx p sec ns (.udp dst port b)) s = .next other) ∧
            (mine → port.toNat = field (regF s Reg.ethUdp) 16 16 →
              (s.det.replay = true → exec (.ethFrameRx p sec ns (.udp dst port b)) s = .next { a with resp := .none }) ∧
              (s.det.replay = false → s.peers.ring.length < 8192 → exec (.ethFrameRx p sec ns (.udp dst port b)) s =
                .next { c with peers := { a.peers with ring := s.peers.ring ++ [⟨ns.toNat, p.val, b⟩] }, resp := .none }) ∧
              (s.det.replay = false → 8192 ≤ s.peers.ring.length → exec (.ethFrameRx p sec ns (.udp dst port b)) s = .next { regCount
                { c with peers := { a.peers with dropCyc := s.peers.dropCyc + 1 } } Reg.ethRingDrop with resp := .none })) ∧
            (mine → port.toNat ≠ field (regF s Reg.ethUdp) 16 16 → port.toNat = field (regF s Reg.ethUdp) 0 16 →
              exec (.ethFrameRx p sec ns (.udp dst port b)) s = .next (flush (fragmentUdp { a with resp := .none } p.val b))) ∧
            (mine → port.toNat ≠ field (regF s Reg.ethUdp) 16 16 → port.toNat ≠ field (regF s Reg.ethUdp) 0 16 →
              exec (.ethFrameRx p sec ns (.udp dst port b)) s = .next other))) ∧
    secCheck s p.val none = (!need, s) ∧
    (∀ (t : SecTag) (sa : Sa), (ethPort s p.val).sas = [sa] →
      let ok := bit (macsecReg s p.val) 0 && t.icvOk && decide (sa.nextPn ≤ t.pn.toNat + field (macsecReg s p.val) 16 16)
      (sa.an = t.an.val → ok = true → secCheck s p.val (some t) =
        (true, ethPortSet s p.val { ethPort s p.val with sas := [{ sa with nextPn := max sa.nextPn (t.pn.toNat + 1) }] })) ∧
      (sa.an ≠ t.an.val ∨ ok = false → secCheck s p.val (some t) = (!need, s))) ∧
    (ethOn s p.val = false → ∀ sec ns d, exec (.ethFrameRx p sec ns d) s = .next { s with resp := .none }) ∧
    (∀ w : BitVec 32,
      let an := field (macsecReg s p.val) 4 2
      let sa : Sa := { an := an, key := fit 7 (ethPort s p.val).sak ++ [w.toNat], nextPn := 1 }
      let put := fun (l : List Sa) => l.filter (fun a => a.an != an) ++ [sa]
      (gateOn s p.val = true → exec (.sakInstall p w) s = .next { ethPortSet s p.val { ethPort s p.val with
        sas := put (ethPort s p.val).sas, tx := put (ethPort s p.val).tx, txAn := an } with resp := .none }) ∧
      (gateOn s p.val = false → exec (.sakInstall p w) s = .next { s with resp := .none }))

/-- R178 to R180, R182, R190: admission takes the ring's entries stamped before the cut-off, once in a cycle, and starts the compile of the next
cycle's set; one that no test refuses gives its peer a LIVE slot, one of a wrong form is rejected with event 0x0601; the compile's end makes the
set; a departure goes out on the ports that TX_PORTS selects and raises the frame number by one. That an admission without gPTP time takes every
entry is log entry 53. -/
def Obligations.IntentsAreAdmittedAndCompiled : Prop :=
  ∀ s : State,
    (arithUp s = true → s.peers.admitDone = false → phaseRuns s = true →
      let take := fun (e : RingEnt) => admitLate s || decide (e.ns < intentCutNs s) || !s.phu.tc.gptpValid
      (∃ t, exec .intentAdmit s = .next (flush t) ∧ t.peers.admitDone = true ∧ t.peers.ring = s.peers.ring.filter (fun e => !take e) ∧
        t.peers.compiling = some (s.phu.cycle + 1, s.peers.tb + declNs s) ∧ t.mem = s.mem ∧ t.safety = s.safety) ∧
      ∀ e, s.peers.ring = [e] → take e = true →
        let f := intentOf e.frame
        (frameOk e.frame = false → ∃ t, exec .intentAdmit s = .next (flush t) ∧ Raised t 0x0601 0xFFFF 1 1 ∧ t.peers.slots = s.peers.slots) ∧
        (∀ k, frameOk e.frame = true → f.peer ≠ 0 → f.peer ≠ 0xFFFFFFFF → f.peer ≠ regF s Reg.ethOwnId → s.phu.tc.gptpValid = true →
          f.ti ≤ e.ns + field (regF s Reg.ethPeerTol) 16 16 * 1000 →
          (siteToWorld s f.anchor).all (fun x => decide (-16000 * 65536 ≤ x) && decide (x ≤ 16000 * 65536)) = true →
          peerSlot s f.peer = none → f.kind = 0 → emptySlot s = some k →
          ∃ t, exec .intentAdmit s = .next (flush t) ∧ t.peers.admitted = s.peers.admitted + 1 ∧ t.peers.rejected = s.peers.rejected ∧
            t.peers.slots = Smap.set (fun _ => PeerSlot.none) s.peers.slots k
              { st := .live, frame := e.frame, gaps := 0, age := (slotGet s k).age })) ∧
    (arithUp s = true → Settled s → s.peers.admitDone = true ∨ phaseRuns s = false →
      exec .intentAdmit s = .next { s with resp := .none }) ∧
    (∀ c tb, arithUp s = true → s.peers.compiling = some (c, tb) →
      (∃ t, exec .intentCompileDone s = .next (flush t) ∧ t.peers.compiling = none ∧ t.peers.sets.any (fun x => x.1 == c) = true ∧
        t.safety = s.safety) ∧
      ((∀ u tk, running s u = some tk → tk.desc.opId ≠ 0x0504) →
        exec .intentCompileDone s = .next (flush (compileSet { s with resp := .none } c tb)))) ∧
    (arithUp s = true → Settled s → s.peers.compiling = none → exec .intentCompileDone s = .next { s with resp := .none }) ∧
    (ioUp s = true → Settled s → regF s Reg.ethOwnId ≠ 0 →
      let ports := [0, 1].filter (fun p => bit (regF s Reg.ethCtrl) (6 + p) && ethOn s p)
      ∃ t, exec .departureCommand s = .next t ∧ t.peers.pubSeq = (s.peers.pubSeq + 1) % 2 ^ 32 ∧ t.peers.pubLast = s.peers.pubSeq ∧
        (ports.all (fun p => !bit (macsecReg s p) 0) = true → t.peers.sent.map (fun x => (x.port, x.pcp, x.sec, x.payload.length)) =
          ports.map (fun p => (p, field (regF s Reg.ethPub) 8 3, none, 64))) ∧
        t = { s with peers := t.peers, svc := t.svc, freeCtr := t.freeCtr, resp := .none }) ∧
    (ioUp s = true → Settled s → regF s Reg.ethOwnId = 0 → exec .departureCommand s = .next { s with resp := .none })

/-- R36, R360, R428, R429: the publication of a cycle happens once, with the outcome that R428 gives; with outcome 0 it commits the cycle's
segment, and with another one none; it grants the permit for the next cycle, with event 0x0D05, exactly when every condition of R360 holds, in the
life-cycle state OPERATIONAL (R497); in SAFEOP and OP it writes the SM3 buffer. That time passes to its phase first is log entry 6. -/
def Obligations.PublicationOncePerCycle : Prop :=
  ∀ s : State, arithUp s = true →
    (phaseRuns s = true → s.safety.published = false → ∃ t, exec .publication s = .next (flush t) ∧ t.safety.published = true ∧
      t.safety.outcome = pubOutcome (reachPhase s 62259) ∧ t.safety.next = (if t.safety.outcome = 0 then s.safety.next else none) ∧
      t.safety.segNew = t.safety.next.isSome ∧ t.safety.permit = s.safety.permit ∧
      (installed s = true → publishes s = false → t.safety.outcome = 4 ∧ t.safety.next = none) ∧
      (s.svc.life ≠ 2 → t.safety.grant = s.safety.grant) ∧
      (s.safety.permit = false → s.safety.grant = false → s.safety.safeState = false → s.det.replay = false → s.svc.life = 2 →
        (grantFail s t.safety.next = 0 → t.safety.grant = true ∧ t.safety.firstCycle = s.phu.cycle + 1 ∧
          Raised t 0x0D05 huskId (s.phu.cycle + 1) 0) ∧
        (grantFail s t.safety.next ≠ 0 → t.safety.grant = false)) ∧
      (s.od.al = .safeop ∨ s.od.al = .op → t.od.txWrites = satInc 32 s.od.txWrites) ∧
      (s.od.al ≠ .safeop → s.od.al ≠ .op → t.od.tx = s.od.tx) ∧
      (publishes s = true → t.phu.pubStatus = phuStatus s.phu.st)) ∧
    (s.safety.published = true ∨ phaseRuns s = false → Settled s → exec .publication s = .next { s with resp := .none })

/-! ### Standing programs (R293 to R315) -/

/-- R299, R303, R307: an install command starts the image's check, a busy one is refused with reason 10, a cancel drops the pending image up
to the clk before its switch boundary, and with it a tied model, and in the boundary's own clk it changes nothing, nor with nothing pending; a
restart of the application cluster leaves the check and the staging as they are; the driver's edit list that is in range is accepted for its
cycle, one cycle later after 62,259 pu, and one that is not is refused with event 0x0B05. -/
def Obligations.PlanInstallAndEdits : Prop :=
  ∀ s : State, ioUp s = true → Settled s →
    (s.plan.status.busy = false → exec .planInstall s = .next { s with
      plan := { s.plan with
        status := .verifying, pend := none, pendAddr := objW s 0x2B00 1, pendLen := objW s 0x2B00 2, pendSwitch := objW s 0x2B00 3,
        lateStage := false, deferrals := 0 },
      resp := .none }) ∧
    (s.plan.status.busy = true → ∃ t, exec .planInstall s = .next (flush t) ∧ t.plan = { s.plan with reason := 10 } ∧
      Raised t 0x0B01 0xFFFF 10 0 ∧ t.mem = s.mem) ∧
    (s.plan.status.busy = true → planDue s = false → tied s = false → exec .planCancel s = .next { s with
      plan := { s.plan with status := .idle, pend := none, deferrals := 0 }, resp := .none }) ∧
    (s.plan.status.busy = true → planDue s = false → ∃ t, exec .planCancel s = .next (flush t) ∧
      t.plan = { s.plan with status := .idle, pend := none, deferrals := 0 } ∧ t.mem = s.mem ∧
      (tied s = true → t.model = { s.model with status := .refused, reason := 6, pend := none, deferrals := 0 } ∧
        Raised t 0x0301 0xFFFF 6 0)) ∧
    (s.plan.status.busy = false ∨ planDue s = true → exec .planCancel s = .next { s with resp := .none }) ∧
    (mainUp s = true → exec .appClusterReset s = .next { s with resp := .none }) ∧
    (∀ (c : BitVec 64) (l : List (BitVec 16 × BitVec 32)), appUp s = true →
      let e := l.map (fun e => (e.1.toNat, e.2.toNat))
      let r := editReason s e
      (l = [] ∨ 64 < l.length → exec (.paramEdit c l) s = .next { s with resp := .drv (-1) [] }) ∧
      (l ≠ [] → l.length ≤ 64 → s.det.replay = true → exec (.paramEdit c l) s = .next { s with resp := .drv 0 [] }) ∧
      (l ≠ [] → l.length ≤ 64 → s.det.replay = false → r.1 = 0 →
        let next := if 62259 ≤ phase s ∧ c.toNat ≤ s.phu.cycle + 1 then s.phu.cycle + 2 else s.phu.cycle + 1
        exec (.paramEdit c l) s = .next { s with
          plan := { s.plan with edits := s.plan.edits ++ [{ cycle := c.toNat, notBefore := next, edits := e }] }, resp := .drv 0 [] }) ∧
      (l ≠ [] → l.length ≤ 64 → s.det.replay = false → r.1 ≠ 0 → ∃ t, exec (.paramEdit c l) s = .next (flush t) ∧
        t.resp = .drv (if r.1 = 4 then -2 else -3) [] ∧ Raised t 0x0B05 0xFFFF r.1 r.2 ∧ t.plan = s.plan ∧ t.mem = s.mem))

/-- R299, R300: a verified image is STAGED and stands in the idle bank of both stacks; one that fails a check is refused with the lowest
reason and event 0x0B01, and changes no memory. Otherwise there is nothing to verify. The kernels that an operation list uses come with the
command (log entry 13). -/
def Obligations.PlanVerificationStagesOrRefuses : Prop :=
  ∀ (s : State) (k : List (BitVec 32 × List (BitVec 8))), ioUp s = true →
    (s.plan.status = .verifying →
      let r := imgReason s (k.map (fun x => (x.1.toNat, x.2.map (·.toNat))))
      let i := imgAt s s.plan.pendAddr
      (r.1 = 0 → Settled s → exec (.planVerifyDone k) s = .next { imgInstall (imgInstall s i 0) i 1 with
        plan := { s.plan with status := .staged, pend := some (imgPlan s i), stagedAt := s.phu.bcount }, resp := .none }) ∧
      (r.1 ≠ 0 → ∃ t, exec (.planVerifyDone k) s = .next (flush t) ∧
        t.plan = { s.plan with status := .refused, reason := r.1, pend := none, deferrals := 0 } ∧ Raised t 0x0B01 0xFFFF r.1 r.2 ∧
        (r.1 = 7 → Raised t 0x0808 0xFFFF r.2 0) ∧ t.mem = s.mem)) ∧
    (s.plan.status ≠ .verifying → Settled s → exec (.planVerifyDone k) s = .next { s with resp := .none })

/-- R106, R301, R302: at its boundary a staged image with no task of levels 0 and 1 in flight becomes the running image with the next
generation and event 0x0B02, and a tied model is in force with it; with such tasks, or with units that have not staged the tied model, it is
deferred with event 0x0B03, and the 16th time refused with reason 11; a structural image without its model is refused with reason 5. What a
command without a switch to make does, and what follows the last switch of a boundary, is log entry 11. -/
def Obligations.PlanSwitchRunsNewImage : Prop :=
  ∀ (s : State) (n : BitVec 8), arithUp s = true →
    (planDue s = false ∨ s.plan.pend = none → exec (.planSwitch n) s = .next (flush (finishSwitches { s with resp := .none }))) ∧
    ∀ p : Plan, planDue s = true → s.plan.pend = some p →
      let busy := planInFlight s ≠ 0 ∨ (tied s = true ∧ n ≠ 0)
      (p.structural = true → tied s = false → ∃ t, exec (.planSwitch n) s = .next (flush t) ∧ t.plan.run = s.plan.run ∧
        t.plan.pend = none ∧ t.plan.status = .refused ∧ t.plan.reason = 5 ∧ Raised t 0x0B01 0xFFFF 5 0) ∧
      (p.structural = false ∨ tied s = true →
        (¬ busy → ∃ t, exec (.planSwitch n) s = .next (flush t) ∧ t.plan.run = some p ∧ t.plan.gen = (s.plan.gen + 1) % 2 ^ 32 ∧
          t.plan.status = .idle ∧ t.plan.pend = none ∧ t.plan.edits = [] ∧ t.plan.copy = 0 ∧
          Raised t 0x0B02 0xFFFF ((s.plan.gen + 1) % 2 ^ 32)
            (((s.sched.held0 ++ s.sched.held1).filter (fun d => decide (d.ctr < p.ctrPlan))).length) ∧
          (tied s = true → t.model.cur = s.model.pend ∧ t.model.gen = (s.model.gen + 1) % 2 ^ 32 ∧ t.model.status = .idle) ∧
          (tied s = false → t.model.cur = s.model.cur ∧ t.model.gen = s.model.gen) ∧
          ((∀ x l, p.gates = x :: l → x.1 ≠ 0) → t.phu.gatesDone = 0)) ∧
        (busy → s.plan.deferrals < 15 → ∃ t, exec (.planSwitch n) s = .next (flush t) ∧ t.plan.run = s.plan.run ∧
          Raised t 0x0B03 0xFFFF (s.plan.deferrals + 1) (planInFlight s) ∧
          (tied s = false ∨ s.model.deferrals < 15 → t.plan.status = .deferred ∧ t.plan.deferrals = s.plan.deferrals + 1 ∧
            (tied s = true → t.model.status = .deferred ∧ Raised t 0x0303 0xFFFF n.toNat 0)) ∧
          (tied s = true → 15 ≤ s.model.deferrals → t.plan.status = .refused ∧ t.model.status = .refused ∧ Raised t 0x0301 0xFFFF 8 0)) ∧
        (busy → 15 ≤ s.plan.deferrals → ∃ t, exec (.planSwitch n) s = .next (flush t) ∧ t.plan.run = s.plan.run ∧
          t.plan.status = .refused ∧ t.plan.reason = 11 ∧ t.plan.pend = none ∧ Raised t 0x0B01 0xFFFF 11 0 ∧
          (tied s = true → t.model.status = .refused ∧ t.model.reason = 6 ∧ Raised t 0x0301 0xFFFF 6 0)))

/-! ### The map and memory (R20 to R24, R316 to R343) -/

/-- R22 to R24, R317 to R320, R324, R328: the cluster's accesses. A load of the shared store or of DDR5 answers its bytes and changes no memory,
and a store writes exactly its bytes; a core that is the first of its clk at a bank has its turn at once, one of the same word finds what stood
there before this clk's write, and one of another word waits for the next clk; among other units' requests it waits for those of a higher class.
A word that stands uncorrectable answers an error with its event. A load of the secure region answers 0 and a store there is ignored, with event
0x0C0B of the core; an access outside the map is a bus error. The accesses of a bank's clk are log entry 71, the map's edges log entry 17. -/
def Obligations.ClusterLoadsAndStores : Prop :=
  ∀ (s : State) (c : Fin 8) (a : BitVec 40), appUp s = true → arithUp s = true →
    let s0 := ({ s with resp := .none } : State)
    let turn := (clkNow s).banks.find? (fun x => x.bank == bankKey a.toNat)
    let idle := s.mem.held.find? (fun x => x.1 == bankKey a.toNat) = none
    let word := (ssWord a.toNat).2 / 512
    (∀ (n : BitVec 7) (k : Nat), Settled s → accessArea s a.toNat n.toNat = .store k → ueAt s a.toNat = false →
      ueAt s (a.toNat + n.toNat - 1) = false → idle →
      (turn = none → ∃ t, exec (.busAccess c (.load a n none) []) s = .next t ∧ t.resp = .busData (ofLe (shownBytes s a.toNat n.toNat).1) ∧
        t = { s with clk := t.clk, freeCtr := t.freeCtr, resp := t.resp }) ∧
      (∀ x w, turn = some x → x.word = word → x.cores.contains c.val = false → x.before = some w → w.length = 64 →
        a.toNat % 64 + n.toNat ≤ 64 → ∃ t, exec (.busAccess c (.load a n none) []) s = .next t ∧
          t.resp = .busData (ofLe (slice w (a.toNat % 64) n.toNat)) ∧ t.now = s.now ∧ t.mem = s.mem) ∧
      (∀ x, turn = some x → x.word ≠ word → ∃ t v, exec (.busAccess c (.load a n none) []) s = .next t ∧ t.resp = .busData v ∧
        t.now = s.now + ticksPerClk s ∧ t.mem = s.mem)) ∧
    (∀ (b : Bytes) (k : Nat), accessArea s a.toNat b.length = .store k →
      (Settled s → turn = none → idle → ∃ t, exec (.busAccess c (.store a b) []) s = .next t ∧
        t.mem.bytes = cellPut s.mem.bytes a.toNat b ∧ t.resp = .busOk ∧ t = { s with clk := t.clk, mem := t.mem, resp := t.resp }) ∧
      (turn = none → idle → ∀ (u : BitVec 16) (w : BitVec 12), w.toNat ≠ word → busClass u.toNat ≠ 10 →
        ∃ t, exec (.busAccess c (.store a b) [⟨u, w, .read, 0⟩]) s = .next (flush t) ∧ t.mem.bytes = cellPut s.mem.bytes a.toNat b ∧
          t.resp = .busOk ∧ t.now = (if busClass u.toNat < 10 then s.now + ticksPerClk s else s.now)) ∧
      ∀ rivals, exec (.busAccess c (.store a b) rivals) s = .next (flush (bankRun (bankTurn s0 c.val a.toNat (storeAct a.toNat b.length)).2
        c.val a.toNat (storeAct a.toNat b.length) (fun s => answer (memPut s a.toNat b) .busOk) rivals))) ∧
    (∀ n : BitVec 7, accessArea s a.toNat n.toNat = .ddr →
      (srcFailed s 4 = true → Settled s → ∀ e r, exec (.busAccess c (.load a n e) r) s = .next { s with resp := .none }) ∧
      (srcFailed s 4 = false → ddrServes s a.toNat n.toNat = true →
        (ueAt s a.toNat = false → ueAt s (a.toNat + n.toNat - 1) = false → Settled s → ∀ r,
          exec (.busAccess c (.load a n none) r) s = .next (answer (shownBytes s0 a.toNat n.toNat).2
            (.busData (ofLe (shownBytes s a.toNat n.toNat).1)))) ∧
        ∀ r, ∃ t, exec (.busAccess c (.load a n (some true)) r) s = .next (flush t) ∧ t.resp = .busError ∧ t.mem.bytes = s.mem.bytes ∧
          Raised t 0x0C07 (chanUnit (ddrChan a.toNat)) (ddrChan a.toNat) (a.toNat / 256)) ∧
      (srcFailed s 4 = false → ddrServes s a.toNat n.toNat = false → Settled s → ∀ e r,
        exec (.busAccess c (.load a n e) r) s = .next { s with resp := .busError })) ∧
    (∀ b : Bytes, Settled s → srcFailed s 4 = false → accessArea s a.toNat b.length = .ddr → ddrServes s a.toNat b.length = true →
      ∀ r, exec (.busAccess c (.store a b) r) s = .next { memPut s a.toNat b with resp := .busOk }) ∧
    (∀ (k : Nat) (r : List BankReq),
      (∀ n : BitVec 7, accessArea s a.toNat n.toNat = .secure k → ∀ e, ∃ t, exec (.busAccess c (.load a n e) r) s = .next (flush t) ∧
        t.resp = .busData 0 ∧ Raised t 0x0C0B 0xFFFF (coreId c.val) k ∧ t.mem = s.mem) ∧
      (∀ b : Bytes, accessArea s a.toNat b.length = .secure k → ∃ t, exec (.busAccess c (.store a b) r) s = .next (flush t) ∧
        t.resp = .busOk ∧ Raised t 0x0C0B 0xFFFF (coreId c.val) k ∧ t.mem = s.mem)) ∧
    (∀ r, Settled s → a.toNat ≥ 0x2000000000 →
      (∀ n : BitVec 7, accessArea s a.toNat n.toNat = .local' → ∀ e, exec (.busAccess c (.load a n e) r) s =
        .next (localRead s0 a.toNat n.toNat)) ∧
      (∀ n : BitVec 7, accessArea s a.toNat n.toNat = .sync → n = 8 → a.toNat % 8 = 0 → ∀ e, exec (.busAccess c (.load a n e) r) s =
        .next { s with resp := .busData (ctrShown s ((a.toNat - ctrlBase - 0x300000) / 8)) }) ∧
      (∀ n : BitVec 7, accessArea s a.toNat n.toNat = .none → ∀ e, exec (.busAccess c (.load a n e) r) s = .next { s with resp := .busError }) ∧
      (∀ n : BitVec 7, accessArea s a.toNat n.toNat = .emram → ∀ e, exec (.busAccess c (.load a n e) r) s =
        .next (emramRead s0 a.toNat n.toNat)) ∧
      (∀ b : Bytes, accessArea s a.toNat b.length = .none ∨ accessArea s a.toNat b.length = .local' ∨ accessArea s a.toNat b.length = .emram →
        exec (.busAccess c (.store a b) r) s = .next { s with resp := .busError })) ∧
    (∀ r, a.toNat ≥ 0x2000000000 → a.toNat % 4 = 0 →
      (∀ e, accessArea s a.toNat 4 = .reg → exec (.busAccess c (.load a 4 e) r) s = .next (flush (registerRead s0 c (a.toNat - ctrlBase)))) ∧
      ∀ b : Bytes, b.length = 4 → accessArea s a.toNat 4 = .reg →
        exec (.busAccess c (.store a b) r) s = .next (flush (registerWrite s0 (.cluster c) (a.toNat - ctrlBase) (ofLe b))))

/-- R6, R7, R368, R466, R467: a write of a read-write register stores the bits that software can change; one of a read-only register stores
nothing; one of a write-1-to-clear register clears the bits written as 1 that no event of this clk has set; the cluster's write of a locked
register is ignored; a register of a gated unit takes nothing; a block without its clock answers a bus error with event 0x1207 of the writer; an
offset without a register is a bus error (log entry 64). -/
def Obligations.RegisterWritesFollowAccessCodes : Prop :=
  ∀ (s : State) (who : Writer) (o : BitVec 40) (v : BitVec 32), arithUp s = true →
    (match who with | .cluster _ => appUp s | .firmware _ => ioUp s) = true →
    let s0 := ({ s with resp := .none } : State)
    (∀ r, gatedBlock s o.toNat = none → (regUnit o.toNat).any (clockGated s) = false → regFind o.toNat = some r →
      let rw := r.acc = .rw ∨ (r.acc = .rwl ∧ lockedOut s who = false)
      (rw → exec (.registerWrite who o v) s = .next (flush (answer (rwWrite s0 o.toNat v.toNat r.mask) .busOk))) ∧
      (rw → Settled s → o.toNat ≠ Reg.uctlUnitSel → o.toNat ≠ Reg.phuCtrl → o.toNat ≠ Reg.cpmGate → o.toNat ≠ Reg.qmgrQtabLo →
        o.toNat ≠ Reg.qmgrQtabHi → o.toNat ≠ Reg.phuBarCtrl →
        exec (.registerWrite who o v) s = .next { regSet s o.toNat (v.toNat &&& r.mask) with resp := .busOk }) ∧
      (r.acc = .ro ∨ (r.acc = .rwl ∧ lockedOut s who = true) → Settled s → exec (.registerWrite who o v) s = .next { s with resp := .busOk }) ∧
      (r.acc = .w1c → Settled s → exec (.registerWrite who o v) s = .next { w1cClear s o.toNat (v.toNat &&& r.mask) with resp := .busOk }) ∧
      (r.acc = .w1c → Smap.get (fun _ => 0) (clkNow s).w1c o.toNat = 0 → w1cClear s o.toNat (v.toNat &&& r.mask) =
        regSet s o.toNat (regGet s o.toNat - (regGet s o.toNat &&& (v.toNat &&& r.mask)))) ∧
      (r.acc = .wo → exec (.registerWrite who o v) s = .next (flush (answer (woWrite s0 o.toNat v.toNat) .busOk)))) ∧
    (gatedBlock s o.toNat = none → (regUnit o.toNat).any (clockGated s) = true → (regFind o.toNat).isSome = true → Settled s →
      exec (.registerWrite who o v) s = .next { s with resp := .busOk }) ∧
    (gatedBlock s o.toNat = none → regFind o.toNat = none → Settled s → exec (.registerWrite who o v) s = .next { s with resp := .busError }) ∧
    (∀ b, gatedBlock s o.toNat = some b → ∃ t, exec (.registerWrite who o v) s = .next (flush t) ∧ t.resp = .busError ∧
      Raised t 0x1207 (writerUnit who) b (writerUnit who) ∧ t.mem = s.mem)

/-- R321, R325 to R327, R329, R334 to R337: a bank's stall is kept and reported above 1,024 clk; the background test takes the next region, the
first one out of turn where one waits, and returns it, and one that fails is retired onto a spare with event 0x0C03; the wipe's end is counted
with event 0x0C09; the scrub advances and counts what it finds; refresh, refresh management and calibration are counted, a hot component or a drift
above 1/4 UI raises event 0x0C08; and a failed channel closes both of its subchannels. No byte of memory changes. -/
def Obligations.MemoryUpkeep : Prop :=
  ∀ s : State,
    (arithUp s = true →
      (∀ u clk, idClass u.toNat = 0x0A → unitExists u.toNat = true →
        ∃ t, exec (.memStallLimit u clk) s = .next (flush t) ∧
          t.mem = (if idStack u.toNat = 0 then { s.mem with stall0 := max s.mem.stall0 clk.toNat }
            else { s.mem with stall1 := max s.mem.stall1 clk.toNat }) ∧
          (1024 < clk.toNat → Raised t 0x0C0A u.toNat clk.toNat 0)) ∧
      (∀ u clk, idClass u.toNat ≠ 0x0A ∨ unitExists u.toNat = false → Settled s → exec (.memStallLimit u clk) s = .next { s with resp := .none }) ∧
      (∀ k : Fin 2,
        let bg := fun (m : Mem) => if k = 0 then m.bg0 else m.bg1
        let turn := if k = 0 then s.mem.turn0 else s.mem.turn1
        let wipe := if k = 0 then s.mem.wiping0 else s.mem.wiping1
        let r := (bg s.mem).place
        (Settled s → bit (regF s Reg.sscCtrl) 0 = true → (bg s.mem).busy = false →
          ∃ t, exec (.bgtestRegionStart k) s = .next t ∧ (bg t.mem).busy = true ∧ t.mem.bytes = s.mem.bytes ∧
            (∀ p rest, turn = p :: rest → (bg t.mem).place = p) ∧ t = { s with mem := t.mem, resp := .none }) ∧
        (Settled s → bit (regF s Reg.sscCtrl) 0 = false ∨ (bg s.mem).busy = true →
          exec (.bgtestRegionStart k) s = .next { s with resp := .none }) ∧
        (Settled s → (bg s.mem).busy = true → ∃ t, exec (.bgtestRegionDone k false) s = .next t ∧ bg t.mem = ⟨r, false⟩ ∧
          t.mem.bytes = s.mem.bytes ∧ t.mem.retired = s.mem.retired ∧ t = { s with mem := t.mem, resp := .none }) ∧
        (∀ q, (bg s.mem).busy = true → r < 131072 → isRetired s k.val r = false → nextSpare s k.val (placeBank r) = some q →
          ∃ t, exec (.bgtestRegionDone k true) s = .next (flush t) ∧ bg t.mem = ⟨r, false⟩ ∧ t.mem.bytes = s.mem.bytes ∧
            t.mem.retired = s.mem.retired ++ [placeKey k.val r] ∧ t.mem.remap = cntPut s.mem.remap (placeKey k.val q) (r + 1) ∧
            Raised t 0x0C03 (bankGroup k.val (placeBank r)) (bankGroup k.val (placeBank r)) (placeBank r % 64 * 256 + placeRegion r)) ∧
        ((bg s.mem).busy = true → r < 131072 → isRetired s k.val r = false → nextSpare s k.val (placeBank r) = none →
          ∃ t, exec (.bgtestRegionDone k true) s = .next (flush t) ∧ t.mem.sparesOut = true ∧ t.mem.bytes = s.mem.bytes ∧
            Raised t 0x0C04 (bankGroup k.val (placeBank r)) (bankGroup k.val (placeBank r)) (placeBank r % 64 * 256 + placeRegion r)) ∧
        (Settled s → (bg s.mem).busy = false → ∀ f, exec (.bgtestRegionDone k f) s = .next { s with resp := .none }) ∧
        (wipe ≠ 0 → ∃ t, exec (.secureWipeDone k) s = .next (flush t) ∧
          t.mem = (if k = 0 then { s.mem with wiping0 := 0, wipes0 := satInc 16 s.mem.wipes0 }
            else { s.mem with wiping1 := 0, wipes1 := satInc 16 s.mem.wipes1 }) ∧ Raised t 0x0C09 0xFFFF k.val wipe) ∧
        (wipe = 0 → Settled s → exec (.secureWipeDone k) s = .next { s with resp := .none }))) ∧
    (memUp s = true → bit (regF s Reg.ddrCtrl) 0 = true → ∀ (a : BitVec 40) (ue : Bool), inDdr s a.toNat 1 = true →
      ∃ t, exec (.ddrScrubTick [(a, ue)]) s = .next (flush t) ∧ t.mem.bytes = s.mem.bytes ∧
        Raised t (if ue then 0x0C07 else 0x0C06) (chanUnit (ddrChan a.toNat)) (ddrChan a.toNat) (a.toNat / 256)) ∧
    (memUp s = true → Settled s → bit (regF s Reg.ddrCtrl) 0 = false → ∀ l, exec (.ddrScrubTick l) s = .next { s with resp := .none }) ∧
    (∀ n : Fin 4,
      (memUp s = true → Settled s → (chanGet s n.val).trained = true →
        let on := fun (i : Nat) => bit (regF s Reg.ddrCtrl) i = true
        (on 0 → ∃ t, exec (.ddrScrubTick []) s = .next t ∧ (chanGet t n.val).scrubPos =
            (if subBursts s ≤ (chanGet s n.val).scrubPos + 1 then 0 else (chanGet s n.val).scrubPos + 1) ∧ t.mem.bytes = s.mem.bytes ∧
            t = { s with mem := t.mem, resp := .none }) ∧
        (∀ tw : Bool, exec (.ddrRefresh n tw false) s = .next { chanUpd s n.val (fun c => { c with refreshes := c.refreshes + 1, ref2x := tw }) with
          resp := .none }) ∧
        (∀ tw : Bool, ∃ t, exec (.ddrRefresh n tw true) s = .next (flush t) ∧ Raised t 0x0C08 (chanUnit n.val) n.val 2 ∧
          (chanGet t n.val).refreshes = (chanGet s n.val).refreshes + 1 ∧ t.mem.bytes = s.mem.bytes) ∧
        (on 1 → exec (.ddrRfmRequest n) s = .next { chanUpd s n.val (fun c => { c with rfms := c.rfms + 1 }) with resp := .none }) ∧
        (¬ on 1 → exec (.ddrRfmRequest n) s = .next { s with resp := .none }) ∧
        (on 2 → exec (.ddrZqCal n) s = .next { chanUpd s n.val (fun c => { c with zqs := c.zqs + 1 }) with resp := .none }) ∧
        (∀ d : BitVec 16, on 2 → (toSigned 16 d.toNat).natAbs ≤ 16 → exec (.ddrOscMeasure n d) s =
          .next { chanUpd s n.val (fun c => { c with drift := toSigned 16 d.toNat }) with resp := .none }) ∧
        (∀ d : BitVec 16, on 2 → 16 < (toSigned 16 d.toNat).natAbs → ∃ t, exec (.ddrOscMeasure n d) s = .next (flush t) ∧
          Raised t 0x0C08 (chanUnit n.val) n.val 1 ∧ t.mem.bytes = s.mem.bytes) ∧
        (¬ on 2 → exec (.ddrZqCal n) s = .next { s with resp := .none } ∧ ∀ d, exec (.ddrOscMeasure n d) s = .next { s with resp := .none })) ∧
      (memUp s = true → Settled s → (chanGet s n.val).trained = false →
        (∀ tw hot : Bool, exec (.ddrRefresh n tw hot) s = .next { s with resp := .none }) ∧
        exec (.ddrRfmRequest n) s = .next { s with resp := .none } ∧ exec (.ddrZqCal n) s = .next { s with resp := .none } ∧
        ∀ d, exec (.ddrOscMeasure n d) s = .next { s with resp := .none }) ∧
      (mainUp s = true → ∃ t, exec (.ddrChannelFail n) s = .next (flush t) ∧ (chanGet t n.val).sc0 = false ∧ (chanGet t n.val).sc1 = false ∧
        t.mem.bytes = s.mem.bytes))

/-! ### Verdict, permit and safety (R344 to R376) -/

/-- R350, R351, R357, R359: the push to the stack opposite to the winner's, once in a cycle; a Chard's verdict that comes in time, and one that
comes late and stands for nothing; the comparison, once in a cycle, commits the winner's segment on agreement in the states that commit, withholds
it on a BLOCKED verdict (event 0x0D01, at DIS_COUNT of them 0x0D02), on a missing one and on a digest that differs (event 0x0D03), and has nothing
to commit without a winner. That time passes to its phase first is log entry 6. -/
def Obligations.VerdictPathCommits : Prop :=
  ∀ s : State, arithUp s = true →
    (∀ w, s.safety.winner = some w → s.safety.pushed = false → s.safety.compared = false →
      ∃ t, exec .chardPush s = .next (flush t) ∧ t.mem = s.mem ∧ t.safety = { s.safety with
        pushed := true, chardStack := 1 - idStack w.leek, noChard := !chardClaims s (1 - idStack w.leek) }) ∧
    (s.safety.winner = none ∨ s.safety.pushed = true ∨ s.safety.compared = true → Settled s →
      exec .chardPush s = .next { s with resp := .none }) ∧
    (∀ (u : BitVec 16) (clk : BitVec 32) (tk : Task), running s u.toNat = some tk → tk.desc.opId = 0x0601 →
      let inTime := tk.cycle = s.phu.cycle ∧ phase s ≤ 61604 ∧ s.safety.compared = false
      ∃ t, exec (.chardVerdict u clk) s = .next (flush t) ∧ (tk.desc.outQueue = 0xFFFFF → t.mem.bytes = s.mem.bytes) ∧
        (inTime → t.safety = { s.safety with verdict := chardVerdict s u.toNat tk clk.toNat }) ∧ (¬ inTime → t.safety = s.safety)) ∧
    (∀ (u : BitVec 16) (clk : BitVec 32), Settled s → (∀ tk, running s u.toNat = some tk → tk.desc.opId ≠ 0x0601) →
      exec (.chardVerdict u clk) s = .next { s with resp := .none }) ∧
    (s.safety.compared = true ∨ phaseRuns s = false → Settled s → exec .comparison s = .next { s with resp := .none }) ∧
    (∀ w, s.safety.winner = some w → s.safety.compared = false → phaseRuns s = true →
      let held := fun (u why : Nat) => ∃ t, exec .comparison s = .next (flush t) ∧
        t.safety = { s.safety with compared := true, outcome := 2 } ∧ Raised t 0x0D03 u s.phu.cycle why ∧ t.mem = s.mem
      (imposedAt (reachPhase s 61605) 0x0D03 = true ∨ s.safety.verdict = none → held 0xFFFF (if s.safety.noChard then 2 else 1)) ∧
      ∀ v, s.safety.verdict = some v → imposedAt (reachPhase s 61605) 0x0D03 = false →
        (v.candId ≠ w.candId → held 0xFFFF 1) ∧
        (v.candId = w.candId → v.clear = true → v.digest = (segOf s w).digest → ∃ t, exec .comparison s = .next (flush t) ∧
          t.safety = (if publishes s then { s.safety with compared := true, outcome := 0, next := some (segOf s w) }
            else { s.safety with compared := true, outcome := 4 }) ∧ t.mem = s.mem ∧ t.units = s.units) ∧
        (v.candId = w.candId → v.clear = true → v.digest ≠ (segOf s w).digest → held v.unit 3) ∧
        (v.candId = w.candId → v.clear = false →
          let n := (inWindow s.phu.cycle s.safety.par.disWindow s.safety.disCycles).length + 1
          ∃ t, exec .comparison s = .next (flush t) ∧ t.safety.outcome = 1 ∧ t.safety.next = s.safety.next ∧
            Raised t 0x0D01 w.leek v.candId (v.place * 2 ^ 24 + v.capsule * 2 ^ 16 + v.cause) ∧
            (n < s.safety.par.disCount → t.mem = s.mem ∧ t.units = s.units) ∧
            (s.safety.par.disCount ≤ n → t.safety.disCycles = [] ∧ Raised t 0x0D02 v.unit v.unit n))) ∧
    (s.safety.winner = none → s.safety.compared = false → phaseRuns s = true → Settled s →
      ∃ t, exec .comparison s = .next t ∧ t.safety = { s.safety with compared := true, outcome := 3 } ∧
        t = { s with safety := t.safety, phu := t.phu, now := t.now, resp := .none })

/-- R361 to R363: a stop request from the cluster lapses a permit held or granted with cause 3, both outputs low, and RELEASE clears the request;
PERMIT_B goes to the complement of PERMIT_A at 16,384 pu of a permitted cycle (that time passes to that phase first is log entry 6). -/
def Obligations.StopRequestsLapsePermit : Prop :=
  ∀ s : State, arithUp s = true →
    (appUp s = true → ∃ t, exec .hskStopRequest s = .next (flush t) ∧ t.safety.stopReq = true ∧ t.resp = .busOk ∧ Raised t 0x0D0A huskId 2 0 ∧
      (s.safety.permit = true ∨ s.safety.grant = true → PermitLow t ∧ t.safety.cause = 3 ∧ Raised t 0x0D04 huskId 3 s.phu.cycle) ∧
      (s.safety.permit = false → s.safety.grant = false → t.safety = { s.safety with stopReq := true }) ∧
      t.mem = s.mem ∧ t.units = s.units ∧ t.phu = s.phu) ∧
    (appUp s = true → Settled s → exec .hskStopRelease s = .next { s with safety := { s.safety with stopReq := false }, resp := .busOk }) ∧
    (Settled s → s.safety.permit = true → phaseRuns s = true → exec .permitBToggle s = .next { reachPhase s 16384 with
      safety := { s.safety with permitB := !s.safety.permitA }, resp := .none }) ∧
    (Settled s → s.safety.permit = false ∨ phaseRuns s = false → exec .permitBToggle s = .next { s with resp := .none })

/-- R369, R370: the procedure for a safety set over the mailbox: the CRC in force unlocks, a value in range is staged, the CRC of the new set
confirms; a wrong value, a set that breaks a condition and 65,536 cycles without a confirmation refuse it with event 0x0D08; a step out of its
turn and a value out of range abort. The values in force stand in each case. The abort codes are log entry 48. -/
def Obligations.SafetySetProcedure : Prop :=
  ∀ s : State, ioUp s = true →
    let abort := fun (code : Nat) => ({ s with od := { s.od with aborts := satInc 32 s.od.aborts }, resp := .sdoAbort code } : State)
    let refused := fun (why : Nat) => { s.safety with staged := [], spStatus := .refused, spReason := why, confirmed := none }
    let open' := s.safety.spStatus = .unlocked ∨ s.safety.spStatus = .confirmed
    (coeUp s = true →
      (∀ v : BitVec 32,
        (open' → Settled s → exec (.sparamUnlock v) s = .next (abort 0x08000020)) ∧
        (¬ open' → Settled s → v.toNat = sparCrc s.safety.par → exec (.sparamUnlock v) s = .next { s with
          safety := { s.safety with spStatus := .unlocked, staged := [], unlockCycle := s.phu.bcount }, resp := .sdoOk }) ∧
        (¬ open' → v.toNat ≠ sparCrc s.safety.par → ∃ t, exec (.sparamUnlock v) s = .next (flush t) ∧ Raised t 0x0D08 huskId 1 0 ∧
          t.safety = refused 1 ∧ t.resp = .sdoAbort 0x08000000 ∧ t.mem = s.mem)) ∧
      (∀ (sub : Fin 8) (v : BitVec 32), Settled s →
        (s.safety.spStatus = .unlocked → sparRange (sub.val + 1) v.toNat = true → exec (.sparamStage sub v) s = .next { s with
          safety := { s.safety with staged := s.safety.staged ++ [(sub.val + 1, v.toNat)] }, resp := .sdoOk }) ∧
        (s.safety.spStatus ≠ .unlocked → sparRange (sub.val + 1) v.toNat = true → exec (.sparamStage sub v) s = .next (abort 0x08000020)) ∧
        (sparRange (sub.val + 1) v.toNat = false → exec (.sparamStage sub v) s = .next (abort 0x06090030))) ∧
      (∀ v : BitVec 32,
        (s.safety.spStatus = .unlocked →
          (Settled s → sparJudge s v.toNat = 0 → exec (.sparamConfirm v) s = .next { s with
            safety := { s.safety with spStatus := .confirmed, confirmed := some (s.now, sparNew s) }, resp := .sdoOk }) ∧
          (sparJudge s v.toNat ≠ 0 → ∃ t, exec (.sparamConfirm v) s = .next (flush t) ∧ Raised t 0x0D08 huskId (sparJudge s v.toNat) 0 ∧
            t.safety = refused (sparJudge s v.toNat) ∧ t.resp = .sdoAbort 0x08000000 ∧ t.mem = s.mem)) ∧
        (s.safety.spStatus ≠ .unlocked → Settled s → exec (.sparamConfirm v) s = .next (abort 0x08000020)))) ∧
    (coeUp s = false → Settled s → ∀ (v : BitVec 32) (sub : Fin 8), exec (.sparamUnlock v) s = .next { s with resp := .noMailbox } ∧
      exec (.sparamStage sub v) s = .next { s with resp := .noMailbox } ∧ exec (.sparamConfirm v) s = .next { s with resp := .noMailbox }) ∧
    (s.safety.spStatus = .unlocked → s.safety.unlockCycle + 65536 ≤ s.phu.bcount →
      ∃ t, exec .sparamTimeout s = .next (flush t) ∧ Raised t 0x0D08 huskId 5 0 ∧ t.safety = refused 5 ∧ t.mem = s.mem) ∧
    (s.safety.spStatus ≠ .unlocked ∨ s.phu.bcount < s.safety.unlockCycle + 65536 → Settled s →
      exec .sparamTimeout s = .next { s with resp := .none })

/-- R364, R465: a condition of the safe state, a clock not restored in 50 ms and a failed watch oscillator take the outputs low, assert
PWR_KILL_N and raise event 0x0D06 with the cause; a condition that the state does not bear out changes nothing. -/
def Obligations.SafeStateLowersOutputs : Prop :=
  ∀ s : State,
    (∀ c : SafeCause, aonUp s = true → safeHolds s c = true → ∃ t, exec (.safeState c) s = .next (flush t) ∧ Dead t ∧
      Raised t 0x0D06 huskId (safeCode c) 0 ∧ t.logs.lastCause = safeCode c ∧ t.mem = s.mem ∧ t.units = s.units ∧ t.phu = s.phu) ∧
    (∀ c : SafeCause, aonUp s = true → Settled s → safeHolds s c = false → exec (.safeState c) s = .next { s with resp := .none }) ∧
    (∀ (n : Fin 5) (p : Nat × Nat), mainUp s = true → s.cpm.failed.find? (fun (p : Nat × Nat) => p.1 == n.val + 1) = some p →
      ∃ t, exec (.clkTimeout n) s = .next (flush t) ∧ Dead t ∧ Raised t 0x0D06 huskId 3 0 ∧ t.mem = s.mem) ∧
    (∀ n : Fin 5, mainUp s = true → Settled s → s.cpm.failed.find? (fun (p : Nat × Nat) => p.1 == n.val + 1) = none →
      exec (.clkTimeout n) s = .next { s with resp := .none }) ∧
    (aonUp s = true → s.cpm.watchOk = true → ∃ t, exec .watchOscFail s = .next (flush t) ∧ Dead t ∧ Raised t 0x0D06 huskId 3 0 ∧
      Raised t 0x1201 0xFFFF 6 s.phu.cycle ∧ t.cpm.watchOk = false ∧ t.mem = s.mem) ∧
    (aonUp s = true → Settled s → s.cpm.watchOk = false → exec .watchOscFail s = .next { s with resp := .none })

/-- R364: the device never leaves the safe state on its own: no command but a new power-up changes the safety outputs, memory, a register or
the PHU. -/
def Obligations.SafeStateAbsorbs : Prop :=
  ∀ (s : State) (c : Instr), s.safety.safeState = true → c ≠ .aonPorstLow →
    ∃ t, exec c s = .next t ∧ t.safety = s.safety ∧ t.mem = s.mem ∧ t.regs = s.regs ∧ t.phu = s.phu ∧ t.sched = s.sched ∧ t.od = s.od ∧
      (Dead s → Dead t)

/-! ### EtherCAT (R415 to R434) -/

/-- R417: the AL states. INIT is granted from every state, a request outside the table and one whose condition fails are refused with the
status code, PREOP to SAFEOP to OP rises as the table says, each change raises event 0x1001, and the SM2 watchdog takes OP to SAFEOP. SAFEOP
forgets the RxPDO of the time before its entry. While the PHYs are held in reset no frame reaches the slave (R419). That a request for the
present state is granted is log entry 25. -/
def Obligations.AlStatesFollowTable : Prop :=
  ∀ (s : State), ioUp s = true →
    (s.od.phyReset = true → ∀ r : BitVec 4, exec (.alStateRequest r) s = .next s) ∧
    (s.od.phyReset = false →
      (∀ r : BitVec 4, Settled s → alJudge s r.toNat ≠ 0 →
        exec (.alStateRequest r) s = .next { s with od := { s.od with alCode := alJudge s r.toNat, alErr := true }, resp := .none }) ∧
      (∀ r : BitVec 4, Settled s → alJudge s r.toNat = 0 → alOf r.toNat = s.od.al →
        exec (.alStateRequest r) s = .next { s with od := { s.od with alCode := 0, alErr := false }, resp := .none }) ∧
      (∀ r : BitVec 4, alJudge s r.toNat = 0 → ∃ t, exec (.alStateRequest r) s = .next (flush t) ∧ t.od.al = alOf r.toNat ∧ t.od.alCode = 0 ∧
        t.od.alErr = false ∧ (s.od.al ≠ alOf r.toNat → Raised t 0x1001 ecatId r.toNat 0) ∧
        (s.od.al ≠ alOf r.toNat → alOf r.toNat = .safeop → t.od.rxSeen = false) ∧
        (s.od.al = .op → alOf r.toNat ≠ .op → t.od.fsoe.st = .reset) ∧
        (alOf r.toNat = .init → t.od.foe = none ∨ s.od.al = .init) ∧
        (s.od.al ≠ .preop → t.mem = s.mem ∧ t.units = s.units)) ∧
      alJudge s 1 = 0 ∧
      (s.od.al = .init → alJudge s 2 = (if smIs s.od.sm0 0x1000 1024 true && smIs s.od.sm1 0x1400 1024 true then 0 else 0x16)) ∧
      (s.od.al = .init → alJudge s 3 = (if s.cpm.boot = .recovery then 0 else 0x11)) ∧
      (s.od.al = .preop → (smIs s.od.sm2 0x1800 199 false && smIs s.od.sm3 0x1C00 (1031 + 8 * objW s 0x1A01 0) false) = false →
        alJudge s 4 = 0x17) ∧
      (s.od.al = .preop → (smIs s.od.sm2 0x1800 199 false && smIs s.od.sm3 0x1C00 (1031 + 8 * objW s 0x1A01 0) false) = true →
        objW s 0x1C13 0 = 3 ∨ objW s 0x1A01 0 = 0 →
        alJudge s 4 = (if objW s 0x2100 1 = 1 ∧ s.od.sync0 = false then 0x30
          else if objW s 0x2100 1 = 1 ∧ s.od.sync0Ns ≠ objW s 0x2100 2 then 0x35 else 0)) ∧
      (s.od.al = .safeop → alJudge s 8 = (if s.od.rxSeen = false then 0x19 else if s.phu.st ≠ .locked then 0x1A else 0)) ∧
      (∀ r : BitVec 4, s.od.al = .op ∨ s.od.al = .boot → r.toNat ≠ 1 → r.toNat ≠ alCodeOf s.od.al → alJudge s r.toNat = 0x11)) ∧
    (s.od.al = .op → ∃ t, exec .sm2Watchdog s = .next (flush t) ∧ t.od.al = .safeop ∧ t.od.alCode = 0x1B ∧ t.od.alErr = true ∧
      Raised t 0x1001 ecatId 4 0x1B ∧ t.od.fsoe.st = .reset ∧ t.od.rxSeen = false ∧ t.mem = s.mem ∧ t.units = s.units) ∧
    (s.od.al ≠ .op → Settled s → exec .sm2Watchdog s = .next { s with resp := .none })

/-- R415, R419, R424, R427, R433: the slave controller's registers and what frames meet there, a RAM error with event 0x1009, a lost link with
event 0x1004, a refused SII write with event 0x1008, and an RxPDO buffer, of which the last one stands for the boundary; in replay the recorded
state takes its place (R408). While the PHYs are held in reset nothing comes in. -/
def Obligations.SlaveControllerTakesFrames : Prop :=
  ∀ s : State, ioUp s = true →
    (s.od.phyReset = true → (∀ a, exec (.escRegisterAccess a) s = .next s) ∧ (∀ b, exec (.rxpdoBufferDone b) s = .next s) ∧
      exec .siiWrite s = .next s ∧ (Settled s → ∀ p up, exec (.ecatLinkChange p up) s = .next { s with resp := .none })) ∧
    (s.od.phyReset = false → Settled s →
      (∀ (n : Fin 4) (st len : BitVec 16) (mb on : Bool),
        let c : SmCfg := { start := st.toNat, len := len.toNat, mailbox := mb, on := on }
        exec (.escRegisterAccess (.sm n st len mb on)) s = .next { s with
          od := { s.od with sm0 := if n = 0 then c else s.od.sm0, sm1 := if n = 1 then c else s.od.sm1, sm2 := if n = 2 then c else s.od.sm2
                            sm3 := if n = 3 then c else s.od.sm3 },
          resp := .none }) ∧
      (∀ (on : Bool) (ns : BitVec 32), exec (.escRegisterAccess (.sync0 on ns)) s = .next { s with
        od := { s.od with sync0 := on, sync0Ns := ns.toNat }, resp := .none }) ∧
      (∀ v : Bool, exec (.escRegisterAccess (.dcTime v)) s = .next { s with od := { s.od with dcSync := v }, resp := .none }) ∧
      (∀ p : Fin 2, exec (.escRegisterAccess (.rxError p)) s = .next { s with
        od := { s.od with err0 := if p = 0 then satInc 32 s.od.err0 else s.od.err0, err1 := if p = 0 then s.od.err1 else satInc 32 s.od.err1 },
        resp := .none }) ∧
      (∀ b : Bytes, s.od.al = .safeop ∨ s.od.al = .op →
        let new : RxIn := { tick := s.now, state := if s.det.replay then none else some (fit 192 b), frame := some (fit 7 (b.drop 192)) }
        exec (.rxpdoBufferDone b) s = .next { s with
          od := { s.od with rxSeen := true, rxQ := (s.od.rxQ.filter (fun x => x.tick != s.now)).getLast?.toList ++ [new] }, resp := .none }) ∧
      (∀ b : Bytes, s.od.al ≠ .safeop → s.od.al ≠ .op → exec (.rxpdoBufferDone b) s = .next { s with resp := .none })) ∧
    (s.od.phyReset = false →
      (∃ t, exec .siiWrite s = .next (flush t) ∧ Raised t 0x1008 ecatId 0 0 ∧ t.od = s.od ∧ t.mem = s.mem) ∧
      ∀ a : BitVec 16, ∃ t, exec (.escRegisterAccess (.ramError a)) s = .next (flush t) ∧ Raised t 0x1009 ecatId ecatId a.toNat ∧ t.od = s.od ∧
        t.mem = s.mem) ∧
    (∀ p : Fin 2, s.od.phyReset = false →
      let link := fun (s : State) => if p.val = 0 then s.od.link0 else s.od.link1
      (link s = true → ∃ t, exec (.ecatLinkChange p false) s = .next (flush t) ∧ Raised t 0x1004 ecatId p.val 0 ∧ link t = false ∧
        (if p.val = 0 then t.od.lost0 = satInc 8 s.od.lost0 else t.od.lost1 = satInc 8 s.od.lost1) ∧ t.mem = s.mem ∧ t.safety = s.safety) ∧
      (link s = false → Settled s → exec (.ecatLinkChange p true) s = .next { s with
        od := { s.od with link0 := p.val = 0 || s.od.link0, link1 := p.val ≠ 0 || s.od.link1 }, resp := .none }) ∧
      ∀ up, link s = up → Settled s → exec (.ecatLinkChange p up) s = .next { s with resp := .none })

/-- R430, R363: the FSoE connection: each step follows its frame in the clk of a boundary and in its turn, RUN_ENABLE follows the data frame in
OP, an error, a parameter frame that fails and the watchdog reset the connection with event 0x1005 and RUN_ENABLE 0. The reset reasons are log
entry 27. -/
def Obligations.FsoeConnectionSteps : Prop :=
  ∀ s : State,
    (ioUp s = true → s.phu.atBound = true → objN s 0x2002 1 ≠ 0 → s.od.al = .safeop ∨ s.od.al = .op →
      let put := fun (f : Fsoe) => ({ s with od := { s.od with fsoe := f }, resp := .none } : State)
      let stays := fun (r : FsoeIn) => Settled s → exec (.fsoeFrameRx r) s = .next { s with resp := .none }
      let resets := fun (r : FsoeIn) (why was : Nat) => ∃ t, exec (.fsoeFrameRx r) s = .next (flush t) ∧ t.od.fsoe.st = .reset ∧
        t.safety.runEnable = false ∧ Raised t 0x1005 ecatId why was ∧ t.mem = s.mem
      (Settled s → s.od.fsoe.st = .reset → exec (.fsoeFrameRx .session) s = .next (put { s.od.fsoe with st := .session })) ∧
      (s.od.fsoe.st ≠ .reset → stays .session) ∧
      (∀ c : BitVec 16, Settled s → s.od.fsoe.st = .session →
        exec (.fsoeFrameRx (.connection c)) s = .next (put { s.od.fsoe with st := .connection, connId := c.toNat })) ∧
      (∀ c, s.od.fsoe.st ≠ .session → stays (.connection c)) ∧
      (∀ wd par : BitVec 16, s.od.fsoe.st = .connection →
        let bad := wd.toNat < 2 ∨ 1000 < wd.toNat
        (Settled s → ¬ bad → par.toNat = sparCrc s.safety.par % 65536 →
          exec (.fsoeFrameRx (.parameter wd par)) s = .next (put { s.od.fsoe with st := .parameter, wdMs := wd.toNat })) ∧
        (bad → resets (.parameter wd par) 9 3) ∧
        (¬ bad → par.toNat ≠ sparCrc s.safety.par % 65536 → resets (.parameter wd par) 11 3)) ∧
      (∀ wd par, s.od.fsoe.st ≠ .connection → stays (.parameter wd par)) ∧
      (s.od.al = .op → s.od.fsoe.st = .parameter ∨ s.od.fsoe.st = .data →
        ∃ t, exec (.fsoeFrameRx .data) s = .next (flush t) ∧ t.od.fsoe.st = .data ∧
          t.safety.runEnable = bit (getLe s.od.fsoe.mframe 1 1) 0 ∧ t.mem = s.mem ∧ t.units = s.units) ∧
      (s.od.al ≠ .op ∨ (s.od.fsoe.st ≠ .parameter ∧ s.od.fsoe.st ≠ .data) → stays .data) ∧
      (∀ e : BitVec 8, s.od.fsoe.st ≠ .reset → resets (.error e) e.toNat (fsCode s.od.fsoe.st)) ∧
      (∀ e, s.od.fsoe.st = .reset → stays (.error e))) ∧
    (ioUp s = true → Settled s → s.phu.atBound = false ∨ objN s 0x2002 1 = 0 ∨ (s.od.al ≠ .safeop ∧ s.od.al ≠ .op) →
      ∀ r, exec (.fsoeFrameRx r) s = .next { s with resp := .none }) ∧
    (aonUp s = true → s.od.fsoe.st ≠ .reset → ∃ t, exec .fsoeWatchdog s = .next (flush t) ∧ t.od.fsoe.st = .reset ∧
      t.safety.runEnable = false ∧ Raised t 0x1005 ecatId 5 (fsCode s.od.fsoe.st) ∧ t.mem = s.mem ∧
      (s.safety.par.fsoeReq = 1 → s.safety.permit = true → PermitLow t ∧ t.safety.cause = 2)) ∧
    (aonUp s = true → Settled s → s.od.fsoe.st = .reset → exec .fsoeWatchdog s = .next { s with resp := .none })

/-- R431: files over EtherCAT. A request that no case refuses opens a transfer with packet 1, and ends one that is open; a refused one raises
event 0x1007; a packet in sequence stores its bytes behind those before it and nothing else in memory, and a short one ends the transfer with
event 0x1006; one that does not fit ends it with code 0x8003, one out of sequence with code 0x8005; the black box is read whole. Without a
mailbox there is no answer of FoE. -/
def Obligations.FilesOverEthercat : Prop :=
  ∀ s : State, ioUp s = true → s.od.phyReset = false →
    (s.od.al = .init → Settled s → (∀ n pw, exec (.foeWriteOpen n pw) s = .next { s with resp := .noMailbox } ∧
      exec (.foeRead n pw) s = .next { s with resp := .noMailbox }) ∧ ∀ k b, exec (.foeData k b) s = .next { s with resp := .noMailbox }) ∧
    (s.od.al ≠ .init →
      (∀ (n : FoeName) (pw : BitVec 32),
        let x : FoeX := { file := foeNo n, base := (foeTarget s (foeNo n)).1, room := (foeTarget s (foeNo n)).2, packet := 1, got := 0 }
        (s.od.foe = none → Settled s → foeRefuse s n true pw.toNat = 0 → exec (.foeWriteOpen n pw) s = .next { s with
          od := { s.od with foe := some x, foeStatus := 1, foeFile := foeNo n, foeBytes := 0 }, resp := .foeAck }) ∧
        (∀ y, s.od.foe = some y → foeRefuse s n true pw.toNat = 0 → ∃ t c, exec (.foeWriteOpen n pw) s = .next (flush t) ∧
          t.od.foe = some x ∧ Raised t 0x1007 ecatId y.file c ∧ t.resp = .foeAck ∧ t.mem = s.mem) ∧
        (foeRefuse s n true pw.toNat ≠ 0 → ∃ t, exec (.foeWriteOpen n pw) s = .next (flush t) ∧
          t.resp = .foeError (foeRefuse s n true pw.toNat) ∧ Raised t 0x1007 ecatId (foeNo n) (foeRefuse s n true pw.toNat) ∧
          t.od.foe = none ∧ t.mem = s.mem)) ∧
      (∀ (x : FoeX) (k : BitVec 32) (b : Bytes), s.od.foe = some x →
        (x.got + b.length ≤ x.room → k.toNat = x.packet → Settled s → 1012 ≤ b.length →
          exec (.foeData k b) s = .next { memPut s (x.base + x.got) b with
            od := { s.od with foe := some { x with packet := x.packet + 1, got := x.got + b.length }, foeBytes := x.got + b.length },
            resp := .foeAck }) ∧
        (x.got + b.length ≤ x.room → k.toNat = x.packet → b.length < 1012 → ∃ t, exec (.foeData k b) s = .next (flush t) ∧ t.od.foe = none ∧
          t.od.foeStatus = 2 ∧ t.mem.bytes = cellPut s.mem.bytes (x.base + x.got) b ∧ Raised t 0x1006 ecatId x.file (x.got + b.length)) ∧
        (x.got + b.length ≤ x.room → k.toNat ≠ x.packet → ∃ t, exec (.foeData k b) s = .next (flush t) ∧ t.od.foe = none ∧
          t.resp = .foeError 0x8005 ∧ Raised t 0x1007 ecatId x.file 0x8005 ∧ t.mem = s.mem) ∧
        (x.room < x.got + b.length → ∃ t, exec (.foeData k b) s = .next (flush t) ∧ t.od.foe = none ∧
          t.resp = .foeError 0x8003 ∧ Raised t 0x1007 ecatId x.file 0x8003 ∧ t.mem = s.mem)) ∧
      (s.od.foe = none → Settled s → ∀ k b, exec (.foeData k b) s = .next { s with resp := .foeError 0x8005 }) ∧
      (∀ (n : FoeName) (pw : BitVec 32),
        (foeRefuse s n false pw.toNat = 0 → ∃ t b, exec (.foeRead n pw) s = .next (flush t) ∧ t.resp = .foeData b ∧ t.od.foeStatus = 2 ∧
          Raised t 0x1006 ecatId 6 b.length ∧ t.mem = s.mem ∧ t.safety = s.safety) ∧
        (foeRefuse s n false pw.toNat ≠ 0 → ∃ t, exec (.foeRead n pw) s = .next (flush t) ∧
          t.resp = .foeError (foeRefuse s n false pw.toNat) ∧ Raised t 0x1007 ecatId (foeNo n) (foeRefuse s n false pw.toNat) ∧ t.mem = s.mem)))

/-- R312, R420 to R423: an upload and a driver read answer an object's value and change nothing but the answer; an unknown object, a wrong length,
a value out of range and an access that its code forbids abort with the lowest code that applies and change no value; a write of an RW object is
kept for the next boundary, one of an RWP object in INIT or PREOP for the state to leave PREOP, and one of a command object does what the object
says; the information service lists every object. The forms of complete access are log entry 26. -/
def Obligations.ObjectsAreReadAndWritten : Prop :=
  ∀ (s : State) (i : BitVec 16) (k : BitVec 8), ioUp s = true → Settled s →
    let s0 := ({ s with resp := .none } : State)
    let abort := fun (c : Nat) => ({ s with od := { s.od with aborts := satInc 32 s.od.aborts }, resp := .sdoAbort c } : State)
    let cmds : List (Nat × Nat) := [(0x1010, 1), (0x1011, 1), (0x2300, 8), (0x2405, 3), (0x2603, 12), (0x2901, 4), (0x2B00, 4), (0x2F00, 3),
      (0x2F01, 1), (0x4001, 1), (0x4001, 2), (0x5000, 4), (0x5001, 3), (0x5002, 2), (0x5003, 2), (0x5003, 3)]
    let kept := fun v : Int => ({ objSet s i.toNat k.toNat v with
      od := { (objSet s i.toNat k.toNat v).od with pendW := s.od.pendW ++ [(i.toNat, k.toNat, v, s.now)] } } : State)
    let writes := fun (via : Via) (run : Bytes → Bool → State → Prop) (ok' : State → State) (no : Nat → State) (done : Did → State) =>
      ∀ (b : Bytes) (ok : Bool),
        (objFind i.toNat k.toNat = none → run b ok (no (if objExists i.toNat then 0x06090011 else 0x06020000))) ∧
        ∀ o, objFind i.toNat k.toNat = some o →
          let v := tyVal o.ty (ofLe b)
          let c := writeCheck s (withVal s o i.toNat k.toNat b) via i.toNat k.toNat b
          (c ≠ 0 → run b ok (no c)) ∧
          (c = 0 → run b ok (flush (done (applyOne s0 o i.toNat k.toNat b ok)))) ∧
          (c = 0 → (i.toNat, k.toNat) ∉ cmds → o.acc = .rw → discards s i.toNat = false → run b ok (ok' (kept v))) ∧
          (c = 0 → (i.toNat, k.toNat) ∉ cmds → o.acc = .rwp → discards s i.toNat = false → run b ok (ok' (objSet s i.toNat k.toNat v))) ∧
          (o.acc = .ro → c = 0x06010002) ∧ (o.acc ≠ .ro → b.length ≠ tyBytes o.ty → c = 0x06070010) ∧
          (o.acc ≠ .ro → b.length = tyBytes o.ty → rngOk (withVal s o i.toNat k.toNat b) o i.toNat k.toNat v = false → c = 0x06090030)
    (coeUp s = true →
      (∀ b, objReadOne s i.toNat k.toNat = .inr b → exec (.sdoUpload i k false) s = .next { s with resp := .sdoData b }) ∧
      (∀ c, objReadOne s i.toNat k.toNat = .inl c → exec (.sdoUpload i k false) s = .next (abort c)) ∧
      (∀ b, readAll s i.toNat k.toNat = .inr b → exec (.sdoUpload i k true) s = .next { s with resp := .sdoData b }) ∧
      (∀ c, readAll s i.toNat k.toNat = .inl c → exec (.sdoUpload i k true) s = .next (abort c)) ∧
      (objExists i.toNat = false → exec (.sdoUpload i k false) s = .next (abort 0x06020000)) ∧
      writes .mailbox (fun b ok t => exec (.sdoDownload i k false b ok) s = .next t) (fun t => { t with resp := .sdoOk })
        (fun c => abort (c % busyMark)) sdoEnd ∧
      (∀ b ok, exec (.sdoDownload i k true b ok) s = .next (flush (sdoEnd (writeAll s0 .mailbox i.toNat k.toNat b ok)))) ∧
      exec (.sdoInfo .list) s = .next { s with resp := .infoList objList } ∧
      (∀ o, (objSubs i.toNat).findSome? (fun k => objFind i.toNat k) = some o →
        exec (.sdoInfo (.object i)) s = .next { s with resp := .infoList [i.toNat, tyCode o, maxN (objSubs i.toNat)] }) ∧
      ((objSubs i.toNat).findSome? (fun k => objFind i.toNat k) = none → exec (.sdoInfo (.object i)) s = .next (abort 0x06020000)) ∧
      (∀ o, objFind i.toNat k.toNat = some o →
        exec (.sdoInfo (.entry i k)) s = .next { s with resp := .infoList [tyCode o, 8 * tyBytes o.ty, accBits o.acc] }) ∧
      (objFind i.toNat k.toNat = none →
        exec (.sdoInfo (.entry i k)) s = .next (abort (if objExists i.toNat then 0x06090011 else 0x06020000)))) ∧
    (coeUp s = false → (∀ a, exec (.sdoUpload i k a) s = .next { s with resp := .noMailbox }) ∧
      (∀ a b ok, exec (.sdoDownload i k a b ok) s = .next { s with resp := .noMailbox }) ∧
      ∀ r, exec (.sdoInfo r) s = .next { s with resp := .noMailbox }) ∧
    (appUp s = true →
      (∀ n : BitVec 32,
        (∀ b, objReadOne s i.toNat k.toNat = .inr b →
          exec (.driverObjRead i k n) s = .next { s with resp := if b.length = n.toNat then .drv 0 b else .drv (-1) [] }) ∧
        ∀ c, objReadOne s i.toNat k.toNat = .inl c → exec (.driverObjRead i k n) s = .next { s with resp := .drv (drvCode c) [] }) ∧
      writes .driver (fun b ok t => exec (.driverObjWrite i k b ok) s = .next t) (fun t => { t with resp := .drv 0 [] })
        (fun c => { s with resp := .drv (drvCode c) [] }) drvEnd ∧
      drvCode 0x06010002 = -4 ∧ drvCode 0x06070010 = -1 ∧ drvCode 0x06090030 = -1 ∧ drvCode 0x08000000 = -3 ∧ drvCode busyCode = -2)

/-- R425, R469, R473: the parameters as written are stored and the store is cleared; Watch is refused while the permit is held, and another power
state waits for the next boundary; a device reset in INIT or PREOP without a permit starts the boot anew with cause 3 and keeps what eMRAM holds.
That memory lists nothing after it is log entries 2 and 16. -/
def Obligations.ParametersStoreAndDeviceResets : Prop :=
  ∀ s : State, ioUp s = true →
    let aborted := ({ s with od := { s.od with aborts := satInc 32 s.od.aborts }, resp := .sdoAbort 0x08000000 } : State)
    let svc := { s.svc with writes := s.svc.writes + 1 }
    (Settled s → exec .storeParameters s = .next { s with
        od := { s.od with stored := s.od.obj.filter (fun p => match objFind (p.1 / 256) (p.1 % 256) with
          | some o => o.acc == .rw || o.acc == .rwp
          | none => false) },
        svc := svc, resp := .sdoOk } ∧
      exec .restoreDefaults s = .next { s with od := { s.od with stored := [] }, svc := svc, resp := .sdoOk }) ∧
    (Settled s → s.safety.permit = true → exec (.pstateRequest 1) s = .next aborted) ∧
    (Settled s → ∀ v : Fin 2, v = 0 ∨ s.safety.permit = false →
      (s.det.replay = false → exec (.pstateRequest v) s = .next { objSet s 0x2F00 3 v.val with
        od := { (objSet s 0x2F00 3 v.val).od with pendW := s.od.pendW ++ [(0x2F00, 3, (v.val : Int), s.now)] }, resp := .sdoOk }) ∧
      (s.det.replay = true → exec (.pstateRequest v) s = .next { s with resp := .sdoOk })) ∧
    (rwpOpen s = true → s.safety.permit = false → ∃ t, exec .deviceResetCommand s = .next (flush t) ∧ t.cpm.boot = .booting ∧ t.cpm.step = 0 ∧
      t.cpm.cause = 3 ∧ Raised t 0x1208 0xFFFF 3 0 ∧ t.phu = State.reset.phu ∧ t.mem.bytes = [] ∧ t.od.stored = s.od.stored ∧
      t.safety.par = s.safety.par ∧ t.logs.box = s.logs.box ∧ t.resp = .sdoOk) ∧
    (Settled s → rwpOpen s = false ∨ s.safety.permit = true → exec .deviceResetCommand s = .next aborted)

/-! ### Reset, clocks and power (R443 to R478) -/

/-- R473, R475, R462: the resets and the boot. A power-on reset leaves every output low, no phase and no memory, and keeps the safety set and
the black box; the release starts the boot with event 0x1208; REFCLK and the PLLs are counted; locked PLLs start the firmware image of a VALID
copy in AL state INIT, or the recovery where BOOT_SEL asks for it; a PLL not locked at the fourth count stops the boot; a step out of its turn
changes nothing. That memory lists nothing after a reset is log entries 2 and 16. -/
def Obligations.ResetAndBootSequence : Prop :=
  ∀ s : State,
    (∃ t, exec .aonPorstLow s = .next t ∧ t.cpm.boot = .aonReset ∧ t.cpm.cause = 1 ∧ PermitLow t ∧ t.safety.faultN = false ∧
      t.safety.lock = false ∧ t.safety.safeState = false ∧ t.phu = State.reset.phu ∧ t.mem.bytes = [] ∧ t.safety.par = s.safety.par ∧
      t.logs.box = s.logs.box ∧ t.pending = s.pending) ∧
    (s.cpm.boot = .aonReset → exec .aonPorstRelease s = .next { unitUpd s huskId (fun r => { r with st := .test, ep := true }) with
      cpm := { s.cpm with boot := .mainReset, watchOk := true, aonTick := s.now } }) ∧
    (s.cpm.boot ≠ .aonReset → exec .aonPorstRelease s = .next s) ∧
    (aonUp s = true → ∃ t, exec .porstLow s = .next t ∧ t.cpm.boot = .mainReset ∧ t.cpm.cause = 2 ∧ PermitLow t ∧ t.phu = State.reset.phu ∧
      t.mem.bytes = [] ∧ t.safety.par = s.safety.par ∧ t.logs.box = s.logs.box) ∧
    (aonUp s = false → exec .porstLow s = .next s ∧ exec .refclkStable s = .next s ∧ ∀ b, exec (.porstRelease b) s = .next s) ∧
    (∀ b : Bool, aonUp s = true →
      (s.cpm.boot = .mainReset → ∃ t, exec (.porstRelease b) s = .next (flush t) ∧ t.cpm.boot = .booting ∧
        t.cpm.step = 0 ∧ t.cpm.bootSel = b ∧ s.cpm.aonTick + 900000 ≤ t.now ∧ Raised t 0x1208 0xFFFF s.cpm.cause 0 ∧ t.units = s.units ∧ t.mem = s.mem) ∧
      (s.cpm.boot ≠ .mainReset → Settled s → exec (.porstRelease b) s = .next { s with resp := .none })) ∧
    (aonUp s = true → Settled s → s.cpm.boot = .booting → s.cpm.refOk = false → ∃ t, exec .refclkStable s = .next t ∧
      t.cpm = { s.cpm with refOk := true, step := 1 } ∧ t = { s with cpm := t.cpm, now := t.now, phu := t.phu, resp := .none } ∧
      s.cpm.bootTick + 23592960 ≤ t.now) ∧
    (aonUp s = true → Settled s → s.cpm.boot ≠ .booting ∨ s.cpm.refOk = true → exec .refclkStable s = .next { s with resp := .none }) ∧
    (∀ (locks : BitVec 4) (imageOk osOk : Bool), aonUp s = true →
      (s.cpm.boot ≠ .booting ∨ s.cpm.refOk = false ∨ s.cpm.step ≠ 1 → Settled s →
        exec (.pllLockCheck locks imageOk osOk) s = .next { s with resp := .none }) ∧
      (s.cpm.boot = .booting → s.cpm.refOk = true → s.cpm.step = 1 →
        (locks ≠ 15 → s.cpm.lockTries < 3 → Settled s → ∃ t, exec (.pllLockCheck locks imageOk osOk) s = .next t ∧
          t.cpm = { s.cpm with pllLock := locks.toNat, osOk := osOk, lockTries := s.cpm.lockTries + 1 } ∧
          t = { s with cpm := t.cpm, now := t.now, phu := t.phu, resp := .none }) ∧
        (locks ≠ 15 → 3 ≤ s.cpm.lockTries → ∃ t, exec (.pllLockCheck locks imageOk osOk) s = .next (flush t) ∧ t.cpm.boot = .stopped ∧
          Raised t 0x1206 0xFFFF 2 1 ∧ t.units = s.units ∧ t.mem = s.mem) ∧
        (locks = 15 → s.cpm.bootSel = true ∨ imageOk = false ∨ bootCopy s = none →
          ∃ t, exec (.pllLockCheck locks imageOk osOk) s = .next (flush t) ∧ t.cpm.boot = .recovery ∧ t.od.al = .boot ∧ t.od.phyReset = false ∧
            t.units = s.units ∧ t.mem.bytes = s.mem.bytes) ∧
        (∀ k, locks = 15 → s.cpm.bootSel = false → imageOk = true → bootCopy s = some k →
          ∃ t, exec (.pllLockCheck locks imageOk osOk) s = .next (flush t) ∧ t.cpm.step = 3 ∧ t.cpm.boot = .booting ∧ t.od.al = .init ∧
            t.od.phyReset = false ∧ t.svc.run = (if k = 0 then s.svc.img0 else s.svc.img1))))

/-- R461, R464, R467, R471 to R473: a failed clock takes the permit pins and FAULT_N low and lapses the permit with cause 4; a restored one
leaves the failed list; the gates take their bits, and a gated block returns its registers to their reset values; an estimate above CAP goes one
point down with event 0x1204, an average near CAP does so too, and a voltage reached ends a step up; a reset of the application cluster alone
changes nothing here. -/
def Obligations.ClocksGatesAndPower : Prop :=
  ∀ s : State, mainUp s = true →
    (∀ n : Fin 5, srcFailed s (n.val + 1) = false → ∃ t, exec (.clkFail n) s = .next (flush t) ∧
      t.safety.permitA = false ∧ t.safety.permitB = false ∧ t.safety.faultN = false ∧
      (s.safety.permit = true ∨ s.safety.grant = true → PermitLow t ∧ t.safety.cause = 4 ∧ Raised t 0x0D04 huskId 4 s.phu.cycle) ∧
      Raised t 0x1201 0xFFFF (n.val + 1) s.phu.cycle ∧ t.cpm.failed = s.cpm.failed ++ [(n.val + 1, s.now)] ∧ t.mem = s.mem ∧ t.units = s.units) ∧
    (∀ n : Fin 5, srcFailed s (n.val + 1) = true → Settled s → exec (.clkFail n) s = .next { s with resp := .none }) ∧
    (∀ (n : Fin 5) (dt : BitVec 32) (p : Nat × Nat), s.cpm.failed.find? (fun (p : Nat × Nat) => p.1 == n.val + 1) = some p →
      ∃ t, exec (.clkRestored n dt) s = .next (flush t) ∧ t.cpm.failed = s.cpm.failed.filter (fun x => x.1 != n.val + 1) ∧
        Raised t 0x1202 0xFFFF (n.val + 1) ((s.now + dt.toNat - p.2) / 9000) ∧ t.mem.bytes = s.mem.bytes ∧
        (n.val < 2 → s.phu.st ≠ .off → t.phu.st = .acquire) ∧
        (n.val = 3 → s.safety.lock = true → s.cpm.failed = [p] → t.safety = { s.safety with faultN := true } ∧ t.mem = s.mem ∧ t.units = s.units)) ∧
    (∀ (n : Fin 5) (dt : BitVec 32), s.cpm.failed.find? (fun (p : Nat × Nat) => p.1 == n.val + 1) = none → Settled s →
      exec (.clkRestored n dt) s = .next { s with resp := .none }) ∧
    (Settled s → exec .appClusterReset s = .next { s with resp := .none }) ∧
    (∀ (w : Writer) (v : BitVec 32), Settled s →
      (lockedOut s w = true → exec (.cpmGateWrite w v) s = .next { s with resp := .none }) ∧
      (lockedOut s w = false → RegsOk s → ∃ t, exec (.cpmGateWrite w v) s = .next t ∧
        regGet t Reg.cpmGate = gateIn s.svc.life v.toNat % 2 ^ 14 ∧
        (∀ o b, gateBitOf o = some b → regGet t o = if bit (gateIn s.svc.life v.toNat) b then regGet s o else (regReset o).toNat) ∧
        t = { s with regs := t.regs, regsF := t.regsF, pins := t.pins, peers := t.peers, resp := .none })) ∧
    (∀ est : BitVec 16,
      let c := { s.cpm with peakCur := max s.cpm.peakCur est.toNat }
      (est.toNat ≤ capNow s → Settled s → exec (.capEstimate est none) s = .next { s with cpm := c, resp := .none }) ∧
      (capNow s < est.toNat → ∃ t, exec (.capEstimate est none) s = .next (flush t) ∧ t.cpm.point = min 2 (s.cpm.point + 1) ∧
        Raised t 0x1204 0xFFFF est.toNat (min 2 (s.cpm.point + 1)) ∧
        (s.cpm.point < 2 → Raised t 0x1203 0xFFFF (s.cpm.point + 1) 1) ∧ t.mem = s.mem ∧ t.units = s.units) ∧
      ∀ avg : BitVec 16, est.toNat ≤ capNow s →
        let cool := if avg.toNat + 50 < capNow s then min 100 (s.cpm.coolMs + 1) else 0
        (avg.toNat + 20 ≤ capNow s → cool < 100 → Settled s → exec (.capEstimate est (some avg)) s = .next { s with
          cpm := { c with avg := avg.toNat, coolMs := cool }, resp := .none }) ∧
        (cool = 100 → s.cpm.upTo = none → max s.cpm.capCeil (dvfsCeil s) < s.cpm.point → Settled s →
          exec (.capEstimate est (some avg)) s = .next { s with
            cpm := { c with avg := avg.toNat, coolMs := 100, upTo := some (s.cpm.point - 1), voltAt := some s.now }, resp := .none }) ∧
        (capNow s < avg.toNat + 20 → s.cpm.point < 2 → ∃ t, exec (.capEstimate est (some avg)) s = .next (flush t) ∧
          t.cpm.point = s.cpm.point + 1 ∧ t.cpm.avg = avg.toNat ∧ Raised t 0x1203 0xFFFF (s.cpm.point + 1) 1 ∧ t.mem = s.mem)) ∧
    (ioUp s = true →
      (s.cpm.upTo.getD s.cpm.point = s.cpm.point → Settled s → exec .pmicVoltageDone s = .next { s with
        cpm := { s.cpm with volt := s.cpm.point, voltAt := none }, resp := .none }) ∧
      (∀ p, s.cpm.upTo = some p → s.cpm.point ≠ p → ∃ t, exec .pmicVoltageDone s = .next (flush t) ∧ t.cpm.point = p ∧ t.cpm.volt = p ∧
        t.cpm.upTo = none ∧ Raised t 0x1203 0xFFFF p 4 ∧ t.mem = s.mem ∧ t.units = s.units))

/-! ### Pins and interfaces (R443 to R460) and tamper inputs (R500) -/

/-- R455, R456, R496, R500: a reading of the monitors is kept while the watch oscillator runs; a die above its limit for 20 readings is the safe
state with cause 4; a power failure writes its final entry with event 0x1103; a tamper input wipes both secure regions, sets its flag with event
0x1308, and with TAMPER_ACTION requests a stop. That the wipe's zeros stand from its first clk is log entry 50. -/
def Obligations.MonitorsAndTamperInputs : Prop :=
  ∀ s : State,
    (∀ temps rails, aonUp s = true → s.cpm.watchOk = true →
      (∃ t, exec (.monitorSample temps rails) s = .next (flush t) ∧ t.pins.temps = temps.map (·.toInt) ∧
        t.pins.rails = rails.map (·.toNat) ∧ t.mem = s.mem ∧ t.units = s.units ∧ t.phu = s.phu) ∧
      (∀ x : BitVec 16, temps = List.replicate 17 x → tJunction s + 50 < x.toInt → s.pins.excluded = [] → cnt s.pins.limitRun 0 = 19 →
        LimitsOk s →
        ∃ t, exec (.monitorSample temps rails) s = .next (flush t) ∧ Dead t ∧ Raised t 0x0D06 huskId 4 0)) ∧
    (∀ temps rails, aonUp s = true → s.cpm.watchOk = false → Settled s → exec (.monitorSample temps rails) s = .next { s with resp := .none }) ∧
    (mainUp s = true → ∃ t, exec .powerFail s = .next (flush t) ∧ Raised t 0x1103 0xFFFF s.phu.cycle 0 ∧ t.logs.lastCause = 6 ∧
      (∃ e, t.logs.box.getLast? = some e ∧ e.btype = 4 ∧ e.cycle = s.phu.cycle) ∧ t.mem = s.mem ∧ t.safety = s.safety) ∧
    (∀ n : Fin 2, aonUp s = true → MemOk s → ∃ t, exec (.tamper n) s = .next (flush t) ∧
      (∀ a, (∃ k, k < 2 ∧ secureBase k ≤ a ∧ a < secureBase k + 0x100000) → memGet t a = 0) ∧
      (∀ a, (∀ k, k < 2 → a < secureBase k ∨ secureBase k + 0x100000 ≤ a) → memGet t a = memGet s a) ∧
      bit t.svc.tamper n.val = true ∧ Raised t 0x1308 0xFFFF n.val (satInc 32 s.svc.tamperCnt) ∧
      (s.svc.tamperAction = 1 → t.safety.stopReq = true ∧ (s.safety.permit = true ∨ s.safety.grant = true → PermitLow t)) ∧
      (s.svc.tamperAction ≠ 1 → t.safety = s.safety))

/-- R451 to R453, R458, R467, R473: the IMU port takes an edge and its sample and counts an edge that comes too early or during a read, an
in-band interrupt is served or fails with event 0x1105, the links of the Ethernet ports come and go, each only with its block's clock, and the TAP
answers. -/
def Obligations.SerialPortsAndTap : Prop :=
  ∀ s : State,
    (ioUp s = true → Settled s →
      (∀ dt : BitVec 32,
        let a := advance s dt.toNat
        let early := s.pins.imuLast.any (fun l => decide (s.now + dt.toNat < l + objN s 0x2E02 5 * 9000))
        (imuOn s = true → s.pins.imuBusy = false → early = false → exec (.imuDrdy dt) s = .next { a with
          pins := { s.pins with imuBusy := true, imuLast := some a.now, imuCycle := s.phu.cycle, imuPhase := phase a }, resp := .none }) ∧
        (imuOn s = true → s.pins.imuBusy = true ∨ early = true → exec (.imuDrdy dt) s = .next { a with
          pins := { s.pins with imuIgn := s.pins.imuIgn + 1, imuMiss := satInc 32 s.pins.imuMiss }, resp := .none }) ∧
        (imuOn s = false → exec (.imuDrdy dt) s = .next { a with resp := .none })) ∧
      (∀ b : Bytes,
        let d := fit (objN s 0x2E02 4) b
        (s.pins.imuBusy = true → s.det.replay = false → exec (.imuSampleDone b) s = .next { s with
          pins := { s.pins with imuBusy := false, imuSample := d, imuCur := satInc 16 s.pins.imuCur }
          det := { s.det with recs := s.det.recs ++
            [{ typ := 4, source := 0, cycle := s.pins.imuCycle, phase := s.pins.imuPhase, content := d }] }
          resp := .none }) ∧
        (s.pins.imuBusy = true → s.det.replay = true → exec (.imuSampleDone b) s = .next { s with
          pins := { s.pins with imuBusy := false }, resp := .none }) ∧
        (s.pins.imuBusy = false → exec (.imuSampleDone b) s = .next { s with resp := .none })) ∧
      (∀ a : BitVec 7,
        (bit (regGet s Reg.cpmGate) 11 = true → exec (.i3cIbi a none) s = .next { s with
          pins := { s.pins with ibi := satInc 32 s.pins.ibi, lastIbi := a.toNat }, resp := .none }) ∧
        (bit (regGet s Reg.cpmGate) 11 = false → ∀ e, exec (.i3cIbi a e) s = .next { s with resp := .none })) ∧
      (∀ p : Fin 2,
        let pcs := if p.val = 0 then s.pins.pcs0 else s.pins.pcs1
        (gateOn s p.val = true → exec (.pcsLock p) s = .next { s with
          pins := { s.pins with pcs0 := p.val = 0 || s.pins.pcs0, pcs1 := p.val ≠ 0 || s.pins.pcs1 }, resp := .none }) ∧
        (gateOn s p.val = false → exec (.pcsLock p) s = .next { s with resp := .none } ∧
          ∀ r, exec (.serdesLock p r) s = .next { s with resp := .none }) ∧
        (∀ on : Bool, let b := on && gateOn s p.val && pcs
          exec (.gptpSync p on) s = .next { s with
            pins := { s.pins with gptp0 := if p.val = 0 then b else s.pins.gptp0, gptp1 := if p.val = 0 then s.pins.gptp1 else b },
            resp := .none }))) ∧
    (ioUp s = true →
      (∀ (a : BitVec 7) (late : Bool), bit (regGet s Reg.cpmGate) 11 = true → ∃ t, exec (.i3cIbi a (some late)) s = .next (flush t) ∧
        Raised t 0x1105 0xFFFF a.toNat (if late then 2 else 1) ∧ t.mem = s.mem ∧ t.safety = s.safety) ∧
      (∀ (p : Fin 2) (refused : Bool), gateOn s p.val = true → ∃ t, exec (.serdesLock p refused) s = .next (flush t) ∧
        (if p.val = 0 then t.pins.pcs0 else t.pins.pcs1) = false ∧ Raised t 0x1107 0xFFFF p.val (if refused then 2 else 1) ∧ t.mem = s.mem)) ∧
    (s.safety.safeState = false →
      exec .trstLow s = .next { s with pins := { s.pins with tapIr := .idcode }, resp := .none } ∧
      exec .jtagIdcode s = .next { s with pins := { s.pins with tapIr := .idcode }, resp := .jtag 0x17240B57 } ∧
      exec .jtagBypass s = .next { s with pins := { s.pins with tapIr := .bypass }, resp := .jtag 0 } ∧
      (∀ b : Bytes, ∃ v, exec (.jtagSamplePreload b) s = .next { s with
        pins := { s.pins with tapIr := .sample, bscan := b }, freeCtr := s.freeCtr + 1, resp := .jtag v }) ∧
      (∀ b : Bytes, s.svc.life = 0 → ∃ v, exec (.jtagExtest b) s = .next { s with
        pins := { s.pins with tapIr := .extest, bscan := b }, freeCtr := s.freeCtr + 1, resp := .jtag v }) ∧
      (∀ b : Bytes, s.svc.life ≠ 0 → exec (.jtagExtest b) s = .next { s with resp := .none }))

/-! ### Service life (R480 to R504) -/

/-- R482, R487 to R491: the update of firmware. An install is verified, an image with a wrong header, signature or version is refused with its
reason and event 0x1305, a sound one is staged, switches at its boundary into probation, is written to both copies or rolls back; in recovery it
is written at once. A watchdog takes its processor out of service. -/
def Obligations.FirmwareUpdateSteps : Prop :=
  ∀ s : State, ioUp s = true →
    let same := ({ s with resp := .none } : State)
    let w := ({ s with svc := { s.svc with fwSt := .writing, writingStack := 0, retries := 0, store0 := .writing, repair := none }, resp := .none } : State)
    (fwIdle s = true → Settled s → exec .fwInstall s = .next { s with
      svc := { s.svc with
        fwSt := .verifying
        pendAddr := if s.cpm.boot = .recovery then ssBase 0 else objW s 0x5000 1
        pendLen := if s.cpm.boot = .recovery then s.od.foeBytes else objW s 0x5000 2
        switchCycle := objW s 0x5000 3, pend := none },
      resp := .none }) ∧
    (fwIdle s = false → ∃ t, exec .fwInstall s = .next (flush t) ∧ t.svc = { s.svc with reason := 4 } ∧ Raised t 0x1305 0xFFFF 4 0xFFFF ∧
      t.mem = s.mem) ∧
    (s.svc.fwSt = .verifying →
      let img := fwImage s s.svc.pendAddr
      let why := if fwBadHeader s s.svc.pendAddr s.svc.pendLen then 1 else if !fwSigned s s.svc.pendAddr || !fwSections s s.svc.pendAddr then 2
        else if verKey img.version < verKey s.svc.floor then 3 else 0
      (why ≠ 0 → ∃ t, exec .fwVerifyDone s = .next (flush t) ∧ t.svc = { s.svc with fwSt := .refused, reason := why, pend := none } ∧
        Raised t 0x1305 0xFFFF why 0xFFFF ∧ t.mem = s.mem) ∧
      (why = 0 → Settled s →
        (s.cpm.boot ≠ .recovery → exec .fwVerifyDone s = .next { s with svc := { s.svc with pend := some img, fwSt := .staging }, resp := .none }) ∧
        (s.cpm.boot = .recovery → exec .fwVerifyDone s = .next { w with svc := { w.svc with run := img, pend := none } }))) ∧
    (s.svc.fwSt ≠ .verifying → Settled s → exec .fwVerifyDone s = .next same) ∧
    (s.svc.fwSt = .staging →
      (∃ t, exec (.fwStaged none) s = .next (flush t) ∧ t.svc = { s.svc with fwSt := .staged, stagedAt := s.phu.bcount } ∧
        Raised t 0x1303 0xFFFF (s.svc.pend.getD .none).version ((fwUnits s).length + 1) ∧ t.mem = s.mem) ∧
      (∀ u : BitVec 16, ∃ t, exec (.fwStaged (some u)) s = .next (flush t) ∧ t.svc = { s.svc with fwSt := .refused, reason := 5, pend := none } ∧
        Raised t 0x1305 0xFFFF 5 u.toNat ∧ t.mem = s.mem)) ∧
    (s.svc.fwSt ≠ .staging → Settled s → ∀ o, exec (.fwStaged o) s = .next same) ∧
    (∀ img, fwDue s = true → s.svc.pend = some img → ∃ t, exec .fwSwitch s = .next (flush t) ∧
      t.svc = { s.svc with old := some s.svc.run, run := img, pend := none, bank := 1 - s.svc.bank, fwSt := .probation
                           probEnd := s.phu.cycle + objN s 0x5000 7, rollbackBy := none } ∧
      Raised t 0x1304 0xFFFF img.version s.phu.cycle ∧ t.mem = s.mem) ∧
    (fwDue s = false ∨ s.svc.pend = none → Settled s → exec .fwSwitch s = .next same) ∧
    (Settled s →
      ([FwSt.verifying, .staging, .staged].contains s.svc.fwSt = true → fwDue s = false → exec .fwCancel s = .next { s with
        svc := { s.svc with fwSt := .idle, pend := none }, resp := .none }) ∧
      (fwDue s = true → exec .fwCancel s = .next same) ∧
      (s.svc.fwSt = .probation → exec .fwCancel s = .next { s with
        svc := { s.svc with rollbackBy := some (s.svc.rollbackBy.getD 0) }, resp := .none }) ∧
      ([FwSt.verifying, .staging, .staged, .probation].contains s.svc.fwSt = false → exec .fwCancel s = .next same)) ∧
    (Settled s →
      (s.svc.fwSt = .probation → s.svc.rollbackBy = none →
        exec .fwEndProbation s = .next w ∧ (s.phu.atBound = true → s.svc.probEnd ≤ s.phu.cycle → exec .probationEnd s = .next w)) ∧
      (s.svc.fwSt ≠ .probation ∨ s.svc.rollbackBy ≠ none → exec .fwEndProbation s = .next same ∧ exec .probationEnd s = .next same) ∧
      (s.phu.atBound = false ∨ s.phu.cycle < s.svc.probEnd → exec .probationEnd s = .next same)) ∧
    (∀ c img, s.svc.fwSt = .probation → s.phu.atBound = true → s.svc.rollbackBy = some c → s.svc.old = some img →
      ∃ t, exec .fwRollback s = .next (flush t) ∧
        t.svc = { s.svc with run := img, old := none, bank := 1 - s.svc.bank, fwSt := .rolledBack, rollbackBy := none } ∧
        Raised t 0x1306 0xFFFF c s.phu.cycle ∧ t.mem = s.mem) ∧
    (s.svc.fwSt ≠ .probation ∨ s.phu.atBound = false ∨ s.svc.rollbackBy = none ∨ s.svc.old = none → Settled s →
      exec .fwRollback s = .next same) ∧
    (let k := s.svc.repair.getD s.svc.writingStack;
      (s.svc.repair = none → s.svc.fwSt ≠ .writing → Settled s → ∀ ok, exec (.storeWriteDone ok) s = .next same) ∧
      (s.svc.repair ≠ none ∨ s.svc.fwSt = .writing →
        (s.svc.retries < 3 → Settled s → exec (.storeWriteDone false) s = .next { s with
          svc := { s.svc with retries := s.svc.retries + 1 }, resp := .none }) ∧
        (3 ≤ s.svc.retries → k = 0 ∨ s.cpm.boot ≠ .recovery ∨ s.svc.repair ≠ none → ∃ t, exec (.storeWriteDone false) s = .next (flush t) ∧
          Raised t 0x1307 0xFFFF k 2 ∧ t.svc.retries = 0 ∧ t.svc.run = s.svc.run ∧ (s.svc.store1 ≠ .valid → t.svc.floor = s.svc.floor) ∧ t.mem = s.mem)) ∧
      (∀ r, s.svc.repair = some r → Settled s → exec (.storeWriteDone true) s = .next { s with
        svc := { s.svc with
          img0 := if r = 0 then s.svc.run else s.svc.img0, img1 := if r = 1 then s.svc.run else s.svc.img1
          store0 := if r = 0 then .valid else s.svc.store0, store1 := if r = 1 then .valid else s.svc.store1, repair := none, retries := 0 },
        resp := .none }) ∧
      (s.svc.repair = none → s.svc.fwSt = .writing →
        (s.svc.writingStack = 0 → Settled s → exec (.storeWriteDone true) s = .next { s with
          svc := { s.svc with img0 := s.svc.run, store0 := .valid, store1 := .writing, writingStack := 1, retries := 0 }, resp := .none }) ∧
        (s.svc.writingStack = 1 → s.cpm.boot ≠ .recovery →
          (s.svc.store0 ≠ .valid → Settled s → exec (.storeWriteDone true) s = .next { s with
            svc := { s.svc with img1 := s.svc.run, store1 := .valid, fwSt := .idle, old := none, retries := 0 }, resp := .none }) ∧
          (s.svc.store0 = .valid → ∃ t, exec (.storeWriteDone true) s = .next (flush t) ∧
            t.svc.fwSt = .idle ∧ t.svc.store1 = .valid ∧ t.svc.img1 = s.svc.run ∧ Raised t 0x1307 0xFFFF 1 1 ∧
            verKey t.svc.floor = max (verKey s.svc.floor) (verKey s.svc.run.minVersion) ∧ t.mem = s.mem)) ∧
        (s.svc.writingStack = 1 → s.cpm.boot = .recovery → ∃ t, exec (.storeWriteDone true) s = .next (flush t) ∧
          t.cpm.boot = .booting ∧ t.cpm.cause = 3 ∧ t.svc.store1 = .valid ∧ t.svc.img1 = s.svc.run ∧ PermitLow t ∧ Raised t 0x1208 0xFFFF 3 0))) ∧
    (∀ u : BitVec 16,
      (idClass u.toNat = 0x0B → unitSt s u.toNat = .active ∨ unitSt s u.toNat = .draining → UnitsOk s →
        ∃ t, exec (.fwWatchdog u) s = .next (flush t) ∧ unitSt t u.toNat = .offline ∧ (unitOf t u.toNat).actDue = true ∧
          Raised t 0x1302 u.toNat u.toNat (field (regGet s Reg.svcCtrl) 0 8)) ∧
      (idClass u.toNat ≠ 0x0B ∨ (unitSt s u.toNat ≠ .active ∧ unitSt s u.toNat ≠ .draining) → Settled s →
        exec (.fwWatchdog u) s = .next same))

/-- R407, R492 to R494, R499: the microcode of a class switches at one boundary with event 0x130E or is deferred, and the 16th deferral refuses
it; a report carries what R499 lists and a signature; the snapshot, the aging monitors and the checkpoint fall due and are taken. That a deferral
raises no event, and that a report is formed at ATTEST_DONE, is log entry 59. -/
def Obligations.MicrocodeAndRecords : Prop :=
  ∀ s : State, ioUp s = true →
    let same := ({ s with resp := .none } : State)
    (Settled s →
      (s.svc.ucStatus.busy = false → exec .ucodeSwitchCommand s = .next { s with
        svc := { s.svc with
          ucClass := objW s 0x5001 1, ucSwitch := objW s 0x5001 2, ucStatus := .verifying, ucDefer := 0,
          ucRev := s.svc.run.ucode.getD (objW s 0x5001 1) 0 },
        resp := .none }) ∧
      (s.svc.ucStatus.busy = true → exec .ucodeSwitchCommand s = .next same) ∧
      (s.svc.ucStatus = .verifying → exec .ucodeStaged s = .next { s with
        svc := { s.svc with ucStatus := .staged, ucStagedAt := s.phu.bcount }, resp := .none }) ∧
      (s.svc.ucStatus ≠ .verifying → exec .ucodeStaged s = .next same) ∧
      (s.svc.ucStatus.busy = true → ucodeDue s = false → exec .ucodeCancel s = .next { s with
        svc := { s.svc with ucStatus := .idle, ucDefer := 0 }, resp := .none }) ∧
      (s.svc.ucStatus.busy = false ∨ ucodeDue s = true → exec .ucodeCancel s = .next same)) ∧
    (ucodeDue s = true →
      (∃ t, exec (.ucodeSwitch 0) s = .next (flush t) ∧ t.svc = { s.svc with
          ucode := s.svc.ucode.set s.svc.ucClass s.svc.ucRev, ucStatus := .idle, ucDefer := 0 } ∧
        Raised t 0x130E 0xFFFF s.svc.ucClass s.svc.ucRev ∧ t.mem = s.mem) ∧
      (∀ n : BitVec 8, n ≠ 0 → Settled s → exec (.ucodeSwitch n) s = .next { s with
        svc := if s.svc.ucDefer < 15 then { s.svc with ucStatus := .deferred, ucDefer := s.svc.ucDefer + 1, ucStagedAt := s.phu.bcount }
          else { s.svc with ucStatus := .refused, ucDefer := 0 },
        resp := .none })) ∧
    (ucodeDue s = false → Settled s → ∀ n, exec (.ucodeSwitch n) s = .next same) ∧
    (Settled s → exec .attestRequest s = .next { s with svc := { s.svc with reportSt := if s.svc.haveKeys then 1 else 3 }, resp := .none }) ∧
    (s.svc.reportSt = 1 → ∃ t, exec .attestDone s = .next (flush t) ∧ t.svc.reportSt = 2 ∧ (∃ sig, t.svc.report = attestBytes s ++ sig) ∧
      (∃ d, Raised t 0x130B 0xFFFF d 0) ∧ t.mem = s.mem) ∧
    (s.svc.reportSt ≠ 1 → Settled s → exec .attestDone s = .next same) ∧
    (4194304 ≤ s.svc.sinceSnap → ∃ t, exec .telemetrySnapshot s = .next (flush t) ∧ t.svc = { s.svc with sinceSnap := 0 } ∧
      (∃ e, t.logs.box.getLast? = some e ∧ e.btype = 2 ∧ e.bseq = s.logs.bseq) ∧ t.mem = s.mem) ∧
    (s.svc.sinceSnap < 4194304 → Settled s → exec .telemetrySnapshot s = .next same) ∧
    (∀ d m : Fin 4,
      (s.phu.atBound = true → s.phu.bcount % 65536 = 0 → 4 * d.val + m.val ∉ s.svc.aged →
        ∃ t, exec (.agingCheck [(d, m)]) s = .next (flush t) ∧ t.svc = { s.svc with aged := s.svc.aged ++ [4 * d.val + m.val] } ∧
          Raised t 0x130C 0xFFFF d.val m.val ∧ t.mem = s.mem) ∧
      (4 * d.val + m.val ∈ s.svc.aged → Settled s → exec (.agingCheck [(d, m)]) s = .next same)) ∧
    (∀ l : List (Fin 4 × Fin 4), s.phu.atBound = true → s.phu.bcount % 65536 = 0 → ∃ t, exec (.agingCheck l) s = .next (flush t) ∧
      (∀ x ∈ l, 4 * x.1.val + x.2.val ∈ t.svc.aged) ∧ (∀ k ∈ t.svc.aged, k ∈ s.svc.aged ∨ ∃ x ∈ l, k = 4 * x.1.val + x.2.val) ∧ t.mem = s.mem) ∧
    (∀ l, s.phu.atBound = false ∨ s.phu.bcount % 65536 ≠ 0 → Settled s → exec (.agingCheck l) s = .next same) ∧
    (arithUp s = true →
      (s.phu.atBound = true → s.det.ckptDue = true → recRing s = true → ringOpen s = true → Settled s → exec .checkpoint s = .next { s with
          det := { s.det with
            ckptDue := false, sinceCkpt := 0, chainZero := true
            ring := ringTrim (ringCapacity s) (s.det.ring.length + 1) (s.det.ring ++ [RingRec.ckpt (ckptNow s)]) },
          resp := .none }) ∧
      (s.phu.atBound = true → s.det.ckptDue = true → ∃ t, exec .checkpoint s = .next (flush t) ∧
        t.det.ckptDue = false ∧ t.det.sinceCkpt = 0 ∧ t.det.chainZero = true ∧ t.mem.bytes = s.mem.bytes) ∧
      (s.phu.atBound = false ∨ s.det.ckptDue = false → Settled s → exec .checkpoint s = .next same))

/-- R497, R498: the life cycle. A command that R498 refuses changes nothing of the service state and raises event 0x1309; an accepted change
takes effect at the next boundary, or at once while no phase runs, with event 0x1309; the first plan key makes the device OPERATIONAL, and
PROVISIONING makes its keys. -/
def Obligations.LifeCycleChanges : Prop :=
  ∀ s : State, ioUp s = true →
    (∀ b : Bytes,
      let key := if slice b 40 32 == zeros 32 then [] else slice b 40 32
      (lifeRefused s b = true → ∃ t, exec (.lifecycleCommand b) s = .next (flush t) ∧ t.svc = s.svc ∧ t.resp = .sdoAbort 0x08000000 ∧
        Raised t 0x1309 0xFFFF (getLe b 0 1) 0xFF ∧ t.mem = s.mem) ∧
      (lifeRefused s b = false →
        let kept := { s.svc with tamper := s.svc.tamper - (s.svc.tamper &&& getLe b 1 1) }
        (getLe b 0 1 = s.svc.life → Settled s → exec (.lifecycleCommand b) s = .next { s with
          svc := { kept with planKey := if slice b 40 32 == zeros 32 then s.svc.planKey else some (slice b 40 32) }, resp := .sdoOk }) ∧
        (getLe b 0 1 ≠ s.svc.life → phaseRuns s = true → Settled s → exec (.lifecycleCommand b) s = .next { s with
          svc := { kept with lifePend := some (getLe b 0 1, key) }, resp := .sdoOk }) ∧
        (getLe b 0 1 ≠ s.svc.life → phaseRuns s = false → ∃ t, exec (.lifecycleCommand b) s = .next (flush t) ∧ t.resp = .sdoOk ∧
          t.svc.life = getLe b 0 1 ∧ t.svc.lifePend = none ∧ t.svc.planKey = (if key = [] then s.svc.planKey else some key) ∧
          t.svc.haveKeys = (s.svc.haveKeys && getLe b 0 1 != 4) ∧ Raised t 0x1309 0xFFFF (getLe b 0 1) s.svc.life ∧ t.safety = (lifePermit s (getLe b 0 1)).safety))) ∧
    (∀ key : Bytes,
      (s.svc.life = 1 → s.svc.lifePend = none → phaseRuns s = true → Settled s → exec (.planKeyWrite key) s = .next { s with
        svc := { s.svc with lifePend := some (2, fit 32 key) }, resp := .sdoOk }) ∧
      (s.svc.life = 1 → s.svc.lifePend = none → phaseRuns s = false → ∃ t, exec (.planKeyWrite key) s = .next (flush t) ∧ t.svc.life = 2 ∧
        t.svc.planKey = some (fit 32 key) ∧ t.resp = .sdoOk ∧ Raised t 0x1309 0xFFFF 2 1 ∧ t.safety = s.safety) ∧
      (s.svc.life ≠ 1 ∨ s.svc.lifePend ≠ none → Settled s → exec (.planKeyWrite key) s = .next { s with
        od := { s.od with aborts := satInc 32 s.od.aborts }, resp := .sdoAbort 0x08000000 })) ∧
    (s.svc.life = 0 → s.svc.lifePend = none →
      (phaseRuns s = true → Settled s → ∃ t, exec .provisioning s = .next t ∧ t = { s with
        svc := { s.svc with idKey := t.svc.idKey, attKey := t.svc.attKey, haveKeys := true, lifePend := some (1, []) }
        freeCtr := s.freeCtr + 7920, resp := .none }) ∧
      (phaseRuns s = false → ∃ t, exec .provisioning s = .next (flush t) ∧ t.svc.haveKeys = true ∧ t.svc.life = 1 ∧
        Raised t 0x1309 0xFFFF 1 0 ∧ t.safety = (lifePermit s 1).safety)) ∧
    (s.svc.life ≠ 0 ∨ s.svc.lifePend ≠ none → Settled s → exec .provisioning s = .next { s with resp := .none })

/-! ### The whole machine -/

/-- A step runs the command at the front of the queue with the queue's rest; an ill-formed one stops; on an empty queue one clk passes (log
entry 1). -/
def Obligations.StepRunsFrontCommand : Prop :=
  ∀ (s : State) (c : Instr) (rest : List Instr),
    (s.pending = c :: rest → c.wf = true → step s = exec c { s with pending := rest }) ∧
    (s.pending = c :: rest → c.wf = false → step s = .fault .illFormed) ∧
    (s.pending = [] → step s = .next (advance s (ticksPerClk s)))

/-- The queue is the sender's: no command changes it. -/
def Obligations.CommandsKeepQueue : Prop :=
  ∀ (s t : State) (c : Instr), exec c s = .next t → t.pending = s.pending

/-- R379, R483: after every step each event raised has its reaction and its stamped record; that this happens at a command's end is log entry 62. -/
def Obligations.StepKeepsSettled : Prop := ∀ s t : State, Settled s → step s = .next t → Settled t

/-- Every step keeps memory, the unit records, the registers, the Pods, the streams and the limit counts of the dies in their canonical form,
which is the model's choice (log entry 2). -/
def Obligations.StepKeepsMemoryForm : Prop :=
  ∀ s t : State, step s = .next t →
    (MemOk s → MemOk t) ∧ (UnitsOk s → UnitsOk t) ∧ (RegsOk s → RegsOk t) ∧ (PodsOk s → PodsOk t) ∧ (StreamsOk s → StreamsOk t) ∧
    (LimitsOk s → LimitsOk t)

/-- R36, R361, R368, R473: the state after reset: no output high, no permit, no phase, no lock, an empty queue, memory with nothing listed, and
each invariant above. The units stand OFFLINE until the boot tests them (R13). That unwritten memory reads as 0 is log entry 2. -/
def Obligations.ResetStateIsSound : Prop :=
  MemOk State.reset ∧ Settled State.reset ∧ UnitsOk State.reset ∧ RegsOk State.reset ∧ PodsOk State.reset ∧ StreamsOk State.reset ∧
    LimitsOk State.reset ∧ PermitLow State.reset ∧ State.reset.safety.faultN = false ∧
    State.reset.safety.lock = false ∧ State.reset.phu.st = .off ∧ State.reset.cpm.boot = .aonReset ∧ State.reset.pending = [] ∧
    (∀ u, unitSt State.reset u = .offline) ∧ ∀ a, memGet State.reset a = 0
end

