-- ==== Sys2Proof/Laws/State.lean ====
section
/-!
SUPPORT. What each named update of State changes: one lemma for each update and field, so that no proof unfolds a record update.
-/
namespace Sys2Proof.Machine

/-! ### answer -/

@[simp] theorem answer_pending (s : State) (r : Resp) : (answer s r).pending = s.pending := rfl
@[simp] theorem answer_now (s : State) (r : Resp) : (answer s r).now = s.now := rfl
@[simp] theorem answer_clk (s : State) (r : Resp) : (answer s r).clk = s.clk := rfl
@[simp] theorem answer_units (s : State) (r : Resp) : (answer s r).units = s.units := rfl
@[simp] theorem answer_regs (s : State) (r : Resp) : (answer s r).regs = s.regs := rfl
@[simp] theorem answer_regsF (s : State) (r : Resp) : (answer s r).regsF = s.regsF := rfl
@[simp] theorem answer_cmdResult (s : State) (r : Resp) : (answer s r).cmdResult = s.cmdResult := rfl
@[simp] theorem answer_phu (s : State) (r : Resp) : (answer s r).phu = s.phu := rfl
@[simp] theorem answer_sched (s : State) (r : Resp) : (answer s r).sched = s.sched := rfl
@[simp] theorem answer_plan (s : State) (r : Resp) : (answer s r).plan = s.plan := rfl
@[simp] theorem answer_mem (s : State) (r : Resp) : (answer s r).mem = s.mem := rfl
@[simp] theorem answer_world (s : State) (r : Resp) : (answer s r).world = s.world := rfl
@[simp] theorem answer_model (s : State) (r : Resp) : (answer s r).model = s.model := rfl
@[simp] theorem answer_cand (s : State) (r : Resp) : (answer s r).cand = s.cand := rfl
@[simp] theorem answer_pod (s : State) (r : Resp) : (answer s r).pod = s.pod := rfl
@[simp] theorem answer_peers (s : State) (r : Resp) : (answer s r).peers = s.peers := rfl
@[simp] theorem answer_sel (s : State) (r : Resp) : (answer s r).sel = s.sel := rfl
@[simp] theorem answer_psn (s : State) (r : Resp) : (answer s r).psn = s.psn := rfl
@[simp] theorem answer_cob (s : State) (r : Resp) : (answer s r).cob = s.cob := rfl
@[simp] theorem answer_diag (s : State) (r : Resp) : (answer s r).diag = s.diag := rfl
@[simp] theorem answer_logs (s : State) (r : Resp) : (answer s r).logs = s.logs := rfl
@[simp] theorem answer_safety (s : State) (r : Resp) : (answer s r).safety = s.safety := rfl
@[simp] theorem answer_det (s : State) (r : Resp) : (answer s r).det = s.det := rfl
@[simp] theorem answer_od (s : State) (r : Resp) : (answer s r).od = s.od := rfl
@[simp] theorem answer_cpm (s : State) (r : Resp) : (answer s r).cpm = s.cpm := rfl
@[simp] theorem answer_pins (s : State) (r : Resp) : (answer s r).pins = s.pins := rfl
@[simp] theorem answer_svc (s : State) (r : Resp) : (answer s r).svc = s.svc := rfl
@[simp] theorem answer_resp (s : State) (r : Resp) : (answer s r).resp = r := rfl
@[simp] theorem answer_freeCtr (s : State) (r : Resp) : (answer s r).freeCtr = s.freeCtr := rfl

/-! ### regSet -/

@[simp] theorem regSet_pending (s : State) (o v : Nat) : (regSet s o v).pending = s.pending := rfl
@[simp] theorem regSet_now (s : State) (o v : Nat) : (regSet s o v).now = s.now := rfl
@[simp] theorem regSet_clk (s : State) (o v : Nat) : (regSet s o v).clk = s.clk := rfl
@[simp] theorem regSet_units (s : State) (o v : Nat) : (regSet s o v).units = s.units := rfl
@[simp] theorem regSet_regs (s : State) (o v : Nat) : (regSet s o v).regs = Smap.set regReset s.regs o (BitVec.ofNat 32 v) := rfl
@[simp] theorem regSet_regsF (s : State) (o v : Nat) : (regSet s o v).regsF = s.regsF := rfl
@[simp] theorem regSet_cmdResult (s : State) (o v : Nat) : (regSet s o v).cmdResult = s.cmdResult := rfl
@[simp] theorem regSet_phu (s : State) (o v : Nat) : (regSet s o v).phu = s.phu := rfl
@[simp] theorem regSet_sched (s : State) (o v : Nat) : (regSet s o v).sched = s.sched := rfl
@[simp] theorem regSet_plan (s : State) (o v : Nat) : (regSet s o v).plan = s.plan := rfl
@[simp] theorem regSet_mem (s : State) (o v : Nat) : (regSet s o v).mem = s.mem := rfl
@[simp] theorem regSet_world (s : State) (o v : Nat) : (regSet s o v).world = s.world := rfl
@[simp] theorem regSet_model (s : State) (o v : Nat) : (regSet s o v).model = s.model := rfl
@[simp] theorem regSet_cand (s : State) (o v : Nat) : (regSet s o v).cand = s.cand := rfl
@[simp] theorem regSet_pod (s : State) (o v : Nat) : (regSet s o v).pod = s.pod := rfl
@[simp] theorem regSet_peers (s : State) (o v : Nat) : (regSet s o v).peers = s.peers := rfl
@[simp] theorem regSet_sel (s : State) (o v : Nat) : (regSet s o v).sel = s.sel := rfl
@[simp] theorem regSet_psn (s : State) (o v : Nat) : (regSet s o v).psn = s.psn := rfl
@[simp] theorem regSet_cob (s : State) (o v : Nat) : (regSet s o v).cob = s.cob := rfl
@[simp] theorem regSet_diag (s : State) (o v : Nat) : (regSet s o v).diag = s.diag := rfl
@[simp] theorem regSet_logs (s : State) (o v : Nat) : (regSet s o v).logs = s.logs := rfl
@[simp] theorem regSet_safety (s : State) (o v : Nat) : (regSet s o v).safety = s.safety := rfl
@[simp] theorem regSet_det (s : State) (o v : Nat) : (regSet s o v).det = s.det := rfl
@[simp] theorem regSet_od (s : State) (o v : Nat) : (regSet s o v).od = s.od := rfl
@[simp] theorem regSet_cpm (s : State) (o v : Nat) : (regSet s o v).cpm = s.cpm := rfl
@[simp] theorem regSet_pins (s : State) (o v : Nat) : (regSet s o v).pins = s.pins := rfl
@[simp] theorem regSet_svc (s : State) (o v : Nat) : (regSet s o v).svc = s.svc := rfl
@[simp] theorem regSet_resp (s : State) (o v : Nat) : (regSet s o v).resp = s.resp := rfl
@[simp] theorem regSet_freeCtr (s : State) (o v : Nat) : (regSet s o v).freeCtr = s.freeCtr := rfl

/-! ### regLoad -/

@[simp] theorem regLoad_pending (s : State) (o v : Nat) : (regLoad s o v).pending = s.pending := rfl
@[simp] theorem regLoad_now (s : State) (o v : Nat) : (regLoad s o v).now = s.now := rfl
@[simp] theorem regLoad_clk (s : State) (o v : Nat) : (regLoad s o v).clk = s.clk := rfl
@[simp] theorem regLoad_units (s : State) (o v : Nat) : (regLoad s o v).units = s.units := rfl
@[simp] theorem regLoad_regs (s : State) (o v : Nat) : (regLoad s o v).regs = Smap.set regReset s.regs o (BitVec.ofNat 32 v) := rfl
@[simp] theorem regLoad_regsF (s : State) (o v : Nat) : (regLoad s o v).regsF = Smap.set regReset s.regsF o (BitVec.ofNat 32 v) := rfl
@[simp] theorem regLoad_cmdResult (s : State) (o v : Nat) : (regLoad s o v).cmdResult = s.cmdResult := rfl
@[simp] theorem regLoad_phu (s : State) (o v : Nat) : (regLoad s o v).phu = s.phu := rfl
@[simp] theorem regLoad_sched (s : State) (o v : Nat) : (regLoad s o v).sched = s.sched := rfl
@[simp] theorem regLoad_plan (s : State) (o v : Nat) : (regLoad s o v).plan = s.plan := rfl
@[simp] theorem regLoad_mem (s : State) (o v : Nat) : (regLoad s o v).mem = s.mem := rfl
@[simp] theorem regLoad_world (s : State) (o v : Nat) : (regLoad s o v).world = s.world := rfl
@[simp] theorem regLoad_model (s : State) (o v : Nat) : (regLoad s o v).model = s.model := rfl
@[simp] theorem regLoad_cand (s : State) (o v : Nat) : (regLoad s o v).cand = s.cand := rfl
@[simp] theorem regLoad_pod (s : State) (o v : Nat) : (regLoad s o v).pod = s.pod := rfl
@[simp] theorem regLoad_peers (s : State) (o v : Nat) : (regLoad s o v).peers = s.peers := rfl
@[simp] theorem regLoad_sel (s : State) (o v : Nat) : (regLoad s o v).sel = s.sel := rfl
@[simp] theorem regLoad_psn (s : State) (o v : Nat) : (regLoad s o v).psn = s.psn := rfl
@[simp] theorem regLoad_cob (s : State) (o v : Nat) : (regLoad s o v).cob = s.cob := rfl
@[simp] theorem regLoad_diag (s : State) (o v : Nat) : (regLoad s o v).diag = s.diag := rfl
@[simp] theorem regLoad_logs (s : State) (o v : Nat) : (regLoad s o v).logs = s.logs := rfl
@[simp] theorem regLoad_safety (s : State) (o v : Nat) : (regLoad s o v).safety = s.safety := rfl
@[simp] theorem regLoad_det (s : State) (o v : Nat) : (regLoad s o v).det = s.det := rfl
@[simp] theorem regLoad_od (s : State) (o v : Nat) : (regLoad s o v).od = s.od := rfl
@[simp] theorem regLoad_cpm (s : State) (o v : Nat) : (regLoad s o v).cpm = s.cpm := rfl
@[simp] theorem regLoad_pins (s : State) (o v : Nat) : (regLoad s o v).pins = s.pins := rfl
@[simp] theorem regLoad_svc (s : State) (o v : Nat) : (regLoad s o v).svc = s.svc := rfl
@[simp] theorem regLoad_resp (s : State) (o v : Nat) : (regLoad s o v).resp = s.resp := rfl
@[simp] theorem regLoad_freeCtr (s : State) (o v : Nat) : (regLoad s o v).freeCtr = s.freeCtr := rfl

/-! ### regField -/

@[simp] theorem regField_pending (s : State) (o lo n v : Nat) : (regField s o lo n v).pending = s.pending := rfl
@[simp] theorem regField_now (s : State) (o lo n v : Nat) : (regField s o lo n v).now = s.now := rfl
@[simp] theorem regField_clk (s : State) (o lo n v : Nat) : (regField s o lo n v).clk = s.clk := rfl
@[simp] theorem regField_units (s : State) (o lo n v : Nat) : (regField s o lo n v).units = s.units := rfl
@[simp] theorem regField_regsF (s : State) (o lo n v : Nat) : (regField s o lo n v).regsF = s.regsF := rfl
@[simp] theorem regField_cmdResult (s : State) (o lo n v : Nat) : (regField s o lo n v).cmdResult = s.cmdResult := rfl
@[simp] theorem regField_phu (s : State) (o lo n v : Nat) : (regField s o lo n v).phu = s.phu := rfl
@[simp] theorem regField_sched (s : State) (o lo n v : Nat) : (regField s o lo n v).sched = s.sched := rfl
@[simp] theorem regField_plan (s : State) (o lo n v : Nat) : (regField s o lo n v).plan = s.plan := rfl
@[simp] theorem regField_mem (s : State) (o lo n v : Nat) : (regField s o lo n v).mem = s.mem := rfl
@[simp] theorem regField_world (s : State) (o lo n v : Nat) : (regField s o lo n v).world = s.world := rfl
@[simp] theorem regField_model (s : State) (o lo n v : Nat) : (regField s o lo n v).model = s.model := rfl
@[simp] theorem regField_cand (s : State) (o lo n v : Nat) : (regField s o lo n v).cand = s.cand := rfl
@[simp] theorem regField_pod (s : State) (o lo n v : Nat) : (regField s o lo n v).pod = s.pod := rfl
@[simp] theorem regField_peers (s : State) (o lo n v : Nat) : (regField s o lo n v).peers = s.peers := rfl
@[simp] theorem regField_sel (s : State) (o lo n v : Nat) : (regField s o lo n v).sel = s.sel := rfl
@[simp] theorem regField_psn (s : State) (o lo n v : Nat) : (regField s o lo n v).psn = s.psn := rfl
@[simp] theorem regField_cob (s : State) (o lo n v : Nat) : (regField s o lo n v).cob = s.cob := rfl
@[simp] theorem regField_diag (s : State) (o lo n v : Nat) : (regField s o lo n v).diag = s.diag := rfl
@[simp] theorem regField_logs (s : State) (o lo n v : Nat) : (regField s o lo n v).logs = s.logs := rfl
@[simp] theorem regField_safety (s : State) (o lo n v : Nat) : (regField s o lo n v).safety = s.safety := rfl
@[simp] theorem regField_det (s : State) (o lo n v : Nat) : (regField s o lo n v).det = s.det := rfl
@[simp] theorem regField_od (s : State) (o lo n v : Nat) : (regField s o lo n v).od = s.od := rfl
@[simp] theorem regField_cpm (s : State) (o lo n v : Nat) : (regField s o lo n v).cpm = s.cpm := rfl
@[simp] theorem regField_pins (s : State) (o lo n v : Nat) : (regField s o lo n v).pins = s.pins := rfl
@[simp] theorem regField_svc (s : State) (o lo n v : Nat) : (regField s o lo n v).svc = s.svc := rfl
@[simp] theorem regField_resp (s : State) (o lo n v : Nat) : (regField s o lo n v).resp = s.resp := rfl
@[simp] theorem regField_freeCtr (s : State) (o lo n v : Nat) : (regField s o lo n v).freeCtr = s.freeCtr := rfl

/-! ### regCount -/

@[simp] theorem regCount_pending (s : State) (o : Nat) : (regCount s o).pending = s.pending := rfl
@[simp] theorem regCount_now (s : State) (o : Nat) : (regCount s o).now = s.now := rfl
@[simp] theorem regCount_clk (s : State) (o : Nat) : (regCount s o).clk = s.clk := rfl
@[simp] theorem regCount_units (s : State) (o : Nat) : (regCount s o).units = s.units := rfl
@[simp] theorem regCount_regsF (s : State) (o : Nat) : (regCount s o).regsF = s.regsF := rfl
@[simp] theorem regCount_cmdResult (s : State) (o : Nat) : (regCount s o).cmdResult = s.cmdResult := rfl
@[simp] theorem regCount_phu (s : State) (o : Nat) : (regCount s o).phu = s.phu := rfl
@[simp] theorem regCount_sched (s : State) (o : Nat) : (regCount s o).sched = s.sched := rfl
@[simp] theorem regCount_plan (s : State) (o : Nat) : (regCount s o).plan = s.plan := rfl
@[simp] theorem regCount_mem (s : State) (o : Nat) : (regCount s o).mem = s.mem := rfl
@[simp] theorem regCount_world (s : State) (o : Nat) : (regCount s o).world = s.world := rfl
@[simp] theorem regCount_model (s : State) (o : Nat) : (regCount s o).model = s.model := rfl
@[simp] theorem regCount_cand (s : State) (o : Nat) : (regCount s o).cand = s.cand := rfl
@[simp] theorem regCount_pod (s : State) (o : Nat) : (regCount s o).pod = s.pod := rfl
@[simp] theorem regCount_peers (s : State) (o : Nat) : (regCount s o).peers = s.peers := rfl
@[simp] theorem regCount_sel (s : State) (o : Nat) : (regCount s o).sel = s.sel := rfl
@[simp] theorem regCount_psn (s : State) (o : Nat) : (regCount s o).psn = s.psn := rfl
@[simp] theorem regCount_cob (s : State) (o : Nat) : (regCount s o).cob = s.cob := rfl
@[simp] theorem regCount_diag (s : State) (o : Nat) : (regCount s o).diag = s.diag := rfl
@[simp] theorem regCount_logs (s : State) (o : Nat) : (regCount s o).logs = s.logs := rfl
@[simp] theorem regCount_safety (s : State) (o : Nat) : (regCount s o).safety = s.safety := rfl
@[simp] theorem regCount_det (s : State) (o : Nat) : (regCount s o).det = s.det := rfl
@[simp] theorem regCount_od (s : State) (o : Nat) : (regCount s o).od = s.od := rfl
@[simp] theorem regCount_cpm (s : State) (o : Nat) : (regCount s o).cpm = s.cpm := rfl
@[simp] theorem regCount_pins (s : State) (o : Nat) : (regCount s o).pins = s.pins := rfl
@[simp] theorem regCount_svc (s : State) (o : Nat) : (regCount s o).svc = s.svc := rfl
@[simp] theorem regCount_resp (s : State) (o : Nat) : (regCount s o).resp = s.resp := rfl
@[simp] theorem regCount_freeCtr (s : State) (o : Nat) : (regCount s o).freeCtr = s.freeCtr := rfl

/-! ### objSet -/

@[simp] theorem objSet_pending (s : State) (i j : Nat) (v : Int) : (objSet s i j v).pending = s.pending := rfl
@[simp] theorem objSet_now (s : State) (i j : Nat) (v : Int) : (objSet s i j v).now = s.now := rfl
@[simp] theorem objSet_clk (s : State) (i j : Nat) (v : Int) : (objSet s i j v).clk = s.clk := rfl
@[simp] theorem objSet_units (s : State) (i j : Nat) (v : Int) : (objSet s i j v).units = s.units := rfl
@[simp] theorem objSet_regs (s : State) (i j : Nat) (v : Int) : (objSet s i j v).regs = s.regs := rfl
@[simp] theorem objSet_regsF (s : State) (i j : Nat) (v : Int) : (objSet s i j v).regsF = s.regsF := rfl
@[simp] theorem objSet_cmdResult (s : State) (i j : Nat) (v : Int) : (objSet s i j v).cmdResult = s.cmdResult := rfl
@[simp] theorem objSet_phu (s : State) (i j : Nat) (v : Int) : (objSet s i j v).phu = s.phu := rfl
@[simp] theorem objSet_sched (s : State) (i j : Nat) (v : Int) : (objSet s i j v).sched = s.sched := rfl
@[simp] theorem objSet_plan (s : State) (i j : Nat) (v : Int) : (objSet s i j v).plan = s.plan := rfl
@[simp] theorem objSet_mem (s : State) (i j : Nat) (v : Int) : (objSet s i j v).mem = s.mem := rfl
@[simp] theorem objSet_world (s : State) (i j : Nat) (v : Int) : (objSet s i j v).world = s.world := rfl
@[simp] theorem objSet_model (s : State) (i j : Nat) (v : Int) : (objSet s i j v).model = s.model := rfl
@[simp] theorem objSet_cand (s : State) (i j : Nat) (v : Int) : (objSet s i j v).cand = s.cand := rfl
@[simp] theorem objSet_pod (s : State) (i j : Nat) (v : Int) : (objSet s i j v).pod = s.pod := rfl
@[simp] theorem objSet_peers (s : State) (i j : Nat) (v : Int) : (objSet s i j v).peers = s.peers := rfl
@[simp] theorem objSet_sel (s : State) (i j : Nat) (v : Int) : (objSet s i j v).sel = s.sel := rfl
@[simp] theorem objSet_psn (s : State) (i j : Nat) (v : Int) : (objSet s i j v).psn = s.psn := rfl
@[simp] theorem objSet_cob (s : State) (i j : Nat) (v : Int) : (objSet s i j v).cob = s.cob := rfl
@[simp] theorem objSet_diag (s : State) (i j : Nat) (v : Int) : (objSet s i j v).diag = s.diag := rfl
@[simp] theorem objSet_logs (s : State) (i j : Nat) (v : Int) : (objSet s i j v).logs = s.logs := rfl
@[simp] theorem objSet_safety (s : State) (i j : Nat) (v : Int) : (objSet s i j v).safety = s.safety := rfl
@[simp] theorem objSet_det (s : State) (i j : Nat) (v : Int) : (objSet s i j v).det = s.det := rfl
@[simp] theorem objSet_cpm (s : State) (i j : Nat) (v : Int) : (objSet s i j v).cpm = s.cpm := rfl
@[simp] theorem objSet_pins (s : State) (i j : Nat) (v : Int) : (objSet s i j v).pins = s.pins := rfl
@[simp] theorem objSet_svc (s : State) (i j : Nat) (v : Int) : (objSet s i j v).svc = s.svc := rfl
@[simp] theorem objSet_resp (s : State) (i j : Nat) (v : Int) : (objSet s i j v).resp = s.resp := rfl
@[simp] theorem objSet_freeCtr (s : State) (i j : Nat) (v : Int) : (objSet s i j v).freeCtr = s.freeCtr := rfl

/-! ### objPut -/

@[simp] theorem objPut_pending (s : State) (i j : Nat) (v : Int) : (objPut s i j v).pending = s.pending := rfl
@[simp] theorem objPut_now (s : State) (i j : Nat) (v : Int) : (objPut s i j v).now = s.now := rfl
@[simp] theorem objPut_clk (s : State) (i j : Nat) (v : Int) : (objPut s i j v).clk = s.clk := rfl
@[simp] theorem objPut_units (s : State) (i j : Nat) (v : Int) : (objPut s i j v).units = s.units := rfl
@[simp] theorem objPut_regs (s : State) (i j : Nat) (v : Int) : (objPut s i j v).regs = s.regs := rfl
@[simp] theorem objPut_regsF (s : State) (i j : Nat) (v : Int) : (objPut s i j v).regsF = s.regsF := rfl
@[simp] theorem objPut_cmdResult (s : State) (i j : Nat) (v : Int) : (objPut s i j v).cmdResult = s.cmdResult := rfl
@[simp] theorem objPut_phu (s : State) (i j : Nat) (v : Int) : (objPut s i j v).phu = s.phu := rfl
@[simp] theorem objPut_sched (s : State) (i j : Nat) (v : Int) : (objPut s i j v).sched = s.sched := rfl
@[simp] theorem objPut_plan (s : State) (i j : Nat) (v : Int) : (objPut s i j v).plan = s.plan := rfl
@[simp] theorem objPut_mem (s : State) (i j : Nat) (v : Int) : (objPut s i j v).mem = s.mem := rfl
@[simp] theorem objPut_world (s : State) (i j : Nat) (v : Int) : (objPut s i j v).world = s.world := rfl
@[simp] theorem objPut_model (s : State) (i j : Nat) (v : Int) : (objPut s i j v).model = s.model := rfl
@[simp] theorem objPut_cand (s : State) (i j : Nat) (v : Int) : (objPut s i j v).cand = s.cand := rfl
@[simp] theorem objPut_pod (s : State) (i j : Nat) (v : Int) : (objPut s i j v).pod = s.pod := rfl
@[simp] theorem objPut_peers (s : State) (i j : Nat) (v : Int) : (objPut s i j v).peers = s.peers := rfl
@[simp] theorem objPut_sel (s : State) (i j : Nat) (v : Int) : (objPut s i j v).sel = s.sel := rfl
@[simp] theorem objPut_psn (s : State) (i j : Nat) (v : Int) : (objPut s i j v).psn = s.psn := rfl
@[simp] theorem objPut_cob (s : State) (i j : Nat) (v : Int) : (objPut s i j v).cob = s.cob := rfl
@[simp] theorem objPut_diag (s : State) (i j : Nat) (v : Int) : (objPut s i j v).diag = s.diag := rfl
@[simp] theorem objPut_logs (s : State) (i j : Nat) (v : Int) : (objPut s i j v).logs = s.logs := rfl
@[simp] theorem objPut_safety (s : State) (i j : Nat) (v : Int) : (objPut s i j v).safety = s.safety := rfl
@[simp] theorem objPut_det (s : State) (i j : Nat) (v : Int) : (objPut s i j v).det = s.det := rfl
@[simp] theorem objPut_cpm (s : State) (i j : Nat) (v : Int) : (objPut s i j v).cpm = s.cpm := rfl
@[simp] theorem objPut_pins (s : State) (i j : Nat) (v : Int) : (objPut s i j v).pins = s.pins := rfl
@[simp] theorem objPut_svc (s : State) (i j : Nat) (v : Int) : (objPut s i j v).svc = s.svc := rfl
@[simp] theorem objPut_resp (s : State) (i j : Nat) (v : Int) : (objPut s i j v).resp = s.resp := rfl
@[simp] theorem objPut_freeCtr (s : State) (i j : Nat) (v : Int) : (objPut s i j v).freeCtr = s.freeCtr := rfl

/-! ### objApply -/

@[simp] theorem objApply_pending (s : State) (i j : Nat) : (objApply s i j).pending = s.pending := rfl
@[simp] theorem objApply_now (s : State) (i j : Nat) : (objApply s i j).now = s.now := rfl
@[simp] theorem objApply_clk (s : State) (i j : Nat) : (objApply s i j).clk = s.clk := rfl
@[simp] theorem objApply_units (s : State) (i j : Nat) : (objApply s i j).units = s.units := rfl
@[simp] theorem objApply_regs (s : State) (i j : Nat) : (objApply s i j).regs = s.regs := rfl
@[simp] theorem objApply_regsF (s : State) (i j : Nat) : (objApply s i j).regsF = s.regsF := rfl
@[simp] theorem objApply_cmdResult (s : State) (i j : Nat) : (objApply s i j).cmdResult = s.cmdResult := rfl
@[simp] theorem objApply_phu (s : State) (i j : Nat) : (objApply s i j).phu = s.phu := rfl
@[simp] theorem objApply_sched (s : State) (i j : Nat) : (objApply s i j).sched = s.sched := rfl
@[simp] theorem objApply_plan (s : State) (i j : Nat) : (objApply s i j).plan = s.plan := rfl
@[simp] theorem objApply_mem (s : State) (i j : Nat) : (objApply s i j).mem = s.mem := rfl
@[simp] theorem objApply_world (s : State) (i j : Nat) : (objApply s i j).world = s.world := rfl
@[simp] theorem objApply_model (s : State) (i j : Nat) : (objApply s i j).model = s.model := rfl
@[simp] theorem objApply_cand (s : State) (i j : Nat) : (objApply s i j).cand = s.cand := rfl
@[simp] theorem objApply_pod (s : State) (i j : Nat) : (objApply s i j).pod = s.pod := rfl
@[simp] theorem objApply_peers (s : State) (i j : Nat) : (objApply s i j).peers = s.peers := rfl
@[simp] theorem objApply_sel (s : State) (i j : Nat) : (objApply s i j).sel = s.sel := rfl
@[simp] theorem objApply_psn (s : State) (i j : Nat) : (objApply s i j).psn = s.psn := rfl
@[simp] theorem objApply_cob (s : State) (i j : Nat) : (objApply s i j).cob = s.cob := rfl
@[simp] theorem objApply_diag (s : State) (i j : Nat) : (objApply s i j).diag = s.diag := rfl
@[simp] theorem objApply_logs (s : State) (i j : Nat) : (objApply s i j).logs = s.logs := rfl
@[simp] theorem objApply_safety (s : State) (i j : Nat) : (objApply s i j).safety = s.safety := rfl
@[simp] theorem objApply_det (s : State) (i j : Nat) : (objApply s i j).det = s.det := rfl
@[simp] theorem objApply_cpm (s : State) (i j : Nat) : (objApply s i j).cpm = s.cpm := rfl
@[simp] theorem objApply_pins (s : State) (i j : Nat) : (objApply s i j).pins = s.pins := rfl
@[simp] theorem objApply_svc (s : State) (i j : Nat) : (objApply s i j).svc = s.svc := rfl
@[simp] theorem objApply_resp (s : State) (i j : Nat) : (objApply s i j).resp = s.resp := rfl
@[simp] theorem objApply_freeCtr (s : State) (i j : Nat) : (objApply s i j).freeCtr = s.freeCtr := rfl

/-! ### memSet -/

@[simp] theorem memSet_pending (s : State) (a b : Nat) : (memSet s a b).pending = s.pending := rfl
@[simp] theorem memSet_now (s : State) (a b : Nat) : (memSet s a b).now = s.now := rfl
@[simp] theorem memSet_clk (s : State) (a b : Nat) : (memSet s a b).clk = s.clk := rfl
@[simp] theorem memSet_units (s : State) (a b : Nat) : (memSet s a b).units = s.units := rfl
@[simp] theorem memSet_regs (s : State) (a b : Nat) : (memSet s a b).regs = s.regs := rfl
@[simp] theorem memSet_regsF (s : State) (a b : Nat) : (memSet s a b).regsF = s.regsF := rfl
@[simp] theorem memSet_cmdResult (s : State) (a b : Nat) : (memSet s a b).cmdResult = s.cmdResult := rfl
@[simp] theorem memSet_phu (s : State) (a b : Nat) : (memSet s a b).phu = s.phu := rfl
@[simp] theorem memSet_sched (s : State) (a b : Nat) : (memSet s a b).sched = s.sched := rfl
@[simp] theorem memSet_plan (s : State) (a b : Nat) : (memSet s a b).plan = s.plan := rfl
@[simp] theorem memSet_world (s : State) (a b : Nat) : (memSet s a b).world = s.world := rfl
@[simp] theorem memSet_model (s : State) (a b : Nat) : (memSet s a b).model = s.model := rfl
@[simp] theorem memSet_cand (s : State) (a b : Nat) : (memSet s a b).cand = s.cand := rfl
@[simp] theorem memSet_pod (s : State) (a b : Nat) : (memSet s a b).pod = s.pod := rfl
@[simp] theorem memSet_peers (s : State) (a b : Nat) : (memSet s a b).peers = s.peers := rfl
@[simp] theorem memSet_sel (s : State) (a b : Nat) : (memSet s a b).sel = s.sel := rfl
@[simp] theorem memSet_psn (s : State) (a b : Nat) : (memSet s a b).psn = s.psn := rfl
@[simp] theorem memSet_cob (s : State) (a b : Nat) : (memSet s a b).cob = s.cob := rfl
@[simp] theorem memSet_diag (s : State) (a b : Nat) : (memSet s a b).diag = s.diag := rfl
@[simp] theorem memSet_logs (s : State) (a b : Nat) : (memSet s a b).logs = s.logs := rfl
@[simp] theorem memSet_safety (s : State) (a b : Nat) : (memSet s a b).safety = s.safety := rfl
@[simp] theorem memSet_det (s : State) (a b : Nat) : (memSet s a b).det = s.det := rfl
@[simp] theorem memSet_od (s : State) (a b : Nat) : (memSet s a b).od = s.od := rfl
@[simp] theorem memSet_cpm (s : State) (a b : Nat) : (memSet s a b).cpm = s.cpm := rfl
@[simp] theorem memSet_pins (s : State) (a b : Nat) : (memSet s a b).pins = s.pins := rfl
@[simp] theorem memSet_svc (s : State) (a b : Nat) : (memSet s a b).svc = s.svc := rfl
@[simp] theorem memSet_resp (s : State) (a b : Nat) : (memSet s a b).resp = s.resp := rfl
@[simp] theorem memSet_freeCtr (s : State) (a b : Nat) : (memSet s a b).freeCtr = s.freeCtr := rfl

/-! ### memPut -/

@[simp] theorem memPut_pending (s : State) (a : Nat) (l : Bytes) : (memPut s a l).pending = s.pending := rfl
@[simp] theorem memPut_now (s : State) (a : Nat) (l : Bytes) : (memPut s a l).now = s.now := rfl
@[simp] theorem memPut_clk (s : State) (a : Nat) (l : Bytes) : (memPut s a l).clk = s.clk := rfl
@[simp] theorem memPut_units (s : State) (a : Nat) (l : Bytes) : (memPut s a l).units = s.units := rfl
@[simp] theorem memPut_regs (s : State) (a : Nat) (l : Bytes) : (memPut s a l).regs = s.regs := rfl
@[simp] theorem memPut_regsF (s : State) (a : Nat) (l : Bytes) : (memPut s a l).regsF = s.regsF := rfl
@[simp] theorem memPut_cmdResult (s : State) (a : Nat) (l : Bytes) : (memPut s a l).cmdResult = s.cmdResult := rfl
@[simp] theorem memPut_phu (s : State) (a : Nat) (l : Bytes) : (memPut s a l).phu = s.phu := rfl
@[simp] theorem memPut_sched (s : State) (a : Nat) (l : Bytes) : (memPut s a l).sched = s.sched := rfl
@[simp] theorem memPut_plan (s : State) (a : Nat) (l : Bytes) : (memPut s a l).plan = s.plan := rfl
@[simp] theorem memPut_world (s : State) (a : Nat) (l : Bytes) : (memPut s a l).world = s.world := rfl
@[simp] theorem memPut_model (s : State) (a : Nat) (l : Bytes) : (memPut s a l).model = s.model := rfl
@[simp] theorem memPut_cand (s : State) (a : Nat) (l : Bytes) : (memPut s a l).cand = s.cand := rfl
@[simp] theorem memPut_pod (s : State) (a : Nat) (l : Bytes) : (memPut s a l).pod = s.pod := rfl
@[simp] theorem memPut_peers (s : State) (a : Nat) (l : Bytes) : (memPut s a l).peers = s.peers := rfl
@[simp] theorem memPut_sel (s : State) (a : Nat) (l : Bytes) : (memPut s a l).sel = s.sel := rfl
@[simp] theorem memPut_psn (s : State) (a : Nat) (l : Bytes) : (memPut s a l).psn = s.psn := rfl
@[simp] theorem memPut_cob (s : State) (a : Nat) (l : Bytes) : (memPut s a l).cob = s.cob := rfl
@[simp] theorem memPut_diag (s : State) (a : Nat) (l : Bytes) : (memPut s a l).diag = s.diag := rfl
@[simp] theorem memPut_logs (s : State) (a : Nat) (l : Bytes) : (memPut s a l).logs = s.logs := rfl
@[simp] theorem memPut_safety (s : State) (a : Nat) (l : Bytes) : (memPut s a l).safety = s.safety := rfl
@[simp] theorem memPut_det (s : State) (a : Nat) (l : Bytes) : (memPut s a l).det = s.det := rfl
@[simp] theorem memPut_od (s : State) (a : Nat) (l : Bytes) : (memPut s a l).od = s.od := rfl
@[simp] theorem memPut_cpm (s : State) (a : Nat) (l : Bytes) : (memPut s a l).cpm = s.cpm := rfl
@[simp] theorem memPut_pins (s : State) (a : Nat) (l : Bytes) : (memPut s a l).pins = s.pins := rfl
@[simp] theorem memPut_svc (s : State) (a : Nat) (l : Bytes) : (memPut s a l).svc = s.svc := rfl
@[simp] theorem memPut_resp (s : State) (a : Nat) (l : Bytes) : (memPut s a l).resp = s.resp := rfl
@[simp] theorem memPut_freeCtr (s : State) (a : Nat) (l : Bytes) : (memPut s a l).freeCtr = s.freeCtr := rfl

/-! ### memPutLe -/

@[simp] theorem memPutLe_pending (s : State) (a n v : Nat) : (memPutLe s a n v).pending = s.pending := rfl
@[simp] theorem memPutLe_now (s : State) (a n v : Nat) : (memPutLe s a n v).now = s.now := rfl
@[simp] theorem memPutLe_clk (s : State) (a n v : Nat) : (memPutLe s a n v).clk = s.clk := rfl
@[simp] theorem memPutLe_units (s : State) (a n v : Nat) : (memPutLe s a n v).units = s.units := rfl
@[simp] theorem memPutLe_regs (s : State) (a n v : Nat) : (memPutLe s a n v).regs = s.regs := rfl
@[simp] theorem memPutLe_regsF (s : State) (a n v : Nat) : (memPutLe s a n v).regsF = s.regsF := rfl
@[simp] theorem memPutLe_cmdResult (s : State) (a n v : Nat) : (memPutLe s a n v).cmdResult = s.cmdResult := rfl
@[simp] theorem memPutLe_phu (s : State) (a n v : Nat) : (memPutLe s a n v).phu = s.phu := rfl
@[simp] theorem memPutLe_sched (s : State) (a n v : Nat) : (memPutLe s a n v).sched = s.sched := rfl
@[simp] theorem memPutLe_plan (s : State) (a n v : Nat) : (memPutLe s a n v).plan = s.plan := rfl
@[simp] theorem memPutLe_world (s : State) (a n v : Nat) : (memPutLe s a n v).world = s.world := rfl
@[simp] theorem memPutLe_model (s : State) (a n v : Nat) : (memPutLe s a n v).model = s.model := rfl
@[simp] theorem memPutLe_cand (s : State) (a n v : Nat) : (memPutLe s a n v).cand = s.cand := rfl
@[simp] theorem memPutLe_pod (s : State) (a n v : Nat) : (memPutLe s a n v).pod = s.pod := rfl
@[simp] theorem memPutLe_peers (s : State) (a n v : Nat) : (memPutLe s a n v).peers = s.peers := rfl
@[simp] theorem memPutLe_sel (s : State) (a n v : Nat) : (memPutLe s a n v).sel = s.sel := rfl
@[simp] theorem memPutLe_psn (s : State) (a n v : Nat) : (memPutLe s a n v).psn = s.psn := rfl
@[simp] theorem memPutLe_cob (s : State) (a n v : Nat) : (memPutLe s a n v).cob = s.cob := rfl
@[simp] theorem memPutLe_diag (s : State) (a n v : Nat) : (memPutLe s a n v).diag = s.diag := rfl
@[simp] theorem memPutLe_logs (s : State) (a n v : Nat) : (memPutLe s a n v).logs = s.logs := rfl
@[simp] theorem memPutLe_safety (s : State) (a n v : Nat) : (memPutLe s a n v).safety = s.safety := rfl
@[simp] theorem memPutLe_det (s : State) (a n v : Nat) : (memPutLe s a n v).det = s.det := rfl
@[simp] theorem memPutLe_od (s : State) (a n v : Nat) : (memPutLe s a n v).od = s.od := rfl
@[simp] theorem memPutLe_cpm (s : State) (a n v : Nat) : (memPutLe s a n v).cpm = s.cpm := rfl
@[simp] theorem memPutLe_pins (s : State) (a n v : Nat) : (memPutLe s a n v).pins = s.pins := rfl
@[simp] theorem memPutLe_svc (s : State) (a n v : Nat) : (memPutLe s a n v).svc = s.svc := rfl
@[simp] theorem memPutLe_resp (s : State) (a n v : Nat) : (memPutLe s a n v).resp = s.resp := rfl
@[simp] theorem memPutLe_freeCtr (s : State) (a n v : Nat) : (memPutLe s a n v).freeCtr = s.freeCtr := rfl

/-! ### unitSet -/

@[simp] theorem unitSet_pending (s : State) (u : Nat) (r : UnitRec) : (unitSet s u r).pending = s.pending := rfl
@[simp] theorem unitSet_now (s : State) (u : Nat) (r : UnitRec) : (unitSet s u r).now = s.now := rfl
@[simp] theorem unitSet_clk (s : State) (u : Nat) (r : UnitRec) : (unitSet s u r).clk = s.clk := rfl
@[simp] theorem unitSet_units (s : State) (u : Nat) (r : UnitRec) : (unitSet s u r).units = Smap.set unitDefault s.units u r := rfl
@[simp] theorem unitSet_regs (s : State) (u : Nat) (r : UnitRec) : (unitSet s u r).regs = s.regs := rfl
@[simp] theorem unitSet_regsF (s : State) (u : Nat) (r : UnitRec) : (unitSet s u r).regsF = s.regsF := rfl
@[simp] theorem unitSet_cmdResult (s : State) (u : Nat) (r : UnitRec) : (unitSet s u r).cmdResult = s.cmdResult := rfl
@[simp] theorem unitSet_phu (s : State) (u : Nat) (r : UnitRec) : (unitSet s u r).phu = s.phu := rfl
@[simp] theorem unitSet_sched (s : State) (u : Nat) (r : UnitRec) : (unitSet s u r).sched = s.sched := rfl
@[simp] theorem unitSet_plan (s : State) (u : Nat) (r : UnitRec) : (unitSet s u r).plan = s.plan := rfl
@[simp] theorem unitSet_mem (s : State) (u : Nat) (r : UnitRec) : (unitSet s u r).mem = s.mem := rfl
@[simp] theorem unitSet_world (s : State) (u : Nat) (r : UnitRec) : (unitSet s u r).world = s.world := rfl
@[simp] theorem unitSet_model (s : State) (u : Nat) (r : UnitRec) : (unitSet s u r).model = s.model := rfl
@[simp] theorem unitSet_cand (s : State) (u : Nat) (r : UnitRec) : (unitSet s u r).cand = s.cand := rfl
@[simp] theorem unitSet_pod (s : State) (u : Nat) (r : UnitRec) : (unitSet s u r).pod = s.pod := rfl
@[simp] theorem unitSet_peers (s : State) (u : Nat) (r : UnitRec) : (unitSet s u r).peers = s.peers := rfl
@[simp] theorem unitSet_sel (s : State) (u : Nat) (r : UnitRec) : (unitSet s u r).sel = s.sel := rfl
@[simp] theorem unitSet_psn (s : State) (u : Nat) (r : UnitRec) : (unitSet s u r).psn = s.psn := rfl
@[simp] theorem unitSet_cob (s : State) (u : Nat) (r : UnitRec) : (unitSet s u r).cob = s.cob := rfl
@[simp] theorem unitSet_diag (s : State) (u : Nat) (r : UnitRec) : (unitSet s u r).diag = s.diag := rfl
@[simp] theorem unitSet_logs (s : State) (u : Nat) (r : UnitRec) : (unitSet s u r).logs = s.logs := rfl
@[simp] theorem unitSet_safety (s : State) (u : Nat) (r : UnitRec) : (unitSet s u r).safety = s.safety := rfl
@[simp] theorem unitSet_det (s : State) (u : Nat) (r : UnitRec) : (unitSet s u r).det = s.det := rfl
@[simp] theorem unitSet_od (s : State) (u : Nat) (r : UnitRec) : (unitSet s u r).od = s.od := rfl
@[simp] theorem unitSet_cpm (s : State) (u : Nat) (r : UnitRec) : (unitSet s u r).cpm = s.cpm := rfl
@[simp] theorem unitSet_pins (s : State) (u : Nat) (r : UnitRec) : (unitSet s u r).pins = s.pins := rfl
@[simp] theorem unitSet_svc (s : State) (u : Nat) (r : UnitRec) : (unitSet s u r).svc = s.svc := rfl
@[simp] theorem unitSet_resp (s : State) (u : Nat) (r : UnitRec) : (unitSet s u r).resp = s.resp := rfl
@[simp] theorem unitSet_freeCtr (s : State) (u : Nat) (r : UnitRec) : (unitSet s u r).freeCtr = s.freeCtr := rfl

/-! ### unitUpd -/

@[simp] theorem unitUpd_pending (s : State) (u : Nat) (f : UnitRec → UnitRec) : (unitUpd s u f).pending = s.pending := rfl
@[simp] theorem unitUpd_now (s : State) (u : Nat) (f : UnitRec → UnitRec) : (unitUpd s u f).now = s.now := rfl
@[simp] theorem unitUpd_clk (s : State) (u : Nat) (f : UnitRec → UnitRec) : (unitUpd s u f).clk = s.clk := rfl
@[simp] theorem unitUpd_units (s : State) (u : Nat) (f : UnitRec → UnitRec) : (unitUpd s u f).units = Smap.set unitDefault s.units u (f (unitOf s u)) := rfl
@[simp] theorem unitUpd_regs (s : State) (u : Nat) (f : UnitRec → UnitRec) : (unitUpd s u f).regs = s.regs := rfl
@[simp] theorem unitUpd_regsF (s : State) (u : Nat) (f : UnitRec → UnitRec) : (unitUpd s u f).regsF = s.regsF := rfl
@[simp] theorem unitUpd_cmdResult (s : State) (u : Nat) (f : UnitRec → UnitRec) : (unitUpd s u f).cmdResult = s.cmdResult := rfl
@[simp] theorem unitUpd_phu (s : State) (u : Nat) (f : UnitRec → UnitRec) : (unitUpd s u f).phu = s.phu := rfl
@[simp] theorem unitUpd_sched (s : State) (u : Nat) (f : UnitRec → UnitRec) : (unitUpd s u f).sched = s.sched := rfl
@[simp] theorem unitUpd_plan (s : State) (u : Nat) (f : UnitRec → UnitRec) : (unitUpd s u f).plan = s.plan := rfl
@[simp] theorem unitUpd_mem (s : State) (u : Nat) (f : UnitRec → UnitRec) : (unitUpd s u f).mem = s.mem := rfl
@[simp] theorem unitUpd_world (s : State) (u : Nat) (f : UnitRec → UnitRec) : (unitUpd s u f).world = s.world := rfl
@[simp] theorem unitUpd_model (s : State) (u : Nat) (f : UnitRec → UnitRec) : (unitUpd s u f).model = s.model := rfl
@[simp] theorem unitUpd_cand (s : State) (u : Nat) (f : UnitRec → UnitRec) : (unitUpd s u f).cand = s.cand := rfl
@[simp] theorem unitUpd_pod (s : State) (u : Nat) (f : UnitRec → UnitRec) : (unitUpd s u f).pod = s.pod := rfl
@[simp] theorem unitUpd_peers (s : State) (u : Nat) (f : UnitRec → UnitRec) : (unitUpd s u f).peers = s.peers := rfl
@[simp] theorem unitUpd_sel (s : State) (u : Nat) (f : UnitRec → UnitRec) : (unitUpd s u f).sel = s.sel := rfl
@[simp] theorem unitUpd_psn (s : State) (u : Nat) (f : UnitRec → UnitRec) : (unitUpd s u f).psn = s.psn := rfl
@[simp] theorem unitUpd_cob (s : State) (u : Nat) (f : UnitRec → UnitRec) : (unitUpd s u f).cob = s.cob := rfl
@[simp] theorem unitUpd_diag (s : State) (u : Nat) (f : UnitRec → UnitRec) : (unitUpd s u f).diag = s.diag := rfl
@[simp] theorem unitUpd_logs (s : State) (u : Nat) (f : UnitRec → UnitRec) : (unitUpd s u f).logs = s.logs := rfl
@[simp] theorem unitUpd_safety (s : State) (u : Nat) (f : UnitRec → UnitRec) : (unitUpd s u f).safety = s.safety := rfl
@[simp] theorem unitUpd_det (s : State) (u : Nat) (f : UnitRec → UnitRec) : (unitUpd s u f).det = s.det := rfl
@[simp] theorem unitUpd_od (s : State) (u : Nat) (f : UnitRec → UnitRec) : (unitUpd s u f).od = s.od := rfl
@[simp] theorem unitUpd_cpm (s : State) (u : Nat) (f : UnitRec → UnitRec) : (unitUpd s u f).cpm = s.cpm := rfl
@[simp] theorem unitUpd_pins (s : State) (u : Nat) (f : UnitRec → UnitRec) : (unitUpd s u f).pins = s.pins := rfl
@[simp] theorem unitUpd_svc (s : State) (u : Nat) (f : UnitRec → UnitRec) : (unitUpd s u f).svc = s.svc := rfl
@[simp] theorem unitUpd_resp (s : State) (u : Nat) (f : UnitRec → UnitRec) : (unitUpd s u f).resp = s.resp := rfl
@[simp] theorem unitUpd_freeCtr (s : State) (u : Nat) (f : UnitRec → UnitRec) : (unitUpd s u f).freeCtr = s.freeCtr := rfl

/-! ### w1cSet -/

@[simp] theorem w1cSet_pending (s : State) (o i : Nat) : (w1cSet s o i).pending = s.pending := rfl
@[simp] theorem w1cSet_now (s : State) (o i : Nat) : (w1cSet s o i).now = s.now := rfl
@[simp] theorem w1cSet_units (s : State) (o i : Nat) : (w1cSet s o i).units = s.units := rfl
@[simp] theorem w1cSet_regs (s : State) (o i : Nat) : (w1cSet s o i).regs = Smap.set regReset s.regs o (BitVec.ofNat 32 (setBit (regGet s o) i)) := rfl
@[simp] theorem w1cSet_regsF (s : State) (o i : Nat) : (w1cSet s o i).regsF = s.regsF := rfl
@[simp] theorem w1cSet_cmdResult (s : State) (o i : Nat) : (w1cSet s o i).cmdResult = s.cmdResult := rfl
@[simp] theorem w1cSet_phu (s : State) (o i : Nat) : (w1cSet s o i).phu = s.phu := rfl
@[simp] theorem w1cSet_sched (s : State) (o i : Nat) : (w1cSet s o i).sched = s.sched := rfl
@[simp] theorem w1cSet_plan (s : State) (o i : Nat) : (w1cSet s o i).plan = s.plan := rfl
@[simp] theorem w1cSet_mem (s : State) (o i : Nat) : (w1cSet s o i).mem = s.mem := rfl
@[simp] theorem w1cSet_world (s : State) (o i : Nat) : (w1cSet s o i).world = s.world := rfl
@[simp] theorem w1cSet_model (s : State) (o i : Nat) : (w1cSet s o i).model = s.model := rfl
@[simp] theorem w1cSet_cand (s : State) (o i : Nat) : (w1cSet s o i).cand = s.cand := rfl
@[simp] theorem w1cSet_pod (s : State) (o i : Nat) : (w1cSet s o i).pod = s.pod := rfl
@[simp] theorem w1cSet_peers (s : State) (o i : Nat) : (w1cSet s o i).peers = s.peers := rfl
@[simp] theorem w1cSet_sel (s : State) (o i : Nat) : (w1cSet s o i).sel = s.sel := rfl
@[simp] theorem w1cSet_psn (s : State) (o i : Nat) : (w1cSet s o i).psn = s.psn := rfl
@[simp] theorem w1cSet_cob (s : State) (o i : Nat) : (w1cSet s o i).cob = s.cob := rfl
@[simp] theorem w1cSet_diag (s : State) (o i : Nat) : (w1cSet s o i).diag = s.diag := rfl
@[simp] theorem w1cSet_logs (s : State) (o i : Nat) : (w1cSet s o i).logs = s.logs := rfl
@[simp] theorem w1cSet_safety (s : State) (o i : Nat) : (w1cSet s o i).safety = s.safety := rfl
@[simp] theorem w1cSet_det (s : State) (o i : Nat) : (w1cSet s o i).det = s.det := rfl
@[simp] theorem w1cSet_od (s : State) (o i : Nat) : (w1cSet s o i).od = s.od := rfl
@[simp] theorem w1cSet_cpm (s : State) (o i : Nat) : (w1cSet s o i).cpm = s.cpm := rfl
@[simp] theorem w1cSet_pins (s : State) (o i : Nat) : (w1cSet s o i).pins = s.pins := rfl
@[simp] theorem w1cSet_svc (s : State) (o i : Nat) : (w1cSet s o i).svc = s.svc := rfl
@[simp] theorem w1cSet_resp (s : State) (o i : Nat) : (w1cSet s o i).resp = s.resp := rfl
@[simp] theorem w1cSet_freeCtr (s : State) (o i : Nat) : (w1cSet s o i).freeCtr = s.freeCtr := rfl

/-! ### w1cClear -/

@[simp] theorem w1cClear_pending (s : State) (o v : Nat) : (w1cClear s o v).pending = s.pending := rfl
@[simp] theorem w1cClear_now (s : State) (o v : Nat) : (w1cClear s o v).now = s.now := rfl
@[simp] theorem w1cClear_clk (s : State) (o v : Nat) : (w1cClear s o v).clk = s.clk := rfl
@[simp] theorem w1cClear_units (s : State) (o v : Nat) : (w1cClear s o v).units = s.units := rfl
@[simp] theorem w1cClear_regsF (s : State) (o v : Nat) : (w1cClear s o v).regsF = s.regsF := rfl
@[simp] theorem w1cClear_cmdResult (s : State) (o v : Nat) : (w1cClear s o v).cmdResult = s.cmdResult := rfl
@[simp] theorem w1cClear_phu (s : State) (o v : Nat) : (w1cClear s o v).phu = s.phu := rfl
@[simp] theorem w1cClear_sched (s : State) (o v : Nat) : (w1cClear s o v).sched = s.sched := rfl
@[simp] theorem w1cClear_plan (s : State) (o v : Nat) : (w1cClear s o v).plan = s.plan := rfl
@[simp] theorem w1cClear_mem (s : State) (o v : Nat) : (w1cClear s o v).mem = s.mem := rfl
@[simp] theorem w1cClear_world (s : State) (o v : Nat) : (w1cClear s o v).world = s.world := rfl
@[simp] theorem w1cClear_model (s : State) (o v : Nat) : (w1cClear s o v).model = s.model := rfl
@[simp] theorem w1cClear_cand (s : State) (o v : Nat) : (w1cClear s o v).cand = s.cand := rfl
@[simp] theorem w1cClear_pod (s : State) (o v : Nat) : (w1cClear s o v).pod = s.pod := rfl
@[simp] theorem w1cClear_peers (s : State) (o v : Nat) : (w1cClear s o v).peers = s.peers := rfl
@[simp] theorem w1cClear_sel (s : State) (o v : Nat) : (w1cClear s o v).sel = s.sel := rfl
@[simp] theorem w1cClear_psn (s : State) (o v : Nat) : (w1cClear s o v).psn = s.psn := rfl
@[simp] theorem w1cClear_cob (s : State) (o v : Nat) : (w1cClear s o v).cob = s.cob := rfl
@[simp] theorem w1cClear_diag (s : State) (o v : Nat) : (w1cClear s o v).diag = s.diag := rfl
@[simp] theorem w1cClear_logs (s : State) (o v : Nat) : (w1cClear s o v).logs = s.logs := rfl
@[simp] theorem w1cClear_safety (s : State) (o v : Nat) : (w1cClear s o v).safety = s.safety := rfl
@[simp] theorem w1cClear_det (s : State) (o v : Nat) : (w1cClear s o v).det = s.det := rfl
@[simp] theorem w1cClear_od (s : State) (o v : Nat) : (w1cClear s o v).od = s.od := rfl
@[simp] theorem w1cClear_cpm (s : State) (o v : Nat) : (w1cClear s o v).cpm = s.cpm := rfl
@[simp] theorem w1cClear_pins (s : State) (o v : Nat) : (w1cClear s o v).pins = s.pins := rfl
@[simp] theorem w1cClear_svc (s : State) (o v : Nat) : (w1cClear s o v).svc = s.svc := rfl
@[simp] theorem w1cClear_resp (s : State) (o v : Nat) : (w1cClear s o v).resp = s.resp := rfl
@[simp] theorem w1cClear_freeCtr (s : State) (o v : Nat) : (w1cClear s o v).freeCtr = s.freeCtr := rfl

/-! ### recordWrite -/

@[simp] theorem recordWrite_pending (s : State)  : (recordWrite s ).pending = s.pending := rfl
@[simp] theorem recordWrite_now (s : State)  : (recordWrite s ).now = s.now := rfl
@[simp] theorem recordWrite_clk (s : State)  : (recordWrite s ).clk = s.clk := rfl
@[simp] theorem recordWrite_units (s : State)  : (recordWrite s ).units = s.units := rfl
@[simp] theorem recordWrite_regs (s : State)  : (recordWrite s ).regs = s.regs := rfl
@[simp] theorem recordWrite_regsF (s : State)  : (recordWrite s ).regsF = s.regsF := rfl
@[simp] theorem recordWrite_cmdResult (s : State)  : (recordWrite s ).cmdResult = s.cmdResult := rfl
@[simp] theorem recordWrite_phu (s : State)  : (recordWrite s ).phu = s.phu := rfl
@[simp] theorem recordWrite_sched (s : State)  : (recordWrite s ).sched = s.sched := rfl
@[simp] theorem recordWrite_plan (s : State)  : (recordWrite s ).plan = s.plan := rfl
@[simp] theorem recordWrite_mem (s : State)  : (recordWrite s ).mem = s.mem := rfl
@[simp] theorem recordWrite_world (s : State)  : (recordWrite s ).world = s.world := rfl
@[simp] theorem recordWrite_model (s : State)  : (recordWrite s ).model = s.model := rfl
@[simp] theorem recordWrite_cand (s : State)  : (recordWrite s ).cand = s.cand := rfl
@[simp] theorem recordWrite_pod (s : State)  : (recordWrite s ).pod = s.pod := rfl
@[simp] theorem recordWrite_peers (s : State)  : (recordWrite s ).peers = s.peers := rfl
@[simp] theorem recordWrite_sel (s : State)  : (recordWrite s ).sel = s.sel := rfl
@[simp] theorem recordWrite_psn (s : State)  : (recordWrite s ).psn = s.psn := rfl
@[simp] theorem recordWrite_cob (s : State)  : (recordWrite s ).cob = s.cob := rfl
@[simp] theorem recordWrite_diag (s : State)  : (recordWrite s ).diag = s.diag := rfl
@[simp] theorem recordWrite_logs (s : State)  : (recordWrite s ).logs = s.logs := rfl
@[simp] theorem recordWrite_safety (s : State)  : (recordWrite s ).safety = s.safety := rfl
@[simp] theorem recordWrite_det (s : State)  : (recordWrite s ).det = s.det := rfl
@[simp] theorem recordWrite_od (s : State)  : (recordWrite s ).od = s.od := rfl
@[simp] theorem recordWrite_cpm (s : State)  : (recordWrite s ).cpm = s.cpm := rfl
@[simp] theorem recordWrite_pins (s : State)  : (recordWrite s ).pins = s.pins := rfl
@[simp] theorem recordWrite_resp (s : State)  : (recordWrite s ).resp = s.resp := rfl
@[simp] theorem recordWrite_freeCtr (s : State)  : (recordWrite s ).freeCtr = s.freeCtr := rfl

/-! ### Events -/

@[simp] theorem setEventBits_pending (s : State) (l : List (Nat × Nat)) : (setEventBits s l).pending = s.pending := by
  unfold setEventBits
  induction l generalizing s with
  | nil => rfl
  | cons x t ih => simp [List.foldl, ih]
@[simp] theorem setEventBits_now (s : State) (l : List (Nat × Nat)) : (setEventBits s l).now = s.now := by
  unfold setEventBits
  induction l generalizing s with
  | nil => rfl
  | cons x t ih => simp [List.foldl, ih]
@[simp] theorem setEventBits_units (s : State) (l : List (Nat × Nat)) : (setEventBits s l).units = s.units := by
  unfold setEventBits
  induction l generalizing s with
  | nil => rfl
  | cons x t ih => simp [List.foldl, ih]
@[simp] theorem setEventBits_regsF (s : State) (l : List (Nat × Nat)) : (setEventBits s l).regsF = s.regsF := by
  unfold setEventBits
  induction l generalizing s with
  | nil => rfl
  | cons x t ih => simp [List.foldl, ih]
@[simp] theorem setEventBits_cmdResult (s : State) (l : List (Nat × Nat)) : (setEventBits s l).cmdResult = s.cmdResult := by
  unfold setEventBits
  induction l generalizing s with
  | nil => rfl
  | cons x t ih => simp [List.foldl, ih]
@[simp] theorem setEventBits_phu (s : State) (l : List (Nat × Nat)) : (setEventBits s l).phu = s.phu := by
  unfold setEventBits
  induction l generalizing s with
  | nil => rfl
  | cons x t ih => simp [List.foldl, ih]
@[simp] theorem setEventBits_sched (s : State) (l : List (Nat × Nat)) : (setEventBits s l).sched = s.sched := by
  unfold setEventBits
  induction l generalizing s with
  | nil => rfl
  | cons x t ih => simp [List.foldl, ih]
@[simp] theorem setEventBits_plan (s : State) (l : List (Nat × Nat)) : (setEventBits s l).plan = s.plan := by
  unfold setEventBits
  induction l generalizing s with
  | nil => rfl
  | cons x t ih => simp [List.foldl, ih]
@[simp] theorem setEventBits_mem (s : State) (l : List (Nat × Nat)) : (setEventBits s l).mem = s.mem := by
  unfold setEventBits
  induction l generalizing s with
  | nil => rfl
  | cons x t ih => simp [List.foldl, ih]
@[simp] theorem setEventBits_world (s : State) (l : List (Nat × Nat)) : (setEventBits s l).world = s.world := by
  unfold setEventBits
  induction l generalizing s with
  | nil => rfl
  | cons x t ih => simp [List.foldl, ih]
@[simp] theorem setEventBits_model (s : State) (l : List (Nat × Nat)) : (setEventBits s l).model = s.model := by
  unfold setEventBits
  induction l generalizing s with
  | nil => rfl
  | cons x t ih => simp [List.foldl, ih]
@[simp] theorem setEventBits_cand (s : State) (l : List (Nat × Nat)) : (setEventBits s l).cand = s.cand := by
  unfold setEventBits
  induction l generalizing s with
  | nil => rfl
  | cons x t ih => simp [List.foldl, ih]
@[simp] theorem setEventBits_pod (s : State) (l : List (Nat × Nat)) : (setEventBits s l).pod = s.pod := by
  unfold setEventBits
  induction l generalizing s with
  | nil => rfl
  | cons x t ih => simp [List.foldl, ih]
@[simp] theorem setEventBits_peers (s : State) (l : List (Nat × Nat)) : (setEventBits s l).peers = s.peers := by
  unfold setEventBits
  induction l generalizing s with
  | nil => rfl
  | cons x t ih => simp [List.foldl, ih]
@[simp] theorem setEventBits_sel (s : State) (l : List (Nat × Nat)) : (setEventBits s l).sel = s.sel := by
  unfold setEventBits
  induction l generalizing s with
  | nil => rfl
  | cons x t ih => simp [List.foldl, ih]
@[simp] theorem setEventBits_psn (s : State) (l : List (Nat × Nat)) : (setEventBits s l).psn = s.psn := by
  unfold setEventBits
  induction l generalizing s with
  | nil => rfl
  | cons x t ih => simp [List.foldl, ih]
@[simp] theorem setEventBits_cob (s : State) (l : List (Nat × Nat)) : (setEventBits s l).cob = s.cob := by
  unfold setEventBits
  induction l generalizing s with
  | nil => rfl
  | cons x t ih => simp [List.foldl, ih]
@[simp] theorem setEventBits_diag (s : State) (l : List (Nat × Nat)) : (setEventBits s l).diag = s.diag := by
  unfold setEventBits
  induction l generalizing s with
  | nil => rfl
  | cons x t ih => simp [List.foldl, ih]
@[simp] theorem setEventBits_logs (s : State) (l : List (Nat × Nat)) : (setEventBits s l).logs = s.logs := by
  unfold setEventBits
  induction l generalizing s with
  | nil => rfl
  | cons x t ih => simp [List.foldl, ih]
@[simp] theorem setEventBits_safety (s : State) (l : List (Nat × Nat)) : (setEventBits s l).safety = s.safety := by
  unfold setEventBits
  induction l generalizing s with
  | nil => rfl
  | cons x t ih => simp [List.foldl, ih]
@[simp] theorem setEventBits_det (s : State) (l : List (Nat × Nat)) : (setEventBits s l).det = s.det := by
  unfold setEventBits
  induction l generalizing s with
  | nil => rfl
  | cons x t ih => simp [List.foldl, ih]
@[simp] theorem setEventBits_od (s : State) (l : List (Nat × Nat)) : (setEventBits s l).od = s.od := by
  unfold setEventBits
  induction l generalizing s with
  | nil => rfl
  | cons x t ih => simp [List.foldl, ih]
@[simp] theorem setEventBits_cpm (s : State) (l : List (Nat × Nat)) : (setEventBits s l).cpm = s.cpm := by
  unfold setEventBits
  induction l generalizing s with
  | nil => rfl
  | cons x t ih => simp [List.foldl, ih]
@[simp] theorem setEventBits_pins (s : State) (l : List (Nat × Nat)) : (setEventBits s l).pins = s.pins := by
  unfold setEventBits
  induction l generalizing s with
  | nil => rfl
  | cons x t ih => simp [List.foldl, ih]
@[simp] theorem setEventBits_svc (s : State) (l : List (Nat × Nat)) : (setEventBits s l).svc = s.svc := by
  unfold setEventBits
  induction l generalizing s with
  | nil => rfl
  | cons x t ih => simp [List.foldl, ih]
@[simp] theorem setEventBits_resp (s : State) (l : List (Nat × Nat)) : (setEventBits s l).resp = s.resp := by
  unfold setEventBits
  induction l generalizing s with
  | nil => rfl
  | cons x t ih => simp [List.foldl, ih]
@[simp] theorem setEventBits_freeCtr (s : State) (l : List (Nat × Nat)) : (setEventBits s l).freeCtr = s.freeCtr := by
  unfold setEventBits
  induction l generalizing s with
  | nil => rfl
  | cons x t ih => simp [List.foldl, ih]
@[simp] theorem raise_pending (s : State) (c u a b : Nat) : (raise s c u a b).pending = s.pending := by simp [raise, raiseX]
@[simp] theorem raise_now (s : State) (c u a b : Nat) : (raise s c u a b).now = s.now := by simp [raise, raiseX]
@[simp] theorem raise_units (s : State) (c u a b : Nat) : (raise s c u a b).units = s.units := by simp [raise, raiseX]
@[simp] theorem raise_regsF (s : State) (c u a b : Nat) : (raise s c u a b).regsF = s.regsF := by simp [raise, raiseX]
@[simp] theorem raise_cmdResult (s : State) (c u a b : Nat) : (raise s c u a b).cmdResult = s.cmdResult := by simp [raise, raiseX]
@[simp] theorem raise_phu (s : State) (c u a b : Nat) : (raise s c u a b).phu = s.phu := by simp [raise, raiseX]
@[simp] theorem raise_sched (s : State) (c u a b : Nat) : (raise s c u a b).sched = s.sched := by simp [raise, raiseX]
@[simp] theorem raise_plan (s : State) (c u a b : Nat) : (raise s c u a b).plan = s.plan := by simp [raise, raiseX]
@[simp] theorem raise_mem (s : State) (c u a b : Nat) : (raise s c u a b).mem = s.mem := by simp [raise, raiseX]
@[simp] theorem raise_world (s : State) (c u a b : Nat) : (raise s c u a b).world = s.world := by simp [raise, raiseX]
@[simp] theorem raise_model (s : State) (c u a b : Nat) : (raise s c u a b).model = s.model := by simp [raise, raiseX]
@[simp] theorem raise_cand (s : State) (c u a b : Nat) : (raise s c u a b).cand = s.cand := by simp [raise, raiseX]
@[simp] theorem raise_pod (s : State) (c u a b : Nat) : (raise s c u a b).pod = s.pod := by simp [raise, raiseX]
@[simp] theorem raise_peers (s : State) (c u a b : Nat) : (raise s c u a b).peers = s.peers := by simp [raise, raiseX]
@[simp] theorem raise_sel (s : State) (c u a b : Nat) : (raise s c u a b).sel = s.sel := by simp [raise, raiseX]
@[simp] theorem raise_psn (s : State) (c u a b : Nat) : (raise s c u a b).psn = s.psn := by simp [raise, raiseX]
@[simp] theorem raise_cob (s : State) (c u a b : Nat) : (raise s c u a b).cob = s.cob := by simp [raise, raiseX]
@[simp] theorem raise_diag (s : State) (c u a b : Nat) : (raise s c u a b).diag = s.diag := by simp [raise, raiseX]
@[simp] theorem raise_safety (s : State) (c u a b : Nat) : (raise s c u a b).safety = s.safety := by simp [raise, raiseX]
@[simp] theorem raise_det (s : State) (c u a b : Nat) : (raise s c u a b).det = s.det := by simp [raise, raiseX]
@[simp] theorem raise_od (s : State) (c u a b : Nat) : (raise s c u a b).od = s.od := by simp [raise, raiseX]
@[simp] theorem raise_cpm (s : State) (c u a b : Nat) : (raise s c u a b).cpm = s.cpm := by simp [raise, raiseX]
@[simp] theorem raise_pins (s : State) (c u a b : Nat) : (raise s c u a b).pins = s.pins := by simp [raise, raiseX]
@[simp] theorem raise_svc (s : State) (c u a b : Nat) : (raise s c u a b).svc = s.svc := by simp [raise, raiseX]
@[simp] theorem raise_resp (s : State) (c u a b : Nat) : (raise s c u a b).resp = s.resp := by simp [raise, raiseX]
@[simp] theorem raise_freeCtr (s : State) (c u a b : Nat) : (raise s c u a b).freeCtr = s.freeCtr := by simp [raise, raiseX]
@[simp] theorem boxAdd_pending (s : State) (t : Nat) (b1 b2 : Bytes) : (boxAdd s t b1 b2).pending = s.pending := by
  show (ite (s.logs.box.length < boxCap) _ _ : State).pending = _
  split
  · rfl
  · simp only [raise_pending]; rfl
@[simp] theorem boxAdd_now (s : State) (t : Nat) (b1 b2 : Bytes) : (boxAdd s t b1 b2).now = s.now := by
  show (ite (s.logs.box.length < boxCap) _ _ : State).now = _
  split
  · rfl
  · simp only [raise_now]; rfl
@[simp] theorem boxAdd_units (s : State) (t : Nat) (b1 b2 : Bytes) : (boxAdd s t b1 b2).units = s.units := by
  show (ite (s.logs.box.length < boxCap) _ _ : State).units = _
  split
  · rfl
  · simp only [raise_units]; rfl
@[simp] theorem boxAdd_regsF (s : State) (t : Nat) (b1 b2 : Bytes) : (boxAdd s t b1 b2).regsF = s.regsF := by
  show (ite (s.logs.box.length < boxCap) _ _ : State).regsF = _
  split
  · rfl
  · simp only [raise_regsF]; rfl
@[simp] theorem boxAdd_cmdResult (s : State) (t : Nat) (b1 b2 : Bytes) : (boxAdd s t b1 b2).cmdResult = s.cmdResult := by
  show (ite (s.logs.box.length < boxCap) _ _ : State).cmdResult = _
  split
  · rfl
  · simp only [raise_cmdResult]; rfl
@[simp] theorem boxAdd_phu (s : State) (t : Nat) (b1 b2 : Bytes) : (boxAdd s t b1 b2).phu = s.phu := by
  show (ite (s.logs.box.length < boxCap) _ _ : State).phu = _
  split
  · rfl
  · simp only [raise_phu]; rfl
@[simp] theorem boxAdd_sched (s : State) (t : Nat) (b1 b2 : Bytes) : (boxAdd s t b1 b2).sched = s.sched := by
  show (ite (s.logs.box.length < boxCap) _ _ : State).sched = _
  split
  · rfl
  · simp only [raise_sched]; rfl
@[simp] theorem boxAdd_plan (s : State) (t : Nat) (b1 b2 : Bytes) : (boxAdd s t b1 b2).plan = s.plan := by
  show (ite (s.logs.box.length < boxCap) _ _ : State).plan = _
  split
  · rfl
  · simp only [raise_plan]; rfl
@[simp] theorem boxAdd_mem (s : State) (t : Nat) (b1 b2 : Bytes) : (boxAdd s t b1 b2).mem = s.mem := by
  show (ite (s.logs.box.length < boxCap) _ _ : State).mem = _
  split
  · rfl
  · simp only [raise_mem]; rfl
@[simp] theorem boxAdd_world (s : State) (t : Nat) (b1 b2 : Bytes) : (boxAdd s t b1 b2).world = s.world := by
  show (ite (s.logs.box.length < boxCap) _ _ : State).world = _
  split
  · rfl
  · simp only [raise_world]; rfl
@[simp] theorem boxAdd_model (s : State) (t : Nat) (b1 b2 : Bytes) : (boxAdd s t b1 b2).model = s.model := by
  show (ite (s.logs.box.length < boxCap) _ _ : State).model = _
  split
  · rfl
  · simp only [raise_model]; rfl
@[simp] theorem boxAdd_cand (s : State) (t : Nat) (b1 b2 : Bytes) : (boxAdd s t b1 b2).cand = s.cand := by
  show (ite (s.logs.box.length < boxCap) _ _ : State).cand = _
  split
  · rfl
  · simp only [raise_cand]; rfl
@[simp] theorem boxAdd_pod (s : State) (t : Nat) (b1 b2 : Bytes) : (boxAdd s t b1 b2).pod = s.pod := by
  show (ite (s.logs.box.length < boxCap) _ _ : State).pod = _
  split
  · rfl
  · simp only [raise_pod]; rfl
@[simp] theorem boxAdd_peers (s : State) (t : Nat) (b1 b2 : Bytes) : (boxAdd s t b1 b2).peers = s.peers := by
  show (ite (s.logs.box.length < boxCap) _ _ : State).peers = _
  split
  · rfl
  · simp only [raise_peers]; rfl
@[simp] theorem boxAdd_sel (s : State) (t : Nat) (b1 b2 : Bytes) : (boxAdd s t b1 b2).sel = s.sel := by
  show (ite (s.logs.box.length < boxCap) _ _ : State).sel = _
  split
  · rfl
  · simp only [raise_sel]; rfl
@[simp] theorem boxAdd_psn (s : State) (t : Nat) (b1 b2 : Bytes) : (boxAdd s t b1 b2).psn = s.psn := by
  show (ite (s.logs.box.length < boxCap) _ _ : State).psn = _
  split
  · rfl
  · simp only [raise_psn]; rfl
@[simp] theorem boxAdd_cob (s : State) (t : Nat) (b1 b2 : Bytes) : (boxAdd s t b1 b2).cob = s.cob := by
  show (ite (s.logs.box.length < boxCap) _ _ : State).cob = _
  split
  · rfl
  · simp only [raise_cob]; rfl
@[simp] theorem boxAdd_diag (s : State) (t : Nat) (b1 b2 : Bytes) : (boxAdd s t b1 b2).diag = s.diag := by
  show (ite (s.logs.box.length < boxCap) _ _ : State).diag = _
  split
  · rfl
  · simp only [raise_diag]; rfl
@[simp] theorem boxAdd_safety (s : State) (t : Nat) (b1 b2 : Bytes) : (boxAdd s t b1 b2).safety = s.safety := by
  show (ite (s.logs.box.length < boxCap) _ _ : State).safety = _
  split
  · rfl
  · simp only [raise_safety]; rfl
@[simp] theorem boxAdd_det (s : State) (t : Nat) (b1 b2 : Bytes) : (boxAdd s t b1 b2).det = s.det := by
  show (ite (s.logs.box.length < boxCap) _ _ : State).det = _
  split
  · rfl
  · simp only [raise_det]; rfl
@[simp] theorem boxAdd_od (s : State) (t : Nat) (b1 b2 : Bytes) : (boxAdd s t b1 b2).od = s.od := by
  show (ite (s.logs.box.length < boxCap) _ _ : State).od = _
  split
  · rfl
  · simp only [raise_od]; rfl
@[simp] theorem boxAdd_cpm (s : State) (t : Nat) (b1 b2 : Bytes) : (boxAdd s t b1 b2).cpm = s.cpm := by
  show (ite (s.logs.box.length < boxCap) _ _ : State).cpm = _
  split
  · rfl
  · simp only [raise_cpm]; rfl
@[simp] theorem boxAdd_pins (s : State) (t : Nat) (b1 b2 : Bytes) : (boxAdd s t b1 b2).pins = s.pins := by
  show (ite (s.logs.box.length < boxCap) _ _ : State).pins = _
  split
  · rfl
  · simp only [raise_pins]; rfl
@[simp] theorem boxAdd_svc (s : State) (t : Nat) (b1 b2 : Bytes) : (boxAdd s t b1 b2).svc = s.svc := by
  show (ite (s.logs.box.length < boxCap) _ _ : State).svc = _
  split
  · rfl
  · simp only [raise_svc]; rfl
@[simp] theorem boxAdd_resp (s : State) (t : Nat) (b1 b2 : Bytes) : (boxAdd s t b1 b2).resp = s.resp := by
  show (ite (s.logs.box.length < boxCap) _ _ : State).resp = _
  split
  · rfl
  · simp only [raise_resp]; rfl

/-! ### Time -/

@[simp] theorem advance_pending (s : State) (dt : Nat) : (advance s dt).pending = s.pending := by unfold advance; split <;> rfl
@[simp] theorem reachPhase_pending (s : State) (g : Nat) : (reachPhase s g).pending = s.pending := by unfold reachPhase; split <;> simp
@[simp] theorem advance_clk (s : State) (dt : Nat) : (advance s dt).clk = s.clk := by unfold advance; split <;> rfl
@[simp] theorem reachPhase_clk (s : State) (g : Nat) : (reachPhase s g).clk = s.clk := by unfold reachPhase; split <;> simp
@[simp] theorem advance_units (s : State) (dt : Nat) : (advance s dt).units = s.units := by unfold advance; split <;> rfl
@[simp] theorem reachPhase_units (s : State) (g : Nat) : (reachPhase s g).units = s.units := by unfold reachPhase; split <;> simp
@[simp] theorem advance_regs (s : State) (dt : Nat) : (advance s dt).regs = s.regs := by unfold advance; split <;> rfl
@[simp] theorem reachPhase_regs (s : State) (g : Nat) : (reachPhase s g).regs = s.regs := by unfold reachPhase; split <;> simp
@[simp] theorem advance_regsF (s : State) (dt : Nat) : (advance s dt).regsF = s.regsF := by unfold advance; split <;> rfl
@[simp] theorem reachPhase_regsF (s : State) (g : Nat) : (reachPhase s g).regsF = s.regsF := by unfold reachPhase; split <;> simp
@[simp] theorem advance_cmdResult (s : State) (dt : Nat) : (advance s dt).cmdResult = s.cmdResult := by unfold advance; split <;> rfl
@[simp] theorem reachPhase_cmdResult (s : State) (g : Nat) : (reachPhase s g).cmdResult = s.cmdResult := by unfold reachPhase; split <;> simp
@[simp] theorem advance_sched (s : State) (dt : Nat) : (advance s dt).sched = s.sched := by unfold advance; split <;> rfl
@[simp] theorem reachPhase_sched (s : State) (g : Nat) : (reachPhase s g).sched = s.sched := by unfold reachPhase; split <;> simp
@[simp] theorem advance_plan (s : State) (dt : Nat) : (advance s dt).plan = s.plan := by unfold advance; split <;> rfl
@[simp] theorem reachPhase_plan (s : State) (g : Nat) : (reachPhase s g).plan = s.plan := by unfold reachPhase; split <;> simp
@[simp] theorem advance_mem (s : State) (dt : Nat) : (advance s dt).mem = s.mem := by unfold advance; split <;> rfl
@[simp] theorem reachPhase_mem (s : State) (g : Nat) : (reachPhase s g).mem = s.mem := by unfold reachPhase; split <;> simp
@[simp] theorem advance_world (s : State) (dt : Nat) : (advance s dt).world = s.world := by unfold advance; split <;> rfl
@[simp] theorem reachPhase_world (s : State) (g : Nat) : (reachPhase s g).world = s.world := by unfold reachPhase; split <;> simp
@[simp] theorem advance_model (s : State) (dt : Nat) : (advance s dt).model = s.model := by unfold advance; split <;> rfl
@[simp] theorem reachPhase_model (s : State) (g : Nat) : (reachPhase s g).model = s.model := by unfold reachPhase; split <;> simp
@[simp] theorem advance_cand (s : State) (dt : Nat) : (advance s dt).cand = s.cand := by unfold advance; split <;> rfl
@[simp] theorem reachPhase_cand (s : State) (g : Nat) : (reachPhase s g).cand = s.cand := by unfold reachPhase; split <;> simp
@[simp] theorem advance_pod (s : State) (dt : Nat) : (advance s dt).pod = s.pod := by unfold advance; split <;> rfl
@[simp] theorem reachPhase_pod (s : State) (g : Nat) : (reachPhase s g).pod = s.pod := by unfold reachPhase; split <;> simp
@[simp] theorem advance_peers (s : State) (dt : Nat) : (advance s dt).peers = s.peers := by unfold advance; split <;> rfl
@[simp] theorem reachPhase_peers (s : State) (g : Nat) : (reachPhase s g).peers = s.peers := by unfold reachPhase; split <;> simp
@[simp] theorem advance_sel (s : State) (dt : Nat) : (advance s dt).sel = s.sel := by unfold advance; split <;> rfl
@[simp] theorem reachPhase_sel (s : State) (g : Nat) : (reachPhase s g).sel = s.sel := by unfold reachPhase; split <;> simp
@[simp] theorem advance_psn (s : State) (dt : Nat) : (advance s dt).psn = s.psn := by unfold advance; split <;> rfl
@[simp] theorem reachPhase_psn (s : State) (g : Nat) : (reachPhase s g).psn = s.psn := by unfold reachPhase; split <;> simp
@[simp] theorem advance_cob (s : State) (dt : Nat) : (advance s dt).cob = s.cob := by unfold advance; split <;> rfl
@[simp] theorem reachPhase_cob (s : State) (g : Nat) : (reachPhase s g).cob = s.cob := by unfold reachPhase; split <;> simp
@[simp] theorem advance_diag (s : State) (dt : Nat) : (advance s dt).diag = s.diag := by unfold advance; split <;> rfl
@[simp] theorem reachPhase_diag (s : State) (g : Nat) : (reachPhase s g).diag = s.diag := by unfold reachPhase; split <;> simp
@[simp] theorem advance_logs (s : State) (dt : Nat) : (advance s dt).logs = s.logs := by unfold advance; split <;> rfl
@[simp] theorem reachPhase_logs (s : State) (g : Nat) : (reachPhase s g).logs = s.logs := by unfold reachPhase; split <;> simp
@[simp] theorem advance_safety (s : State) (dt : Nat) : (advance s dt).safety = s.safety := by unfold advance; split <;> rfl
@[simp] theorem reachPhase_safety (s : State) (g : Nat) : (reachPhase s g).safety = s.safety := by unfold reachPhase; split <;> simp
@[simp] theorem advance_det (s : State) (dt : Nat) : (advance s dt).det = s.det := by unfold advance; split <;> rfl
@[simp] theorem reachPhase_det (s : State) (g : Nat) : (reachPhase s g).det = s.det := by unfold reachPhase; split <;> simp
@[simp] theorem advance_od (s : State) (dt : Nat) : (advance s dt).od = s.od := by unfold advance; split <;> rfl
@[simp] theorem reachPhase_od (s : State) (g : Nat) : (reachPhase s g).od = s.od := by unfold reachPhase; split <;> simp
@[simp] theorem advance_cpm (s : State) (dt : Nat) : (advance s dt).cpm = s.cpm := by unfold advance; split <;> rfl
@[simp] theorem reachPhase_cpm (s : State) (g : Nat) : (reachPhase s g).cpm = s.cpm := by unfold reachPhase; split <;> simp
@[simp] theorem advance_pins (s : State) (dt : Nat) : (advance s dt).pins = s.pins := by unfold advance; split <;> rfl
@[simp] theorem reachPhase_pins (s : State) (g : Nat) : (reachPhase s g).pins = s.pins := by unfold reachPhase; split <;> simp
@[simp] theorem advance_svc (s : State) (dt : Nat) : (advance s dt).svc = s.svc := by unfold advance; split <;> rfl
@[simp] theorem reachPhase_svc (s : State) (g : Nat) : (reachPhase s g).svc = s.svc := by unfold reachPhase; split <;> simp
@[simp] theorem advance_resp (s : State) (dt : Nat) : (advance s dt).resp = s.resp := by unfold advance; split <;> rfl
@[simp] theorem reachPhase_resp (s : State) (g : Nat) : (reachPhase s g).resp = s.resp := by unfold reachPhase; split <;> simp
@[simp] theorem advance_freeCtr (s : State) (dt : Nat) : (advance s dt).freeCtr = s.freeCtr := by unfold advance; split <;> rfl
@[simp] theorem reachPhase_freeCtr (s : State) (g : Nat) : (reachPhase s g).freeCtr = s.freeCtr := by unfold reachPhase; split <;> simp

end Sys2Proof.Machine
end

