-- ==== Sys2Proof/Laws/Memory.lean ====
section
/-!
SUPPORT. Sparse maps and memory: a read after a write, the canonical form, and that every memory operation keeps it.
-/
namespace Sys2Proof.Machine

variable {α : Type} [DecidableEq α]

/-- A key below every listed one reads as the default. -/
theorem smap_get_below (d : Nat → α) (m : Smap α) (lo k : Nat) (h : Smap.wfFrom d lo m = true) (hk : k < lo) :
    Smap.get d m k = d k := by
  induction m generalizing lo with
  | nil => rfl
  | cons p t ih =>
    obtain ⟨j, v⟩ := p
    simp only [Smap.wfFrom, Bool.and_eq_true, decide_eq_true_eq] at h
    have hj : k < j := by omega
    simp [Smap.get, hj]

/-- A bound on the keys can be lowered. -/
theorem smap_wfFrom_mono (d : Nat → α) (m : Smap α) (lo lo' : Nat) (h : Smap.wfFrom d lo m = true) (hl : lo' ≤ lo) :
    Smap.wfFrom d lo' m = true := by
  cases m with
  | nil => rfl
  | cons p t =>
    obtain ⟨j, v⟩ := p
    simp only [Smap.wfFrom, Bool.and_eq_true, decide_eq_true_eq] at h ⊢
    exact ⟨⟨by omega, h.1.2⟩, h.2⟩

/-- A write keeps the canonical form. -/
theorem smap_set_wfFrom (d : Nat → α) (m : Smap α) (lo k : Nat) (v : α) (h : Smap.wfFrom d lo m = true) (hk : lo ≤ k) :
    Smap.wfFrom d lo (Smap.set d m k v) = true := by
  induction m generalizing lo with
  | nil => simp only [Smap.set]; split <;> simp_all [Smap.wfFrom]
  | cons p t ih =>
    obtain ⟨j, w⟩ := p
    simp only [Smap.wfFrom, Bool.and_eq_true, decide_eq_true_eq] at h
    simp only [Smap.set]
    split
    · split
      · simp_all [Smap.wfFrom]
      · rename_i h1 h2
        simp only [Smap.wfFrom, Bool.and_eq_true, decide_eq_true_eq]
        exact ⟨⟨hk, h2⟩, ⟨by omega, h.1.2⟩, h.2⟩
    · split
      · split
        · exact smap_wfFrom_mono d t (j + 1) lo h.2 (by omega)
        · rename_i h1 h2 h3
          subst h2
          simp only [Smap.wfFrom, Bool.and_eq_true, decide_eq_true_eq]
          exact ⟨⟨hk, h3⟩, h.2⟩
      · rename_i h1 h2
        simp only [Smap.wfFrom, Bool.and_eq_true, decide_eq_true_eq]
        exact ⟨h.1, ih (j + 1) h.2 (by omega)⟩

/-- A write keeps the canonical form. -/
theorem smap_set_wf (d : Nat → α) (m : Smap α) (k : Nat) (v : α) (h : Smap.wf d m = true) : Smap.wf d (Smap.set d m k v) = true :=
  smap_set_wfFrom d m 0 k v h (Nat.zero_le k)

/-- A read gives the value last written. -/
theorem smap_get_set_same (d : Nat → α) (m : Smap α) (lo k : Nat) (v : α) (h : Smap.wfFrom d lo m = true) :
    Smap.get d (Smap.set d m k v) k = v := by
  induction m generalizing lo with
  | nil => simp only [Smap.set]; split <;> simp_all [Smap.get]
  | cons p t ih =>
    obtain ⟨j, w⟩ := p
    simp only [Smap.wfFrom, Bool.and_eq_true, decide_eq_true_eq] at h
    simp only [Smap.set]
    split
    · rename_i h1
      split
      · rename_i h2; simp [Smap.get, h1, h2]
      · simp [Smap.get]
    · split
      · rename_i h1 h2
        split
        · rename_i h3; subst h2; rw [smap_get_below d t (k + 1) k h.2 (by omega), h3]
        · simp [Smap.get]
      · rename_i h1 h2; simp [Smap.get, h1, h2]; exact ih (j + 1) h.2

/-- A write leaves every other key alone. -/
theorem smap_get_set_other (d : Nat → α) (m : Smap α) (lo k n : Nat) (v : α) (h : Smap.wfFrom d lo m = true) (hn : n ≠ k) :
    Smap.get d (Smap.set d m k v) n = Smap.get d m n := by
  induction m generalizing lo with
  | nil =>
    simp only [Smap.set]
    split
    · rfl
    · simp only [Smap.get]; split <;> simp_all
  | cons p t ih =>
    obtain ⟨j, w⟩ := p
    simp only [Smap.wfFrom, Bool.and_eq_true, decide_eq_true_eq] at h
    simp only [Smap.set]
    split
    · rename_i h1
      split
      · rfl
      · simp only [Smap.get]
        by_cases h3 : n < k
        · have h4 : n < j := by omega
          simp [h3, h4]
        · simp [h3, hn]
    · split
      · rename_i h1 h2
        subst h2
        split
        · simp only [Smap.get]
          by_cases h4 : n < k
          · simp only [h4, if_true]; exact smap_get_below d t (k + 1) n h.2 (by omega)
          · simp [h4, hn]
        · simp only [Smap.get, if_neg hn]
      · simp only [Smap.get]; rw [ih (j + 1) h.2]

/-! ### Memory -/

/-- One byte written keeps the canonical form. -/
theorem cellSet_wf (m : List Host.Cell) (a b : Nat) (h : Memory.wf m = true) : Memory.wf (cellSet m a b) = true :=
  smap_set_wf byteDefault m a (BitVec.ofNat 8 b) h

/-- A byte string written keeps the canonical form. -/
theorem cellPut_wf (l : Bytes) (m : List Host.Cell) (a : Nat) (h : Memory.wf m = true) : Memory.wf (cellPut m a l) = true := by
  induction l generalizing m a with
  | nil => exact h
  | cons b t ih => exact ih (cellSet m a b) (a + 1) (cellSet_wf m a b h)

/-- A filter keeps the canonical form. -/
theorem smap_filter_wfFrom (d : Nat → α) (p : Nat × α → Bool) (m : Smap α) (lo : Nat) (h : Smap.wfFrom d lo m = true) :
    Smap.wfFrom d lo (m.filter p) = true := by
  induction m generalizing lo with
  | nil => rfl
  | cons x t ih =>
    obtain ⟨j, v⟩ := x
    simp only [Smap.wfFrom, Bool.and_eq_true, decide_eq_true_eq] at h
    simp only [List.filter]
    split
    · simp only [Smap.wfFrom, Bool.and_eq_true, decide_eq_true_eq]
      exact ⟨h.1, ih (j + 1) h.2⟩
    · exact smap_wfFrom_mono d _ (j + 1) lo (ih (j + 1) h.2) (by omega)

/-- Every memory operation keeps the canonical form: a byte, a byte string, a number, a region zeroed. -/
theorem memory_ops_wf (s : State) (h : Memory.wf s.mem.bytes = true) :
    (∀ a b, Memory.wf (memSet s a b).mem.bytes = true) ∧ (∀ a l, Memory.wf (memPut s a l).mem.bytes = true) ∧
    (∀ a n v, Memory.wf (memPutLe s a n v).mem.bytes = true) ∧ (∀ a n, Memory.wf (memZero s a n).mem.bytes = true) :=
  ⟨fun a b => cellSet_wf _ a b h, fun a l => cellPut_wf l _ a h, fun _ _ _ => cellPut_wf _ _ _ h,
   fun _ _ => smap_filter_wfFrom byteDefault _ _ 0 h⟩

/-- A byte reads back as it was written. -/
theorem memGet_memSet_same (s : State) (a b : Nat) (h : Memory.wf s.mem.bytes = true) : memGet (memSet s a b) a = b % 256 := by
  have := smap_get_set_same byteDefault s.mem.bytes 0 a (BitVec.ofNat 8 b) h
  simp only [memGet, memSet, cellSet, this, BitVec.toNat_ofNat, Nat.reducePow]

/-- A byte written leaves every other alone. -/
theorem memGet_memSet_other (s : State) (a b n : Nat) (h : Memory.wf s.mem.bytes = true) (hn : n ≠ a) :
    memGet (memSet s a b) n = memGet s n := by
  have := smap_get_set_other byteDefault s.mem.bytes 0 a n (BitVec.ofNat 8 b) h hn
  simp only [memGet, memSet, cellSet, this]

/-- A byte string written leaves every byte outside it alone. -/
theorem cellPut_get_outside (l : Bytes) (m : List Host.Cell) (a n : Nat) (h : Memory.wf m = true) (hn : n < a ∨ a + l.length ≤ n) :
    Smap.get byteDefault (cellPut m a l) n = Smap.get byteDefault m n := by
  induction l generalizing m a with
  | nil => rfl
  | cons b t ih =>
    simp only [List.length_cons] at hn
    simp only [cellPut]
    rw [ih (cellSet m a b) (a + 1) (cellSet_wf m a b h) (by omega)]
    exact smap_get_set_other byteDefault m 0 a n (BitVec.ofNat 8 b) h (by omega)

/-- A byte string reads back as it was written. -/
theorem cellPut_get_inside (l : Bytes) (m : List Host.Cell) (a i : Nat) (h : Memory.wf m = true) (hi : i < l.length) :
    (Smap.get byteDefault (cellPut m a l) (a + i)).toNat = l[i] % 256 := by
  induction l generalizing m a i with
  | nil => exact absurd hi (by simp)
  | cons b t ih =>
    simp only [cellPut]
    cases i with
    | zero =>
      rw [show a + 0 = a from rfl, cellPut_get_outside t (cellSet m a b) (a + 1) a (cellSet_wf m a b h) (by omega)]
      have := smap_get_set_same byteDefault m 0 a (BitVec.ofNat 8 b) h
      simp only [cellSet, this, BitVec.toNat_ofNat, Nat.reducePow, List.getElem_cons_zero]
    | succ i =>
      have := ih (cellSet m a b) (a + 1) i (cellSet_wf m a b h) (by simpa using hi)
      rw [show a + (i + 1) = a + 1 + i by omega, this]
      simp

end Sys2Proof.Machine
end

