-- ==== Sys2Proof/Laws/Run.lean ====
section
/-!
SUPPORT. The end of a command: what settling the events does, and what each wrapper of a meaning answers.
-/
namespace Sys2Proof.Machine

/-! ### Records -/

@[simp] theorem setEventBits_buf (s : State) (l : List (Nat × Nat)) : (setEventBits s l).logs.buf = s.logs.buf := by simp

@[simp] theorem ringAdd_buf (s : State) (r : EvRec) : (ringAdd s r).logs.buf = s.logs.buf := by
  unfold ringAdd; dsimp only; repeat' split
  all_goals rfl

/-- Raising an event leaves one more record waiting. -/
theorem raise_buf (s : State) (c u a b : Nat) : ∃ r : EvRec, r.code = c ∧ (raise s c u a b).logs.buf = s.logs.buf ++ [r] := by
  unfold raise raiseX
  simp only [setEventBits_logs]
  exact ⟨_, rfl, rfl⟩

/-- Only a full black box raises an event when an entry is added. -/
theorem boxAdd_buf (s : State) (t : Nat) (b1 b2 : Bytes) :
    (boxAdd s t b1 b2).logs.buf = s.logs.buf ∨ ∃ r : EvRec, r.code = 0x130A ∧ (boxAdd s t b1 b2).logs.buf = s.logs.buf ++ [r] := by
  by_cases hf : s.logs.box.length < boxCap
  · left
    show (ite (s.logs.box.length < boxCap) _ _ : State).logs.buf = _
    rw [if_pos hf]; rfl
  · right
    show ∃ r : EvRec, _ ∧ (ite (s.logs.box.length < boxCap) _ _ : State).logs.buf = _
    rw [if_neg hf]
    exact raise_buf _ _ _ _ _

/-- A record of code 0x130A enters no black box. -/
theorem boxed_130A (r : EvRec) (h : r.code = 0x130A) : boxed r = false := by simp [boxed, h, reaction]

/-- Stamping one record leaves the waiting ones, and can add only records of code 0x130A. -/
theorem stamp_buf (s : State) (r : EvRec) (h : ∀ x ∈ s.logs.buf, x.code = 0x130A) :
    ∀ x ∈ (stamp s r).logs.buf, x.code = 0x130A := by
  unfold stamp
  simp only
  split
  · rcases boxAdd_buf (ringAdd { s with logs := { s.logs with seq := (s.logs.seq + 1) % 2 ^ 32 } } { r with seq := s.logs.seq }) 1
      (evBytes { r with seq := s.logs.seq }) [] with h1 | ⟨q, hq, h1⟩
    · rw [h1]; simpa using h
    · rw [h1]
      intro x hx
      simp only [ringAdd_buf, List.mem_append, List.mem_singleton] at hx
      rcases hx with hx | hx
      · exact h x hx
      · rw [hx]; exact hq
  · simpa using h

theorem stamp_fold_buf (l : List EvRec) (s : State) (h : ∀ x ∈ s.logs.buf, x.code = 0x130A) :
    ∀ x ∈ (l.foldl stamp s).logs.buf, x.code = 0x130A := by
  induction l generalizing s with
  | nil => exact h
  | cons r t ih => exact ih _ (stamp_buf s r h)

/-- Stamping a record that enters no black box leaves the waiting records. -/
theorem stamp_plain (s : State) (r : EvRec) (h : r.code = 0x130A) : (stamp s r).logs.buf = s.logs.buf := by
  have hb := boxed_130A { r with seq := s.logs.seq } h
  simp [stamp, hb]

theorem stamp_fold_plain (l : List EvRec) (s : State) (h : ∀ x ∈ l, x.code = 0x130A) : (l.foldl stamp s).logs.buf = s.logs.buf := by
  induction l generalizing s with
  | nil => rfl
  | cons r t ih =>
    rw [List.foldl_cons, ih _ (fun x hx => h x (List.mem_cons_of_mem _ hx)), stamp_plain s r (h r List.mem_cons_self)]

theorem mem_insertBy {α : Type} (le : α → α → Bool) (x : α) (l : List α) (y : α) : y ∈ insertBy le x l → y = x ∨ y ∈ l := by
  induction l with
  | nil => simp [insertBy]
  | cons z t ih =>
    simp only [insertBy]
    split
    · intro h
      rcases List.mem_cons.mp h with h | h
      · exact .inr (by simp [h])
      · rcases ih h with h | h
        · exact .inl h
        · exact .inr (by simp [h])
    · intro h; simpa using h

theorem mem_sortBy {α : Type} (le : α → α → Bool) (l : List α) (y : α) : y ∈ sortBy le l → y ∈ l := by
  have key : ∀ (l acc : List α), y ∈ l.foldl (fun acc x => insertBy le x acc) acc → y ∈ l ∨ y ∈ acc := by
    intro l
    induction l with
    | nil => intro acc h; exact .inr h
    | cons x t ih =>
      intro acc h
      rcases ih _ h with h | h
      · exact .inl (List.mem_cons_of_mem _ h)
      · rcases mem_insertBy le x acc y h with h | h
        · exact .inl (by simp [h])
        · exact .inr h
  intro h
  rcases key l [] h with h | h
  · exact h
  · simp at h

/-- After settling, no record waits. -/
theorem flush_settled (s : State) : (flush s).logs.buf = [] := by
  have first : ∀ t : State, ∀ x ∈ (stampAll t).logs.buf, x.code = 0x130A := by
    intro t
    exact stamp_fold_buf _ _ (by simp)
  have second : ∀ t : State, (∀ x ∈ t.logs.buf, x.code = 0x130A) → (stampAll t).logs.buf = [] := by
    intro t h
    unfold stampAll
    rw [stamp_fold_plain _ _ (fun x hx => h x (mem_sortBy _ _ x hx))]
  exact second _ (first _)

/-- With no record waiting, settling changes nothing. -/
theorem flush_quiet (s : State) (h : s.logs.buf = []) : flush s = s := by
  have st : ∀ t : State, t.logs.buf = [] → stampAll t = t := by
    intro t ht
    unfold stampAll
    rw [ht]
    simp only [sortBy, List.foldl_nil]
    rw [← ht]
  unfold flush
  rw [h]
  simp only [List.foldl_nil]
  rw [st s h, st s h]

/-! ### Waiting records -/

/-- What raising an event adds to the logs. -/
theorem raise_logs (s : State) (c u a b : Nat) : (raise s c u a b).logs = { s.logs with buf := s.logs.buf ++ [{ cycle := s.phu.cycle % 2 ^ 48, phase := phase s, unit := u, code := c, d0 := a % 2 ^ 32, d1 := b % 2 ^ 32, d2 := 0, d3 := 0, seq := 0 }] } := by
  simp [raise, raiseX]

/-- The event just raised waits. -/
theorem raised_here (s : State) (c u a b : Nat) : Raised (raise s c u a b) c u a b := by
  simp [Raised, raise_logs]
/-- A waiting record goes on waiting while records are only added. -/
theorem raised_more {s t : State} {c u a b : Nat} (h : Raised s c u a b) (l : ∃ l, t.logs.buf = s.logs.buf ++ l) : Raised t c u a b := by
  obtain ⟨r, hr, h⟩ := h; obtain ⟨l, hl⟩ := l
  exact ⟨r, by rw [hl]; simp [hr], h⟩
theorem raised_same {s t : State} {c u a b : Nat} (h : Raised s c u a b) (l : t.logs.buf = s.logs.buf) : Raised t c u a b := raised_more h ⟨[], by simp [l]⟩
theorem raised_raise {s : State} {c u a b : Nat} (h : Raised s c u a b) (c' u' a' b' : Nat) : Raised (raise s c' u' a' b') c u a b := by
  refine raised_more h ?_; rw [raise_logs]; exact ⟨_, rfl⟩
theorem raised_boxAdd {s : State} {c u a b : Nat} (h : Raised s c u a b) (t : Nat) (b1 b2 : Bytes) : Raised (boxAdd s t b1 b2) c u a b := by
  refine raised_more h ?_
  rcases boxAdd_buf s t b1 b2 with h | ⟨r, _, h⟩
  · exact ⟨[], by simp [h]⟩
  · exact ⟨[r], h⟩


/-! ### Wrappers -/

theorem run_up (s : State) (f : State → State) (h : mainUp s = true) : run s f = flush (f (answer s .none)) := by simp [run, h]
theorem runArith_up (s : State) (f : State → State) (h : arithUp s = true) : runArith s f = flush (f (answer s .none)) := by simp [runArith, h]
theorem runIo_up (s : State) (f : State → State) (h : ioUp s = true) : runIo s f = flush (f (answer s .none)) := by simp [runIo, h]
theorem runApp_up (s : State) (f : State → State) (h : appUp s = true) (h' : arithUp s = true) :
    runApp s f = flush (f (answer s .none)) := by simp [runApp, h, h']
theorem runDrv_up (s : State) (f : State → State) (h : appUp s = true) (h' : ioUp s = true) :
    runDrv s f = flush (f (answer s .none)) := by simp [runDrv, h, h']
theorem runAon_up (s : State) (f : State → State) (h : aonUp s = true) : runAon s f = flush (f (answer s .none)) := by simp [runAon, h]

/-- What a wrapper answers from a state in which no record waits has none waiting. -/
theorem run_settled (s : State) (f : State → State) (h : Settled s) : Settled (run s f) := by
  unfold run; split
  · exact flush_settled _
  · exact h
theorem runArith_settled (s : State) (f : State → State) (h : Settled s) : Settled (runArith s f) := by
  unfold runArith; split
  · exact flush_settled _
  · exact h
theorem runIo_settled (s : State) (f : State → State) (h : Settled s) : Settled (runIo s f) := by
  unfold runIo; split
  · exact flush_settled _
  · exact h
theorem runApp_settled (s : State) (f : State → State) (h : Settled s) : Settled (runApp s f) := by
  unfold runApp; split
  · exact flush_settled _
  · exact h
theorem runDrv_settled (s : State) (f : State → State) (h : Settled s) : Settled (runDrv s f) := by
  unfold runDrv; split
  · exact flush_settled _
  · exact h
theorem runAon_settled (s : State) (f : State → State) (h : Settled s) : Settled (runAon s f) := by
  unfold runAon; split
  · exact flush_settled _
  · exact h

end Sys2Proof.Machine
end

