-- ==== Sys2Proof/Laws/Sign.lean ====
section
/-!
SUPPORT. Signatures that the check of R296 accepts: for every seed there is a public key under which every message has one. Only the top tree
is made; what stands below it may be anything, since the check climbs from it. Then the bytes that a run of memory cells reads as.
-/
namespace Sys2Proof.Machine

/-! ### Lengths and bytes of digests -/

theorem leBytes_length (n x : Nat) : (leBytes n x).length = n := by
  induction n generalizing x with
  | zero => rfl
  | succ n ih => simp [leBytes, ih]

theorem leBytes_lt (n x : Nat) : ∀ b ∈ leBytes n x, b < 256 := by
  induction n generalizing x with
  | zero => simp [leBytes]
  | succ n ih =>
    simp only [leBytes, List.mem_cons]
    rintro b (rfl | h)
    · omega
    · exact ih _ b h

theorem shaRounds_length (n : Nat) (w v : List Nat) (h : v.length = 8) : (shaRounds n w v).length = 8 := by
  induction n generalizing w v with
  | zero => unfold shaRounds; exact h
  | succ n ih =>
    match v, h with
    | [a, b, c, d, e, f, g, k], _ => unfold shaRounds; exact ih _ _ rfl

theorem shaOver_length (n : Nat) (v : List Nat) (l : Bytes) (h : v.length = 8) : (shaOver n v l).length = 8 := by
  induction n generalizing v l with
  | zero => simpa [shaOver] using h
  | succ n ih => exact ih _ _ (by simp [List.length_zipWith, shaRounds_length, h])

theorem sha256_length (m : Bytes) : (sha256 m).length = 32 := by
  have h := shaOver_length (m.length / 64 + (if m.length % 64 < 56 then 1 else 2)) ((List.range 8).map (packed 8 shaStart))
    (fit (64 * (m.length / 64 + (if m.length % 64 < 56 then 1 else 2)) - 8) (m ++ [128]) ++ beBytes 8 (8 * m.length)) (by simp)
  simp only [sha256, List.length_flatMap, beBytes, List.length_reverse, leBytes_length, List.map_const', List.sum_replicate_nat]
  simp only [beBytes] at h
  omega

theorem sha256_lt (m : Bytes) : ∀ b ∈ sha256 m, b < 256 := by
  intro b h
  simp only [sha256, List.mem_flatMap, beBytes, List.mem_reverse] at h
  obtain ⟨x, _, hx⟩ := h
  exact leBytes_lt 4 x b hx

theorem slhHash_length (seed : Bytes) (a : HashAt) (m : Bytes) : (slhHash seed a m).length = 16 := by
  simp [slhHash, sha256_length]

theorem slhHash_lt (seed : Bytes) (a : HashAt) (m : Bytes) : ∀ b ∈ slhHash seed a m, b < 256 :=
  fun b h => sha256_lt _ b (List.mem_of_mem_take h)

/-! ### Parts of a byte string -/

theorem slice_eq (l : Bytes) (off n : Nat) (h : off + n ≤ l.length) : slice l off n = (l.drop off).take n := by
  have : n - (l.length - off) = 0 := by omega
  simp [slice, fit, zeros, this]

theorem slice_append_left (a b : Bytes) (off n : Nat) (h : off + n ≤ a.length) : slice (a ++ b) off n = slice a off n := by
  rw [slice_eq _ _ _ (by simp; omega), slice_eq _ _ _ h, List.drop_append_of_le_length (by omega),
    List.take_append_of_le_length (by simp; omega)]

theorem slice_append_right (a b : Bytes) (off n : Nat) (h : a.length ≤ off) : slice (a ++ b) off n = slice b (off - a.length) n := by
  simp [slice, List.drop_append, List.drop_eq_nil_of_le h]

theorem slice_all (b : Bytes) (n : Nat) (h : b.length = n) : slice b 0 n = b := by
  subst h
  simp [slice, fit, zeros]

theorem zeros_length (n : Nat) : (zeros n).length = n := List.length_replicate

/-- A part of zeros. -/
theorem slice_zeros (m off n : Nat) : slice (zeros m) off n = zeros n := by
  simp only [slice, fit, zeros, List.drop_replicate, List.take_replicate, List.length_replicate, List.replicate_append_replicate]
  congr 1
  omega

/-- Part `k` of parts of 16 bytes in a row. -/
theorem slice_flatten (l : List Bytes) (k : Nat) (hl : ∀ x ∈ l, x.length = 16) (hk : k < l.length) :
    slice l.flatten (16 * k) 16 = l[k] := by
  induction l generalizing k with
  | nil => simp at hk
  | cons x t ih =>
    have hx := hl x (by simp)
    have ht : ∀ y ∈ t, y.length = 16 := fun y hy => hl y (by simp [hy])
    cases k with
    | zero => rw [List.flatten_cons, slice_append_left _ _ _ _ (by omega)]; simpa using slice_all x 16 hx
    | succ k =>
      rw [List.flatten_cons, slice_append_right _ _ _ _ (by omega), hx]
      have : 16 * (k + 1) - 16 = 16 * k := by omega
      rw [this, ih k ht (by simpa using hk)]
      rfl

theorem slhParts_flatten (l : List Bytes) (i n : Nat) (hl : ∀ x ∈ l, x.length = 16) (h : i + n ≤ l.length) :
    slhParts l.flatten i n = (l.drop i).take n := by
  apply List.ext_getElem
  · simp [slhParts]; omega
  · intro j h1 h2
    simp only [slhParts, List.length_map, List.length_range] at h1
    simp [slhParts, slice_flatten l (i + j) hl (by omega)]

/-! ### Chains and trees -/

theorem slhChain_add (seed : Bytes) (a : HashAt) (n m k : Nat) (x : Bytes) :
    slhChain seed a n (k + m) (slhChain seed a m k x) = slhChain seed a (m + n) k x := by
  induction m generalizing k x with
  | zero => simp [slhChain]
  | succ m ih =>
    have : m + 1 + n = (m + n) + 1 := by omega
    rw [this]
    simp only [slhChain]
    rw [← ih (k + 1), show k + (m + 1) = k + 1 + m by omega]

/-- The node `i` at height `h` of a tree over leaves. -/
def slhNode (seed : Bytes) (a : HashAt) (leaf : Nat → Bytes) : Nat → Nat → Bytes
  | 0, i => leaf i
  | h + 1, i => slhHash seed { a with y := h + 1, z := i } (slhNode seed a leaf h (2 * i) ++ slhNode seed a leaf h (2 * i + 1))

/-- The siblings on the way from node `i` at height `h` up, `n` of them. -/
def slhPath (seed : Bytes) (a : HashAt) (leaf : Nat → Bytes) : Nat → Nat → Nat → List Bytes
  | 0, _, _ => []
  | n + 1, h, i => slhNode seed a leaf h (if i % 2 = 0 then i + 1 else i - 1) :: slhPath seed a leaf n (h + 1) (i / 2)

theorem slhPath_length (seed : Bytes) (a : HashAt) (leaf : Nat → Bytes) (n h i : Nat) : (slhPath seed a leaf n h i).length = n := by
  induction n generalizing h i with
  | zero => rfl
  | succ n ih => simp [slhPath, ih]

theorem slhClimb_path (seed : Bytes) (a : HashAt) (leaf : Nat → Bytes) (n h i : Nat) :
    slhClimb seed a h i (slhNode seed a leaf h i) (slhPath seed a leaf n h i) = slhNode seed a leaf (h + n) (i / 2 ^ n) := by
  induction n generalizing h i with
  | zero => simp [slhPath, slhClimb]
  | succ n ih =>
    have hd : i / 2 / 2 ^ n = i / 2 ^ (n + 1) := by rw [Nat.div_div_eq_div_mul, Nat.pow_succ, Nat.mul_comm]
    have hs : slhHash seed { a with y := h + 1, z := i / 2 }
        (if i % 2 = 0 then slhNode seed a leaf h i ++ slhNode seed a leaf h (if i % 2 = 0 then i + 1 else i - 1)
         else slhNode seed a leaf h (if i % 2 = 0 then i + 1 else i - 1) ++ slhNode seed a leaf h i) = slhNode seed a leaf (h + 1) (i / 2) := by
      by_cases hi : i % 2 = 0
      · have e0 : 2 * (i / 2) = i := by omega
        simp [hi, slhNode, e0]
      · have e0 : 2 * (i / 2) = i - 1 := by omega
        have e1 : i - 1 + 1 = i := by omega
        simp [hi, slhNode, e0, e1]
    simp only [slhPath, slhClimb]
    rw [hs, ih, hd, show h + 1 + n = h + (n + 1) by omega]

theorem slhNode_length (seed : Bytes) (a : HashAt) (leaf : Nat → Bytes) (hl : ∀ i, (leaf i).length = 16) (h i : Nat) :
    (slhNode seed a leaf h i).length = 16 := by
  cases h with
  | zero => exact hl i
  | succ h => exact slhHash_length _ _ _

/-! ### The top tree -/

/-- Where chain `j` of the top tree's leaf `i` stands. -/
def topAt (i j : Nat) : HashAt := { layer := 6, tree := 0, use := 0, x := i, y := j, z := 0 }

/-- Leaf `i` of the top tree, over secrets of zeros. -/
def topLeaf (seed : Bytes) (i : Nat) : Bytes :=
  slhHash seed { topAt i 0 with use := 1 } ((List.range 35).map (fun j => slhChain seed (topAt i j) 15 0 (zeros 16))).flatten

/-- Where the nodes of the top tree stand. -/
def topNode : HashAt := { layer := 6, tree := 0, use := 2, x := 0, y := 0, z := 0 }

/-- The root of the top tree, and the public key of a seed. -/
def topRoot (seed : Bytes) : Bytes := slhNode seed topNode (topLeaf seed) 9 0
def signKey (seed : Bytes) : Bytes := seed ++ topRoot seed

/-- The 35 digits that a one-time key signs of `m`. -/
def digitsOf (m : Bytes) : List Nat :=
  let d := slhDigits 4 32 m
  d ++ slhDigits 4 3 (beBytes 2 (sumN (d.map (fun x => 15 - x)) * 16))

theorem digitsOf_length (m : Bytes) : (digitsOf m).length = 35 := by simp [digitsOf, slhDigits]

theorem digitsOf_le (m : Bytes) : ∀ d ∈ digitsOf m, d ≤ 15 := by
  intro d h
  simp only [digitsOf, slhDigits, List.mem_append, List.mem_map, field] at h
  rcases h with ⟨i, -, rfl⟩ | ⟨i, -, rfl⟩
  · exact Nat.le_of_lt_succ (Nat.mod_lt _ (by decide))
  · exact Nat.le_of_lt_succ (Nat.mod_lt _ (by decide))

/-- The part of a signature that the top tree's leaf `i` makes of `m`. -/
def topSign (seed : Bytes) (i : Nat) (m : Bytes) : List Bytes :=
  (digitsOf m).mapIdx (fun j d => slhChain seed (topAt i j) d 0 (zeros 16)) ++ slhPath seed topNode (topLeaf seed) 9 0 i

theorem slhChain_length (seed : Bytes) (a : HashAt) (n k : Nat) (x : Bytes) (h : x.length = 16) : (slhChain seed a n k x).length = 16 := by
  induction n generalizing k x with
  | zero => exact h
  | succ n ih => exact ih _ _ (slhHash_length _ _ _)

theorem slhPath_mem (seed : Bytes) (a : HashAt) (leaf : Nat → Bytes) (hl : ∀ i, (leaf i).length = 16) (n h i : Nat) :
    ∀ x ∈ slhPath seed a leaf n h i, x.length = 16 := by
  induction n generalizing h i with
  | zero => simp [slhPath]
  | succ n ih =>
    simp only [slhPath, List.mem_cons]
    rintro x (rfl | hx)
    · exact slhNode_length _ _ _ hl _ _
    · exact ih _ _ x hx

theorem topSign_mem (seed : Bytes) (i : Nat) (m : Bytes) : ∀ x ∈ topSign seed i m, x.length = 16 := by
  intro x hx
  rcases List.mem_append.1 hx with h | h
  · obtain ⟨j, hj, rfl⟩ := List.mem_mapIdx.1 h
    exact slhChain_length _ _ _ _ _ (by simp [zeros])
  · exact slhPath_mem _ _ _ (fun i => slhHash_length _ _ _) _ _ _ x h

/-- The one-time key of the top tree's leaf comes out of its part of the signature. -/
theorem slhOneTime_top (seed : Bytes) (i : Nat) (m : Bytes) :
    slhOneTime seed 6 0 i ((digitsOf m).mapIdx (fun j d => slhChain seed (topAt i j) d 0 (zeros 16))) m = topLeaf seed i := by
  have e : ((((digitsOf m).mapIdx (fun j d => slhChain seed (topAt i j) d 0 (zeros 16))).zip (digitsOf m)).mapIdx
      (fun j p => slhChain seed (topAt i j) (15 - p.2) p.2 p.1)) = (List.range 35).map (fun j => slhChain seed (topAt i j) 15 0 (zeros 16)) := by
    apply List.ext_getElem
    · simp [digitsOf_length]
    · intro j h1 h2
      have hj : j < (digitsOf m).length := by simpa [digitsOf_length] using h2
      have hd := digitsOf_le m _ (List.getElem_mem hj)
      have := slhChain_add seed (topAt i j) (15 - (digitsOf m)[j]) (digitsOf m)[j] 0 (zeros 16)
      simp only [Nat.zero_add] at this
      simp [this, show (digitsOf m)[j] + (15 - (digitsOf m)[j]) = 15 by omega]
  simp only [topLeaf, ← e]
  rfl

/-- The parts of the layers below the top: zeros. -/
def lowParts : List Bytes := List.replicate 264 (zeros 16)

theorem lowParts_length : lowParts.length = 264 := List.length_replicate

theorem lowParts_mem : ∀ x ∈ lowParts, x.length = 16 := by
  intro x h
  rw [List.eq_of_mem_replicate h, zeros_length]

/-- A signature's parts above the few-time key: zeros below, the top tree's part above. -/
def layersOf (seed : Bytes) (i : Nat) (m : Bytes) : List Bytes := lowParts ++ topSign seed i m

theorem topSign_length (seed : Bytes) (i : Nat) (m : Bytes) : (topSign seed i m).length = 44 := by
  simp [topSign, digitsOf_length, slhPath_length]

theorem layersOf_length (seed : Bytes) (i : Nat) (m : Bytes) : (layersOf seed i m).length = 308 := by
  rw [layersOf, List.length_append, lowParts_length, topSign_length]

theorem layersOf_mem (seed : Bytes) (i : Nat) (m : Bytes) : ∀ x ∈ layersOf seed i m, x.length = 16 := by
  intro x hx
  rcases List.mem_append.1 hx with h | h
  · exact lowParts_mem x h
  · exact topSign_mem _ _ _ x h

/-- Below the top, a signature's parts are the parts of zeros. -/
theorem layersOf_low (seed : Bytes) (i : Nat) (m : Bytes) (k n : Nat) (h : k + n ≤ 264) :
    slhParts (layersOf seed i m).flatten k n = slhParts lowParts.flatten k n := by
  rw [slhParts_flatten _ _ _ (layersOf_mem seed i m) (by rw [layersOf_length]; omega),
    slhParts_flatten _ _ _ lowParts_mem (by rw [lowParts_length]; omega), layersOf,
    List.drop_append_of_le_length (by rw [lowParts_length]; omega),
    List.take_append_of_le_length (by rw [List.length_drop, lowParts_length]; omega)]

/-- From the top on they are the top tree's. -/
theorem layersOf_top (seed : Bytes) (i : Nat) (m : Bytes) (k n : Nat) (h : k + n ≤ 44) :
    slhParts (layersOf seed i m).flatten (264 + k) n = ((topSign seed i m).drop k).take n := by
  rw [slhParts_flatten _ _ _ (layersOf_mem seed i m) (by rw [layersOf_length]; omega), layersOf, List.drop_append, lowParts_length,
    List.drop_eq_nil_of_le (by rw [lowParts_length]; omega), List.nil_append, Nat.add_sub_cancel_left]

theorem slhLayer_top (seed : Bytes) (i : Nat) (m : Bytes) (h : i < 512) :
    slhLayer seed (layersOf seed i m).flatten 6 0 i m = topRoot seed := by
  have h1 : slhParts (layersOf seed i m).flatten (44 * 6) 35 = (digitsOf m).mapIdx (fun j d => slhChain seed (topAt i j) d 0 (zeros 16)) := by
    have := layersOf_top seed i m 0 35 (by omega)
    rw [this, topSign, List.drop_zero, List.take_left' (by simp [digitsOf_length])]
  have h2 : slhParts (layersOf seed i m).flatten (44 * 6 + 35) 9 = slhPath seed topNode (topLeaf seed) 9 0 i := by
    have := layersOf_top seed i m 35 9 (by omega)
    rw [this, topSign, List.drop_left' (by simp [digitsOf_length]), List.take_of_length_le (by rw [slhPath_length] <;> decide)]
  have hc := slhClimb_path seed topNode (topLeaf seed) 9 0 i
  simp only [slhLayer, h1, h2, slhOneTime_top]
  simpa [slhNode, topRoot, topNode, Nat.div_eq_of_lt h] using hc

/-- What the layers below the top make of a key, over parts of zeros. -/
def lowRoot (seed : Bytes) (tree leaf : Nat) (pk : Bytes) : Bytes := slhLayers seed lowParts.flatten 6 0 tree leaf pk

theorem slhLayer_low (seed : Bytes) (i l tree leaf : Nat) (m m' : Bytes) (h : l < 6) :
    slhLayer seed (layersOf seed i m).flatten l tree leaf m' = slhLayer seed lowParts.flatten l tree leaf m' := by
  simp only [slhLayer]
  rw [layersOf_low _ _ _ _ _ (by omega), layersOf_low _ _ _ _ _ (by omega)]

/-- The parts of a signature from the layers on, by the numbers of the digest. -/
def signParts (seed : Bytes) (tree leaf : Nat) (pk : Bytes) : List Bytes :=
  layersOf seed (tree / 512 / 512 / 512 / 512 / 512 % 512) (lowRoot seed tree leaf pk)

/-- The signature of `m` under `signKey seed`: zeros, and the top tree's part over what the layers below make of them. -/
def signOf (seed m : Bytes) : Bytes :=
  let inner := sha256 (zeros 16 ++ seed ++ topRoot seed ++ [0, 0] ++ m)
  let dig := (sha256 (zeros 16 ++ seed ++ inner ++ zeros 4)).take 30
  let tree := ofBe (slice dig 21 7) % 2 ^ 54
  let leaf := ofBe (slice dig 28 2) % 512
  let pk := slhFewTime seed tree leaf (zeros 2912) (slice dig 0 21)
  zeros 2928 ++ (signParts seed tree leaf pk).flatten

theorem flatten_length (l : List Bytes) (h : ∀ x ∈ l, x.length = 16) : l.flatten.length = 16 * l.length := by
  induction l with
  | nil => rfl
  | cons x t ih =>
    have hx := h x (by simp)
    have ht := ih (fun y hy => h y (by simp [hy]))
    simp only [List.flatten_cons, List.length_append, List.length_cons, ht, hx]
    omega

theorem signParts_length (seed : Bytes) (tree leaf : Nat) (pk : Bytes) : (signParts seed tree leaf pk).flatten.length = 4928 := by
  rw [signParts, flatten_length _ (layersOf_mem _ _ _), layersOf_length]

theorem signOf_length (seed m : Bytes) : (signOf seed m).length = 7856 := by
  simp only [signOf]
  rw [List.length_append, zeros_length, signParts_length]

/-- The three parts that the check takes a signature apart into. -/
theorem signOf_parts (p : List Bytes) (h : p.flatten.length = 4928) :
    slice (zeros 2928 ++ p.flatten) 0 16 = zeros 16 ∧ slice (zeros 2928 ++ p.flatten) 16 2912 = zeros 2912 ∧
      slice (zeros 2928 ++ p.flatten) 2928 4928 = p.flatten := by
  refine ⟨?_, ?_, ?_⟩
  · rw [slice_append_left _ _ _ _ (by rw [zeros_length] <;> omega), slice_zeros]
  · rw [slice_append_left _ _ _ _ (by rw [zeros_length] <;> omega), slice_zeros]
  · rw [slice_append_right _ _ _ _ (by rw [zeros_length] <;> omega), zeros_length, Nat.sub_self, slice_all _ _ h]

/-- The layers over such parts lead to the top tree's root. -/
theorem slhLayers_sign (seed : Bytes) (tree leaf : Nat) (pk : Bytes) (h : tree < 2 ^ 54) :
    slhLayers seed (signParts seed tree leaf pk).flatten 7 0 tree leaf pk = topRoot seed := by
  have h6 : tree / 512 / 512 / 512 / 512 / 512 / 512 = 0 := by omega
  simp only [slhLayers, h6, signParts]
  generalize hI : tree / 512 / 512 / 512 / 512 / 512 % 512 = top
  have htop : top < 512 := by rw [← hI]; exact Nat.mod_lt _ (by decide)
  have hm : lowRoot seed tree leaf pk = slhLayers seed lowParts.flatten 6 0 tree leaf pk := rfl
  generalize lowRoot seed tree leaf pk = M at hm ⊢
  simp only [slhLayer_low _ _ _ _ _ _ _ (show 0 < 6 by omega), slhLayer_low _ _ _ _ _ _ _ (show 0 + 1 < 6 by omega),
    slhLayer_low _ _ _ _ _ _ _ (show 0 + 1 + 1 < 6 by omega), slhLayer_low _ _ _ _ _ _ _ (show 0 + 1 + 1 + 1 < 6 by omega),
    slhLayer_low _ _ _ _ _ _ _ (show 0 + 1 + 1 + 1 + 1 < 6 by omega), slhLayer_low _ _ _ _ _ _ _ (show 0 + 1 + 1 + 1 + 1 + 1 < 6 by omega)]
  simp only [slhLayers] at hm
  rw [← hm]
  exact slhLayer_top _ _ _ htop

theorem topRoot_length (seed : Bytes) : (topRoot seed).length = 16 := slhNode_length _ _ _ (fun _ => slhHash_length _ _ _) _ _

/-- The check accepts it. -/
theorem slhVerify_signOf (seed m : Bytes) (hs : seed.length = 16) : slhVerify (signKey seed) m (signOf seed m) = true := by
  have h1 : slice (signKey seed) 0 16 = seed := by rw [signKey, slice_append_left _ _ _ _ (by omega), slice_all _ _ hs]
  have h2 : slice (signKey seed) 16 16 = topRoot seed := by
    rw [signKey, slice_append_right _ _ _ _ (by omega), hs, Nat.sub_self, slice_all _ _ (topRoot_length seed)]
  simp only [slhVerify, h1, h2, signOf_length, beq_self_eq_true, Bool.true_and, beq_iff_eq]
  simp only [signOf]
  generalize hp : signParts seed _ _ _ = p
  have hl : p.flatten.length = 4928 := by rw [← hp]; exact signParts_length _ _ _ _
  obtain ⟨h3, h4, h5⟩ := signOf_parts p hl
  rw [h3, h4, h5, ← hp]
  exact slhLayers_sign _ _ _ _ (Nat.mod_lt _ (by decide))

/-- Its bytes are bytes. -/
theorem signOf_lt (seed m : Bytes) : ∀ b ∈ signOf seed m, b < 256 := by
  have hz : ∀ n, ∀ b ∈ zeros n, b < 256 := by
    intro n b h
    rw [List.eq_of_mem_replicate h]
    decide
  have hc : ∀ (a : HashAt) (n k : Nat) (x : Bytes), (∀ b ∈ x, b < 256) → ∀ b ∈ slhChain seed a n k x, b < 256 := by
    intro a n
    induction n with
    | zero => exact fun _ _ h => h
    | succ n ih => exact fun k x _ => ih _ _ (slhHash_lt _ _ _)
  have hn : ∀ h i, ∀ b ∈ slhNode seed topNode (topLeaf seed) h i, b < 256 := by
    intro h i
    cases h <;> exact slhHash_lt _ _ _
  have hp : ∀ n h i, ∀ x ∈ slhPath seed topNode (topLeaf seed) n h i, ∀ b ∈ x, b < 256 := by
    intro n
    induction n with
    | zero => simp [slhPath]
    | succ n ih =>
      intro h i x hx
      simp only [slhPath, List.mem_cons] at hx
      rcases hx with rfl | hx
      · exact hn _ _
      · exact ih _ _ x hx
  intro b h
  simp only [signOf, signParts, layersOf, List.mem_append, List.mem_flatten] at h
  rcases h with h | ⟨x, h | h, hb⟩
  · exact hz _ b h
  · rw [List.eq_of_mem_replicate h] at hb
    exact hz _ b hb
  · simp only [topSign, List.mem_append, List.mem_mapIdx] at h
    rcases h with ⟨j, hj, rfl⟩ | h
    · exact hc _ _ _ _ (hz _) b hb
    · exact hp _ _ _ x h b hb

/-! ### Memory that holds a byte string -/

/-- The cells of a byte string from an address on, each listed. -/
def cellsAt : Nat → Bytes → List Host.Cell
  | _, [] => []
  | a, b :: t => (a, BitVec.ofNat 8 b) :: cellsAt (a + 1) t

theorem get_cellsAt (a : Nat) (l : Bytes) (i : Nat) (h : i < l.length) :
    Smap.get byteDefault (cellsAt a l) (a + i) = BitVec.ofNat 8 l[i] := by
  induction l generalizing a i with
  | nil => simp at h
  | cons b t ih =>
    cases i with
    | zero => simp [cellsAt, Smap.get]
    | succ i =>
      have e : a + (i + 1) = a + 1 + i := by omega
      have n1 : ¬ a + 1 + i < a := by omega
      have n2 : ¬ a + 1 + i = a := by omega
      simp only [cellsAt, Smap.get, e, if_neg n1, if_neg n2]
      exact ih (a + 1) i (by simpa using h)

/-- A read inside a run of cells gives the bytes there. -/
theorem memBytes_cellsAt (s : State) (a off n : Nat) (l : Bytes) (hm : s.mem.bytes = cellsAt a l) (hb : ∀ b ∈ l, b < 256)
    (h : off + n ≤ l.length) : memBytes s (a + off) n = slice l off n := by
  rw [slice_eq _ _ _ h]
  apply List.ext_getElem
  · simp [memBytes]; omega
  · intro i h1 h2
    have hi : i < n := by simpa [memBytes] using h1
    have hx : l[off + i] < 256 := hb _ (List.getElem_mem (by omega))
    simp [memBytes, memGet, hm, show a + off + i = a + (off + i) by omega, get_cellsAt a l (off + i) (by omega), Nat.mod_eq_of_lt hx]

end Sys2Proof.Machine
end

