-- ==== Sys2Proof/Tests/Slice0.lean ====
section
/-!
SUPPORT. Witnesses that the hypotheses of each obligation can be met, clause by clause, and the smoke test of WellFormed.
-/
-- One theorem at a time: each is a kernel evaluation.
set_option Elab.async false
namespace Sys2Proof.Tests
open Sys2Proof.Machine

/-! ### States -/

/-- A device in service: booted, the PHU LOCKED in cycle 10 on a cycle of 1 ms, with the safety lock set. -/
def up : State := { State.reset with
  cpm := { Cpm.reset with boot := .up, step := 8, refOk := true, pllLock := 15, watchOk := true, appUp := true }
  phu := { Phu.reset with
    st := .locked, src := 1, inc := 31274997, pAvg := 9000000, everTracked := true, cycle := 10, bcount := 10, lastEdge := some 0 }
  safety := { Safety.reset with lock := true, faultN := true }
  od := { Od.reset with al := .op, phyReset := false } }

/-- A unit in a state. -/
def withUnit (s : State) (u : Nat) (st : UState) : State := unitUpd s u (fun r => { r with st := st })

/-- `up` with another PHU. -/
def phuIs (f : Phu → Phu) : State := { up with phu := f up.phu }

/-- `up` at a phase in pu. -/
def atPu (g : Nat) : State := phuIs (fun p => { p with acc := g * 2 ^ 32 })

/-- `up` with a register at a value, as written and in force. -/
def regAt (s : State) (o v : Nat) : State := regLoad s o v

/-- An empty plan image. -/
def plan0 : Plan :=
  { grade := 0, structural := false, imageId := 1, modelDigest := [], dtUs := 50000, ctrPlan := 16, queuePlan := 16, evalStart := 0,
    evalEnd := 50000, minPods := 0, gates := [], ctrWords := [], queues := [], mins := [], slots := [], regions := [], settings := [],
    edits := [], base := 0, paramOff := 0, paramLen := 0, copyOff := 0, relocs := [], digest := [], mainEval := none, recheck := none,
    tiles := [], solves := [], ends := [] }

/-- `up` with a running image. -/
def planned (p : Plan) : State := { up with plan := { up.plan with run := some p } }

/-- The device as its firmware writes registers. -/
def fw : Writer := .firmware 0
/-- Core 0 of the cluster. -/
def core0 : Writer := .cluster 0

/-! ### Units -/

/-- The Chard 0 of Stack 0. -/
def chard : Nat := unitId 7 0 0

theorem wit_UnitCommandsMoveOfflineUnit : (arithUp up = true ∧ Settled up ∧ 0 = regGet up Reg.uctlUnitSel ∧ unitExists 0 = true ∧ idClass 0 ≠ 7 ∧
      idClass 0 ≠ 0x10 ∧ unitSt up 0 = .offline ∧ UnitsOk up ∧ cmdJudge up true 0 1 = 0 ∧ cmdJudge up true 0 3 = 0 ∧ cmdJudge up true 0 4 = 0) ∧
    (let s := withUnit up 0 .retired;
      arithUp s = true ∧ Settled s ∧ 0 = regGet s Reg.uctlUnitSel ∧ cmdJudge s true 0 1 ≠ 0 ∧ cmdJudge s true 0 3 ≠ 0 ∧
        cmdJudge s true 0 4 ≠ 0) := by decide +kernel

/-- `up` with the Chard selected. -/
def onChard : State := regAt up Reg.uctlUnitSel chard

/-- A Pea that the plan image's minimum keeps in service. -/
def keptPea : State := withUnit (planned { plan0 with mins := [1] }) 0 .active

theorem wit_DisableDrainsActiveUnit : (let s := withUnit up 0 .active;
      arithUp s = true ∧ 0 = regGet s Reg.uctlUnitSel ∧ unitExists 0 = true ∧ idClass 0 ≠ 7 ∧ idClass 0 ≠ 0x10 ∧ unitSt s 0 = .active ∧
        belowMin s 0 = false ∧ UnitsOk s ∧ Settled s) ∧
    (arithUp keptPea = true ∧ 0 = regGet keptPea Reg.uctlUnitSel ∧ belowMin keptPea 0 = true ∧ Settled keptPea) ∧
    (arithUp onChard = true ∧ chard = regGet onChard Reg.uctlUnitSel ∧ unitExists chard = true ∧ Settled onChard ∧ idClass chard = 7) := by
  decide +kernel

theorem wit_TestAndDrainEndAsTable : (let s := withUnit up 0x1800 .test;
      UnitsOk s ∧ (0x1800 : BitVec 16).toNat ≠ huskId ∧ mainUp s = true ∧ s.cpm.boot ≠ .booting ∧ isChan 0x1800 = false ∧
        unitSt s 0x1800 = .test ∧ MemOk s) ∧
    (let s := withUnit up 0x1800 .draining;
      UnitsOk s ∧ arithUp s = true ∧ Settled s ∧ unitSt s 0x1800 = .draining ∧ drained s 0x1800 = true) := by decide +kernel

/-- `up` with a running image, and one diagnostic record. -/
def diagIs (f : Diag → Diag) : State := { planned plan0 with diag := f up.diag }

/-- Pod 0 in service. -/
def podUp0 (s : State) : State := withUnit (withUnit (withUnit s (unitId 1 0 0) .active) (unitId 2 0 0) .active) 0 .active

/-- The Leek 0, both slots open, and its golden batch not started, or run. -/
def leek : BitVec 16 := BitVec.ofNat 16 (unitId 1 0 0)
def slots : State := podUp0 (withUnit (diagIs (fun d => { d with chardSlot := true, podSlot := true })) chard .active)
def golden : State :=
  podPut { slots with diag := { slots.diag with goldRun := [chard, leek.toNat], goldChards := [chard] } } 0 { Pod.empty with exec := some goldenBatch }

theorem wit_RotationAndGoldenSlots : (let s := ({ planned plan0 with phu := { up.phu with cycle := 86400000 } } : State);
      arithUp s = true ∧ s.cpm.watch = false ∧ objN s 0x4100 4 ≠ 0 ∧ autoSubst s = true ∧ s.plan.run.isSome = true ∧
        s.phu.cycle % objN s 0x4100 4 = 0 ∧ phaseRuns s = true) ∧
    (arithUp slots = true ∧ Settled slots ∧ slots.cpm.watch = false ∧ idClass chard = 7 ∧ slots.diag.chardSlot = true ∧
      chard ∉ slots.diag.goldRun ∧ isActive slots chard = true ∧ (unitOf slots chard).exec.isNone = true ∧ idClass leek.toNat = 1 ∧
      slots.diag.podSlot = true ∧ leek.toNat ∉ slots.diag.goldRun ∧ podInService slots (podOf leek.toNat) = true ∧
      (podGet slots (podOf leek.toNat)).exec.isNone = true) ∧
    (arithUp golden = true ∧ golden.cpm.watch = false ∧ Settled golden ∧ UnitsOk golden ∧ chard ∈ golden.diag.goldRun ∧ chard ∈ golden.diag.goldChards ∧
      leek.toNat ∈ golden.diag.goldRun ∧ (podGet golden (podOf leek.toNat)).exec = some goldenBatch) := by decide +kernel

/-! ### Control cycle -/

/-- `up` one cycle after its last edge. -/
def edgeDue : State := { up with now := 9000000 }

/-- A device with the permit. -/
def permitted : State := { up with safety := { up.safety with permit := true, permitA := true } }

theorem wit_SourceWritesMovePhu : (let s := phuIs (fun p => { p with st := .off });
      arithUp s = true ∧ Settled s ∧ lockedOut s fw = false ∧ s.phu.st = .off) ∧
    (let s := phuIs (fun p => { p with st := .acquire, src := 2 });
      arithUp s = true ∧ Settled s ∧ lockedOut s fw = false ∧ s.phu.st = .acquire ∧ s.phu.src ≠ srcNo .sync0) ∧
    (arithUp permitted = true ∧ Settled permitted ∧ lockedOut permitted fw = false ∧ permitted.phu.st ≠ .off ∧ permitted.phu.st ≠ .acquire ∧
      permitted.safety.permit = true) ∧
    (arithUp up = true ∧ Settled up ∧ lockedOut up core0 = true) := by decide +kernel

theorem wit_LockedEdgeRunsLoop : let s := edgeDue; let a := advance s (0 : BitVec 32).toNat
    arithUp s = true ∧ Settled s ∧ s.phu.st = .locked ∧ s.phu.src = srcNo .sync0 ∧ s.phu.aligning = none ∧ s.phu.lastEdge = some 0 ∧
      inCapture (phase a) = true ∧ s.phu.usedWin ≠ some (windowAt a (phase a)) ∧ periodOk s (a.now - 0) = true ∧
      ((phaseErr a.phu.acc).natAbs : Int) ≤ unlockTol s := by decide +kernel

theorem wit_SpuriousEdgeIsIgnored : (let s := atPu 30000; let a := advance s (0 : BitVec 32).toNat
      arithUp s = true ∧ s.phu.st = .locked ∧ s.phu.src = srcNo .sync0 ∧ s.phu.aligning = none ∧ inCapture (phase a) = false) ∧
    (let s := phuIs (fun p => { p with st := .track, usedWin := some 10 }); let a := advance s (0 : BitVec 32).toNat
      arithUp s = true ∧ s.phu.st = .track ∧ s.phu.src = srcNo .sync0 ∧ s.phu.aligning = none ∧
        s.phu.usedWin = some (windowAt a (phase a))) := by decide +kernel

/-- The close of a window without an edge, and MISS, COAST and the clk of LOST. -/
def coasting : State := phuIs (fun p => { p with st := .coast, coastCycle := 6 })
def missing : State := phuIs (fun p => { p with st := .miss, missCycle := 10 })

theorem wit_MissedSyncCoastsThenIsLost : (arithUp up = true ∧ phaseRuns up = true ∧ (reachPhase up 8192).phu.usedWin ≠ some up.phu.bcount ∧
      up.phu.st = .locked) ∧
    (let s := phuIs (fun p => { p with st := .track });
      arithUp s = true ∧ phaseRuns s = true ∧ (reachPhase s 8192).phu.usedWin ≠ some s.phu.bcount ∧ s.phu.st = .track) ∧
    (let s := phuIs (fun p => { p with usedWin := some 10 });
      arithUp s = true ∧ phaseRuns s = true ∧ s.phu.usedWin = some s.phu.bcount ∧ Settled s) ∧
    (arithUp missing = true ∧ missing.phu.st = .miss ∧ missing.phu.missCycle = missing.phu.bcount) ∧
    (arithUp coasting = true ∧ coasting.phu.st = .coast ∧ coasting.phu.bcount = coasting.phu.coastCycle + 4 ∧ coasting.od.al = .op) := by
  decide +kernel

/-- A follower of a line of two on the barrier, one hop of 5 ticks after its fall, ready or not, and the master of that line. -/
def follower : State := regAt (phuIs (fun p => { p with fallTick := some 0, stepOut := true })) Reg.phuBarCtrl 0x5111
def followed : State := { follower with phu := { follower.phu with st := .acquire, held := true, inRange := true, bar := .ready } }
def master : State :=
  regAt (phuIs (fun p => { p with st := .acquire, held := true, inRange := true, launchTick := some 0 })) Reg.phuBarCtrl 0x5011

theorem wit_BarrierForwardsAndReleases : (arithUp follower = true ∧ follower.phu.fallTick = some 0 ∧ barPos follower ≠ 0 ∧
      follower.now ≤ 0 + barHop follower ∧ Settled follower) ∧
    (arithUp followed = true ∧ followed.phu.fallTick = some 0 ∧ barPos followed ≠ 0 ∧ barReady followed = true) ∧
    (arithUp master = true ∧ master.phu.launchTick = some 0 ∧ barPos master = 0 ∧ barReady master = true) := by decide +kernel

/-- The time correspondence frozen. -/
def frozen : State := phuIs (fun p => { p with tcFrozen := some .zero })

theorem wit_TimeReadsFreezeAndThaw : (arithUp up = true ∧ Settled up ∧ up.phu.tcFrozen = none) ∧
    (arithUp frozen = true ∧ Settled frozen ∧ frozen.phu.tcFrozen.isSome = true) := by decide +kernel

/-- Two gates that wait, and two in a plan image whose phase has not come. -/
def gated : State := phuIs (fun p => { p with gateQ := [(100, 3), (100, 4)] })
def gates0 : Plan := { plan0 with gates := [(100, 3), (100, 4)] }

theorem wit_GatesIssueEightPerClk : (arithUp gated = true ∧ gated.phu.gateQ ≠ [] ∧ phaseRuns gated = true) ∧
    (arithUp up = true ∧ up.phu.gateQ = [] ∧ phaseRuns up = true ∧ Settled up ∧ nextGate (latchIfDue { up with resp := .none }) = none) ∧
    (let s := planned gates0;
      arithUp s = true ∧ s.phu.gateQ = [] ∧ phaseRuns s = true ∧ s.plan.run = some gates0 ∧ gates0.slots = [] ∧ gates0.evalEnd ≠ 100 ∧
        nextGate s = some (100, 2) ∧ nextGate (latchIfDue { s with resp := .none }) = some (100, 2) ∧ s.phu.aligning = none ∧
        s.cand.latchDue = false ∧ deadlineTasks (reachPhase { s with resp := .none } 100) 100 = []) := by decide +kernel

theorem wit_BoundaryOpensNextCycle : (arithUp up = true ∧ phaseRuns up = true ∧ up.det.replay = false ∧ bit (regGet up Reg.detCtrl) 3 = false ∧
      up.od.pendW = [] ∧ RegsOk up ∧ up.phu.cycleLoad = none ∧ up.phu.everTracked = true ∧ up.plan.run = none ∧ up.plan.pend = none ∧
      up.phu.gateQ = [] ∧ up.phu.waitEdge = [] ∧ up.phu.aligning = none) ∧
    (let s := phuIs (fun p => { p with cycleLoad := some 5, everTracked := false });
      arithUp s = true ∧ phaseRuns s = true ∧ s.det.replay = false ∧ bit (regGet s Reg.detCtrl) 3 = false ∧ s.od.pendW = [] ∧
        RegsOk s) := by decide +kernel

/-! ### World model -/

/-- `up` with an enabled CSI-2 port 0 and a depth stream 0 on it. -/
def depth : State := regAt (regAt up Reg.csiCtrl 1) Reg.mrwStreamCfg 0x90000000

/-- `up` with a point stream 0 on CSI-2 port 0, or on Ethernet port 0. -/
def csiPoints : State := regAt (regAt up Reg.csiCtrl 1) Reg.mrwStreamCfg 0xA0000000
def points : State := regAt up Reg.mrwStreamCfg 0xB0000000

/-- The first fragment of a point frame of two, or of one, with one point. -/
def fragmentOf (n : Nat) : Bytes := [0x50, 0x4A, 0, 0, 5, 0, 0, 0] ++ List.replicate 10 0 ++ [n, 0, 1, 0] ++ List.replicate 18 0
def fragment : Bytes := fragmentOf 2

/-- A depth frame of stream 0, captured in cycle 5. -/
def frame : Frame :=
  { stream := 0, counter := 1, width32 := false, numbered := true, time := 327680, tick := 0, stamp := 327680, data := [], corrupt := false,
    fp := [], pose := none, mask := none, maskLate := false }

/-- `up` with a stream 0. -/
def streamIs (f : Stream → Stream) : State := strUpd up 0 f

/-- `up` with another world. -/
def worldIs (f : World → World) : State := { up with world := f up.world }

/-- The depth stream with a frame open, good or CORRUPT. -/
def openFrame (bad : Bool) : State :=
  { depth with world := { depth.world with csiOpen := [{ port := 0, vc := 0, num := 1, hdr := none, data := [], corrupt := bad }] } }

theorem wit_CsiPacketsBuildFrame : (ioUp depth = true ∧ Settled depth ∧ csiEn depth 0 = true ∧ (csiStream depth 1 0 0).isSome = true) ∧
    (ioUp csiPoints = true ∧ Settled csiPoints ∧ csiEn csiPoints 0 = true ∧ csiStream csiPoints 1 0 0 = none ∧ csiStream csiPoints 2 0 1 = none) ∧
    (ioUp up = true ∧ Settled up ∧ csiEn up 0 = false) := by decide +kernel

/-- A frame of stream 0 that waits for its boundary, with or without that boundary's poses, the stream FRESH. -/
def waits (l : List PoseRec) : State :=
  regAt { streamIs (fun x => { x with st := .fresh, waiting := [(frame, 9)] }) with
    world := { (streamIs (fun x => { x with st := .fresh, waiting := [(frame, 9)] })).world with poses := l } } Reg.mrwCtrl 1

/-- The poses of cycle 5. -/
def poses5 : List PoseRec := [{ cycle := 5, poses := [Pose.id], on0 := true, on1 := true }]

theorem wit_FramesCloseAndAreJudged : (let s := openFrame true;
      ioUp s = true ∧ csiEn s 0 = true ∧ s.world.csiOpen.find? (fun o => o.port == 0 && o.vc == 0) =
        some { port := 0, vc := 0, num := 1, hdr := none, data := [], corrupt := true } ∧ csiStream s 1 0 0 = some 0) ∧
    (ioUp depth = true ∧ csiEn depth 0 = true ∧ depth.world.csiOpen.find? (fun o => o.port == 0 && o.vc == 0) = none ∧ Settled depth) ∧
    (ioUp up = true ∧ Settled up ∧ (List.range 32).find? (fun i => strEn up i && strKind up i == 3 && strPort up i == 0 &&
      field (strCfg up i) 0 8 == getLe fragment 2 1) = none) ∧
    (ioUp points = true ∧ Settled points ∧ (List.range 32).find? (fun i => strEn points i && strKind points i == 3 && strPort points i == 0 &&
      field (strCfg points i) 0 8 == getLe fragment 2 1) = some 0 ∧ (strGet points 0).asm = none) ∧
    (ioUp csiPoints = true ∧ Settled csiPoints ∧ csiEn csiPoints 0 = true ∧ csiStream csiPoints 2 0 0 = some 0 ∧
      csiPoints.world.csiOpen.any (fun o => o.port == 0 && o.vc == 0 && o.corrupt) = false ∧ (strGet csiPoints 0).asm = none) := by decide +kernel

theorem wit_FragmentsAndPoses : (getLe fragment 0 2 = 0x4A50 ∧ getLe fragment 20 2 = 1 ∧ fragment.length = 32 + 8 * 1 ∧ getLe fragment 16 2 = 0 ∧ getLe fragment 18 2 = 2 ∧
      getLe (fragmentOf 1) 0 2 = 0x4A50 ∧ getLe (fragmentOf 1) 20 2 = 1 ∧ (fragmentOf 1).length = 32 + 8 * 1 ∧
      getLe (fragmentOf 1) 16 2 = 0 ∧ getLe (fragmentOf 1) 18 2 = 1) ∧
    (arithUp (waits []) = true ∧ (strGet (waits []) 0).waiting = [(frame, 9)] ∧ frame.stream = 0 ∧ sensorPose (waits []) 0 frame.time = none ∧
      nearestBoundary frame.time ≤ ((waits []).phu.cycle : Int)) ∧
    (let s := waits poses5;
      arithUp s = true ∧ (strGet s 0).waiting = [(frame, 9)] ∧ sensorPose s 0 frame.time = some (Pose.mul Pose.id (mount s 0), true) ∧
        Smap.wf (fun _ => Stream.off) s.world.streams = true ∧ s.det.ring = [] ∧ (strGet s 0).st = .fresh ∧ bit (regF s Reg.mrwCtrl) 0 = true ∧ s.det.replay = false ∧
        (strGet s 0).lastFp ≠ some frame.fp) := by decide +kernel

/-- `up` with stream 0 FRESH, and one frame to fuse. -/
def fusing : State :=
  let s := regAt (streamIs (fun x => { x with st := .fresh })) Reg.mrwCtrl 1
  { s with world := { s.world with inputs := [{ frame with pose := some Pose.id }] } }

theorem wit_FusionConsumesAndCutoffCloses : (arithUp fusing = true ∧ (sortBy frameLe fusing.world.inputs).find? (fusable fusing) =
      some { frame with pose := some Pose.id } ∧ bit (regF fusing Reg.mrwCtrl) 0 = true ∧ fusing.world.done = false ∧ phaseRuns fusing = true) ∧
    (arithUp up = true ∧ Settled up ∧ up.world.inputs.any (fusable up) = false) ∧
    (let s := worldIs (fun w => { w with cut := true, h := 65535, fine := { w.fine with person := [(0, true)] } });
      arithUp s = true ∧ s.world.done = false ∧ s.world.inputs.any (fusable s) = false ∧ s.world.cut = true ∧ marginOver s = true) := by
  decide +kernel

/-- A person frame whose mask has not come, the cut-off passed. -/
def unmasked : State := regAt { atPu 65000 with world := { up.world with inputs := [frame] } } Reg.mrwStreamCfg 0x90200000

theorem wit_StreamsAgeAndWorldStales : (let s := streamIs (fun x => { x with st := .fresh, age := 50 });
      arithUp s = true ∧ (strGet s 0).st = .fresh ∧ field (strLim s 0) 8 8 ≤ (strGet s 0).age) ∧
    (let s := streamIs (fun x => { x with st := .stale, age := 100 });
      arithUp s = true ∧ (strGet s 0).st = .stale ∧ field (strLim s 0) 16 16 ≤ (strGet s 0).age) ∧
    (arithUp unmasked = true ∧ unmasked.world.inputs = [frame] ∧ frame.stream = 0 ∧ strPerson unmasked 0 = true ∧ frame.maskLate = false ∧
      frame.mask = none ∧ frame.stamp / 65536 < unmasked.phu.cycle ∧ cutoffPu unmasked ≤ phase unmasked) ∧
    (let s := ({ up with phu := { up.phu with cycle := 100000 } } : State);
      arithUp s = true ∧ worldIsStale s = true ∧ s.world.staleRaised = false) := by decide +kernel

/-! ### Robot model and tables -/

/-- The smallest robot model: one joint, one bound sphere with one body sphere, one capsule; its digest is the SHA-256 of R86. -/
def modelImage : Bytes :=
  [77, 66, 82, 74, 1, 0, 1, 1, 1, 0, 0, 0, 1, 0, 0, 0, 64, 0, 0, 0, 144, 0, 0, 0, 176, 0, 0, 0, 192, 0, 0, 0] ++
    [192, 0, 0, 0, 208, 0, 0, 0, 0, 0, 0, 0, 240, 0, 0, 0, 55, 85, 117, 240, 52, 76, 157, 45, 63, 46, 238, 11, 205, 27, 147, 149] ++
    ([1, 255] ++ zeros 78) ++ (zeros 2 ++ [1] ++ zeros 29) ++ zeros 64

/-- The model of that image. -/
def model0 : Model := readModel modelImage

/-- `up` with the image in the shared store, or with none, and its check under way. -/
def checkingAt (a : Nat) : State := { memPut up (ssBase 0) modelImage with model := { up.model with status := .verifying, pendAddr := a } }
def checking : State := checkingAt (ssBase 0)

/-- `up` with another model record. -/
def modelIs (f : ModelSt → ModelSt) : State := { up with model := f up.model }

/-- The clk of a boundary at which a staged model is due. -/
def modelTurn : State :=
  { phuIs (fun p => { p with atBound := true }) with model := { up.model with status := .staged, pend := some model0, stagedAt := 5 } }

/-- A model and the plan image tied to it, both STAGED. -/
def tiedPair : State :=
  { up with
    model := { up.model with status := .staged, pend := some model0, structural := true }
    plan := { up.plan with status := .staged, pend := some { plan0 with structural := true, modelDigest := model0.digest } } }

/-- A release of the generation before the last switch. -/
def rel0 : Release :=
  { ctr := 20, cycle := 10, tick := 0, ver := 0, gen := 0, wgen := 0, pcopy := 0, stack := 0, level := 2, next := 0, descs := [] }
def oldHeld : State := { modelIs (fun m => { m with gen := 1 }) with sched := { up.sched with rels := [rel0] } }

theorem wit_ModelInstallStagesImage : (ioUp up = true ∧ Settled up ∧ up.det.replay = false ∧ up.model.status.busy = false ∧
      oldBankHeld up = false) ∧
    (let s := modelIs (fun m => { m with status := .staged });
      ioUp s = true ∧ Settled s ∧ s.det.replay = false ∧ s.model.status.busy = true ∧ modelDue s = false ∧ tied s = false) ∧
    (ioUp oldHeld = true ∧ oldHeld.det.replay = false ∧ oldHeld.model.status.busy = false ∧ oldBankHeld oldHeld = true) ∧
    (ioUp tiedPair = true ∧ tiedPair.model.status.busy = true ∧ modelDue tiedPair = false ∧ tied tiedPair = true) ∧
    (let s := checking;
      let b := memBytes s s.model.pendAddr (min (memLe s (s.model.pendAddr + 44) 4) 29504);
      ioUp s = true ∧ Settled s ∧ s.model.status = .verifying ∧ modelReason (fit (max 64 b.length) b) = 0) ∧
    (let s := checkingAt 0;
      let b := memBytes s s.model.pendAddr (min (memLe s (s.model.pendAddr + 44) 4) 29504);
      ioUp s = true ∧ s.model.status = .verifying ∧ modelReason (fit (max 64 b.length) b) ≠ 0) := by decide +kernel

theorem wit_ModelSwitchExchangesBanks : (arithUp modelTurn = true ∧ modelDue modelTurn = true ∧ modelTurn.model.pend = some model0 ∧
      modelTurn.model.structural = false ∧ modelTurn.model.deferrals < 15) ∧
    (let s := ({ modelTurn with model := { modelTurn.model with deferrals := 15 } } : State);
      arithUp s = true ∧ modelDue s = true ∧ s.model.pend = some model0 ∧ s.model.structural = false ∧ 15 ≤ s.model.deferrals) ∧
    (let s := ({ modelTurn with model := { modelTurn.model with structural := true } } : State);
      arithUp s = true ∧ modelDue s = true ∧ s.model.pend = some model0 ∧ s.model.structural = true ∧ tied s = false ∧
        s.plan.status ≠ .verifying) := by decide +kernel

/-- A running image with one slot whose weight set has a digest, and the check of the empty set under way. -/
def slot0 : Slot :=
  { wdigest := sha256 [], tiling := 0, allowKb := 0, dlGate := 0, used := true, stream := false, adaptable := false, nalt := 0, serveCyc := 0 }
def weightCheck (d : Bytes) : State :=
  { planned { plan0 with slots := [{ slot0 with wdigest := d }] } with cob := { up.cob with wCheck := some (0, 0, 0) } }

theorem wit_TablesInstallAndCancel : (let s := objSet (modelIs (fun m => { m with cur := some model0 })) 0x2405 2 1;
      ioUp s = true ∧ Settled s ∧ s.det.replay = false ∧ primReason s true = 0 ∧ primReason s false ≠ 0) ∧
    (let s := ({ up with cand := { up.cand with primPend := some (0, 1) } } : State);
      ioUp s = true ∧ Settled s ∧ s.cand.primPend.isSome = true) ∧
    (ioUp up = true ∧ Settled up ∧ up.cand.primPend = none ∧ up.det.replay = false) ∧
    (let s := weightCheck (sha256 []);
      ioUp s = true ∧ Settled s ∧ s.cob.wCheck = some (0, 0, 0) ∧ declaredDigest s 0 = some (sha256 (memBytes s 0 0))) ∧
    (let s := weightCheck [];
      ioUp s = true ∧ Settled s ∧ s.cob.wCheck = some (0, 0, 0) ∧ declaredDigest s 0 ≠ some (sha256 (memBytes s 0 0))) := by decide +kernel

/-! ### Scheduling and queues -/

/-- `up` with another scheduler record. -/
def schedIs (f : Sched → Sched) : State := { up with sched := f up.sched }

/-- One decrement of counter 20 held, the counter armed with a COUNT, or not. -/
def held : Decr := ⟨20, 0xFFFF, 0⟩
def disarmed : State := schedIs (fun x => { x with held0 := [held] })
def armed (n : Nat) : State := ctrSet disarmed 20 (2 ^ 63 + n)

theorem wit_SyncCountersDecrementAndLoad : (let s := armed 2; let clk := clkNow (if s.sched.heldTick = s.now then nextClk s else s);
      arithUp s = true ∧ s.sched.held0 = [held] ∧ s.sched.held1 = [] ∧ cnt clk.dec held.ctr < 4 ∧ ctrArmed (ctrGet s held.ctr) = true ∧
        2 ≤ ctrCount (ctrGet s held.ctr)) ∧
    (let s := armed 1; let clk := clkNow (if s.sched.heldTick = s.now then nextClk s else s);
      arithUp s = true ∧ s.sched.held0 = [held] ∧ s.sched.held1 = [] ∧ cnt clk.dec held.ctr < 4 ∧ ctrArmed (ctrGet s held.ctr) = true ∧
        ctrCount (ctrGet s held.ctr) = 1 ∧ ctrMode (ctrGet s held.ctr) = 0 ∧ clk.rel.contains held.ctr = false) ∧
    (let s := disarmed; let clk := clkNow (if s.sched.heldTick = s.now then nextClk s else s);
      arithUp s = true ∧ s.sched.held0 = [held] ∧ s.sched.held1 = [] ∧ cnt clk.dec held.ctr < 4 ∧ ctrArmed (ctrGet s held.ctr) = false) ∧
    (let a : ClkAcc := { st := up, used := [], rel := [], wait := [] };
      cnt a.used 20 < 4 ∧ a.wait.any (fun x => x.ctr == 20) = false ∧ ctrArmed (ctrGet a.st 20) = false) ∧
    (let s := planned plan0; arithUp s = true ∧ appUp s = true ∧ Settled s ∧ 15 < ctrPlan s ∧ ctrPlan s = 16) := by decide +kernel

/-- A descriptor of a HASH task of level 2 on Stack 0. -/
def hashDesc : Bytes :=
  [1, 8, 0x0C, 2, 7, 0, 0, 0] ++ leBytes 8 (ssBase 0 + 4096) ++ [255, 255, 255, 255, 255, 255, 15, 0, 255, 255, 255, 255, 0, 0, 232, 3] ++ zeros 32
def hashD : Desc := descOf hashDesc

/-- A descriptor of an EVAL_RECORDS task of level 1. -/
def evalD : Desc := { hashD with opId := 0x0102, cls := 1, crit := 1, param := 0x4000, arg0 := 2 }

/-- `up` with one release of a descriptor. -/
def released (d : Desc) : State := schedIs (fun x => { x with rels := [{ rel0 with descs := [d] }] })

/-- The same, its engine stalled. -/
def stalledEngine : State := { released hashD with sched := { (released hashD).sched with stalledEng := cntPut [] 2 1 } }

theorem wit_ReleaseCopiesDescriptor : (let s := released hashD;
      arithUp s = true ∧ s.sched.rels = [{ rel0 with descs := [hashD] }] ∧ descReject hashD false = 0 ∧
        watchGates s hashD (isEstimate s hashD.param) = false ∧ slotBad s s.cob.noWeights hashD = false ∧ hashD.cls ≠ 1 ∧
        (readyGet s (readyKey hashD.cls (chooseStack s hashD 20) hashD.crit)).length < 512) ∧
    (let s := released evalD;
      arithUp s = true ∧ s.sched.rels = [{ rel0 with descs := [evalD] }] ∧ descReject evalD false = 0 ∧
        watchGates s evalD (isEstimate s evalD.param) = false ∧ slotBad s s.cob.noWeights evalD = false ∧ evalD.cls = 1) ∧
    (let s := released { hashD with cls := 0x20 };
      arithUp s = true ∧ s.sched.rels = [{ rel0 with descs := [{ hashD with cls := 0x20 }] }] ∧ descReject { hashD with cls := 0x20 } false ≠ 0) ∧
    (let s := stalledEngine;
      arithUp s = true ∧ engineHead s 0 2 = some (hashD, 20) ∧ cnt s.sched.stalledEng (0 * 4 + 2) ≠ 0 ∧
        readyKey hashD.cls (chooseStack s hashD 20) 2 ∉ s.sched.stallReported) := by decide +kernel

/-- The hash engine 0 of Stack 0. -/
def hashU : Nat := unitId 0x0C 0 0

/-- A task of that descriptor. -/
def task0 : Task :=
  { desc := hashD, rid := 1, cycle := 10, stack := 0, byHusk := false, pcopy := 0, rerun := false, excl := none, began := false,
    startCycle := 10, startPhase := 0, lateChecked := false, resumed := false, ueRegion := none, ctr := 20, ver := 0, gen := 0, wgen := 0,
    inv := 0, warm := 0 }

/-- The task begun, of a class with an OP_ID. -/
def ran (cls op : Nat) : Task := { task0 with began := true, desc := { hashD with cls := cls, opId := op } }

/-- `up` with the task's block: 3 bytes at 0x1000 to hash, the digest to the shared store of Stack 0. -/
def block : State :=
  memPut (planned { plan0 with regions := [{ loc := 0, carry := false, zero := false, size := 4096, addr := ssBase 0 + 8192 }] }) (ssBase 0 + 4096)
    ([1, 8, 1, 0, 48] ++ zeros 11 ++ leBytes 8 0x1000 ++ leBytes 8 3 ++ leBytes 8 (ssBase 0 + 8192))

/-- The block of an FW_COPY of 3 bytes to the same place. -/
def copyBlock : State := memPut block (ssBase 0 + 4096 + 24) (leBytes 8 (ssBase 0 + 8192) ++ leBytes 4 3)

/-- A unit ACTIVE with a task in its execution slot. -/
def holding (s : State) (u : Nat) (t : Task) : State := unitUpd s u (fun r => { r with st := .active, exec := some t })

/-- The engine with the task in its slot, waiting or begun. -/
def slotted (s : State) (t : Task) : State := holding s hashU t

/-- The task waiting in its ready list. -/
def readyIn (s : State) : State := readyPut s (readyKey 0x0C 0 2) [task0]
def ready : State := readyIn (withUnit up hashU .active)

/-- The engine, a firmware processor, a Cob, a Parsnip and a Radish, by unit ID. -/
def hashW : BitVec 16 := 0x6000
def fwU : BitVec 16 := 0x5800
def cobU : BitVec 16 := BitVec.ofNat 16 (unitId 3 0 0)
def psnU : BitVec 16 := BitVec.ofNat 16 (unitId 4 0 0)
def radU : BitVec 16 := BitVec.ofNat 16 (unitId 5 0 0)

theorem wit_TaskIsClaimedRunAndEnded : (arithUp ready = true ∧ Settled ready ∧ (unitOf ready hashU).st = .active ∧
      readyClass (idClass hashU) = true ∧ watchUnit ready hashU = false ∧ idClass hashU ≠ 7 ∧
      claimFrom ready hashU [0, 1, 2, 3] = some (readyKey 0x0C 0 2, task0, []) ∧ (unitOf ready hashU).exec = none) ∧
    (let s := readyIn (slotted up { task0 with rid := 0, began := true });
      arithUp s = true ∧ Settled s ∧ (unitOf s hashU).st = .active ∧ claimFrom s hashU [0, 1, 2, 3] = some (readyKey 0x0C 0 2, task0, []) ∧
        (unitOf s hashU).exec.isSome = true ∧ (unitOf s hashU).pref = none) ∧
    (let s := slotted block task0;
      arithUp s = true ∧ Settled s ∧ (unitOf s hashU).exec = some task0 ∧ task0.began = false ∧ task0.desc.startBy = 0xFFFF ∧
        headerOk s task0 = true ∧ startReject s task0.desc = none) ∧
    (let s := slotted up task0; arithUp s = true ∧ (unitOf s hashU).exec = some task0 ∧ headerOk s task0 = false ∧ task0.byHusk = false) ∧
    (let t := ran 0x0C 0x0801; let s := slotted block t;
      let h := sha256 (taskRead { s with resp := .none } hashU (memLe s (t.desc.param + 16) 8) (memLe s (t.desc.param + 24) 4)).1;
      arithUp s = true ∧ running s hashU = some t ∧ watchUnit s hashU = false ∧ pushStalled s hashU = false ∧ s.det.replay = false ∧
        windowOk s (memLe s (t.desc.param + 32) 8) h.length = true ∧ UnitsOk s ∧ (unitOf s hashU).pref = none ∧ t.desc.outQueue = 0xFFFFF ∧
        t.desc.doneCtr = 0xFFFF) ∧
    (let t := ran 0x0C 0x0801; let s := slotted up t;
      let h := sha256 (taskRead { s with resp := .none } hashU (memLe s (t.desc.param + 16) 8) (memLe s (t.desc.param + 24) 4)).1;
      arithUp s = true ∧ running s hashU = some t ∧ windowOk s (memLe s (t.desc.param + 32) 8) h.length = false) := by decide +kernel

theorem wit_TasksOfEachClass : (let t := ran 0x0B 0x0702; let s := holding copyBlock fwU.toNat t; let p := t.desc.param;
      let b := (taskRead (tracePoints { s with resp := .none } fwU.toNat) fwU.toNat (memLe s (p + 16) 8) (memLe s (p + 32) 4)).1;
      arithUp s = true ∧ running s fwU.toNat = some t ∧ watchUnit s fwU.toNat = false ∧ pushStalled s fwU.toNat = false ∧ s.det.replay = false ∧
        windowOk s (memLe s (p + 24) 8) b.length = true ∧ UnitsOk s ∧ (unitOf s fwU.toNat).pref = none) ∧
    (let t := ran 0x0B 0x0702; let s := holding up fwU.toNat t; let p := t.desc.param;
      let b := (taskRead (tracePoints { s with resp := .none } fwU.toNat) fwU.toNat (memLe s (p + 16) 8) (memLe s (p + 32) 4)).1;
      arithUp s = true ∧ running s fwU.toNat = some t ∧ windowOk s (memLe s (p + 24) 8) b.length = false) ∧
    [(3, 0x0301, cobU), (4, 0x0401, psnU), (5, 0x0501, radU)].all (fun x =>
      let s := holding up x.2.2.toNat (ran x.1 x.2.1)
      decide (arithUp s = true ∧ running s x.2.2.toNat = some (ran x.1 x.2.1) ∧ watchUnit s x.2.2.toNat = false ∧
        pushStalled s x.2.2.toNat = false ∧ s.det.replay = false)) = true := by decide +kernel

/-- A level 0 task released in cycle 3, and one whose unit runs it too long. -/
def late : Task := { task0 with cycle := 3, desc := { hashD with crit := 0 } }
def slow : State := slotted (atPu 5000) { task0 with began := true }

theorem wit_LateTasksAreReported : (let t : Task := { task0 with began := true };
      arithUp slow = true ∧ running slow hashU = some t ∧ t.desc.budget < elapsed (reachBudget slow t) t) ∧
    (let s := readyPut up 96 [late];
      arithUp s = true ∧ openTask s (7 : BitVec 32).toNat = some (none, late) ∧ endPassed (reachEnd s late) late = true ∧ late.desc.crit < 2 ∧
        endPassed (reachEnd s (huskView s late)) (huskView s late) = true) ∧
    (let s := slotted up { late with began := true };
      arithUp s = true ∧ openTask s (7 : BitVec 32).toNat = some (some hashU, { late with began := true }) ∧
        endPassed (reachEnd s { late with began := true }) { late with began := true } = true) := by decide +kernel

/-- A queue 0 of two entries at 0x2000, enabled, with its HEAD and TAIL in the cache. -/
def queue (hd tl : Nat) : State :=
  { memPut up 0 (leBytes 8 0x2000 ++ zeros 8 ++ [1, 1, 255, 255]) with sched := { up.sched with qcache := [(0, hd, tl)] } }

/-- A push that stalls on it. -/
def stall0 : Stall := { queue := 0, unit := 0x6000, entry := [1], ticks := 0, since := 0, reported := false, after := [], ends := false }

/-- The queue with that push. -/
def stalled (hd tl : Nat) : State := { queue hd tl with sched := { (queue hd tl).sched with stalls := [stall0] } }

theorem wit_QueuesKeepFirstInFirstOut : (let s := stalled 0 2;
      arithUp s = true ∧ pushStalled s hashU = true ∧ Settled s ∧ s.sched.qcache.find? (fun e => e.1 == 0) = some (0, 0, 2) ∧ qEn s 0 = true ∧
        s.sched.stalls.find? (fun x => x.queue == 0) = some stall0 ∧ qFill 0 2 = qSize s 0 ∧
        s.sched.stalls.any (fun y => y.queue == 0 && y.reported) = false) ∧
    (arithUp up = true ∧ pushStalled up hashU = false ∧ qEn up 0 = false) ∧
    (let s := queue 0 1;
      arithUp s = true ∧ pushStalled s hashU = false ∧ s.sched.qcache.find? (fun e => e.1 == 0) = some (0, 0, 1) ∧ qEn s 0 = true ∧
        qFill 0 1 ≠ qSize s 0 ∧ Settled s) ∧
    (let s := queue 0 2;
      arithUp s = true ∧ pushStalled s hashU = false ∧ s.sched.qcache.find? (fun e => e.1 == 0) = some (0, 0, 2) ∧ qEn s 0 = true ∧
        qFill 0 2 = qSize s 0) ∧
    (let s := queue 5 5;
      arithUp s = true ∧ pushStalled s hashU = false ∧ s.sched.qcache.find? (fun e => e.1 == 0) = some (0, 5, 5) ∧ qEn s 0 = true ∧ Settled s) ∧
    (let s := stalled 1 2;
      arithUp s = true ∧ s.sched.qcache.find? (fun e => e.1 == 0) = some (0, 1, 2) ∧ qEn s 0 = true ∧
        s.sched.stalls.find? (fun x => x.queue == 0) = some stall0 ∧ qFill 1 2 ≠ qSize s 0) := by decide +kernel

/-! ### Collision checking -/

/-- An EVAL_RECORDS task of level 1: one record of no joints at 0x5000, its results at 0x6000, its block at 0x4000. -/
def evalTask : Task := { task0 with desc := evalD }

/-- Its evaluation, under way in two batches. -/
def eval0 : Eval :=
  { task := evalTask, total := 2, done := 0, only := none, started := true, exited := false, main := false, recheck := false, clear := 0,
    blocked := 0, unknown := 0, outside := 0 }

/-- A Pod, and the evaluation with its block, its record and a model. -/
def podsWith (e : Eval) (p : Pod) : State :=
  let s := podUp0 (memPut (memPut (memPut (modelIs (fun m => { m with cur := some model0 })) 0x4000 [2, 1, 1, 0, 48]) 0x4010
    (leBytes 8 0x5000 ++ [1, 0, 0, 0, 32])) 0x4020 (leBytes 8 0x6000))
  podPut { s with pod := { s.pod with evals := [e] } } 0 p
def pods (p : Pod) : State := podsWith eval0 p

/-- Regions over the results. -/
def region0 (s : State) : State :=
  { s with plan := (planned { plan0 with regions := [{ loc := 2, carry := false, zero := false, size := 64, addr := 0x6000 }] }).plan }
def podsIn (p : Pod) : State := region0 (pods p)

/-- The evaluation's batch 0. -/
def batch0 : Batch := { rid := 1, num := 0, level := 1, golden := false, acc := [], written := [] }

/-- A Pod that holds it, and one with it in its list. -/
def podBusy : Pod := { Pod.empty with exec := some batch0 }
def podNext : Pod := { Pod.empty with list := [⟨1, 0, 2⟩] }

/-- The evaluation not started, with its block, or with an empty one. -/
def unstarted : State := podsWith { eval0 with started := false } podNext
def noBlock : State := memPut unstarted 0x4000 [0]

theorem wit_PodTakesNextBatch : [pods podNext, unstarted, noBlock].all (fun s =>
      decide (arithUp s = true ∧ podTakes s 0 = true ∧ (podGet s 0).exec = none ∧ watchUnit s (leekOf 0) = false ∧
        nextRange s (podGet s 0).list = some ⟨1, 0, 2⟩ ∧ Settled s)) = true ∧
    (evalOf (pods podNext) 1).map (·.started) = some true ∧
    (evalOf unstarted 1).map (fun e => (e.started, headerOk unstarted e.task, e.task.desc.startBy)) = some (false, true, 0xFFFF) ∧
    (evalOf noBlock 1).map (fun e => (e.started, headerOk noBlock e.task, e.task.desc.startBy)) = some (false, false, 0xFFFF) := by
  decide +kernel

/-- Its candidate. -/
def rec0 (s : State) : CandRec := recAt s 0x5000

/-- A model whose joint may not stand at 0. -/
def model1 : Model := { model0 with joints := model0.joints.map (fun j => { j with qMin := 5, qMax := 9 }) }
def limited : State := { podsIn podBusy with model := { (podsIn podBusy).model with cur := some model1 } }

theorem wit_ProbesAccumulateInBatch : (let s := pods podBusy;
      arithUp s = true ∧ s.cpm.watch = false ∧ PodsOk s ∧ peaRuns s (unitId 0 0 0) = true ∧ (podGet s 0).exec = some batch0 ∧
        evalOf s 1 = some eval0 ∧ modelOf s evalTask.gen = some model0 ∧ (batchCands s model0 eval0 0)[0]? = some (0, rec0 s) ∧
        limitWp model0 (rec0 s).dtUs (rec0 s).wp = none ∧ Settled s ∧ evalBranch s eval0 = false ∧ recOk s eval0 0 = false) := by decide +kernel

/-- A candidate that breaks a limit. -/
theorem wit_ProbesAccumulateInBatch_limit :
    (let s := limited;
      arithUp s = true ∧ PodsOk s ∧ peaRuns s (unitId 0 0 0) = true ∧ (podGet s 0).exec = some batch0 ∧ evalOf s 1 = some eval0 ∧
        modelOf s evalTask.gen = some model1 ∧ (batchCands s model1 eval0 0)[0]? = some (0, rec0 s) ∧
        (limitWp model1 (rec0 s).dtUs (rec0 s).wp).isSome = true) := by decide +kernel

/-- The batch with every test of its candidate retired but the last, and those tests: in an unknown world the first place decides. -/
def lastProbe (s : State) : State × List (Nat × Test) :=
  let l := (evalCand (evCtx s model0 evalTask) (rec0 s) false false).tests
  (podPut s 0 { podBusy with exec := some { batch0 with acc := [{ cand := 0, tests := l.dropLast, outs := [] }] } }, l)

theorem wit_LastProbeWritesRecord : (let s := (lastProbe (podsIn podBusy)).1; let l := (lastProbe (podsIn podBusy)).2;
      l.getLast? = some (0, .field 0) ∧ recOk s eval0 0 = true ∧ firstFeasible s eval0 = false ∧
        (probeTests (.body 0)).map (fun t => (0, t)) = [(0, Test.field 0)]) ∧
    (let s := (lastProbe (pods podBusy)).1; recOk s eval0 0 = false) := by decide +kernel

theorem wit_BatchCompletionWritesRecords : (let s := pods { Pod.empty with exec := some goldenBatch };
      arithUp s = true ∧ s.cpm.watch = false ∧ (podGet s 0).exec = some goldenBatch ∧ goldenBatch.golden = true ∧ Settled s) ∧
    (let s := podsIn podBusy;
      arithUp s = true ∧ s.cpm.watch = false ∧ (podGet s 0).exec = some batch0 ∧ batch0.golden = false ∧
        s.sched.stalls.any (fun x => x.unit == leekOf 0) = false ∧ evalOf s 1 = some eval0 ∧ (batchRes s eval0 batch0).length = 1 ∧
        (batchRes s eval0 batch0).all (fun x => recOk s eval0 x.1) = true ∧ PodsOk s ∧ eval0.task.desc.outQueue = 0xFFFFF ∧
        firstFeasible s eval0 = false ∧ eval0.done + 1 < eval0.total) ∧
    (let e := { eval0 with done := 1 }; let s := region0 (podsWith e podBusy);
      arithUp s = true ∧ evalOf s 1 = some e ∧ (batchRes s e batch0).all (fun x => recOk s e x.1) = true ∧ PodsOk s ∧ e.total ≤ e.done + 1) ∧
    (let s := pods podBusy;
      arithUp s = true ∧ evalOf s 1 = some eval0 ∧ (batchRes s eval0 batch0).all (fun x => recOk s eval0 x.1) = false) ∧
    (let s := pods { Pod.empty with exec := some { batch0 with rid := 9 } };
      arithUp s = true ∧ evalOf s 9 = none ∧ Settled s) := by decide +kernel

/-- Pod 1 with batches beside a dry Pod 0, its ring enabled. -/
def thief : State :=
  podPut (regAt (withUnit (withUnit (withUnit (pods Pod.empty) (unitId 1 0 1) .active) (unitId 2 0 1) .active) 17 .active) Reg.podCtrl 4) 1
    { Pod.empty with list := [⟨1, 0, 4⟩] }

/-- The port of Pod 1 full. -/
def fullPort : State := podUpd thief 1 (fun p => { p with port := [(0, 2), (0, 3), (0, 4), (0, 5)] })

/-- A miss of a brick word whose refill is on its way. -/
def miss0 : Miss := { line := wordLine 5, tick := 0, pea := 0, demand := true }

theorem wit_StealingAndRefillMovePodsOnly : [thief, fullPort].all (fun s =>
      decide (arithUp s = true ∧ Settled s ∧ s.cpm.watch = false ∧ podInService s 0 = true ∧ (podGet s 0).idle = false ∧
        (podGet s 0).exec = none ∧ (podGet s 0).list = [] ∧ (podGet s 0).asking = none ∧ (podGet s 0).reply = none ∧ s.pod.evals ≠ [] ∧
        (List.range 63).find? (fun i => decide ((podGet s 0).asked ≤ i) && ringOk s 0 ((0 + i + 1) % 64)) = some 0)) = true ∧
    (let s := pods Pod.empty;
      arithUp s = true ∧ podInService s 0 = true ∧ (podGet s 0).idle = false ∧ s.pod.evals ≠ [] ∧
        (List.range 63).find? (fun i => decide ((podGet s 0).asked ≤ i) && ringOk s 0 ((0 + i + 1) % 64)) = none) ∧
    (let s := pods { Pod.empty with port := [(0, 9)] }; PodsOk s ∧ (podGet s 0).port = [(0, 9)] ∧ podInService s 9 = false) ∧
    (let s := podUpd thief 1 (fun p => { p with port := [(0, 0)] });
      arithUp s = true ∧ Settled s ∧ PodsOk s ∧ (podGet s 1).port = [(0, 0)] ∧ podInService s 0 = true) ∧
    (podGet (pods Pod.empty) 0).port = [] ∧ (podGet (pods { Pod.empty with reply := some [], asking := some 1 }) 0).reply = some [] ∧
    (let s := pods { Pod.empty with reply := some [⟨1, 1, 1⟩], asking := some 1 };
      (podGet s 0).reply = some [⟨1, 1, 1⟩] ∧ podInService s 0 = true) ∧
    (let s := podPut up 0 { Pod.empty with reply := some [⟨1, 1, 1⟩], asking := some 1 };
      arithUp s = true ∧ (podGet s 0).reply = some [⟨1, 1, 1⟩] ∧ podInService s 0 = false) ∧
    (podGet (pods { Pod.empty with refills := [miss0] }) 0).refills.any (fun m => m.line == lineNo (.word 5)) = true := by decide +kernel


/-! ### Peers and publication -/

/-- The Ethernet port 0 running, with or without MACsec required, on an address of its own. -/
def eth (ctrl : Nat) : State :=
  { regAt (regAt (regAt up Reg.ethCtrl ctrl) Reg.ethIpv4 0x0A000001) Reg.cpmGate 0x3FFF with pins := { up.pins with pcs0 := true } }

/-- `up` with another peer record. -/
def peersIs (s : State) (f : PeerSt → PeerSt) : State := { s with peers := f s.peers }

/-- An installed SA, and a port of MACsec with it. -/
def sa0 : Sa := { an := 1, key := zeros 8, nextPn := 5 }
def sec0 : State := regAt (peersIs (eth 0x11) (fun p => { p with port0 := { p.port0 with sas := [sa0] } })) Reg.ethMacsec 1

/-- The UDP ports of Krytan and of fusion. -/
def krytan : BitVec 16 := BitVec.ofNat 16 (field (regF (eth 1) Reg.ethUdp) 16 16)
def fusion : BitVec 16 := BitVec.ofNat 16 (field (regF (eth 1) Reg.ethUdp) 0 16)

theorem wit_EthernetFramesEnterRing :
    (let s := eth 1; ioUp s = true ∧ Settled s ∧ ethOn s 0 = true ∧ (secCheck s 0 none).1 = true ∧ ¬ ((5 : BitVec 32).toNat =
      regF s Reg.ethIpv4 ∨ (5 : BitVec 32).toNat = regF s Reg.ethMcast) ∧ (0x0A000001 : BitVec 32).toNat = regF s Reg.ethIpv4 ∧
      krytan.toNat = field (regF s Reg.ethUdp) 16 16 ∧ s.det.replay = false ∧ s.peers.ring.length < 8192 ∧
      fusion.toNat ≠ field (regF s Reg.ethUdp) 16 16 ∧ fusion.toNat = field (regF s Reg.ethUdp) 0 16 ∧
      (7 : BitVec 16).toNat ≠ field (regF s Reg.ethUdp) 16 16 ∧ (7 : BitVec 16).toNat ≠ field (regF s Reg.ethUdp) 0 16 ∧ gateOn s 0 = true) ∧
    (let s := eth 0x11; ioUp s = true ∧ Settled s ∧ ethOn s 0 = true ∧ (secCheck s 0 none).1 = false) ∧
    (let s := { eth 1 with det := { up.det with replay := true } }; ioUp s = true ∧ Settled s ∧ ethOn s 0 = true ∧
      (secCheck s 0 none).1 = true ∧ s.det.replay = true) := by decide +kernel

theorem wit_EthernetFramesEnterRing_full :
    (let s := peersIs (eth 1) (fun p => { p with ring := List.replicate 8192 ⟨0, 0, []⟩ }); ioUp s = true ∧ Settled s ∧ ethOn s 0 = true ∧
      (secCheck s 0 none).1 = true ∧ s.det.replay = false ∧ 8192 ≤ s.peers.ring.length) := by decide +kernel

theorem wit_EthernetFramesEnterRing_sec :
    (let s := sec0; let t : SecTag := { an := 1, pn := 5, icvOk := true }; ioUp s = true ∧ Settled s ∧ (ethPort s 0).sas = [sa0] ∧
      sa0.an = t.an.val ∧ (bit (macsecReg s 0) 0 && t.icvOk && decide (sa0.nextPn ≤ t.pn.toNat + field (macsecReg s 0) 16 16)) = true ∧
      (secCheck s 0 (some t)).1 = true) ∧
    (let s := sec0; let t : SecTag := { an := 1, pn := 5, icvOk := false }; ioUp s = true ∧ Settled s ∧ (ethPort s 0).sas = [sa0] ∧
      (bit (macsecReg s 0) 0 && t.icvOk && decide (sa0.nextPn ≤ t.pn.toNat + field (macsecReg s 0) 16 16)) = false) ∧
    (ioUp up = true ∧ Settled up ∧ ethOn up 0 = false) ∧
    (let s := regAt up Reg.cpmGate 0; ioUp s = true ∧ Settled s ∧ gateOn s 0 = false) := by decide +kernel

/-- A frame of peer 9 with one capsule in one slice, and one that is none. -/
def intent0 : Bytes :=
  let b := [0x52, 0x4B, 1, 0] ++ leBytes 4 9 ++ leBytes 4 1 ++ leBytes 8 0 ++ leBytes 2 100 ++ leBytes 2 100 ++ leBytes 2 1000 ++ [1, 0] ++
    zeros 12 ++ leBytes 8 1 ++ leBytes 2 78 ++ zeros 14 ++ zeros 14
  b.take 60 ++ leBytes 4 (frameCrc b) ++ b.drop 64

/-- `up` with gPTP time and one entry in the ring. -/
def ring0 (b : Bytes) (valid : Bool) : State :=
  peersIs (phuIs (fun p => { p with tc := { p.tc with gptpValid := valid } })) (fun p => { p with ring := [⟨0, 0, b⟩], tb := 1000 })

theorem wit_IntentsAreAdmittedAndCompiled :
    (let s := ring0 intent0 true; let e : RingEnt := ⟨0, 0, intent0⟩; let f := intentOf intent0; arithUp s = true ∧ s.peers.admitDone = false ∧
      phaseRuns s = true ∧ s.peers.ring = [e] ∧ (admitLate s || decide (e.ns < intentCutNs s) || !s.phu.tc.gptpValid) = true ∧
      frameOk e.frame = true ∧ f.peer ≠ 0 ∧ f.peer ≠ 0xFFFFFFFF ∧ f.peer ≠ regF s Reg.ethOwnId ∧ s.phu.tc.gptpValid = true ∧
      f.ti ≤ e.ns + field (regF s Reg.ethPeerTol) 16 16 * 1000 ∧
      f.anchor = [0, 0, 0] ∧ peerSlot s f.peer = none ∧ f.kind = 0 ∧ emptySlot s = some 0) ∧
    (let s := ring0 [1] false; let e : RingEnt := ⟨0, 0, [1]⟩; arithUp s = true ∧ s.peers.admitDone = false ∧ phaseRuns s = true ∧
      s.peers.ring = [e] ∧ (admitLate s || decide (e.ns < intentCutNs s) || !s.phu.tc.gptpValid) = true ∧ frameOk e.frame = false) ∧
    (let s := peersIs up (fun p => { p with admitDone := true, compiling := some (11, 0) }); arithUp s = true ∧ Settled s ∧
      s.peers.admitDone = true ∧ s.peers.compiling = some (11, 0)) ∧
    (arithUp up = true ∧ Settled up ∧ up.peers.compiling = none ∧ ioUp up = true ∧ regF up Reg.ethOwnId = 0) ∧
    (let s := regAt up Reg.ethOwnId 5; ioUp s = true ∧ Settled s ∧ regF s Reg.ethOwnId ≠ 0 ∧
      ([0, 1].filter (fun p => bit (regF s Reg.ethCtrl) (6 + p) && ethOn s p)).all (fun p => !bit (macsecReg s p) 0) = true) := by decide +kernel

/-- The site's origin stands at the world's, whatever the cosine table says. -/
theorem wit_IntentsAreAdmittedAndCompiled_site :
    (siteToWorld (ring0 intent0 true) [0, 0, 0]).all (fun x => decide (-16000 * 65536 ≤ x) && decide (x ≤ 16000 * 65536)) = true := by
  have h : ∀ i < 3, toSigned 32 (regF (ring0 intent0 true) (Reg.ethSiteX + 4 * i)) = 0 := by decide +kernel
  have h0 := h 0 (by decide)
  have h1 := h 1 (by decide)
  have h2 := h 2 (by decide)
  simp only [Nat.mul_zero, Nat.mul_one, Nat.add_zero] at h0 h1
  simp [siteToWorld, vi, h0, h1, h2]
  decide

/-- No unit runs, so none waits for the set of a cycle. -/
theorem wit_IntentsAreAdmittedAndCompiled_idle : ∀ u tk, running (peersIs up (fun p => { p with compiling := some (11, 0) })) u = some tk →
    tk.desc.opId ≠ 0x0504 := by
  intro u tk h
  have : running (peersIs up (fun p => { p with compiling := some (11, 0) })) u = none := rfl
  rw [this] at h
  cases h

/-- The clk of a publication at which every condition of R360 holds. -/
def granting : State :=
  { objPut (planned plan0) 0x2400 8 50000 with
    model := { up.model with cur := some model0 }
    safety := { up.safety with
      par := { up.safety.par with tB := 400000, fsoeReq := 0 }, compared := true, outcome := 0
      next := some { gen := 10, candId := 0, key := 0, wp := [], branch := [], dtUs := 50000, nj := 0, b := 12, pin := 4, planGen := 0, modelGen := 0,
                     nondet := false, digest := [], age := 0 } } }

/-- Every condition holds, then the stop request is set, then the part is in SERVICE. -/
theorem wit_PublicationOncePerCycle_grant :
    (let s := granting; arithUp s = true ∧ phaseRuns s = true ∧ s.safety.published = false ∧ s.safety.permit = false ∧ s.safety.grant = false ∧
      s.safety.safeState = false ∧ s.det.replay = false ∧ s.svc.life = 2 ∧ pubOutcome (reachPhase s 62259) = 0 ∧
      grantFail s s.safety.next = 0) ∧
    (let s := { granting with safety := { granting.safety with stopReq := true } }; pubOutcome (reachPhase s 62259) = 0 ∧
      grantFail s s.safety.next = 6) ∧
    (let s := { granting with svc := { granting.svc with life := 3 } }; arithUp s = true ∧ phaseRuns s = true ∧ s.safety.published = false ∧
      s.svc.life ≠ 2) := by decide +kernel

theorem wit_PublicationOncePerCycle :
    (let s : State := { planned plan0 with model := { up.model with cur := some model0 }, phu := { up.phu with st := .track } };
      arithUp s = true ∧ phaseRuns s = true ∧ s.safety.published = false ∧ installed s = true ∧ publishes s = false ∧ s.od.al = .op) ∧
    (arithUp up = true ∧ phaseRuns up = true ∧ up.safety.published = false ∧ publishes up = true) ∧
    (let s : State := { up with od := { up.od with al := .preop } }; arithUp s = true ∧ phaseRuns s = true ∧ s.safety.published = false ∧
      s.od.al ≠ .safeop ∧ s.od.al ≠ .op) ∧
    (let s : State := { up with safety := { up.safety with published := true } }; arithUp s = true ∧ Settled s ∧ s.safety.published = true) ∧
    (arithUp State.reset = false ∧ phaseRuns State.reset = false ∧
      (let s := phuIs (fun p => { p with st := .off }); arithUp s = true ∧ phaseRuns s = false ∧ Settled s)) := by decide +kernel

/-! ### Standing programs -/

/-- `up` with another plan record. -/
def planIs (f : PlanSt → PlanSt) : State := { up with plan := f up.plan }

/-- The clk of a boundary at which a plan is due, `up` with a deferral count and a tied model or none. -/
def planTurn (p : Plan) (n : Nat) : State :=
  { phuIs (fun p => { p with atBound := true }) with plan := { up.plan with status := .staged, pend := some p, stagedAt := 5, deferrals := n } }
def planTied (n m : Nat) : State :=
  { planTurn { plan0 with structural := true, modelDigest := model0.digest } n with
    model := { up.model with status := .staged, pend := some model0, structural := true, stagedAt := 5, deferrals := m } }

/-- A level 0 task that waits for a unit. -/
def inFlight (s : State) : State := readyPut s 96 [{ task0 with desc := { descOf hashDesc with crit := 0 } }]

/-- An image with one edit entry, and a list for it. -/
def editable : State := planned { plan0 with edits := [{ id := 3, width := 4, kind := 0, off := 0, lo := 0, hi := 9 }] }
def edits (v : Nat) : List (Nat × Nat) := [(3, v)]

theorem wit_PlanInstallAndEdits :
    (ioUp up = true ∧ Settled up ∧ up.plan.status.busy = false ∧ mainUp up = true) ∧
    (let s := planIs (fun p => { p with status := .staged }); ioUp s = true ∧ Settled s ∧ s.plan.status.busy = true ∧ planDue s = false ∧
      tied s = false) ∧
    (let s : State := { planTied 0 0 with phu := up.phu }; ioUp s = true ∧ Settled s ∧ s.plan.status.busy = true ∧ planDue s = false ∧
      tied s = true) ∧
    (let s := planTurn plan0 0; ioUp s = true ∧ Settled s ∧ planDue s = true) ∧
    (ioUp editable = true ∧ Settled editable ∧ appUp editable = true ∧ editable.det.replay = false ∧ editReason editable (edits 5) = (0, 0) ∧
      (editReason editable (edits 10)).1 ≠ 0 ∧ phase editable < 62259) ∧
    (let s : State := { editable with phu := (atPu 62259).phu }; ioUp s = true ∧ Settled s ∧ appUp s = true ∧
      editReason s (edits 5) = (0, 0) ∧ 62259 ≤ phase s ∧ 0 ≤ s.phu.cycle + 1) ∧
    (let s : State := { editable with det := { up.det with replay := true } }; ioUp s = true ∧ Settled s ∧ appUp s = true ∧
      s.det.replay = true) := by decide +kernel

/-- The smallest plan image: one gate, one counter that releases nothing, for `model0`. Its KEY_ID comes last, byte by byte. -/
def imageHead : Bytes :=
  [0x4E, 0x41, 0x4C, 0x50, 1, 0, 0, 0] ++ leBytes 8 1 ++ model0.digest ++ leBytes 4 0 ++ leBytes 4 50000 ++ leBytes 2 1 ++ leBytes 2 1 ++
    leBytes 4 0 ++ leBytes 4 0 ++ leBytes 2 0 ++ leBytes 2 50000 ++ leBytes 2 1 ++ leBytes 2 0 ++ leBytes 2 0 ++ leBytes 2 0 ++
    leBytes 4 128 ++ leBytes 4 256 ++ leBytes 4 384 ++ leBytes 4 384 ++ leBytes 4 384 ++ leBytes 4 0 ++ leBytes 4 384 ++ leBytes 4 512 ++
    leBytes 4 1536 ++ leBytes 4 1536 ++ leBytes 4 1536 ++ leBytes 4 1536

/-- The signing key, its KEY_ID, the image and the image with its signature. -/
def key0 : Bytes := signKey (zeros 16)
def keyId0 : Bytes := (List.range 8).map (fun i => ((sha256 key0).take 8).getD i 0)
def planImage : Bytes := imageHead ++ keyId0 ++ (zeros 8 ++ [0, 0, 100, 0] ++ zeros 1404)
def planBytes : Bytes := planImage ++ signOf (zeros 16) planImage

/-- A signed image in the shared store, its check under way. -/
def planCheck (key : Bytes) (n : Nat) : State :=
  let s := podUp0 up
  { s with
    mem := { s.mem with bytes := cellsAt 0x2000100000 planBytes }
    model := { s.model with cur := some model0 }, svc := { s.svc with planKey := some key }
    plan := { s.plan with status := .verifying, pendAddr := 0x2000100000, pendLen := n } }

theorem planImage_len : planImage.length = 1536 := by
  have h : imageHead.length = 112 := by decide +kernel
  simp only [planImage, List.length_append, h, keyId0, List.length_map, List.length_range, zeros_length, List.length_cons, List.length_nil]

theorem planBytes_len : planBytes.length = 1536 + 7856 := by
  rw [planBytes, List.length_append, planImage_len, signOf_length]

theorem range_getD (l : Bytes) (n : Nat) (h : l.length = n) : (List.range n).map (fun i => l.getD i 0) = l := by
  subst h
  apply List.ext_getElem
  · simp
  · intro i h1 h2
    simp [h2]

theorem keyId0_eq : keyId0 = (sha256 key0).take 8 :=
  range_getD _ 8 (by rw [List.length_take, sha256_length]; rfl)

theorem planBytes_lt : ∀ b ∈ planBytes, b < 256 := by
  have h0 : ∀ b ∈ imageHead, b < 256 := by decide +kernel
  have h1 : ∀ b ∈ keyId0, b < 256 := by
    rw [keyId0_eq]
    exact fun b h => sha256_lt _ b (List.mem_of_mem_take h)
  have h2 : ∀ b ∈ (zeros 8 ++ [0, 0, 100, 0] ++ zeros 1404 : Bytes), b < 256 := by decide +kernel
  intro b h
  simp only [planBytes, planImage, List.mem_append] at h
  rcases h with ((h | h) | h) | h
  · exact h0 b h
  · exact h1 b h
  · exact h2 b (by simpa only [List.mem_append] using h)
  · exact signOf_lt _ _ b h

/-- The signature check passes on it. -/
theorem planCheck_signed : imgBadSig (planCheck key0 9392) (imgAt (planCheck key0 9392) 0x2000100000) = false := by
  have ha : (imgAt (planCheck key0 9392) 0x2000100000).addr = 0x2000100000 := rfl
  have ht : (imgAt (planCheck key0 9392) 0x2000100000).total = 1536 := by decide +kernel
  have hk : planKeyId (planCheck key0 9392) = (sha256 key0).take 8 := rfl
  have hh : imageHead.length = 112 := by decide +kernel
  have hr : ∀ off n, off + n ≤ 1536 + 7856 → memBytes (planCheck key0 9392) (0x2000100000 + off) n = slice planBytes off n :=
    fun off n h => memBytes_cellsAt _ _ _ _ _ rfl planBytes_lt (by rw [planBytes_len]; exact h)
  have e1 : memBytes (planCheck key0 9392) (0x2000100000 + 112) 8 = (sha256 key0).take 8 := by
    rw [hr _ _ (by omega), planBytes, slice_append_left _ _ _ _ (by rw [planImage_len] <;> omega), planImage, List.append_assoc,
      slice_append_right _ _ _ _ (by omega), hh, Nat.sub_self,
      slice_append_left _ _ _ _ (by simp [keyId0]), slice_all _ _ (by simp [keyId0]), keyId0_eq]
  have e2 : memBytes (planCheck key0 9392) 0x2000100000 1536 = planImage := by
    have := hr 0 1536 (by omega)
    rw [Nat.add_zero] at this
    rw [this, planBytes, slice_append_left _ _ _ _ (by rw [planImage_len] <;> omega), slice_all _ _ planImage_len]
  have e3 : memBytes (planCheck key0 9392) (0x2000100000 + 1536) sigLen = signOf (zeros 16) planImage := by
    rw [sigLen, hr _ _ (by omega), planBytes, slice_append_right _ _ _ _ (by rw [planImage_len] <;> omega), planImage_len, Nat.sub_self,
      slice_all _ _ (signOf_length _ _)]
  have hv := slhVerify_signOf (zeros 16) planImage (zeros_length 16)
  have hp : planSigned (planCheck key0 9392) planImage (signOf (zeros 16) planImage) = true := hv
  simp only [imgBadSig, ha, ht, hk, e1, e2, e3, hp]
  simp

/-- The other checks pass on it too. -/
theorem planCheck_accepted : imgReason (planCheck key0 9392) [] = (0, 0) := by
  have h := planCheck_signed
  have ha : (planCheck key0 9392).plan.pendAddr = 0x2000100000 := rfl
  simp only [imgReason, ha, h]
  decide +kernel

theorem wit_PlanVerificationStagesOrRefuses :
    (let s := planCheck key0 9392; ioUp s = true ∧ s.plan.status = .verifying ∧ Settled s) ∧ (imgReason (planCheck key0 9392) []).1 = 0 ∧
    (let s := planCheck (zeros 32) 9391; ioUp s = true ∧ s.plan.status = .verifying ∧ (imgReason s []).1 = 1) ∧
    (ioUp up = true ∧ Settled up ∧ up.plan.status ≠ .verifying) :=
  ⟨by decide +kernel, by rw [planCheck_accepted], by decide +kernel, by decide +kernel⟩

theorem wit_PlanSwitchRunsNewImage :
    (arithUp up = true ∧ planDue up = false) ∧
    (let s := planTurn plan0 0; arithUp s = true ∧ planDue s = true ∧ s.plan.pend = some plan0 ∧ tied s = false ∧ plan0.structural = false ∧
      planInFlight s = 0 ∧ plan0.gates = []) ∧
    (let s := planTurn { plan0 with structural := true } 0; arithUp s = true ∧ planDue s = true ∧
      s.plan.pend = some { plan0 with structural := true } ∧ tied s = false) ∧
    (let s := planTied 0 0; arithUp s = true ∧ planDue s = true ∧ s.plan.pend.isSome = true ∧ tied s = true ∧ planInFlight s = 0) ∧
    (let s := inFlight (planTurn plan0 14); arithUp s = true ∧ planDue s = true ∧ s.plan.pend = some plan0 ∧ tied s = false ∧
      planInFlight s ≠ 0 ∧ s.plan.deferrals < 15) ∧
    (let s := inFlight (planTied 14 14); arithUp s = true ∧ planDue s = true ∧ s.plan.pend.isSome = true ∧ tied s = true ∧
      planInFlight s ≠ 0 ∧ s.plan.deferrals < 15 ∧ s.model.deferrals < 15) ∧
    (let s := inFlight (planTied 14 15); arithUp s = true ∧ planDue s = true ∧ s.plan.pend.isSome = true ∧ tied s = true ∧
      planInFlight s ≠ 0 ∧ s.plan.deferrals < 15 ∧ 15 ≤ s.model.deferrals) ∧
    (let s := inFlight (planTied 15 0); arithUp s = true ∧ planDue s = true ∧ s.plan.pend.isSome = true ∧ tied s = true ∧
      planInFlight s ≠ 0 ∧ 15 ≤ s.plan.deferrals) := by decide +kernel

/-! ### The map and memory -/

/-- `up` with another memory record. -/
def memIs (f : Mem → Mem) : State := { up with mem := f up.mem }

/-- `up` with its DDR5 trained and in service. -/
def ddr : State := regAt (chanUpd up 0 (fun c => { c with trained := true, sc0 := true, sc1 := true })) Reg.ddrCtrl 7

/-- An address of the shared store of stack 0, and that bank in use in this clk by core 1: at the same word, or at another. -/
def word0 : BitVec 40 := 0x2000000000
def busyBank (w : Nat) : State :=
  { up with clk := { clkNow up with banks := [⟨bankKey word0.toNat, w, [1], some (zeros 64)⟩] } }

/-- Addresses of the other areas, and a clock source out. -/
def secureA : BitVec 40 := BitVec.ofNat 40 (secureBase 1)
def regA : BitVec 40 := BitVec.ofNat 40 (ctrlBase + Reg.svcTraceLo)
def ctrA : BitVec 40 := BitVec.ofNat 40 (ctrlBase + 0x300000)
def noDdr : State := { ddr with cpm := { up.cpm with failed := [(4, 0)] } }

theorem wit_ClusterLoadsAndStores :
    (appUp up = true ∧ arithUp up = true ∧ Settled up ∧ accessArea up word0.toNat 8 = .store 0 ∧ ueAt up word0.toNat = false ∧
      ueAt up (word0.toNat + 8 - 1) = false ∧ up.mem.held.find? (fun x => x.1 == bankKey word0.toNat) = none ∧
      (clkNow up).banks.find? (fun x => x.bank == bankKey word0.toNat) = none ∧ busClass (0x8400 : BitVec 16).toNat ≠ 10 ∧
      (9 : BitVec 12).toNat ≠ (ssWord word0.toNat).2 / 512) ∧
    (let s := busyBank 0; appUp s = true ∧ arithUp s = true ∧ Settled s ∧ accessArea s word0.toNat 8 = .store 0 ∧
      s.mem.held.find? (fun x => x.1 == bankKey word0.toNat) = none ∧ ueAt s word0.toNat = false ∧ ueAt s (word0.toNat + 8 - 1) = false ∧
      (clkNow s).banks.find? (fun x => x.bank == bankKey word0.toNat) = some ⟨bankKey word0.toNat, 0, [1], some (zeros 64)⟩ ∧
      (0 : Nat) = (ssWord word0.toNat).2 / 512 ∧ [1].contains (0 : Nat) = false ∧ (zeros 64).length = 64 ∧ word0.toNat % 64 + 8 ≤ 64) ∧
    (let s := busyBank 3; appUp s = true ∧ arithUp s = true ∧ Settled s ∧ accessArea s word0.toNat 8 = .store 0 ∧
      s.mem.held.find? (fun x => x.1 == bankKey word0.toNat) = none ∧ ueAt s word0.toNat = false ∧ ueAt s (word0.toNat + 8 - 1) = false ∧
      ((clkNow s).banks.find? (fun x => x.bank == bankKey word0.toNat)).isSome = true ∧ (3 : Nat) ≠ (ssWord word0.toNat).2 / 512) ∧
    (appUp noDdr = true ∧ arithUp noDdr = true ∧ Settled noDdr ∧ accessArea noDdr 0 8 = .ddr ∧ srcFailed noDdr 4 = true) := by decide +kernel

theorem wit_ClusterLoadsAndStores_areas :
    (appUp ddr = true ∧ arithUp ddr = true ∧ Settled ddr ∧ accessArea ddr 0 8 = .ddr ∧ srcFailed ddr 4 = false ∧ ddrServes ddr 0 8 = true ∧
      ueAt ddr 0 = false ∧ ueAt ddr (0 + 8 - 1) = false) ∧
    (accessArea up 0 8 = .ddr ∧ srcFailed up 4 = false ∧ ddrServes up 0 8 = false) ∧
    (accessArea up secureA.toNat 8 = .secure 1 ∧ accessArea up (0x2100000000 : BitVec 40).toNat 8 = .local' ∧
      accessArea up ctrA.toNat 8 = .sync ∧ ctrA.toNat % 8 = 0 ∧ accessArea up (0x3000000000 : BitVec 40).toNat 8 = .none ∧
      accessArea up (0x2400000000 : BitVec 40).toNat 8 = .emram ∧ accessArea up regA.toNat 4 = .reg ∧ regA.toNat % 4 = 0 ∧
      regA.toNat ≥ 0x2000000000 ∧ ctrA.toNat ≥ 0x2000000000) := by decide +kernel

/-- An event bit of a W1C register, set in the present clk or not. -/
def w1cAt (n : Nat) : State := { regAt up Reg.podEvent 3 with clk := { clkNow up with w1c := if n = 0 then [] else [(Reg.podEvent, n)] } }

/-- The register that stands at an offset. -/
def regOf (o : Nat) : Config.RegDef := (regFind o).getD ⟨0, 0, 1, .ro, 0, 0⟩

theorem wit_RegisterWritesFollowAccessCodes :
    (let o := Reg.svcTraceLo; appUp up = true ∧ ioUp up = true ∧ arithUp up = true ∧ gatedBlock up o = none ∧
      (regUnit o).any (clockGated up) = false ∧ regFind o = some (regOf o) ∧ Settled up ∧ (regOf o).acc = .rw ∧ o ≠ Reg.uctlUnitSel ∧
      o ≠ Reg.phuCtrl ∧ o ≠ Reg.cpmGate ∧ o ≠ Reg.qmgrQtabLo ∧ o ≠ Reg.qmgrQtabHi ∧ o ≠ Reg.phuBarCtrl) ∧
    (let o := Reg.podCycClear; gatedBlock up o = none ∧ (regUnit o).any (clockGated up) = false ∧ regFind o = some (regOf o) ∧
      (regOf o).acc = .ro) ∧
    (let o := Reg.podMargin; gatedBlock up o = none ∧ (regUnit o).any (clockGated up) = false ∧ regFind o = some (regOf o) ∧
      (regOf o).acc = .rwl ∧ lockedOut up core0 = true ∧ lockedOut up fw = false) ∧
    (let o := Reg.podEvent; let s := w1cAt 0; appUp s = true ∧ arithUp s = true ∧ Settled s ∧ gatedBlock s o = none ∧
      (regUnit o).any (clockGated s) = false ∧ regFind o = some (regOf o) ∧ (regOf o).acc = .w1c ∧
      Smap.get (fun _ => 0) (clkNow s).w1c o = 0 ∧ regGet s o = 3) ∧
    (let o := Reg.podEvent; let s := w1cAt 1; appUp s = true ∧ arithUp s = true ∧ Settled s ∧ gatedBlock s o = none ∧
      (regUnit o).any (clockGated s) = false ∧ regFind o = some (regOf o) ∧ (regOf o).acc = .w1c ∧
      Smap.get (fun _ => 0) (clkNow s).w1c o = 1) ∧
    (let o := Reg.uctlUnitCmd; gatedBlock up o = none ∧ (regUnit o).any (clockGated up) = false ∧ regFind o = some (regOf o) ∧
      (regOf o).acc = .wo) ∧
    (let o := Reg.radScan; gatedBlock up o = none ∧ (regUnit o).any (clockGated up) = true ∧ (regFind o).isSome = true) ∧
    (gatedBlock up 0x1234560 = none ∧ regFind 0x1234560 = none) ∧
    (let s := regAt up Reg.cpmGate 0; appUp s = true ∧ arithUp s = true ∧ gatedBlock s Reg.ethMacsec = some 0) := by decide +kernel

/-- Background tests of stack 0: one under way, one with its bank's spares used up, one with a region before its turn. -/
def testing (f : Mem → Mem) : State := regAt (memIs (fun m => f { m with bg0 := ⟨0, true⟩ })) Reg.sscCtrl 1

theorem wit_MemoryUpkeep :
    (let u : BitVec 16 := BitVec.ofNat 16 (unitId 0x0A 0 3); arithUp up = true ∧ Settled up ∧ idClass u.toNat = 0x0A ∧
      unitExists u.toNat = true ∧ 1024 < (2000 : BitVec 32).toNat ∧ idClass (0 : BitVec 16).toNat ≠ 0x0A) ∧
    (let s := regAt (memIs (fun m => { m with turn0 := [7] })) Reg.sscCtrl 1; arithUp s = true ∧ Settled s ∧
      bit (regF s Reg.sscCtrl) 0 = true ∧ s.mem.bg0.busy = false ∧ s.mem.turn0 = 7 :: []) ∧
    (let s := regAt up Reg.sscCtrl 0; arithUp s = true ∧ Settled s ∧ bit (regF s Reg.sscCtrl) 0 = false ∧ s.mem.bg0.busy = false ∧
      s.mem.wiping0 = 0) ∧
    (let s := testing id; arithUp s = true ∧ Settled s ∧ s.mem.bg0.busy = true ∧ s.mem.bg0.place < 131072 ∧ isRetired s 0 0 = false ∧
      nextSpare s 0 (placeBank 0) = some (sparePlace 0)) ∧
    (let s := testing (fun m => { m with retired := (([0, 1].map (fun i => sparePlace 0 + i) ++ (List.range 64).map (fun i => poolPlace + i)).map
      (placeKey 0)) }); arithUp s = true ∧ s.mem.bg0.busy = true ∧ s.mem.bg0.place < 131072 ∧ isRetired s 0 0 = false ∧
      nextSpare s 0 (placeBank 0) = none) ∧
    (let s := memIs (fun m => { m with wiping0 := 2 }); arithUp s = true ∧ s.mem.wiping0 ≠ 0) := by decide +kernel

theorem wit_MemoryUpkeep_ddr :
    (memUp ddr = true ∧ Settled ddr ∧ (chanGet ddr 0).trained = true ∧ bit (regF ddr Reg.ddrCtrl) 0 = true ∧
      bit (regF ddr Reg.ddrCtrl) 1 = true ∧ bit (regF ddr Reg.ddrCtrl) 2 = true ∧ mainUp ddr = true ∧ inDdr ddr 0 1 = true ∧
      (toSigned 16 (16 : BitVec 16).toNat).natAbs ≤ 16 ∧ 16 < (toSigned 16 (0xFFEF : BitVec 16).toNat).natAbs) ∧
    (let s := regAt ddr Reg.ddrCtrl 0; memUp s = true ∧ Settled s ∧ (chanGet s 0).trained = true ∧ bit (regF s Reg.ddrCtrl) 0 = false ∧
      bit (regF s Reg.ddrCtrl) 1 = false ∧ bit (regF s Reg.ddrCtrl) 2 = false) ∧
    (memUp up = true ∧ Settled up ∧ (chanGet up 0).trained = false) := by decide +kernel

/-! ### Verdict, permit and safety -/

/-- `up` with another safety record. -/
def safetyIs (f : Safety → Safety) : State := { up with safety := f up.safety }

/-- A winner of no joints at 0x5000, and a Chard's verdict on it. -/
def winner0 : Winner := { candId := 0, key := 0, addr := 0x5000, leek := unitId 1 0 0, nondet := false }
def verdict0 (clear : Bool) (digest : Bytes) : Verdict :=
  { unit := chard, candId := 0, cycle := 10, clear := clear, place := 3, capsule := 4, cause := 2, digest := digest, clk := 9 }

/-- The winner with a verdict that came in time, or none, after `n` disagreements of this cycle. -/
def judged (v : Option Verdict) (n : Nat) : State :=
  safetyIs (fun x => { x with winner := some winner0, pushed := true, verdict := v, disCycles := List.replicate n up.phu.cycle })

/-- The digest of the winner's segment. -/
def digest0 : Bytes := (segOf up winner0).digest

/-- A Chard's task under way. -/
def chardTask : Task :=
  { task0 with
    cycle := 10, began := true
    desc := { descOf hashDesc with opId := 0x0601, cls := 7, crit := 0, arg0 := 0x5000, arg1 := 8, outQueue := 0xFFFFF } }
def checks (n : Nat) : State :=
  unitUpd (modelIs (fun m => { m with cur := some model0 })) chard (fun r => { r with st := .active, exec := some { chardTask with cycle := n } })

theorem wit_VerdictPathCommits :
    (let s := safetyIs (fun x => { x with winner := some winner0 }); arithUp s = true ∧ s.safety.winner = some winner0 ∧
      s.safety.pushed = false ∧ s.safety.compared = false) ∧
    (arithUp up = true ∧ Settled up ∧ up.safety.winner = none ∧ up.safety.compared = false ∧ phaseRuns up = true) ∧
    (let s := checks 10; arithUp s = true ∧ running s chard = some { chardTask with cycle := 10 } ∧ chardTask.desc.opId = 0x0601 ∧
      chardTask.desc.outQueue = 0xFFFFF ∧ (10 : Nat) = s.phu.cycle ∧ phase s ≤ 61604 ∧ s.safety.compared = false ∧
      (chardVerdict s chard { chardTask with cycle := 10 } 5).isSome = true) ∧
    (let s := checks 9; arithUp s = true ∧ running s chard = some { chardTask with cycle := 9 } ∧ (9 : Nat) ≠ s.phu.cycle) ∧
    (let s := safetyIs (fun x => { x with compared := true }); arithUp s = true ∧ Settled s ∧ s.safety.compared = true) := by decide +kernel

theorem wit_VerdictPathCommits_idle : arithUp up = true ∧ Settled up ∧
    ∀ tk, running up (BitVec.ofNat 16 chard).toNat = some tk → tk.desc.opId ≠ 0x0601 := by
  refine ⟨by decide +kernel, rfl, ?_⟩
  intro tk h
  have : running up (BitVec.ofNat 16 chard).toNat = none := rfl
  rw [this] at h
  cases h

theorem wit_VerdictPathCommits_comparison :
    (let s := judged none 0; arithUp s = true ∧ s.safety.winner = some winner0 ∧ s.safety.compared = false ∧ phaseRuns s = true ∧
      s.safety.verdict = none) ∧
    (let s := judged (some (verdict0 true digest0)) 0; arithUp s = true ∧ s.safety.winner = some winner0 ∧ s.safety.compared = false ∧
      phaseRuns s = true ∧ s.safety.verdict = some (verdict0 true digest0) ∧ imposedAt (reachPhase s 61605) 0x0D03 = false ∧
      (verdict0 true digest0).candId = winner0.candId ∧ (verdict0 true digest0).clear = true ∧
      (verdict0 true digest0).digest = (segOf s winner0).digest ∧ publishes s = true) ∧
    (let v := verdict0 true []; let s := judged (some v) 0; arithUp s = true ∧ s.safety.winner = some winner0 ∧ s.safety.compared = false ∧
      phaseRuns s = true ∧ s.safety.verdict = some v ∧ imposedAt (reachPhase s 61605) 0x0D03 = false ∧ v.candId = winner0.candId ∧
      v.clear = true ∧ v.digest ≠ (segOf s winner0).digest) ∧
    (let v := { verdict0 true [] with candId := 1 }; let s := judged (some v) 0; arithUp s = true ∧ s.safety.winner = some winner0 ∧
      s.safety.compared = false ∧ phaseRuns s = true ∧ s.safety.verdict = some v ∧ imposedAt (reachPhase s 61605) 0x0D03 = false ∧
      v.candId ≠ winner0.candId) ∧
    (let v := verdict0 false []; let s := judged (some v) 0; arithUp s = true ∧ s.safety.winner = some winner0 ∧ s.safety.compared = false ∧
      phaseRuns s = true ∧ s.safety.verdict = some v ∧ imposedAt (reachPhase s 61605) 0x0D03 = false ∧ v.candId = winner0.candId ∧
      v.clear = false ∧ (inWindow s.phu.cycle s.safety.par.disWindow s.safety.disCycles).length + 1 < s.safety.par.disCount) ∧
    (let v := verdict0 false []; let s := judged (some v) 2; arithUp s = true ∧ s.safety.winner = some winner0 ∧ s.safety.compared = false ∧
      phaseRuns s = true ∧ s.safety.verdict = some v ∧ imposedAt (reachPhase s 61605) 0x0D03 = false ∧ v.candId = winner0.candId ∧
      v.clear = false ∧ s.safety.par.disCount ≤ (inWindow s.phu.cycle s.safety.par.disWindow s.safety.disCycles).length + 1) := by decide +kernel

theorem wit_StopRequestsLapsePermit :
    (appUp permitted = true ∧ arithUp permitted = true ∧ Settled permitted ∧ permitted.safety.permit = true ∧ phaseRuns permitted = true) ∧
    (appUp up = true ∧ arithUp up = true ∧ Settled up ∧ up.safety.permit = false ∧ up.safety.grant = false) := by decide +kernel

/-- The safety set unlocked, with values staged. -/
def unlocked (l : List (Nat × Nat)) : State := safetyIs (fun x => { x with spStatus := .unlocked, staged := l })

theorem wit_SafetySetProcedure :
    (ioUp up = true ∧ coeUp up = true ∧ Settled up ∧ up.safety.spStatus ≠ .unlocked ∧ up.safety.spStatus ≠ .confirmed ∧
      (BitVec.ofNat 32 (sparCrc up.safety.par)).toNat = sparCrc up.safety.par ∧ (1 : BitVec 32).toNat ≠ sparCrc up.safety.par ∧
      sparRange (0 + 1) 500 = true) ∧
    (let s := unlocked []; ioUp s = true ∧ coeUp s = true ∧ Settled s ∧ s.safety.spStatus = .unlocked ∧ sparRange (0 + 1) 500 = true ∧
      sparRange (0 + 1) 501 = false) ∧
    (let s := unlocked [(1, 40)]; ioUp s = true ∧ coeUp s = true ∧ Settled s ∧ s.safety.spStatus = .unlocked ∧
      sparJudge s (BitVec.ofNat 32 (sparCrc (sparNew s))).toNat = 0 ∧ sparJudge s (1 : BitVec 32).toNat = 2) ∧
    (let s := unlocked [(3, 499)]; sparJudge s (BitVec.ofNat 32 (sparCrc (sparNew s))).toNat = 3) ∧
    (let s : State := { unlocked [] with phu := { up.phu with bcount := 70000 } }; ioUp s = true ∧ s.safety.spStatus = .unlocked ∧
      s.safety.unlockCycle + 65536 ≤ s.phu.bcount) ∧
    (let s : State := { up with od := { up.od with al := .init } }; ioUp s = true ∧ Settled s ∧ coeUp s = false) := by decide +kernel

/-- `up` with another clock and power record. -/
def cpmIs (f : Cpm → Cpm) : State := { up with cpm := f up.cpm }

theorem wit_SafeStateLowersOutputs :
    (aonUp up = true ∧ safeHolds up .path = true ∧ safeHolds up .temperature = true ∧ up.cpm.watchOk = true ∧ Settled up ∧ mainUp up = true ∧
      safeHolds up .clock = false ∧ up.cpm.failed.find? (fun (p : Nat × Nat) => p.1 == 3 + 1) = none) ∧
    (let s : State := { cpmIs (fun c => { c with failed := [(4, 0)] }) with now := 450000000 }; aonUp s = true ∧ safeHolds s .clock = true ∧
      mainUp s = true ∧ s.cpm.failed.find? (fun (p : Nat × Nat) => p.1 == 3 + 1) = some (4, 0)) ∧
    (let s := cpmIs (fun c => { c with watchOk := false }); aonUp s = true ∧ Settled s ∧ s.cpm.watchOk = false) := by decide +kernel

theorem wit_SafeStateAbsorbs :
    let s := safetyIs (fun x => { x with safeState := true, faultN := false, pwrKill := true })
    s.safety.safeState = true ∧ Instr.uctlEnable ≠ .aonPorstLow ∧ Dead s := by decide +kernel

/-! ### EtherCAT -/

/-- `up` with another object dictionary and slave record. -/
def odIs (f : Od → Od) : State := { up with od := f up.od }

/-- A sync manager, and the four as the stack expects them. -/
def smOf (a n : Nat) (mb : Bool) : SmCfg := { start := a, len := n, mailbox := mb, on := true }
def smsOn (al : AlSt) : State :=
  odIs (fun d => { d with
    al := al, sm0 := smOf 0x1000 1024 true, sm1 := smOf 0x1400 1024 true, sm2 := smOf 0x1800 199 false
    sm3 := smOf 0x1C00 (1031 + 8 * objW up 0x1A01 0) false, sync0 := true, sync0Ns := objW up 0x2100 2 })

theorem wit_AlStatesFollowTable :
    (let s := odIs (fun d => { d with al := .init }); ioUp s = true ∧ s.od.phyReset = false ∧ Settled s ∧ s.od.al = .init ∧
      alJudge s (2 : BitVec 4).toNat ≠ 0 ∧ alJudge s (1 : BitVec 4).toNat = 0 ∧ alOf (1 : BitVec 4).toNat = s.od.al) ∧
    (let s := smsOn .init; ioUp s = true ∧ s.od.phyReset = false ∧ s.od.al = .init ∧ alJudge s (2 : BitVec 4).toNat = 0 ∧
      alOf (2 : BitVec 4).toNat ≠ s.od.al ∧ s.od.al ≠ .preop) ∧
    (let s := odIs (fun d => { d with al := .preop }); ioUp s = true ∧ s.od.phyReset = false ∧ s.od.al = .preop ∧
      (smIs s.od.sm2 0x1800 199 false && smIs s.od.sm3 0x1C00 (1031 + 8 * objW s 0x1A01 0) false) = false ∧
      alJudge s (1 : BitVec 4).toNat = 0 ∧ alOf (1 : BitVec 4).toNat = .init) ∧
    (let s := smsOn .preop; ioUp s = true ∧ s.od.phyReset = false ∧ s.od.al = .preop ∧
      (smIs s.od.sm2 0x1800 199 false && smIs s.od.sm3 0x1C00 (1031 + 8 * objW s 0x1A01 0) false) = true ∧
      (objW s 0x1C13 0 = 3 ∨ objW s 0x1A01 0 = 0) ∧ alJudge s (4 : BitVec 4).toNat = 0 ∧ alOf (4 : BitVec 4).toNat = .safeop) ∧
    (let s := smsOn .safeop; ioUp s = true ∧ s.od.phyReset = false ∧ s.od.al = .safeop ∧ Settled s) ∧
    (ioUp up = true ∧ up.od.phyReset = false ∧ up.od.al = .op ∧ alJudge up (4 : BitVec 4).toNat = 0x11 ∧ (4 : BitVec 4).toNat ≠ 1 ∧
      (4 : BitVec 4).toNat ≠ alCodeOf up.od.al ∧ alJudge up (1 : BitVec 4).toNat = 0 ∧ alOf (1 : BitVec 4).toNat ≠ .op) ∧
    (let s := odIs (fun d => { d with phyReset := true }); ioUp s = true ∧ s.od.phyReset = true) := by decide +kernel

theorem wit_SlaveControllerTakesFrames :
    (let s := odIs (fun d => { d with phyReset := true }); ioUp s = true ∧ s.od.phyReset = true ∧ Settled s) ∧
    (let s := odIs (fun d => { d with link0 := true }); ioUp s = true ∧ s.od.phyReset = false ∧ Settled s ∧ s.od.al = .op ∧
      s.det.replay = false ∧ s.od.link0 = true ∧ s.od.link1 = false) ∧
    (let s : State := { up with det := { up.det with replay := true } }; ioUp s = true ∧ s.od.phyReset = false ∧ Settled s ∧
      s.od.al = .op ∧ s.det.replay = true) ∧
    (let s := odIs (fun d => { d with al := .preop }); ioUp s = true ∧ s.od.phyReset = false ∧ Settled s ∧ s.od.al ≠ .safeop ∧
      s.od.al ≠ .op) := by decide +kernel

/-- The clk of a boundary with the FSoE connection in a state. -/
def fsoeAt (f : Fsoe → Fsoe) : State :=
  objPut { phuIs (fun p => { p with atBound := true }) with od := { up.od with fsoe := f up.od.fsoe } } 0x2002 1 7
def fsoeIn (st : FsSt) : State := fsoeAt (fun f => { f with st := st })

/-- The parameter CRC that FSoE carries. -/
def parCrc : BitVec 16 := BitVec.ofNat 16 (sparCrc up.safety.par % 65536)

theorem wit_FsoeConnectionSteps :
    (let s := fsoeIn .reset; ioUp s = true ∧ s.phu.atBound = true ∧ objN s 0x2002 1 ≠ 0 ∧ s.od.al = .op ∧ Settled s ∧
      s.od.fsoe.st = .reset ∧ s.od.fsoe.st ≠ .session ∧ s.od.fsoe.st ≠ .connection ∧ aonUp s = true) ∧
    (let s := fsoeIn .session; ioUp s = true ∧ s.phu.atBound = true ∧ objN s 0x2002 1 ≠ 0 ∧ s.od.al = .op ∧ Settled s ∧
      s.od.fsoe.st = .session ∧ s.od.fsoe.st ≠ .reset ∧ s.od.fsoe.st ≠ .parameter ∧ s.od.fsoe.st ≠ .data) ∧
    (let s := fsoeIn .connection; ioUp s = true ∧ s.phu.atBound = true ∧ objN s 0x2002 1 ≠ 0 ∧ s.od.al = .op ∧ Settled s ∧
      s.od.fsoe.st = .connection ∧ ¬ ((1000 : BitVec 16).toNat < 2 ∨ 1000 < (1000 : BitVec 16).toNat) ∧ 1000 < (1001 : BitVec 16).toNat ∧
      parCrc.toNat = sparCrc s.safety.par % 65536 ∧ (parCrc + 1).toNat ≠ sparCrc s.safety.par % 65536) ∧
    (let s := fsoeIn .parameter; ioUp s = true ∧ s.phu.atBound = true ∧ objN s 0x2002 1 ≠ 0 ∧ s.od.al = .op ∧ s.od.fsoe.st = .parameter) ∧
    (ioUp up = true ∧ Settled up ∧ up.phu.atBound = false) ∧
    (let s : State := { fsoeIn .data with safety := { permitted.safety with par := { up.safety.par with fsoeReq := 1 } } };
      aonUp s = true ∧ s.od.fsoe.st ≠ .reset ∧ s.safety.par.fsoeReq = 1 ∧ s.safety.permit = true) := by decide +kernel

/-- `up` with the mailbox's FoE server on and a transfer of the model file, or none. -/
def foeIs (x : Option FoeX) : State := regAt (odIs (fun d => { d with foe := x })) Reg.ecatCtrl 1

/-- That transfer: 5,000 bytes of room at 0x7000, packet 1. -/
def foe0 : FoeX := { file := 5, base := 0x7000, room := 5000, packet := 1, got := 0 }

theorem wit_FilesOverEthercat :
    (let s := odIs (fun d => { d with al := .init }); ioUp s = true ∧ s.od.phyReset = false ∧ s.od.al = .init ∧ Settled s) ∧
    (let s := foeIs none; ioUp s = true ∧ s.od.phyReset = false ∧ s.od.al ≠ .init ∧ s.od.foe = none ∧ Settled s ∧
      foeRefuse s .zpmodel true 0 = 0 ∧ foeRefuse s .zpmodel true 1 ≠ 0 ∧ foeRefuse s .zpbbox false 0 = 0 ∧
      foeRefuse s .zpmodel false 0 ≠ 0) ∧
    (let s := foeIs (some foe0); ioUp s = true ∧ s.od.phyReset = false ∧ s.od.al ≠ .init ∧ s.od.foe = some foe0 ∧ Settled s ∧
      foe0.got + (zeros 1012).length ≤ foe0.room ∧ (1 : BitVec 32).toNat = foe0.packet ∧ 1012 ≤ (zeros 1012).length ∧
      (zeros 1011).length < 1012 ∧ (2 : BitVec 32).toNat ≠ foe0.packet ∧ foeRefuse s .zpmodel true 0 = 0) ∧
    (let x : FoeX := { foe0 with room := 1000 }; let s := foeIs (some x); ioUp s = true ∧ s.od.foe = some x ∧
      x.room < x.got + (zeros 1012).length) := by decide +kernel

/-- Whether a read answers, and whether it aborts. -/
def answers {α β : Type} (r : α ⊕ β) : Bool := match r with | .inr _ => true | .inl _ => false

/-- An object that exists. -/
def objOf (i k : Nat) : Config.ObjDef := (objFind i k).getD ⟨0, 0, 0, 0, .u8, .ro, [], .any, false⟩

theorem wit_ObjectsAreReadAndWritten :
    (let s := up; ioUp s = true ∧ Settled s ∧ coeUp s = true ∧ appUp s = true ∧ answers (objReadOne s 0x2202 3) = true ∧
      answers (objReadOne s 0x1234 0) = false ∧ answers (readAll s 0x2202 0) = true ∧ answers (readAll s 0x1234 0) = false ∧
      objExists 0x1234 = false ∧ objFind 0x1234 0 = none ∧
      (objSubs 0x2202).findSome? (fun k => objFind 0x2202 k) ≠ none ∧ (objSubs 0x1234).findSome? (fun k => objFind 0x1234 k) = none) ∧
    (let s := up; let o := objOf 0x2202 3; objFind 0x2202 3 = some o ∧ o.acc = .rw ∧ (0x2202, 3) ∉ [(0x1010, 1)] ∧ discards s 0x2202 = false ∧
      writeCheck s (withVal s o 0x2202 3 [8, 0]) .mailbox 0x2202 3 [8, 0] = 0 ∧ writeCheck s (withVal s o 0x2202 3 [8, 0]) .driver 0x2202 3 [8, 0] = 0 ∧
      ([] : Bytes).length ≠ tyBytes o.ty) ∧
    (let s := up; let o := objOf 0x2100 1; objFind 0x2100 1 = some o ∧ o.acc ≠ .ro ∧ ([9] : Bytes).length = tyBytes o.ty ∧
      rngOk (withVal s o 0x2100 1 [9]) o 0x2100 1 (tyVal o.ty (ofLe [9])) = false) ∧
    (let o := objOf 0x1000 0; objFind 0x1000 0 = some o ∧ o.acc = .ro) ∧
    (let s := odIs (fun d => { d with al := .init }); ioUp s = true ∧ Settled s ∧ coeUp s = false) := by decide +kernel

/-- An RWP object, and a write of it before the state leaves PREOP. -/
theorem wit_ObjectsAreReadAndWritten_rwp :
    let s := odIs (fun d => { d with al := .preop })
    let o := objOf 0x2100 1
    ioUp s = true ∧ Settled s ∧ coeUp s = true ∧ objFind 0x2100 1 = some o ∧ o.acc = .rwp ∧ discards s 0x2100 = false ∧
      writeCheck s (withVal s o 0x2100 1 [1]) .mailbox 0x2100 1 [1] = 0 := by decide +kernel

theorem wit_ParametersStoreAndDeviceResets :
    (ioUp permitted = true ∧ Settled permitted ∧ permitted.safety.permit = true ∧ permitted.det.replay = false) ∧
    (ioUp up = true ∧ Settled up ∧ up.det.replay = false ∧ up.safety.permit = false ∧ rwpOpen up = false) ∧
    (let s : State := { up with det := { up.det with replay := true } }; ioUp s = true ∧ Settled s ∧ s.det.replay = true) ∧
    (let s := odIs (fun d => { d with al := .preop }); ioUp s = true ∧ rwpOpen s = true ∧ s.safety.permit = false) := by decide +kernel

/-! ### Reset, clocks and power -/

/-- A device at its boot, with some step done, and with REFCLK stable and one copy of the firmware VALID. -/
def bootIs (f : Cpm → Cpm) : State := { State.reset with cpm := f { Cpm.reset with boot := .booting, watchOk := true } }
def lockTurn (n : Nat) : State :=
  { bootIs (fun c => { c with refOk := true, step := 1, lockTries := n }) with svc := { State.reset.svc with store0 := .empty, store1 := .valid } }

theorem wit_ResetAndBootSequence :
    (State.reset.cpm.boot = .aonReset ∧ aonUp State.reset = false) ∧
    (let s := bootIs (fun c => { c with boot := .mainReset }); aonUp s = true ∧ s.cpm.boot = .mainReset ∧ s.cpm.boot ≠ .aonReset ∧
      Settled s) ∧
    (let s := bootIs id; aonUp s = true ∧ Settled s ∧ s.cpm.boot = .booting ∧ s.cpm.refOk = false ∧ s.cpm.boot ≠ .mainReset) ∧
    (let s := lockTurn 0; aonUp s = true ∧ Settled s ∧ s.cpm.boot = .booting ∧ s.cpm.refOk = true ∧ s.cpm.step = 1 ∧ s.cpm.lockTries < 3 ∧
      s.cpm.bootSel = false ∧ bootCopy s = some 1) ∧
    (let s := lockTurn 3; aonUp s = true ∧ s.cpm.boot = .booting ∧ s.cpm.refOk = true ∧ s.cpm.step = 1 ∧ 3 ≤ s.cpm.lockTries) ∧
    (let s : State := { lockTurn 0 with svc := { State.reset.svc with store0 := .empty, store1 := .empty } }; aonUp s = true ∧
      s.cpm.boot = .booting ∧ s.cpm.refOk = true ∧ s.cpm.step = 1 ∧ bootCopy s = none) := by decide +kernel

/-- An estimate above CAP, an average that has stayed well below it, and one near it. -/
def capIs (f : Cpm → Cpm) : State := regAt (cpmIs f) Reg.cpmCap 100

theorem wit_ClocksGatesAndPower :
    (mainUp permitted = true ∧ srcFailed permitted (1 + 1) = false ∧ permitted.safety.permit = true ∧
      permitted.cpm.failed.find? (fun (p : Nat × Nat) => p.1 == 1 + 1) = none ∧ Settled permitted) ∧
    (let s := cpmIs (fun c => { c with failed := [(4, 0)] }); mainUp s = true ∧ Settled s ∧ srcFailed s (3 + 1) = true ∧
      s.cpm.failed.find? (fun (p : Nat × Nat) => p.1 == 3 + 1) = some (4, 0) ∧ s.safety.lock = true ∧ s.cpm.failed = [(4, 0)]) ∧
    (let s := cpmIs (fun c => { c with failed := [(1, 0)] }); mainUp s = true ∧
      s.cpm.failed.find? (fun (p : Nat × Nat) => p.1 == 0 + 1) = some (1, 0) ∧ s.phu.st ≠ .off) ∧
    (mainUp up = true ∧ Settled up ∧ lockedOut up core0 = true ∧ lockedOut up fw = false ∧ RegsOk up ∧ gateBitOf Reg.ethMacsec = some 0) ∧
    (let s := capIs id; mainUp s = true ∧ Settled s ∧ (0 : BitVec 16).toNat ≤ capNow s ∧ capNow s < (101 : BitVec 16).toNat ∧
      s.cpm.point < 2 ∧ (0 : BitVec 16).toNat + 20 ≤ capNow s ∧ capNow s < (90 : BitVec 16).toNat + 20) ∧
    (let s := capIs (fun c => { c with point := 2, coolMs := 99 }); mainUp s = true ∧ Settled s ∧ s.cpm.upTo = none ∧
      max s.cpm.capCeil (dvfsCeil s) < s.cpm.point ∧ (0 : BitVec 16).toNat ≤ capNow s ∧
      (if (0 : BitVec 16).toNat + 50 < capNow s then min 100 (s.cpm.coolMs + 1) else 0) = 100) ∧
    (ioUp up = true ∧ up.cpm.upTo.getD up.cpm.point = up.cpm.point) ∧
    (let s := cpmIs (fun c => { c with point := 1, upTo := some 0 }); mainUp s = true ∧ ioUp s = true ∧ s.cpm.upTo = some 0 ∧
      s.cpm.point ≠ 0) := by decide +kernel

/-! ### Pins -/

/-- `up` with another pin record. -/
def pinsIs (f : Pins → Pins) : State := { up with pins := f up.pins }

theorem wit_MonitorsAndTamperInputs :
    (let s := pinsIs (fun p => { p with limitRun := [(0, 19)] }); let x : BitVec 16 := 1101; aonUp s = true ∧ s.cpm.watchOk = true ∧
      tJunction s + 50 < x.toInt ∧ s.pins.excluded = [] ∧ cnt s.pins.limitRun 0 = 19 ∧ LimitsOk s ∧ mainUp s = true) ∧
    (let s := cpmIs (fun c => { c with watchOk := false }); aonUp s = true ∧ Settled s ∧ s.cpm.watchOk = false) ∧
    (let s : State := { permitted with svc := { up.svc with tamperAction := 1 } }; aonUp s = true ∧ MemOk s ∧ s.svc.tamperAction = 1 ∧
      s.safety.permit = true) ∧
    (aonUp up = true ∧ MemOk up ∧ up.svc.tamperAction ≠ 1) := by decide +kernel

/-- The IMU port clocked, a read under way or not. -/
def imu (busy : Bool) : State := regAt (pinsIs (fun p => { p with imuBusy := busy })) Reg.cpmGate 0x3FFF

theorem wit_SerialPortsAndTap :
    (let s := imu false; ioUp s = true ∧ Settled s ∧ imuOn s = true ∧ s.pins.imuBusy = false ∧
      s.pins.imuLast.any (fun l => decide (s.now + (0 : BitVec 32).toNat < l + objN s 0x2E02 5 * 9000)) = false ∧
      bit (regGet s Reg.cpmGate) 11 = true ∧ gateOn s 0 = true ∧ gateOn s 1 = true ∧ s.safety.safeState = false) ∧
    (let s := imu true; ioUp s = true ∧ Settled s ∧ imuOn s = true ∧ s.pins.imuBusy = true ∧ s.det.replay = false) ∧
    (let s : State := { imu true with det := { up.det with replay := true } }; ioUp s = true ∧ Settled s ∧ s.pins.imuBusy = true ∧
      s.det.replay = true) ∧
    (let s := regAt up Reg.cpmGate 0; ioUp s = true ∧ Settled s ∧ imuOn s = false ∧ bit (regGet s Reg.cpmGate) 11 = false ∧
      gateOn s 0 = false) ∧
    (let s : State := { up with svc := { up.svc with life := 0 } }; s.safety.safeState = false ∧ s.svc.life = 0) ∧
    (up.safety.safeState = false ∧ up.svc.life ≠ 0) := by decide +kernel

/-! ### Service life -/

/-- `up` with another service record, and that in the clk of a boundary. -/
def svcIs (f : Svc → Svc) : State := { up with svc := f up.svc }
def svcTurn (f : Svc → Svc) : State := { svcIs f with phu := { up.phu with atBound := true } }

/-- An image of firmware with a newer version. -/
def fwNew : FwImage := { version := 0x01000001, minVersion := 0x01000000, ucode := [], len := 96 }

/-- The smallest image: a header without sections, of 96 bytes. -/
def fwHeader : Bytes :=
  [0x49, 0x57, 0x46, 0x5A, 1, 0, 0xB0, 3] ++ [1, 0, 0, 1] ++ [0, 0, 0, 1] ++ zeros 44 ++ [96, 0, 0, 0] ++ sha256 []

/-- That image at 0x8000 with its signature, its check under way; `f` changes the service record, `l` is the length given. -/
def fwCheck (l : Nat) (f : Svc → Svc) : State :=
  { up with
    mem := { up.mem with bytes := cellsAt 0x8000 (fwHeader ++ signOf (zeros 16) fwHeader) }
    svc := f { up.svc with fwSt := .verifying, pendAddr := 0x8000, pendLen := l, fwKey := key0 } }

/-- What the image reads as in memory. -/
theorem fwCheck_reads (s : State) (hm : s.mem.bytes = (fwCheck 0 id).mem.bytes) (off n : Nat) (h : off + n ≤ 96 + 7856) :
    memBytes s (0x8000 + off) n = slice (fwHeader ++ signOf (zeros 16) fwHeader) off n := by
  have hl : fwHeader.length = 96 := by decide +kernel
  have h0 : ∀ b ∈ fwHeader, b < 256 := by decide +kernel
  refine memBytes_cellsAt _ _ _ _ _ hm ?_ (by rw [List.length_append, hl, signOf_length]; exact h)
  intro b h
  rcases List.mem_append.1 h with h | h
  · exact h0 b h
  · exact signOf_lt _ _ b h

theorem fwCheck_header (s : State) (hm : s.mem.bytes = (fwCheck 0 id).mem.bytes) (off n : Nat) (h : off + n ≤ 96) :
    memBytes s (0x8000 + off) n = slice fwHeader off n := by
  have hl : fwHeader.length = 96 := by decide +kernel
  rw [fwCheck_reads s hm _ _ (by omega), slice_append_left _ _ _ _ (by omega)]

/-- Its section table has no bytes, and its signature is right. -/
theorem fwCheck_sections (s : State) (hm : s.mem.bytes = (fwCheck 0 id).mem.bytes) : fwSections s 0x8000 = true := by
  have hn : memLe s (0x8000 + 58) 2 = 0 := by
    rw [memLe, fwCheck_header s hm _ _ (by omega)]
    decide +kernel
  have hd : slice fwHeader 64 32 = sha256 [] := by decide +kernel
  have h0 : memBytes s (0x8000 + 128) 0 = [] := rfl
  simp only [fwSections, hn, Nat.zero_mul, h0, fwCheck_header s hm 64 32 (by omega), hd, beq_self_eq_true]

theorem fwCheck_signed (s : State) (hm : s.mem.bytes = (fwCheck 0 id).mem.bytes) (hk : s.svc.fwKey = key0) : fwSigned s 0x8000 = true := by
  have hl : fwHeader.length = 96 := by decide +kernel
  have ht : memLe s (0x8000 + 60) 4 = 96 := by
    rw [memLe, fwCheck_header s hm _ _ (by omega)]
    decide +kernel
  have e1 : memBytes s 0x8000 96 = fwHeader := by
    have := fwCheck_header s hm 0 96 (by omega)
    rw [Nat.add_zero] at this
    rw [this, slice_all _ _ hl]
  have e2 : memBytes s (0x8000 + 96) 7856 = signOf (zeros 16) fwHeader := by
    rw [fwCheck_reads s hm _ _ (by omega), slice_append_right _ _ _ _ (by omega), hl, Nat.sub_self, slice_all _ _ (signOf_length _ _)]
  simp only [fwSigned, ht, e1, e2, hk]
  exact slhVerify_signOf (zeros 16) fwHeader (zeros_length 16)

/-- The image below the floor of versions, and in recovery. -/
def fwOld : State := fwCheck 9000 (fun v => { v with floor := 0x0200000000000002 })
def fwRecovery : State := { fwCheck 9000 id with cpm := { up.cpm with boot := .recovery } }

theorem wit_FirmwareUpdateSteps_verify :
    (let s := fwCheck 9000 id; ioUp s = true ∧ s.svc.fwSt = .verifying ∧ Settled s ∧ s.cpm.boot ≠ .recovery ∧ fwIdle s = false ∧
      s.svc.pendAddr = 0x8000 ∧ fwBadHeader s 0x8000 9000 = false ∧ verKey s.svc.floor ≤ verKey (fwImage s 0x8000).version) ∧
    (let s := fwCheck 90 id; ioUp s = true ∧ s.svc.fwSt = .verifying ∧ fwBadHeader s s.svc.pendAddr s.svc.pendLen = true) ∧
    (let s := fwOld; ioUp s = true ∧ s.svc.fwSt = .verifying ∧ s.svc.pendAddr = 0x8000 ∧ fwBadHeader s 0x8000 9000 = false ∧
      verKey (fwImage s 0x8000).version < verKey s.svc.floor) ∧
    (let s := fwRecovery; ioUp s = true ∧ s.svc.fwSt = .verifying ∧ Settled s ∧ s.cpm.boot = .recovery ∧ s.svc.pendAddr = 0x8000 ∧
      fwBadHeader s 0x8000 9000 = false ∧ verKey s.svc.floor ≤ verKey (fwImage s 0x8000).version) := by decide +kernel

/-- The signature and the section table of those images are right. -/
theorem wit_FirmwareUpdateSteps_signed :
    ∀ s ∈ [fwCheck 9000 id, fwOld, fwRecovery], fwSigned s 0x8000 = true ∧ fwSections s 0x8000 = true := by
  intro s h
  simp only [List.mem_cons, List.not_mem_nil, or_false] at h
  rcases h with rfl | rfl | rfl <;> exact ⟨fwCheck_signed _ rfl rfl, fwCheck_sections _ rfl⟩

theorem wit_FirmwareUpdateSteps :
    (ioUp up = true ∧ fwIdle up = true ∧ Settled up ∧ up.svc.fwSt ≠ .verifying ∧ up.svc.fwSt ≠ .staging ∧ up.svc.fwSt ≠ .probation ∧
      fwDue up = false ∧ up.svc.repair = none ∧ up.svc.fwSt ≠ .writing) ∧
    (let s := svcIs (fun v => { v with fwSt := .staging, pend := some fwNew }); ioUp s = true ∧ s.svc.fwSt = .staging ∧ fwDue s = false) ∧
    (let s := svcTurn (fun v => { v with fwSt := .staged, pend := some fwNew }); ioUp s = true ∧ fwDue s = true ∧ s.svc.pend = some fwNew ∧
      Settled s) ∧
    (let s := svcIs (fun v => { v with fwSt := .staged, pend := some fwNew }); ioUp s = true ∧
      [FwSt.verifying, .staging, .staged].contains s.svc.fwSt = true ∧ fwDue s = false ∧ Settled s) ∧
    (let s := svcTurn (fun v => { v with fwSt := .probation }); ioUp s = true ∧ s.svc.fwSt = .probation ∧ s.svc.rollbackBy = none ∧
      Settled s ∧ s.phu.atBound = true ∧ s.svc.probEnd ≤ s.phu.cycle) ∧
    (let s := svcTurn (fun v => { v with fwSt := .probation, rollbackBy := some 1, old := some fwNew }); ioUp s = true ∧
      s.svc.fwSt = .probation ∧ s.phu.atBound = true ∧ s.svc.rollbackBy = some 1 ∧ s.svc.old = some fwNew) := by decide +kernel

/-- Writing of the stored copies, with the running image or without. -/
def writing (k n : Nat) (f : Svc → Svc) : State := svcIs (fun v => f { v with fwSt := .writing, writingStack := k, retries := n })

theorem wit_FirmwareUpdateSteps_store :
    (let s := writing 0 0 id; ioUp s = true ∧ s.svc.repair = none ∧ s.svc.fwSt = .writing ∧ s.svc.retries < 3 ∧ s.svc.writingStack = 0 ∧
      Settled s) ∧
    (let s := writing 0 3 id; ioUp s = true ∧ s.svc.fwSt = .writing ∧ 3 ≤ s.svc.retries ∧ s.svc.repair.getD s.svc.writingStack = 0) ∧
    (let s := svcIs (fun v => { v with repair := some 1 }); ioUp s = true ∧ s.svc.repair = some 1 ∧ Settled s) ∧
    (let s := writing 1 0 (fun v => { v with store0 := .empty }); ioUp s = true ∧ s.svc.repair = none ∧ s.svc.fwSt = .writing ∧
      s.svc.writingStack = 1 ∧ s.cpm.boot ≠ .recovery ∧ s.svc.store0 ≠ .valid ∧ Settled s) ∧
    (let s := writing 1 0 (fun v => { v with store0 := .valid }); s.svc.writingStack = 1 ∧ s.svc.store0 = .valid) ∧
    (let s : State := { writing 1 0 id with cpm := { up.cpm with boot := .recovery } }; ioUp s = true ∧ s.svc.repair = none ∧
      s.svc.fwSt = .writing ∧ s.svc.writingStack = 1 ∧ s.cpm.boot = .recovery) ∧
    (let u := unitId 0x0B 0 0; let s := withUnit up u .active; ioUp s = true ∧ idClass u = 0x0B ∧ unitSt s u = .active ∧ UnitsOk s ∧
      unitSt up u ≠ .active ∧ unitSt up u ≠ .draining) := by decide +kernel

theorem wit_MicrocodeAndRecords :
    (ioUp up = true ∧ up.svc.ucStatus.busy = false ∧ Settled up ∧ ucodeDue up = false ∧ up.svc.reportSt ≠ 1 ∧ up.svc.sinceSnap < 4194304 ∧
      up.phu.atBound = false) ∧
    (let s := svcIs (fun v => { v with ucStatus := .verifying }); ioUp s = true ∧ s.svc.ucStatus = .verifying ∧ Settled s ∧
      s.svc.ucStatus.busy = true ∧ ucodeDue s = false) ∧
    (let s := svcTurn (fun v => { v with ucStatus := .staged, ucStagedAt := 5 }); ioUp s = true ∧ ucodeDue s = true ∧ s.svc.ucDefer < 15 ∧
      Settled s) ∧
    (let s := svcIs (fun v => { v with reportSt := 1 }); ioUp s = true ∧ Settled s ∧ s.svc.reportSt = 1) ∧
    (let s := svcIs (fun v => { v with sinceSnap := 4194304 }); ioUp s = true ∧ 4194304 ≤ s.svc.sinceSnap) ∧
    (let s := phuIs (fun p => { p with atBound := true, bcount := 65536 }); ioUp s = true ∧ s.phu.atBound = true ∧
      s.phu.bcount % 65536 = 0 ∧ 7 ∉ s.svc.aged) ∧
    (let s := svcIs (fun v => { v with aged := [7] }); ioUp s = true ∧ Settled s ∧ 7 ∈ s.svc.aged) ∧
    (let s : State := { regAt (regAt ddr Reg.detCtrl 2) Reg.detRecSize 64 with
       phu := { up.phu with atBound := true }, det := { up.det with ckptDue := true } }; ioUp s = true ∧ arithUp s = true ∧
      s.phu.atBound = true ∧ s.det.ckptDue = true ∧ recRing s = true ∧ ringOpen s = true ∧ Settled s) ∧
    (arithUp up = true ∧ up.det.ckptDue = false) := by decide +kernel

/-- A life-cycle message for state `t` with a key, with the nonce of the device, and that message with its signature. -/
def lifeMsg (t : Nat) (key : Bytes) : Bytes := [t] ++ zeros 7 ++ nonce up ++ key
def signed (m : Bytes) : Bytes := m ++ signOf (zeros 16) m

/-- The device with the plan-signing key, its phase running or not. -/
def keyed (p : Phu) : State := { up with svc := { up.svc with planKey := some key0 }, phu := p }

/-- What R498 and R497 ask of a message beside its signature. -/
def lifeRest (s : State) (b : Bytes) : Bool :=
  let t := getLe b 0 1
  let clr := getLe b 1 1
  let noKey := slice b 40 32 == zeros 32
  let cur := s.svc.life
  slice b 8 32 != nonce s || decide (4 ≤ clr) || slice b 2 6 != zeros 6 ||
    (t != cur && !lifeAllowed cur t) || (t == cur && noKey && clr == 0) || (clr != 0 && !(cur == 3 && t == 3)) ||
    (t == cur && cur != 2 && cur != 3) || (cur == 2 && t == 3 && (s.safety.permit || s.safety.grant))

theorem signed_part (m : Bytes) (off n : Nat) (h : off + n ≤ m.length) : slice (signed m) off n = slice m off n := slice_append_left _ _ _ _ h

theorem lifeRefused_signed (s : State) (m : Bytes) (h : m.length = 72) (hk : s.svc.planKey = some key0) :
    lifeRefused s (signed m) = lifeRest s m := by
  have e1 : slice (signed m) 0 72 = m := by rw [signed_part _ _ _ (by omega), slice_all _ _ h]
  have e2 : slice (signed m) 72 7856 = signOf (zeros 16) m := by
    rw [signed, slice_append_right _ _ _ _ (by omega), h, Nat.sub_self, slice_all _ _ (signOf_length _ _)]
  have hv : planSigned s m (signOf (zeros 16) m) = true := by
    simp only [planSigned, hk]
    exact slhVerify_signOf _ _ (zeros_length 16)
  simp only [lifeRefused, lifeRest, getLe, e1, e2, hv, signed_part m 0 1 (by omega), signed_part m 1 1 (by omega),
    signed_part m 2 6 (by omega), signed_part m 8 32 (by omega), signed_part m 40 32 (by omega), Bool.not_true, Bool.or_false]
  rfl

theorem wit_LifeCycleChanges :
    (ioUp up = true ∧ lifeRefused up (List.replicate 72 1) = true) ∧
    (let m := lifeMsg 2 ([1] ++ zeros 31); let s := keyed up.phu; ioUp s = true ∧ Settled s ∧ m.length = 72 ∧ s.svc.planKey.isSome = true ∧
      lifeRest s m = false ∧ getLe m 0 1 = s.svc.life) ∧
    (let m := lifeMsg 3 (zeros 32); let s := keyed up.phu; ioUp s = true ∧ Settled s ∧ m.length = 72 ∧ lifeRest s m = false ∧
      getLe m 0 1 ≠ s.svc.life ∧ phaseRuns s = true) ∧
    (let m := lifeMsg 3 (zeros 32); let s := keyed Phu.reset; ioUp s = true ∧ m.length = 72 ∧ lifeRest s m = false ∧
      getLe m 0 1 ≠ s.svc.life ∧ phaseRuns s = false) ∧
    (let s := svcIs (fun v => { v with life := 1 }); ioUp s = true ∧ s.svc.life = 1 ∧ s.svc.lifePend = none ∧ phaseRuns s = true ∧
      Settled s) ∧
    (let s : State := { svcIs (fun v => { v with life := 1 }) with phu := Phu.reset }; ioUp s = true ∧ s.svc.life = 1 ∧
      s.svc.lifePend = none ∧ phaseRuns s = false) ∧
    (ioUp up = true ∧ up.svc.life ≠ 1 ∧ up.svc.life ≠ 0 ∧ Settled up) ∧
    (let s := svcIs (fun v => { v with life := 0 }); ioUp s = true ∧ s.svc.life = 0 ∧ s.svc.lifePend = none ∧ phaseRuns s = true ∧
      Settled s) ∧
    (let s : State := { svcIs (fun v => { v with life := 0 }) with phu := Phu.reset }; ioUp s = true ∧ s.svc.life = 0 ∧
      s.svc.lifePend = none ∧ phaseRuns s = false) := by decide +kernel

/-- The accepted messages of that list are accepted. -/
theorem wit_LifeCycleChanges_accepted :
    lifeRefused (keyed up.phu) (signed (lifeMsg 2 ([1] ++ zeros 31))) = false ∧
    lifeRefused (keyed up.phu) (signed (lifeMsg 3 (zeros 32))) = false ∧
    lifeRefused (keyed Phu.reset) (signed (lifeMsg 3 (zeros 32))) = false ∧
    getLe (signed (lifeMsg 2 ([1] ++ zeros 31))) 0 1 = up.svc.life ∧ getLe (signed (lifeMsg 3 (zeros 32))) 0 1 ≠ up.svc.life := by
  have h2 : (lifeMsg 2 ([1] ++ zeros 31)).length = 72 := by decide +kernel
  have h3 : (lifeMsg 3 (zeros 32)).length = 72 := by decide +kernel
  refine ⟨?_, ?_, ?_, ?_, ?_⟩
  · rw [lifeRefused_signed _ _ h2 rfl]; decide +kernel
  · rw [lifeRefused_signed _ _ h3 rfl]; decide +kernel
  · rw [lifeRefused_signed _ _ h3 rfl]; decide +kernel
  · rw [getLe, signed_part _ _ _ (by omega)]; decide +kernel
  · rw [getLe, signed_part _ _ _ (by omega)]; decide +kernel

/-! ### The whole machine -/

theorem wit_StepRunsFrontCommand :
    (let s : State := { up with pending := [.uctlEnable] }; s.pending = .uctlEnable :: [] ∧ Instr.uctlEnable.wf = true) ∧
    (let s : State := { up with pending := [.queuePush 0 0 []] }; s.pending = .queuePush 0 0 [] :: [] ∧ (Instr.queuePush 0 0 []).wf = false) ∧
    up.pending = [] := by decide +kernel

theorem wit_CommandsKeepQueue : ∃ (s t : State) (c : Instr), exec c s = .next t := ⟨up, _, .uctlEnable, rfl⟩

theorem wit_StepKeepsSettled : ∃ s t : State, Settled s ∧ step s = .next t :=
  ⟨{ up with pending := [.uctlEnable] }, _, by decide +kernel, rfl⟩

theorem wit_StepKeepsMemoryForm : ∃ s t : State, (MemOk s ∧ UnitsOk s ∧ RegsOk s ∧ PodsOk s ∧ LimitsOk s) ∧ step s = .next t :=
  ⟨{ up with pending := [.uctlEnable] }, _, by decide +kernel, rfl⟩

/-- The ring of `up` holds no checkpoint. -/
theorem wit_StepKeepsMemoryForm_streams : StreamsOk { up with pending := [.uctlEnable] } := by
  refine ⟨by decide +kernel, ?_⟩
  intro k h
  have : ({ up with pending := [.uctlEnable] } : State).det.ring = [] := rfl
  rw [this] at h
  cases h

/-! ### WellFormed refuses an ill-formed command of each kind -/

/-- The formats of a schedule without equations. -/
def form0 : SolveForm := { vars := [], fA := [], fB := [], fD := [], fR := [], fT := [], fL := [], fU := [], fY := [], fZ := [], fX := [], fJ := 0 }
/-- A solve with formats and rows, and a tile with an operation. -/
def solveOf (x : SolveForm) (l : List SolveRow) : Instr := .taskComplete 0 (.solve { form := x, rows := [l], pred := [], newest := none })
def tileOf (op : TileOp) : Instr :=
  .taskComplete 0 (.tile { op := op, col := 0, cols := 1, row := 0, rows := 1, role := .plain, loads := [], upset := [] })
/-- A row with a weight, a residual and one Jacobian entry. -/
def row0 (w r j : Int × Int) : SolveRow := { kernel := 0, w := w, r := r, jac := [(0, j)] }
/-- A load or store of core 0 among rivals. -/
def access (o : BusOp) (r : List BankReq) : Instr := .busAccess 0 o r

theorem test_wf_csi : (Instr.csiLongPacket 0 0 0x2E [256] false true).wf = false := by decide
theorem test_wf_fragment : (Instr.pointFragment (.udp 0) [256]).wf = false := by decide
theorem test_wf_frac : [{ form0 with fA := [[61]] }, { form0 with fB := [61] }, { form0 with fD := [-17] }, { form0 with fR := [61] },
    { form0 with fT := [[61]] }, { form0 with fL := [[61]] }, { form0 with fU := [[61]] }, { form0 with fY := [61] },
    { form0 with fZ := [61] }, { form0 with fX := [61] }, { form0 with fJ := 61 }].all (fun x => !(solveOf x []).wf) = true := by decide
theorem test_wf_row : [row0 (2 ^ 31, 0) (0, 0) (0, 0), row0 (0, 0) (0, 61) (0, 0), row0 (0, 0) (0, 0) (-2 ^ 31, 0)].all
    (fun x => !(solveOf form0 [x]).wf) = true := by decide
theorem test_wf_solve_ok : (solveOf { form0 with fX := [60] } [row0 (1, 0) (-5, -16) (2 ^ 31 - 1, 60)]).wf = true := by decide
theorem test_wf_array : [TileOp.array (.conv 0 1 0 0 1 1) 0 1 none, .array (.conv 1 1 0 0 1 4097) 0 1 none, .array (.convT 0 0 0) 0 1 none].all
    (fun x => !(tileOf x).wf) = true := by decide
theorem test_wf_mask : [AttnMask.window 0, .window 4097, .band 0, .band 4097].all (fun m => !(tileOf (.attention 0 0 m)).wf) = true := by decide
theorem test_wf_norm : (tileOf (.norm (.group 0) 0)).wf = false := by decide
theorem test_wf_tile_ok : (tileOf (.attention 0 0 (.window 4096))).wf = true := by decide
theorem test_wf_push_short : (Instr.queuePush 0 0 (zeros 63)).wf = false := by decide +kernel
theorem test_wf_pairs : (Instr.probeRetire 0 0 0 0 (.pairs []) none).wf = false := by decide
theorem test_wf_pairs5 : (Instr.probeRetire 0 0 0 0 (.pairs (List.replicate 5 (.bound 0 1))) none).wf = false := by decide
theorem test_wf_eth : (Instr.ethFrameRx 0 none 0 (.udp 0 0 [256])).wf = false := by decide
theorem test_wf_load : (access (.load 0 65 none) []).wf = false := by decide
theorem test_wf_load0 : (access (.load 0 0 none) []).wf = false := by decide
theorem test_wf_store : (access (.store 0 []) []).wf = false := by decide
theorem test_wf_store_byte : (access (.store 0 [256]) []).wf = false := by decide
theorem test_wf_rival : (access (.load 0 8 none) [⟨0, 0, .write 255 [], 0⟩]).wf = false := by decide
theorem test_wf_download : (Instr.sdoDownload 0x2202 3 false [256] true).wf = false := by decide
theorem test_wf_driver : (Instr.driverObjWrite 0x2202 3 [256] true).wf = false := by decide
theorem test_wf_rxpdo : (Instr.rxpdoBufferDone (zeros 198)).wf = false := by decide +kernel
theorem test_wf_foe : (Instr.foeData 1 [256]).wf = false := by decide
theorem test_wf_foe_long : (Instr.foeData 1 (zeros 1013)).wf = false := by decide +kernel
theorem test_wf_imu : (Instr.imuSampleDone [256]).wf = false := by decide
theorem test_wf_sample : (Instr.jtagSamplePreload [256]).wf = false := by decide
theorem test_wf_extest : (Instr.jtagExtest [256]).wf = false := by decide
theorem test_wf_temps : (Instr.monitorSample [] (List.replicate 11 0)).wf = false := by decide
theorem test_wf_rails : (Instr.monitorSample (List.replicate 17 0) []).wf = false := by decide
theorem test_wf_life : (Instr.lifecycleCommand (zeros 72)).wf = false := by decide +kernel
theorem test_wf_key : (Instr.planKeyWrite (zeros 31)).wf = false := by decide

/-! ### Worked values of the spec -/

/-- The example of R26: Pea 16 of Pod 31 on Stack 1, Cob 5 on Stack 0 and the Husk. -/
theorem test_unit_ids : unitId 0 1 543 = 0x061F ∧ unitId 3 0 5 = 0x1805 ∧ huskId = 0x8400 := by decide

/-- The example of R23: Parsnip 8 on Stack 1. -/
theorem test_window : windowUnit 0x2148800000 = unitId 4 1 8 := by decide

/-- The example of R317: an address in bank 73 of Stack 1. -/
theorem test_address : ssWord 0x2008001240 = (1, 73) ∧ wordBank 73 = 73 ∧ wordRegion 73 = 0 ∧ bankGroup 1 73 = 0x5401 := by decide

/-- The example of R321: a Chard and a refill read word 0 of the bank, a Marrow writes word 1, a Leek reads word 2. -/
def wait0 (no u w : Nat) (a : BankAct) : BankWait := { no := no, u := u, word := w, act := a, clk := 0, stall := 0 }
def bank73 : BankSt :=
  { clk := 0, top := false, hold := false, worst := 0
    wait := [wait0 1 (unitId 7 1 0) 0 .read, wait0 2 (unitId 2 1 0) 0 .read, wait0 3 (unitId 6 1 0) 1 (.write 255 (zeros 64)),
      wait0 4 (unitId 1 1 0) 2 .read] }
/-- The bank a clk on. -/
def bankClk (b : BankSt) : BankSt := bankNext b (bankServes 16 b)

theorem test_bank : (bankServes 16 bank73).map (·.no) = [1, 2] ∧ (bankServes 16 (bankClk bank73)).map (·.no) = [4] ∧
    (bankServes 16 (bankClk (bankClk bank73))).map (·.no) = [3] := by decide +kernel

/-- The known answer of R126 and its use in the example of R129. -/
theorem test_rng : rngBlock 0 0 0 0 = (0xA77F9571BB93EE04, 0x4A1C61DD4DC87CA1) ∧ laneOf (rngBlock 0 0 0 0) 6 = 0x9571 := by decide +kernel
theorem test_gauss : gaussT 0 = 1 ∧ gaussT 686 = 867 ∧ gaussT 2048 = 2763 ∧ sampleOf 0 0 0 0 6 = -867 := by decide +kernel

/-- The stored sample of R68's example. -/
theorem test_isqrt : isqrt 1664 = 40 := by decide +kernel

/-- A sphere moving at 1.2 m/s at most, with the values of R69's example: h is 864 mm. -/
theorem test_margin : humanMargin { regAt (regAt (planned plan0) Reg.mrwMarginA (100 * 65536 + 500)) Reg.mrwMarginB 0x05DC4E20 with
    model := { up.model with cur := some { model0 with vDecl := 1200 } }
    safety := { up.safety with par := { up.safety.par with tB := 400000 } } } = 864 := by decide +kernel

/-- The example of R33: an edge at +20 pu schedules the next cycle over 65,531 pu. -/
theorem test_loop : loopInc (20 * 2 ^ 32) 9000000 = 65531 * 2 ^ 32 / 9000000 := by decide

/-- The example of R357: T_b of 400 ms, B of 12 and P of 1 ms. -/
theorem test_horizon : horizonNB (regAt up Reg.phuCycleDecl 1000000) 12 50000 = 597 ∧ horizonL (regAt up Reg.phuCycleDecl 1000000) 400000 = 403 := by
  decide +kernel

/-- The weights of the example of selection: a z of 0, 1, 1.5 and 2. -/
theorem test_weights : weightOf 0 = 2147483648 ∧ weightOf 65536 = 790015084 ∧ weightOf 98304 = 479168370 ∧ weightOf 131072 = 290630308 := by
  decide +kernel

/-- An element in Q15.16. -/
def q16 (x : Int) : Int × Int := (x * 65536, 16)

/-- The singular system of R222's example. -/
def singular (b : Int) : Sys :=
  { fm := { form0 with
      vars := [0, 1, 2], fD := [16, 16, 16], fR := [16, 16, 16], fT := List.replicate 3 [16, 16, 16], fL := List.replicate 3 [16, 16, 16]
      fU := List.replicate 3 [16, 16, 16], fY := [16, 16, 16], fZ := [16, 16, 16], fX := [16, 16, 16] }
    a := [[q16 4, q16 2, q16 2], [q16 2, q16 1, q16 1], [q16 2, q16 1, q16 3]], b := [q16 8, q16 b, q16 7] }

theorem test_singular : (solveSys (singular 4) 0x3B800000).x = [(81920, 16), (0, 16), (98304, 16)] ∧
    (solveSys (singular 4) 0x3B800000).raised.length = 1 ∧ (solveSys (singular 4) 0x3B800000).chk = 0 ∧
    (solveSys (singular 4) 0x3B800000).ill = none := by decide +kernel
theorem test_inconsistent : (solveSys (singular 5) 0x3B800000).x = [(-8306688, 16), (16777216, 16), (98304, 16)] ∧
    (solveSys (singular 5) 0x3B800000).chk = 0 := by decide +kernel
theorem test_ill : (solveSys (singular 4) 0x37800000).ill.isSome = true := by decide +kernel

end Sys2Proof.Tests
end

/-!
Sync counters (R267 to R273): what one decrement does to a counter, what the clk that applies a held decrement leaves, and the
proof of SyncCountersDecrementAndLoad.
-/
namespace Sys2Proof.Machine

/-! ### Events of an Onion -/

@[simp] theorem raiseOnion_sched (s : State) (k c u a b : Nat) : (raiseOnion s k c u a b).sched = s.sched := by
  simp [raiseOnion, raiseX]
@[simp] theorem raiseOnion_mem (s : State) (k c u a b : Nat) : (raiseOnion s k c u a b).mem = s.mem := by
  simp [raiseOnion, raiseX]
/-- The event just raised waits. -/
theorem raised_raiseOnion (s : State) (k c u a b : Nat) : Raised (raiseOnion s k c u a b) c u a b := by
  simp [Raised, raiseOnion, raiseX]

/-! ### Releases (R273) -/

theorem relInsert_length (l : List Release) (r : Release) : (relInsert l r).length = l.length + 1 := by
  have parts := List.length_eq_countP_add_countP
    (fun x : Release => x.tick == r.tick && x.next == 0 && decide (r.ctr < x.ctr)) (l := l)
  simp only [relInsert, List.length_append, List.length_singleton, ← List.countP_eq_length_filter]
  simp only [Bool.not_eq_true, Bool.decide_eq_false] at parts
  omega

@[simp] theorem queueRelease_ctrs (s : State) (n : Nat) : (queueRelease s n).sched.ctrs = s.sched.ctrs := by
  unfold queueRelease; dsimp only; split <;> rfl
@[simp] theorem queueRelease_mem (s : State) (n : Nat) : (queueRelease s n).mem = s.mem := by
  unfold queueRelease; dsimp only; split <;> rfl
@[simp] theorem queueRelease_units (s : State) (n : Nat) : (queueRelease s n).units = s.units := by
  unfold queueRelease; dsimp only; split <;> rfl

/-- A release waits for its engine unless its list has no descriptors (R267, R273). -/
theorem queueRelease_rels_length (s : State) (n : Nat) :
    (queueRelease s n).sched.rels.length = s.sched.rels.length + (if field (ctrGet s n) 32 8 = 0 then 0 else 1) := by
  unfold queueRelease
  by_cases h : field (ctrGet s n) 32 8 = 0
  · simp [h]
  · simp [h, relInsert_length]

/-! ### One decrement (R268 to R270) -/

section Decrement

variable {a : ClkAcc} {d : Decr} (hroom : cnt a.used d.ctr < 4) (hwait : a.wait.any (fun x => x.ctr == d.ctr) = false)
include hroom hwait

/-- A decrement of a disarmed counter is counted and raises event 0x0A02 (R270). -/
theorem decOne_disarmed (harm : ctrArmed (ctrGet a.st d.ctr) = false) :
    decOne a d = { a with
      st := raiseOnion { a.st with sched := { a.st.sched with disarmTotal := satInc 32 a.st.sched.disarmTotal } }
        (field (ctrGet a.st d.ctr) 60 1) 0x0A02 d.src d.ctr d.src
      used := cntUp a.used d.ctr } := by
  have hsrc : (if d.src = 0xFFFF then 0xFFFF else d.src) = d.src := by split <;> simp_all
  simp only [decOne, hwait, harm, hsrc]
  simp [Nat.not_le.mpr hroom]

/-- A decrement of an armed counter above 1 lowers its COUNT (R269). -/
theorem decOne_above_one (harm : ctrArmed (ctrGet a.st d.ctr) = true) (hcount : 2 ≤ ctrCount (ctrGet a.st d.ctr)) :
    decOne a d = { a with
      st := ctrSet a.st d.ctr (ctrWithCount (ctrGet a.st d.ctr) (ctrCount (ctrGet a.st d.ctr) - 1))
      used := cntUp a.used d.ctr } := by
  have hne : ctrCount (ctrGet a.st d.ctr) ≠ 1 := by omega
  simp only [decOne, hwait, harm, hne]
  simp [Nat.not_le.mpr hroom]

/-- A decrement of an armed counter at 1 in MODE 0 disarms and releases it (R269). -/
theorem decOne_at_one_mode0 (harm : ctrArmed (ctrGet a.st d.ctr) = true) (hcount : ctrCount (ctrGet a.st d.ctr) = 1)
    (hmode : ctrMode (ctrGet a.st d.ctr) = 0) (hrel : a.rel.contains d.ctr = false) :
    decOne a d = { a with
      st := ctrSet a.st d.ctr (ctrDisarm (ctrWithCount (ctrGet a.st d.ctr) 0))
      used := cntUp a.used d.ctr
      rel := a.rel ++ [d.ctr] } := by
  simp only [decOne, hwait, harm, hcount, hmode, hrel]
  simp [Nat.not_le.mpr hroom]

end Decrement

/-- The clause on a disarmed counter, wherever its decrement stands among a clk's. -/
theorem decOne_disarmed_effect (a : ClkAcc) (d : Decr) (hroom : cnt a.used d.ctr < 4)
    (hwait : a.wait.any (fun x => x.ctr == d.ctr) = false) (harm : ctrArmed (ctrGet a.st d.ctr) = false) :
    (decOne a d).st.sched = { a.st.sched with disarmTotal := satInc 32 a.st.sched.disarmTotal } ∧
      (decOne a d).rel = a.rel ∧ (decOne a d).wait = a.wait ∧ (decOne a d).st.mem = a.st.mem ∧
      Raised (decOne a d).st 0x0A02 d.src d.ctr d.src := by
  rw [decOne_disarmed hroom hwait harm]
  exact ⟨raiseOnion_sched .., rfl, rfl, raiseOnion_mem .., raised_raiseOnion ..⟩

/-! ### The clk of a held decrement (R268) -/

theorem ticksPerClk_pos (s : State) : 0 < ticksPerClk s := by
  unfold ticksPerClk
  split
  · split <;> omega
  · omega
  · omega

theorem advance_now (s : State) (dt : Nat) : (advance s dt).now = s.now + dt := by
  unfold advance; split <;> rfl

/-- The answer of a command has no part in how time passes. -/
theorem nextClk_answer (s : State) (r : Resp) : nextClk (answer s r) = answer (nextClk s) r := by
  show (if phaseRuns s then _ else _ : State) = answer (if phaseRuns s then _ else _) r
  split <;> rfl

/-- The state in the clk that applies the held decrements. -/
def heldClk (s : State) : State := if s.sched.heldTick = s.now then nextClk s else s

@[simp] theorem heldClk_sched (s : State) : (heldClk s).sched = s.sched := by
  unfold heldClk; split <;> simp [nextClk]
@[simp] theorem heldClk_mem (s : State) : (heldClk s).mem = s.mem := by
  unfold heldClk; split <;> simp [nextClk]
@[simp] theorem heldClk_units (s : State) : (heldClk s).units = s.units := by
  unfold heldClk; split <;> simp [nextClk]

theorem heldClk_answer (s : State) (r : Resp) : heldClk (answer s r) = answer (heldClk s) r := by
  simp only [heldClk, answer_sched, answer_now, nextClk_answer]
  split <;> rfl

/-- Decrements are never held in the clk that applies them. -/
theorem heldTick_ne_heldClk_now (s : State) : s.sched.heldTick ≠ (heldClk s).now := by
  unfold heldClk
  split
  · rename_i h
    have := ticksPerClk_pos s
    rw [h, nextClk, advance_now]
    omega
  · assumption

/-- Held decrements are applied in the clk after the one that held them. -/
theorem heldDecs_eq_clkDecs (s : State) (h : s.sched.held0 ++ s.sched.held1 ≠ []) : heldDecs s = clkDecs (heldClk s) [] [] := by
  have hne : (s.sched.held0 ++ s.sched.held1).isEmpty = false := by simpa using h
  by_cases htick : s.sched.heldTick = s.now
  · simp [heldDecs, heldClk, htick, hne]
  · simp [heldDecs, heldClk, htick]

/-- Where the clk of the held decrements starts: the input buffers taken over, and what the clk has done before. -/
def heldStart (s : State) : ClkAcc :=
  { st := { heldClk s with sched := { s.sched with held0 := [], held1 := [] } }
    used := (clkNow (heldClk s)).dec, rel := (clkNow (heldClk s)).rel, wait := [] }

/-- The state after one held decrement has been applied and its release, if any, queued. -/
def heldDone (s : State) (d : Decr) : State :=
  (sortBy natLe ((decOne (heldStart s) d).rel.drop (heldStart s).rel.length)).foldl queueRelease (decOne (heldStart s) d).st

/-- The held decrement that finds room leaves empty input buffers; beside them only the clk's own accounts change after it. -/
theorem heldDecs_one (s : State) (d : Decr) (h0 : s.sched.held0 = [d]) (h1 : s.sched.held1 = [])
    (hwait : (decOne (heldStart s) d).wait = []) :
    ∃ tick hm c, heldDecs s = { heldDone s d with
      sched := { (heldDone s d).sched with held0 := [], held1 := [], heldTick := tick, heldMax := hm }, clk := c } := by
  have htick := heldTick_ne_heldClk_now s
  rw [heldDecs_eq_clkDecs s (by simp [h0])]
  simp only [clkDecs, heldClk_sched, if_neg htick, h0, h1]
  refine ⟨(heldClk s).now, ?_⟩
  show ∃ hm c, ({ heldDone s d with
    sched := { (heldDone s d).sched with
      held0 := (decOne (heldStart s) d).wait.filter _, held1 := (decOne (heldStart s) d).wait.filter _
      heldTick := _, heldMax := _ }
    clk := _ } : State) = _
  rw [hwait]
  exact ⟨_, _, rfl⟩

/-! ### The commands -/

theorem exec_heldDecrement (s : State) (h : arithUp s = true) :
    exec .heldDecrement s = .next (flush (heldDecs (answer s .none))) :=
  congrArg Host.Outcome.next (runArith_up s heldDecs h)

section Held

variable {s : State} {d : Decr} (h0 : s.sched.held0 = [d]) (h1 : s.sched.held1 = [])
  (hroom : cnt (clkNow (heldClk s)).dec d.ctr < 4)
include h0 h1 hroom

/-- A held decrement of an armed counter above 1. -/
theorem heldDecs_above_one (harm : ctrArmed (ctrGet s d.ctr) = true) (hcount : 2 ≤ ctrCount (ctrGet s d.ctr)) :
    let t := heldDecs s
    t.sched.ctrs = (ctrSet s d.ctr (ctrWithCount (ctrGet s d.ctr) (ctrCount (ctrGet s d.ctr) - 1))).sched.ctrs ∧
      t.sched.held0 = [] ∧ t.sched.held1 = [] ∧ t.sched.rels = s.sched.rels ∧ t.mem = s.mem ∧ t.units = s.units := by
  have hdec := decOne_above_one (a := heldStart s) (d := d) hroom rfl harm hcount
  have hdone : heldDone s d = (decOne (heldStart s) d).st := by simp [heldDone, hdec, sortBy]
  obtain ⟨tick, hm, c, ht⟩ := heldDecs_one s d h0 h1 (by rw [hdec]; rfl)
  simp only [ht, hdone, hdec]
  exact ⟨rfl, trivial, trivial, rfl, heldClk_mem s, heldClk_units s⟩

/-- A held decrement of an armed counter at 1 in MODE 0. -/
theorem heldDecs_at_one_mode0 (harm : ctrArmed (ctrGet s d.ctr) = true) (hcount : ctrCount (ctrGet s d.ctr) = 1)
    (hmode : ctrMode (ctrGet s d.ctr) = 0) (hrel : (clkNow (heldClk s)).rel.contains d.ctr = false) :
    let x := ctrSet s d.ctr (ctrDisarm (ctrWithCount (ctrGet s d.ctr) 0))
    let t := heldDecs s
    t.sched.ctrs = x.sched.ctrs ∧ t.sched.held0 = [] ∧ t.sched.held1 = [] ∧
      t.sched.rels.length = s.sched.rels.length + (if field (ctrGet x d.ctr) 32 8 = 0 then 0 else 1) ∧ t.mem = s.mem ∧
      t.units = s.units := by
  have hdec := decOne_at_one_mode0 (a := heldStart s) (d := d) hroom rfl harm hcount hmode hrel
  have hdone : heldDone s d = queueRelease (decOne (heldStart s) d).st d.ctr := by
    simp [heldDone, hdec, sortBy, insertBy]
  obtain ⟨tick, hm, c, ht⟩ := heldDecs_one s d h0 h1 (by rw [hdec]; rfl)
  simp only [ht, hdone, hdec, queueRelease_ctrs, queueRelease_mem, queueRelease_units, queueRelease_rels_length]
  exact ⟨rfl, trivial, trivial, rfl, heldClk_mem s, heldClk_units s⟩

/-- A held decrement of a disarmed counter. -/
theorem heldDecs_disarmed (harm : ctrArmed (ctrGet s d.ctr) = false) :
    let t := heldDecs s
    t.sched.ctrs = s.sched.ctrs ∧ t.sched.disarmTotal = satInc 32 s.sched.disarmTotal ∧
      Raised t 0x0A02 d.src d.ctr d.src ∧ t.mem = s.mem := by
  obtain ⟨hsched, hrel, hwait, hmem, hraised⟩ := decOne_disarmed_effect (heldStart s) d hroom rfl harm
  have hdone : heldDone s d = (decOne (heldStart s) d).st := by simp [heldDone, hrel, sortBy]
  obtain ⟨tick, hm, c, ht⟩ := heldDecs_one s d h0 h1 hwait
  simp only [ht, hdone, hsched, hmem]
  exact ⟨rfl, rfl, hraised, heldClk_mem s⟩

end Held

/-- The clk of the held decrements has done the same whatever the command will answer. -/
theorem clkNow_heldClk_answer (s : State) (r : Resp) : clkNow (heldClk (answer s r)) = clkNow (heldClk s) := by
  rw [heldClk_answer]; rfl

/-- The cluster's write of a counter word: below CTR_PLAN it is dropped (R272). -/
theorem exec_syncCtrWrite (s : State) (n : BitVec 16) (w : BitVec 64) (ha : arithUp s = true) (hc : appUp s = true) (hs : Settled s) :
    exec (.syncCtrWrite n w) s = .next (if n.toNat < ctrPlan s then { s with resp := .busOk }
      else { ctrSet s n.toNat w.toNat with resp := .busOk }) := by
  have hrun := runApp_up s (fun s => answer (syncCtrWrite s n.toNat w.toNat) .busOk) hc ha
  refine congrArg Host.Outcome.next (hrun.trans ?_)
  have hplan : ctrPlan (answer s .none) = ctrPlan s := rfl
  by_cases h : n.toNat < ctrPlan s
  · simp only [syncCtrWrite, hplan, if_pos h]
    exact flush_quiet _ hs
  · simp only [syncCtrWrite, hplan, if_neg h]
    exact flush_quiet _ hs

/-- Settles O20: the three outcomes of a held decrement are those of `decOne` in the clk that applies it. -/
theorem syncCountersDecrementAndLoad : Obligations.SyncCountersDecrementAndLoad := by
  intro s harith
  refine ⟨fun d h0 h1 hroom => ?_, fun a d hroom hwait harm => ?_, fun n w happ hs => ?_⟩
  · have hexec := exec_heldDecrement s harith
    rw [← heldClk, ← clkNow_heldClk_answer s .none] at hroom
    refine ⟨fun harm hcount => ?_, fun harm hcount hmode hrel => ?_, fun harm => ?_⟩
    · exact ⟨_, hexec, heldDecs_above_one (s := answer s .none) h0 h1 hroom harm hcount⟩
    · rw [← heldClk, ← clkNow_heldClk_answer s .none] at hrel
      exact ⟨_, hexec, heldDecs_at_one_mode0 (s := answer s .none) h0 h1 hroom harm hcount hmode hrel⟩
    · exact ⟨_, hexec, heldDecs_disarmed (s := answer s .none) h0 h1 hroom harm⟩
  · obtain ⟨hsched, hrel, hwait', -, hraised⟩ := decOne_disarmed_effect a d hroom hwait harm
    exact ⟨hsched, hrel, hwait', hraised⟩
  · exact exec_syncCtrWrite s n w harith happ hs

end Sys2Proof.Machine

/-!
Plan images and edit lists (R299, R303, R307): what the install, cancel and edit commands do in each of their cases, and the proof of
PlanInstallAndEdits.
-/
namespace Sys2Proof.Machine

/-! ### A command whose meaning is known -/

section Wrappers

variable {s t : State} {f : State → State} (hf : f (answer s .none) = t)
include hf

theorem runIo_eq_flush (hio : ioUp s = true) : runIo s f = flush t := hf ▸ runIo_up s f hio
theorem runDrv_eq_flush (happ : appUp s = true) (hio : ioUp s = true) : runDrv s f = flush t := hf ▸ runDrv_up s f happ hio

/-- Where the meaning raises no event, its result is the command's. -/
theorem runIo_eq_of_settled (hio : ioUp s = true) (ht : Settled t) : runIo s f = t :=
  (runIo_eq_flush hf hio).trans (flush_quiet t ht)
theorem runDrv_eq_of_settled (happ : appUp s = true) (hio : ioUp s = true) (ht : Settled t) : runDrv s f = t :=
  (runDrv_eq_flush hf happ hio).trans (flush_quiet t ht)

end Wrappers

/-! ### A model refused alone (R106) -/

@[simp] theorem modelRefuseOnly_plan (s : State) (r : Nat) : (modelRefuseOnly s r).plan = s.plan := raise_plan ..
@[simp] theorem modelRefuseOnly_mem (s : State) (r : Nat) : (modelRefuseOnly s r).mem = s.mem := raise_mem ..
@[simp] theorem modelRefuseOnly_model (s : State) (r : Nat) : (modelRefuseOnly s r).model =
    { s.model with status := .refused, reason := r, pend := none, deferrals := 0 } := raise_model ..
theorem raised_modelRefuseOnly (s : State) (r : Nat) : Raised (modelRefuseOnly s r) 0x0301 0xFFFF r 0 := raised_here ..

/-! ### Install and cancel (R299, R303) -/

theorem planInstall_free {s : State} (h : s.plan.status.busy = false) : planInstall s = { s with
    plan := { s.plan with
      status := .verifying, pend := none, pendAddr := objW s 0x2B00 1, pendLen := objW s 0x2B00 2, pendSwitch := objW s 0x2B00 3,
      lateStage := false, deferrals := 0 } } := by
  simp [planInstall, h]

theorem planInstall_busy {s : State} (h : s.plan.status.busy = true) :
    planInstall s = raise { s with plan := { s.plan with reason := 10 } } 0x0B01 0xFFFF 10 0 := if_pos h

/-- The pending image is dropped. -/
def planDrop (s : State) : State := { s with plan := { s.plan with status := .idle, pend := none, deferrals := 0 } }

theorem planCancel_untied {s : State} (hbusy : s.plan.status.busy = true) (hdue : planDue s = false) (htied : tied s = false) :
    planCancel s = planDrop s := by
  simp [planCancel, hbusy, hdue, htied, planDrop]

theorem planCancel_tied {s : State} (hbusy : s.plan.status.busy = true) (hdue : planDue s = false) (htied : tied s = true) :
    planCancel s = modelRefuseOnly (planDrop s) 6 := by
  simp [planCancel, hbusy, hdue, htied, planDrop]

theorem planCancel_idle_or_due {s : State} (h : s.plan.status.busy = false ∨ planDue s = true) : planCancel s = s := by
  rcases h with h | h <;> simp [planCancel, h]

/-- A cancel before the boundary's clk drops the image whether or not a model is tied to it; a tied model is refused with reason 6. -/
theorem planCancel_effect {s : State} (hbusy : s.plan.status.busy = true) (hdue : planDue s = false) :
    (planCancel s).plan = (planDrop s).plan ∧ (planCancel s).mem = s.mem ∧
      (tied s = true → (planCancel s).model = { s.model with status := .refused, reason := 6, pend := none, deferrals := 0 } ∧
        Raised (planCancel s) 0x0301 0xFFFF 6 0) := by
  cases htied : tied s with
  | false =>
    rw [planCancel_untied hbusy hdue htied]
    exact ⟨rfl, rfl, nofun⟩
  | true =>
    rw [planCancel_tied hbusy hdue htied]
    exact ⟨modelRefuseOnly_plan .., modelRefuseOnly_mem .., fun _ => ⟨modelRefuseOnly_model .., raised_modelRefuseOnly ..⟩⟩

/-! ### Edit lists (R307) -/

theorem paramEdit_bad_length {l : List (Nat × Nat)} (s : State) (c : Nat) (h : l = [] ∨ 64 < l.length) :
    paramEdit s c l = answer s (.drv (-1) []) := by
  simp [paramEdit, h]

section EditList

variable {s : State} {l : List (Nat × Nat)} (c : Nat) (hne : l ≠ []) (hlen : l.length ≤ 64)
include hne hlen

theorem paramEdit_replay (hreplay : s.det.replay = true) : paramEdit s c l = answer s (.drv 0 []) := by
  simp [paramEdit, hne, Nat.not_lt.mpr hlen, hreplay]

/-- A list in range waits for the cycle after this one, or for the one after that when it comes too late in the cycle. -/
theorem paramEdit_accepted (hreplay : s.det.replay = false) (hr : (editReason s l).1 = 0) :
    let next := if 62259 ≤ phase s ∧ c ≤ s.phu.cycle + 1 then s.phu.cycle + 2 else s.phu.cycle + 1
    paramEdit s c l = answer { s with
      plan := { s.plan with edits := s.plan.edits ++ [{ cycle := c, notBefore := next, edits := l }] } } (.drv 0 []) := by
  simp [paramEdit, hne, Nat.not_lt.mpr hlen, hreplay, hr]

theorem paramEdit_refused (hreplay : s.det.replay = false) (hr : (editReason s l).1 ≠ 0) :
    paramEdit s c l = answer (raise s 0x0B05 0xFFFF (editReason s l).1 (editReason s l).2)
      (.drv (if (editReason s l).1 = 4 then -2 else -3) []) := by
  simp [paramEdit, hne, Nat.not_lt.mpr hlen, hreplay, hr]

end EditList

/-! ### The commands -/

/-- Settles O32: each clause is the case of `planInstall`, `planCancel` or `paramEdit` that its hypotheses select. -/
theorem planInstallAndEdits : Obligations.PlanInstallAndEdits := by
  intro s hio hs
  refine ⟨fun hfree => ?_, fun hbusy => ?_, fun hbusy hdue htied => ?_, fun hbusy hdue => ?_, fun h => ?_, fun hmain => ?_,
    fun c l happ => ?_⟩
  · exact congrArg Host.Outcome.next (runIo_eq_of_settled (planInstall_free (s := answer s .none) hfree) hio hs)
  · exact ⟨_, congrArg Host.Outcome.next (runIo_eq_flush (planInstall_busy (s := answer s .none) hbusy) hio), raise_plan ..,
      raised_here .., raise_mem ..⟩
  · exact congrArg Host.Outcome.next (runIo_eq_of_settled (planCancel_untied (s := answer s .none) hbusy hdue htied) hio hs)
  · exact ⟨_, congrArg Host.Outcome.next (runIo_up s planCancel hio), planCancel_effect (s := answer s .none) hbusy hdue⟩
  · exact congrArg Host.Outcome.next (runIo_eq_of_settled (planCancel_idle_or_due (s := answer s .none) h) hio hs)
  · exact congrArg Host.Outcome.next ((run_up s _ hmain).trans (flush_quiet _ hs))
  · intro e r
    have hne : l ≠ [] → e ≠ [] := by simp [e]
    have hlen : e.length = l.length := List.length_map ..
    refine ⟨fun h => ?_, fun h1 h2 hreplay => ?_, fun h1 h2 hreplay hr => ?_, fun h1 h2 hreplay hr => ?_⟩
    · have hedit := paramEdit_bad_length (l := e) (answer s .none) c.toNat (by simpa [e] using h)
      exact congrArg Host.Outcome.next (runDrv_eq_of_settled hedit happ hio hs)
    · have hedit := paramEdit_replay (s := answer s .none) c.toNat (hne h1) (hlen ▸ h2) hreplay
      exact congrArg Host.Outcome.next (runDrv_eq_of_settled hedit happ hio hs)
    · have hedit := paramEdit_accepted (s := answer s .none) c.toNat (hne h1) (hlen ▸ h2) hreplay hr
      exact congrArg Host.Outcome.next (runDrv_eq_of_settled hedit happ hio hs)
    · have hedit := paramEdit_refused (s := answer s .none) c.toNat (hne h1) (hlen ▸ h2) hreplay hr
      exact ⟨_, congrArg Host.Outcome.next (runDrv_eq_flush hedit happ hio), rfl, raised_same (raised_here ..) rfl, raise_plan ..,
        raise_mem ..⟩

end Sys2Proof.Machine

/-!
The verdict path (R350 to R359): what the handling of tasks and a DISABLE leave alone, the cases of the Chard push, of a Chard's
verdict and of the comparison, and the proof of VerdictPathCommits.
-/
namespace Sys2Proof.Machine

/-! ### The handling of tasks (R273 to R284) -/

/-- Tasks are handled without a change of the safety record, the PHU or memory. -/
structure TaskFrame (s t : State) : Prop where
  safety : t.safety = s.safety
  phu : t.phu = s.phu
  mem : t.mem = s.mem

namespace TaskFrame

theorem refl (s : State) : TaskFrame s s := ⟨rfl, rfl, rfl⟩

theorem trans {s t u : State} (h : TaskFrame s t) (h' : TaskFrame t u) : TaskFrame s u :=
  ⟨h'.safety.trans h.safety, h'.phu.trans h.phu, h'.mem.trans h.mem⟩

/-- An update of other fields comes first. -/
theorem of_start {s s' t : State} (h : TaskFrame s' t) (hsafety : s'.safety = s.safety) (hphu : s'.phu = s.phu)
    (hmem : s'.mem = s.mem) : TaskFrame s t :=
  .trans ⟨hsafety, hphu, hmem⟩ h

theorem foldl {α : Type} {f : State → α → State} (h : ∀ s x, TaskFrame s (f s x)) (l : List α) (s : State) :
    TaskFrame s (l.foldl f s) := by
  induction l generalizing s with
  | nil => exact refl s
  | cons x l ih => exact (h s x).trans (ih (f s x))

end TaskFrame

theorem raise_taskFrame (s : State) (c u a b : Nat) : TaskFrame s (raise s c u a b) :=
  ⟨raise_safety .., raise_phu .., raise_mem ..⟩

theorem raiseOnion_taskFrame (s : State) (k c u a b : Nat) : TaskFrame s (raiseOnion s k c u a b) :=
  ⟨setEventBits_safety .., setEventBits_phu .., setEventBits_mem ..⟩

theorem decOne_taskFrame (a : ClkAcc) (d : Decr) : TaskFrame a.st (decOne a d).st := by
  unfold decOne
  dsimp only
  split
  · exact .refl _
  · split
    · exact (raiseOnion_taskFrame ..).of_start rfl rfl rfl
    · split
      · split <;> exact ⟨rfl, rfl, rfl⟩
      · exact ⟨rfl, rfl, rfl⟩

theorem decOne_foldl_taskFrame (l : List Decr) (a : ClkAcc) : TaskFrame a.st (l.foldl decOne a).st := by
  induction l generalizing a with
  | nil => exact .refl _
  | cons d l ih => exact (decOne_taskFrame a d).trans (ih (decOne a d))

theorem queueRelease_taskFrame (s : State) (n : Nat) : TaskFrame s (queueRelease s n) := by
  unfold queueRelease
  dsimp only
  split <;> exact ⟨rfl, rfl, rfl⟩

theorem clkDecs_taskFrame (s : State) (gates others : List Decr) : TaskFrame s (clkDecs s gates others) := by
  have decs (a : ClkAcc) (l : List Decr) (rels : List Nat) (h : TaskFrame s a.st) :
      TaskFrame s (rels.foldl queueRelease (l.foldl decOne a).st) :=
    h.trans ((decOne_foldl_taskFrame l a).trans (.foldl queueRelease_taskFrame rels _))
  exact .trans (decs _ _ _ ⟨rfl, rfl, rfl⟩) ⟨rfl, rfl, rfl⟩

theorem recallOne_taskFrame (s : State) (cls stack lvl : Nat) : TaskFrame s (recallOne s cls stack lvl) := by
  unfold recallOne
  split
  · exact .refl s
  · split
    · split
      · exact ⟨rfl, rfl, rfl⟩
      · exact .refl s
    · exact .refl s

theorem readyHead_taskFrame (s : State) (t : Task) : TaskFrame s (readyHead s t) :=
  (recallOne_taskFrame ..).of_start rfl rfl rfl

theorem readyTail_taskFrame (s : State) (t : Task) : TaskFrame s (readyTail s t) :=
  (recallOne_taskFrame ..).of_start rfl rfl rfl

theorem failTask_taskFrame (s : State) (t : Task) (u : Nat) : TaskFrame s (failTask s t u) := by
  unfold failTask
  split
  · split
    · exact (readyHead_taskFrame ..).of_start rfl rfl rfl
    · exact readyHead_taskFrame ..
  · exact clkDecs_taskFrame ..

theorem startCheck_taskFrame (s : State) (t : Task) (u : Nat) : TaskFrame s (startCheck s t u) := by
  unfold startCheck
  split
  · exact raiseOnion_taskFrame ..
  · exact .refl s

theorem beginTask_taskFrame (fuel : Nat) (s : State) (u : Nat) : TaskFrame s (beginTask fuel s u) := by
  induction fuel generalizing s with
  | zero => exact .refl s
  | succ fuel ih =>
    unfold beginTask
    split
    · exact .refl s
    · next t _ =>
      split
      · exact .refl s
      · have checked := startCheck_taskFrame s t u
        dsimp only
        split
        · exact checked.trans ⟨rfl, rfl, rfl⟩
        · refine checked.trans (.trans ?_ ((failTask_taskFrame ..).trans (ih _)))
          exact ⟨by simp, by simp, by simp⟩

theorem noteBusy_taskFrame (s : State) (u : Nat) : TaskFrame s (noteBusy s u) := by
  unfold noteBusy
  split
  · split
    · unfold busyAdd
      dsimp only
      split <;> exact ⟨rfl, rfl, rfl⟩
    · exact .refl s
  · exact .refl s

theorem slotNext_taskFrame (s : State) (u : Nat) : TaskFrame s (slotNext s u) :=
  (noteBusy_taskFrame s u).trans ((beginTask_taskFrame ..).of_start rfl rfl rfl)

theorem countDone_taskFrame (s : State) (u : Nat) : TaskFrame s (countDone s u) := by
  unfold countDone
  split
  · exact ⟨rfl, rfl, rfl⟩
  · exact .refl s

theorem cutRun_taskFrame (s : State) (t : Task) (u : Nat) : TaskFrame s (cutRun s t u).2 := by
  have iters : TaskFrame s (freeIters s t).2 := by
    unfold freeIters
    split <;> exact ⟨rfl, rfl, rfl⟩
  exact iters.trans ⟨rfl, rfl, rfl⟩

theorem psnDiscard_taskFrame (s : State) (u : Nat) (t : Task) (iters : Nat) : TaskFrame s (psnDiscard s u t iters) := by
  unfold psnDiscard
  refine (raise_taskFrame s 0x0801 u (probWord s t) iters).trans ?_
  dsimp only
  split <;> exact ⟨rfl, rfl, rfl⟩

theorem failRun_taskFrame (s : State) (t : Task) (u : Nat) : TaskFrame s (failRun s t u) := by
  unfold failRun
  split
  · refine (cutRun_taskFrame s t u).trans (.trans ?_ (failTask_taskFrame ..))
    split
    · exact psnDiscard_taskFrame ..
    · exact .refl _
  · exact failTask_taskFrame ..

theorem failExec_taskFrame (s : State) (u : Nat) : TaskFrame s (failExec s u) := by
  unfold failExec
  split
  · exact .refl s
  · exact ((slotNext_taskFrame (dropStalls s u) u).trans (failRun_taskFrame ..)).of_start rfl rfl rfl

/-- What follows a completion entry, or the end of a task that has none. -/
theorem taskDone_taskFrame (s : State) (u : Nat) (l : List Decr) : TaskFrame s (slotNext (clkDecs (countDone s u) [] l) u) :=
  (countDone_taskFrame s u).trans ((clkDecs_taskFrame ..).trans (slotNext_taskFrame ..))

theorem qOpen_safety_phu (s : State) (q : Nat) : (qOpen s q).2.safety = s.safety ∧ (qOpen s q).2.phu = s.phu := by
  unfold qOpen
  split
  · exact ⟨rfl, rfl⟩
  · dsimp only
    split <;> exact ⟨rfl, rfl⟩

/-- A push writes memory, but not the safety record or the PHU. -/
theorem qPush_safety_phu (s : State) (q u : Nat) (b : Bytes) (after : List Decr) (ends : Bool) :
    (qPush s q u b after ends).2.2.safety = s.safety ∧ (qPush s q u b after ends).2.2.phu = s.phu := by
  unfold qPush
  split
  · exact ⟨raise_safety .., raise_phu ..⟩
  · dsimp only
    split <;> exact qOpen_safety_phu s q

theorem finishTask_safety_phu (s : State) (u addr n : Nat) (b : Bytes) :
    (finishTask s u addr n b).safety = s.safety ∧ (finishTask s u addr n b).phu = s.phu := by
  unfold finishTask
  split
  · exact ⟨rfl, rfl⟩
  · next t _ =>
    dsimp only
    split
    · have h := taskDone_taskFrame s u (decFor t.desc.doneCtr u)
      exact ⟨h.safety, h.phu⟩
    · obtain ⟨hsafety, hphu⟩ := qPush_safety_phu s t.desc.outQueue u (complEntry t.desc.taskId u t.cycle 0 addr n b)
        (decFor t.desc.doneCtr u) true
      split
      · have h := taskDone_taskFrame
        exact ⟨(h ..).safety.trans hsafety, (h ..).phu.trans hphu⟩
      · exact ⟨hsafety, hphu⟩
      · have h := failExec_taskFrame
        exact ⟨(h ..).safety.trans hsafety, (h ..).phu.trans hphu⟩

/-- A task that names no queue ends without an entry. -/
theorem finishTask_mem_of_no_queue {s : State} {u : Nat} {t : Task} (h : running s u = some t) (hq : t.desc.outQueue = 0xFFFFF)
    (addr n : Nat) (b : Bytes) : (finishTask s u addr n b).mem = s.mem := by
  simp only [finishTask, h, hq, if_true]
  exact (taskDone_taskFrame ..).mem

/-! ### DISABLE (R14, R16) -/

/-- A command to a unit leaves the safety record alone and adds to the records that wait. -/
structure EventFrame (s t : State) : Prop where
  safety : t.safety = s.safety
  added : ∃ l, t.logs.buf = s.logs.buf ++ l

namespace EventFrame

theorem refl (s : State) : EventFrame s s := ⟨rfl, [], by simp⟩

theorem of_eq {s t : State} (hsafety : t.safety = s.safety) (hlogs : t.logs = s.logs) : EventFrame s t :=
  ⟨hsafety, [], by simp [hlogs]⟩

theorem trans {s t u : State} (h : EventFrame s t) (h' : EventFrame t u) : EventFrame s u := by
  obtain ⟨l, hl⟩ := h.added
  obtain ⟨l', hl'⟩ := h'.added
  exact ⟨h'.safety.trans h.safety, l ++ l', by rw [hl', hl, List.append_assoc]⟩

end EventFrame

theorem raise_eventFrame (s : State) (c u a b : Nat) : EventFrame s (raise s c u a b) :=
  ⟨raise_safety .., by rw [raise_logs]; exact ⟨_, rfl⟩⟩

theorem unitEvent_eventFrame (s : State) (u : Nat) (e : UEvent) : EventFrame s (unitEvent s u e) := by
  apply EventFrame.of_eq
  · simp [unitEvent, apply_ite State.safety]
  · simp [unitEvent, apply_ite State.logs]

theorem substitute_eventFrame (s : State) (u : Nat) : EventFrame s (substitute s u) := by
  unfold substitute
  split
  · next sp _ =>
    split
    · exact (unitEvent_eventFrame s sp .subst).trans (.of_eq rfl rfl)
    · exact .of_eq rfl rfl
  · dsimp only
    split
    · refine ⟨by simp, ?_⟩
      exact (raise_eventFrame (unitUpd s u _) ..).added
    · exact .of_eq rfl rfl

theorem svcDepart_eventFrame (s : State) (u : Nat) : EventFrame s (svcDepart s u) := by
  unfold svcDepart
  extract_lets mask
  split
  · split
    · exact .of_eq rfl rfl
    · exact .refl s
  · exact .refl s

theorem selAgain_eventFrame (s : State) (u : Nat) : EventFrame s (selAgain s u) := by
  unfold selAgain
  split
  · exact .of_eq rfl rfl
  · exact .refl s

theorem peaShort_eventFrame (s : State) (u : Nat) : EventFrame s (peaShort s u) := by
  unfold peaShort
  dsimp only
  split
  · exact raise_eventFrame ..
  · exact .refl s

theorem disableUnit_eventFrame (s : State) (u : Nat) : EventFrame s (disableUnit s u) := by
  unfold disableUnit
  dsimp only
  split
  · exact (unitEvent_eventFrame ..).trans ((substitute_eventFrame ..).trans ((svcDepart_eventFrame ..).trans
      ((selAgain_eventFrame ..).trans (peaShort_eventFrame ..))))
  · exact unitEvent_eventFrame ..

/-- The Husk's DISABLE, accepted or refused (R359). -/
theorem firmwareDisable_eventFrame (s : State) (u : Nat) : EventFrame s (firmwareCmd s u 2).2 := by
  unfold firmwareCmd
  split
  · exact disableUnit_eventFrame s u
  · exact .of_eq rfl rfl

/-! ### The safe state (R364) -/

/-- What the safe state leaves of the comparison's results: its outcome, the committed segment and the disagreements of the window. -/
structure VerdictFrame (s t : State) : Prop where
  outcome : t.safety.outcome = s.safety.outcome
  next : t.safety.next = s.safety.next
  disCycles : t.safety.disCycles = s.safety.disCycles
  added : ∃ l, t.logs.buf = s.logs.buf ++ l

theorem EventFrame.verdictFrame {s t : State} (h : EventFrame s t) : VerdictFrame s t :=
  ⟨by rw [h.safety], by rw [h.safety], by rw [h.safety], h.added⟩

theorem VerdictFrame.trans {s t u : State} (h : VerdictFrame s t) (h' : VerdictFrame t u) : VerdictFrame s u := by
  obtain ⟨l, hl⟩ := h.added
  obtain ⟨l', hl'⟩ := h'.added
  exact ⟨h'.outcome.trans h.outcome, h'.next.trans h.next, h'.disCycles.trans h.disCycles, l ++ l',
    by rw [hl', hl, List.append_assoc]⟩

theorem boxAdd_eventFrame (s : State) (t : Nat) (b1 b2 : Bytes) : EventFrame s (boxAdd s t b1 b2) := by
  refine ⟨boxAdd_safety .., ?_⟩
  rcases boxAdd_buf s t b1 b2 with h | ⟨r, -, h⟩
  · exact ⟨[], by simp [h]⟩
  · exact ⟨[r], h⟩

theorem enterSafeWith_verdictFrame (s : State) (cause : Nat) (fixed : Bool) : VerdictFrame s (enterSafeWith s cause fixed) := by
  have body (t : State) (b : Bytes) (h : EventFrame s t) : EventFrame s (raise (boxAdd t 4 [] b) 0x0D06 huskId cause 0) :=
    h.trans ((boxAdd_eventFrame ..).trans (raise_eventFrame ..))
  unfold enterSafeWith
  split
  · exact (EventFrame.refl s).verdictFrame
  · cases fixed
    · obtain ⟨houtcome, hnext, hdis, hadded⟩ := (body s (finalBody s cause) (.refl s)).verdictFrame
      exact ⟨houtcome, hnext, hdis, hadded⟩
    · obtain ⟨houtcome, hnext, hdis, hadded⟩ :=
        (body (takeFreeBytes s 44).2 (leBytes 4 cause ++ (takeFreeBytes s 44).1) (.of_eq rfl rfl)).verdictFrame
      exact ⟨houtcome, hnext, hdis, hadded⟩

theorem judgePath_verdictFrame (s : State) (u : Nat) : VerdictFrame s (judgePath s u) := by
  unfold judgePath
  split
  · exact enterSafeWith_verdictFrame ..
  · exact (EventFrame.refl s).verdictFrame

/-! ### Time -/

theorem advance_answer (s : State) (r : Resp) (dt : Nat) : advance (answer s r) dt = answer (advance s dt) r := by
  show (if phaseRuns s then _ else _ : State) = answer (if phaseRuns s then _ else _) r
  split <;> rfl

/-- The answer of a command has no part in the time at which a phase is reached. -/
theorem reachPhase_answer (s : State) (r : Resp) (g : Nat) : reachPhase (answer s r) g = answer (reachPhase s g) r := by
  show (if phase s < g ∧ phaseRuns s ∧ 0 < s.phu.inc ∧ !s.phu.boundaryDue then advance (answer s r) _ else answer s r) =
    answer (if phase s < g ∧ phaseRuns s ∧ 0 < s.phu.inc ∧ !s.phu.boundaryDue then advance s _ else s) r
  split
  · exact advance_answer ..
  · rfl

/-- While time passes to a phase, only the tick count and the PHU change: its phase and its marks of the boundary. -/
theorem reachPhase_eq (s : State) (g : Nat) : ∃ now acc due atBound, reachPhase s g = { s with
    now := now, phu := { s.phu with acc := acc, boundaryDue := due, atBound := atBound } } := by
  unfold reachPhase advance
  split
  · split
    · exact ⟨_, _, _, _, rfl⟩
    · exact ⟨_, _, _, _, rfl⟩
  · exact ⟨_, _, _, _, rfl⟩

/-! ### The Chard push (R350) -/

theorem chardPush_idle {s : State} (h : s.safety.winner = none ∨ s.safety.pushed = true ∨ s.safety.compared = true) :
    chardPush s = s := by
  unfold chardPush
  split
  · rfl
  · next w hw => exact if_pos (h.resolve_left (by simp [hw]))

theorem chardPush_effect {s : State} {w : Winner} (hw : s.safety.winner = some w) (hpushed : s.safety.pushed = false)
    (hcompared : s.safety.compared = false) :
    (chardPush s).mem = s.mem ∧ (chardPush s).safety = { s.safety with
      pushed := true, chardStack := 1 - idStack w.leek, noChard := !chardClaims s (1 - idStack w.leek) } := by
  obtain ⟨now, acc, due, atBound, hreach⟩ := reachPhase_eq s 58982
  simp only [chardPush, hw, hpushed, hcompared, Bool.false_eq_true, or_self, if_false, hreach]
  split
  · exact ⟨rfl, rfl⟩
  · have h := readyTail_taskFrame
    exact ⟨(h ..).mem, (h ..).safety⟩

/-! ### A Chard's verdict (R351 to R355) -/

/-- The registers after a check: its clk, and the Chard's counts where a model gave it a verdict. -/
def chardCounted (s : State) (u clk : Nat) (v : Option Verdict) : State :=
  match v with
  | some v => chdUnitCount (regSet s Reg.chdCycClk clk) u (!v.clear)
  | none => regSet s Reg.chdCycClk clk

theorem chardCounted_eq (s : State) (u clk : Nat) (v : Option Verdict) : ∃ regs, chardCounted s u clk v = { s with regs := regs } := by
  cases v <;> exact ⟨_, rfl⟩

theorem chardDone_other {s : State} {u : Nat} (clk : Nat) (h : ∀ t, running s u = some t → t.desc.opId ≠ 0x0601) :
    chardDone s u clk = s := by
  unfold chardDone
  split
  · rfl
  · next t ht => exact if_pos (h t ht)

section Verdict

variable {s : State} {u : Nat} {t : Task} (clk : Nat) (hrun : running s u = some t) (hop : t.desc.opId = 0x0601)
include hrun hop

/-- The check ends with its task, and its verdict counts where the Husk still takes it. -/
theorem chardDone_eq :
    let e := finishTask (chardCounted s u clk (chardVerdict s u t clk)) u 0 0 []
    chardDone s u clk = if t.cycle = e.phu.cycle ∧ phase e ≤ 61604 ∧ !e.safety.compared
      then { e with safety := { e.safety with verdict := chardVerdict s u t clk } } else e := by
  simp only [chardDone, hrun, hop, ne_eq, not_true_eq_false, if_false]
  cases chardVerdict s u t clk <;> rfl

theorem chardDone_effect :
    let inTime := t.cycle = s.phu.cycle ∧ phase s ≤ 61604 ∧ s.safety.compared = false
    (t.desc.outQueue = 0xFFFFF → (chardDone s u clk).mem.bytes = s.mem.bytes) ∧
      (inTime → (chardDone s u clk).safety = { s.safety with verdict := chardVerdict s u t clk }) ∧
      (¬ inTime → (chardDone s u clk).safety = s.safety) := by
  rw [chardDone_eq clk hrun hop]
  obtain ⟨regs, hcounted⟩ := chardCounted_eq s u clk (chardVerdict s u t clk)
  rw [hcounted]
  obtain ⟨hsafety, hphu⟩ := finishTask_safety_phu { s with regs := regs } u 0 0 []
  have hmem := finishTask_mem_of_no_queue (s := { s with regs := regs }) (u := u) (t := t) hrun
  simp only [phase, hsafety, hphu, Bool.not_eq_true']
  refine ⟨fun hq => ?_, fun h => ?_, fun h => ?_⟩
  · have hbytes := congrArg Mem.bytes (hmem hq 0 0 [])
    split <;> exact hbytes
  · rw [if_pos h]
  · rw [if_neg h, hsafety]

end Verdict

/-! ### The comparison (R357 to R359) -/

/-- The state in which the comparison judges: at its phase, and no more open in this cycle. -/
def compareStart (s : State) : State :=
  { reachPhase s 61605 with safety := { s.safety with compared := true } }

theorem compareStart_eq (s : State) : ∃ now acc due atBound, compareStart s = { s with
    now := now, phu := { s.phu with acc := acc, boundaryDue := due, atBound := atBound }
    safety := { s.safety with compared := true } } := by
  obtain ⟨now, acc, due, atBound, h⟩ := reachPhase_eq s 61605
  exact ⟨now, acc, due, atBound, by rw [compareStart, h]⟩

theorem imposedAt_compareStart (s : State) (r : Resp) (code : Nat) :
    imposedAt (compareStart (answer s r)) code = imposedAt (reachPhase s 61605) code := by
  rw [compareStart, reachPhase_answer]
  rfl

theorem compareStart_cycle (s : State) : (compareStart s).phu.cycle = s.phu.cycle := by
  obtain ⟨now, acc, due, atBound, h⟩ := compareStart_eq s
  rw [h]

/-- Neither the time that passes nor the close of the comparison has a part in the segment. -/
theorem segOf_compareStart (s : State) (w : Winner) : segOf (compareStart s) w = segOf s w := by
  obtain ⟨now, acc, due, atBound, h⟩ := compareStart_eq s
  rw [h]
  rfl

theorem publishes_compareStart (s : State) : publishes (compareStart s) = publishes s := by
  obtain ⟨now, acc, due, atBound, h⟩ := compareStart_eq s
  rw [h]
  rfl

/-- The safety record after agreement: the winner's segment is committed in the states that commit (R36, R357). -/
def agreedSafety (s : State) (w : Winner) : Safety :=
  if publishes s then { s.safety with compared := true, outcome := 0, next := some (segOf s w) }
  else { s.safety with compared := true, outcome := 4 }

theorem comparison_idle {s : State} (h : s.safety.compared = true ∨ phaseRuns s = false) : comparison s = s :=
  if_pos (h.imp id (fun h => by simp [h]))

section Comparison

variable {s : State} (hopen : s.safety.compared = false) (hruns : phaseRuns s = true)
include hopen hruns

/-- An open comparison in a running phase, by the winner and the verdict that counts. -/
theorem comparison_open : comparison s =
    let c := compareStart s
    match s.safety.winner with
    | none => { c with safety := { c.safety with outcome := 3 } }
    | some w =>
      match (if imposedAt c 0x0D03 then none else s.safety.verdict) with
      | none => chardMissing c 0xFFFF (if s.safety.noChard then 2 else 1)
      | some v =>
        if v.candId ≠ w.candId then chardMissing c 0xFFFF 1
        else if !v.clear then chardDisagree c w v
        else if v.digest ≠ (segOf c w).digest then chardMissing c v.unit 3
        else
          let c := chdStat (regCount c Reg.chdAgree) 0
          if publishes c then { c with safety := { c.safety with outcome := 0, next := some (segOf (compareStart s) w) } }
          else { c with safety := { c.safety with outcome := 4 } } := by
  simp only [comparison, hopen, hruns, Bool.false_eq_true, Bool.not_true, or_self, if_false, reachPhase_safety]
  rfl

theorem comparison_no_winner (hw : s.safety.winner = none) :
    comparison s = { compareStart s with safety := { s.safety with compared := true, outcome := 3 } } := by
  rw [comparison_open hopen hruns, hw]
  rfl

variable {w : Winner} (hw : s.safety.winner = some w)
include hw

theorem comparison_missing (h : imposedAt (compareStart s) 0x0D03 = true ∨ s.safety.verdict = none) :
    comparison s = chardMissing (compareStart s) 0xFFFF (if s.safety.noChard then 2 else 1) := by
  have hnone : (if imposedAt (compareStart s) 0x0D03 then none else s.safety.verdict) = none := by
    rcases h with h | h <;> simp [h]
  rw [comparison_open hopen hruns]
  simp only [hw, hnone]

variable {v : Verdict} (hv : s.safety.verdict = some v) (himp : imposedAt (compareStart s) 0x0D03 = false)
include hv himp

/-- The verdict counts: it is judged by its candidate, its result and its digest. -/
theorem comparison_judged : comparison s =
    let c := compareStart s
    if v.candId ≠ w.candId then chardMissing c 0xFFFF 1
    else if !v.clear then chardDisagree c w v
    else if v.digest ≠ (segOf s w).digest then chardMissing c v.unit 3
    else { chdStat (regCount c Reg.chdAgree) 0 with safety := agreedSafety s w } := by
  have hcounts : (if imposedAt (compareStart s) 0x0D03 then none else s.safety.verdict) = some v := by simp [himp, hv]
  have hpub : publishes (chdStat (regCount (compareStart s) Reg.chdAgree) 0) = publishes s := publishes_compareStart s
  rw [comparison_open hopen hruns]
  simp only [hw, hcounts, segOf_compareStart, hpub]
  unfold agreedSafety
  cases publishes s <;> rfl

theorem comparison_other_candidate (hid : v.candId ≠ w.candId) : comparison s = chardMissing (compareStart s) 0xFFFF 1 := by
  rw [comparison_judged hopen hruns hw hv himp]
  exact if_pos hid

theorem comparison_blocked (hid : v.candId = w.candId) (hclear : v.clear = false) :
    comparison s = chardDisagree (compareStart s) w v := by
  simp [comparison_judged hopen hruns hw hv himp, hid, hclear]

theorem comparison_digest_differs (hid : v.candId = w.candId) (hclear : v.clear = true) (hdig : v.digest ≠ (segOf s w).digest) :
    comparison s = chardMissing (compareStart s) v.unit 3 := by
  simp [comparison_judged hopen hruns hw hv himp, hid, hclear, hdig]

theorem comparison_agrees (hid : v.candId = w.candId) (hclear : v.clear = true) (hdig : v.digest = (segOf s w).digest) :
    comparison s = { chdStat (regCount (compareStart s) Reg.chdAgree) 0 with safety := agreedSafety s w } := by
  simp [comparison_judged hopen hruns hw hv himp, hid, hclear, hdig]

end Comparison

theorem chardMissing_effect (s : State) (u why : Nat) :
    (chardMissing s u why).safety = { s.safety with outcome := 2 } ∧ Raised (chardMissing s u why) 0x0D03 u s.phu.cycle why ∧
      (chardMissing s u why).mem = s.mem :=
  ⟨raise_safety .., raised_here .., raise_mem ..⟩

/-- A withheld frame: the comparison's outcome is "missing", with event 0x0D03. -/
theorem chardMissing_compareStart (s : State) (u why : Nat) :
    let t := chardMissing (compareStart s) u why
    t.safety = { s.safety with compared := true, outcome := 2 } ∧ Raised t 0x0D03 u s.phu.cycle why ∧ t.mem = s.mem := by
  obtain ⟨hsafety, hraised, hmem⟩ := chardMissing_effect (compareStart s) u why
  rw [compareStart_cycle] at hraised
  exact ⟨hsafety, hraised, hmem.trans (reachPhase_mem ..)⟩

/-! ### Disagreements (R359) -/

/-- A disagreement noted in registers, event 0x0D01 and the window, before the window is judged. -/
def disagreeNoted (s : State) (w : Winner) (v : Verdict) : State :=
  let place := v.place * 2 ^ 24 + v.capsule * 2 ^ 16 + v.cause
  let r := regSet (regSet (chdStat (regCount s Reg.chdDisagree) 1) Reg.chdLastDis s.phu.cycle) Reg.chdLastCause place
  { raise r 0x0D01 w.leek v.candId place with
    safety := { s.safety with
      outcome := 1, disCycles := inWindow s.phu.cycle s.safety.par.disWindow s.safety.disCycles ++ [s.phu.cycle] } }

/-- The disagreements of the window, with the present one. -/
def disagreements (s : State) : Nat := (inWindow s.phu.cycle s.safety.par.disWindow s.safety.disCycles).length + 1

/-- The Chard's event 0x0D02, with the window emptied. -/
def chardSuspect (s : State) (v : Verdict) (n : Nat) : State :=
  { raise s 0x0D02 v.unit v.unit n with safety := { s.safety with disCycles := [] } }

theorem chardDisagree_eq (s : State) (w : Winner) (v : Verdict) : chardDisagree s w v =
    if s.safety.par.disCount ≤ disagreements s
    then judgePath (firmwareCmd (chardSuspect (disagreeNoted s w v) v (disagreements s)) v.unit 2).2 v.unit
    else disagreeNoted s w v := by
  simp [chardDisagree, disagreeNoted, chardSuspect, disagreements, chdStat]

theorem raised_disagreeNoted (s : State) (w : Winner) (v : Verdict) :
    Raised (disagreeNoted s w v) 0x0D01 w.leek v.candId (v.place * 2 ^ 24 + v.capsule * 2 ^ 16 + v.cause) :=
  raised_same (raised_here ..) rfl

/-- The end of a disagreement that fills the window: the suspected Chard is disabled, whatever that brings. -/
theorem chardSuspect_disabled_verdictFrame (s : State) (v : Verdict) (n : Nat) :
    VerdictFrame (chardSuspect s v n) (judgePath (firmwareCmd (chardSuspect s v n) v.unit 2).2 v.unit) :=
  (firmwareDisable_eventFrame ..).verdictFrame.trans (judgePath_verdictFrame ..)

theorem chardDisagree_effect (s : State) (w : Winner) (v : Verdict) :
    let t := chardDisagree s w v
    t.safety.outcome = 1 ∧ t.safety.next = s.safety.next ∧
      Raised t 0x0D01 w.leek v.candId (v.place * 2 ^ 24 + v.capsule * 2 ^ 16 + v.cause) ∧
      (disagreements s < s.safety.par.disCount → t.mem = s.mem ∧ t.units = s.units) ∧
      (s.safety.par.disCount ≤ disagreements s → t.safety.disCycles = [] ∧ Raised t 0x0D02 v.unit v.unit (disagreements s)) := by
  have hnoted := raised_disagreeNoted s w v
  intro t
  by_cases hfull : s.safety.par.disCount ≤ disagreements s
  · have ht : t = _ := (chardDisagree_eq s w v).trans (if_pos hfull)
    rw [ht]
    obtain ⟨houtcome, hnext, hdis, hadded⟩ := chardSuspect_disabled_verdictFrame (disagreeNoted s w v) v (disagreements s)
    have hsuspect : Raised (chardSuspect (disagreeNoted s w v) v (disagreements s)) 0x0D02 v.unit v.unit (disagreements s) :=
      raised_same (raised_here ..) rfl
    exact ⟨houtcome, hnext, raised_more (raised_same (raised_raise hnoted ..) rfl) hadded,
      fun h => absurd hfull (Nat.not_le.mpr h), fun _ => ⟨hdis, raised_more hsuspect hadded⟩⟩
  · have ht : t = _ := (chardDisagree_eq s w v).trans (if_neg hfull)
    rw [ht]
    exact ⟨rfl, rfl, hnoted, fun _ => ⟨raise_mem .., raise_units ..⟩, fun h => absurd h hfull⟩

theorem disagreements_compareStart (s : State) : disagreements (compareStart s) = disagreements s := by
  simp only [disagreements, compareStart_cycle]
  rfl

/-! ### The commands -/

theorem flush_answer_none {s : State} (h : Settled s) : flush (answer s .none) = { s with resp := .none } := flush_quiet _ h

theorem exec_chardPush {s : State} (h : arithUp s = true) : exec .chardPush s = .next (flush (chardPush (answer s .none))) :=
  congrArg Host.Outcome.next (runArith_up s chardPush h)

theorem exec_chardVerdict {s : State} (h : arithUp s = true) (u : BitVec 16) (clk : BitVec 32) :
    exec (.chardVerdict u clk) s = .next (flush (chardDone (answer s .none) u.toNat clk.toNat)) :=
  congrArg Host.Outcome.next (runArith_up s (fun s => chardDone s u.toNat clk.toNat) h)

theorem exec_comparison {s : State} (h : arithUp s = true) : exec .comparison s = .next (flush (comparison (answer s .none))) :=
  congrArg Host.Outcome.next (runArith_up s comparison h)

/-- Settles O38: each clause is the case of `chardPush`, `chardDone` or `comparison` that its hypotheses select. -/
theorem verdictPathCommits : Obligations.VerdictPathCommits := by
  intro s harith
  have hpush := exec_chardPush harith
  have hverdict := exec_chardVerdict harith
  have hcompare := exec_comparison harith
  refine ⟨fun w hw hpushed hopen => ?_, fun h hs => ?_, fun u clk t hrun hop => ?_, fun u clk hs h => ?_, fun h hs => ?_,
    fun w hw hopen hruns => ?_, fun hw hopen hruns hs => ?_⟩
  · have h := chardPush_effect (s := answer s .none) hw hpushed hopen
    exact ⟨_, hpush, h⟩
  · rw [hpush, chardPush_idle (s := answer s .none) h, flush_answer_none hs]
  · have h := chardDone_effect (s := answer s .none) clk.toNat hrun hop
    exact ⟨_, hverdict u clk, h⟩
  · rw [hverdict, chardDone_other (s := answer s .none) clk.toNat h, flush_answer_none hs]
  · rw [hcompare, comparison_idle (s := answer s .none) h, flush_answer_none hs]
  · intro held
    have hheld {u why : Nat} (h : comparison (answer s .none) = chardMissing (compareStart (answer s .none)) u why) : held u why :=
      ⟨_, h ▸ hcompare, chardMissing_compareStart (answer s .none) u why⟩
    have himposed := imposedAt_compareStart s .none 0x0D03
    refine ⟨fun h => ?_, fun v hv himp =>
      ⟨fun hid => ?_, fun hid hclear hdig => ?_, fun hid hclear hdig => ?_, fun hid hclear => ?_⟩⟩
    · exact hheld (comparison_missing (s := answer s .none) hopen hruns hw (himposed ▸ h))
    · exact hheld (comparison_other_candidate (s := answer s .none) hopen hruns hw hv (himposed ▸ himp) hid)
    · have hc := comparison_agrees (s := answer s .none) hopen hruns hw hv (himposed ▸ himp) hid hclear hdig
      refine ⟨_, hc ▸ hcompare, rfl, ?_, ?_⟩
      · exact reachPhase_mem (answer s .none) 61605
      · exact reachPhase_units (answer s .none) 61605
    · exact hheld (comparison_digest_differs (s := answer s .none) hopen hruns hw hv (himposed ▸ himp) hid hclear hdig)
    · have hc := comparison_blocked (s := answer s .none) hopen hruns hw hv (himposed ▸ himp) hid hclear
      refine ⟨_, hc ▸ hcompare, ?_⟩
      obtain ⟨houtcome, hnext, hraised, hbelow, hfull⟩ := chardDisagree_effect (compareStart (answer s .none)) w v
      rw [disagreements_compareStart] at hbelow hfull
      exact ⟨houtcome, hnext, hraised, fun h => (hbelow h).imp (·.trans (reachPhase_mem ..)) (·.trans (reachPhase_units ..)), hfull⟩
  · have hc := comparison_no_winner (s := answer s .none) hopen hruns hw
    have hquiet : flush (comparison (answer s .none)) = comparison (answer s .none) :=
      flush_quiet _ (by rw [hc]; exact (congrArg Logs.buf (reachPhase_logs ..)).trans hs)
    refine ⟨_, hquiet ▸ hcompare, congrArg State.safety hc, ?_⟩
    obtain ⟨now, acc, due, atBound, hstart⟩ := compareStart_eq (answer s .none)
    rw [hc, hstart]
    rfl

end Sys2Proof.Machine

/-!
A unit's departure from service by fault (R14, R279, R381) and the watchdog of a firmware processor (R482): what the handling of tasks
leaves of the units, and that the processor ends OFFLINE.
-/
namespace Sys2Proof.Machine

/-! ### Steps that move no unit -/

/-- Records that two steps in turn add to those that wait. -/
theorem added_trans {s t u : State} (h : ∃ l, t.logs.buf = s.logs.buf ++ l) (h' : ∃ l, u.logs.buf = t.logs.buf ++ l) :
    ∃ l, u.logs.buf = s.logs.buf ++ l := by
  obtain ⟨l, hl⟩ := h
  obtain ⟨l', hl'⟩ := h'
  exact ⟨l ++ l', by rw [hl', hl, List.append_assoc]⟩

/-- A step that changes no unit's state, keeps the canonical form of the unit records and adds to the records that wait. -/
structure UnitFrame (s t : State) : Prop where
  ok : UnitsOk s → UnitsOk t
  st : UnitsOk s → ∀ v, unitSt t v = unitSt s v
  added : ∃ l, t.logs.buf = s.logs.buf ++ l

namespace UnitFrame

/-- The unit records are untouched. -/
theorem of_units {s t : State} (hunits : t.units = s.units) (hadded : ∃ l, t.logs.buf = s.logs.buf ++ l) : UnitFrame s t :=
  ⟨fun h => by rwa [UnitsOk, hunits], fun _ v => by rw [unitSt, unitOf, hunits]; rfl, hadded⟩

theorem of_eq {s t : State} (hunits : t.units = s.units) (hlogs : t.logs = s.logs) : UnitFrame s t :=
  of_units hunits ⟨[], by simp [hlogs]⟩

theorem refl (s : State) : UnitFrame s s := of_eq rfl rfl

theorem trans {s t u : State} (h : UnitFrame s t) (h' : UnitFrame t u) : UnitFrame s u :=
  ⟨fun hs => h'.ok (h.ok hs), fun hs v => (h'.st (h.ok hs) v).trans (h.st hs v), added_trans h.added h'.added⟩

/-- An update of other fields comes first. -/
theorem of_start {s s' t : State} (h : UnitFrame s' t) (hunits : s'.units = s.units) (hlogs : s'.logs = s.logs) : UnitFrame s t :=
  .trans (.of_eq hunits hlogs) h

theorem foldl {α : Type} {f : State → α → State} (h : ∀ s x, UnitFrame s (f s x)) (l : List α) (s : State) :
    UnitFrame s (l.foldl f s) := by
  induction l generalizing s with
  | nil => exact refl s
  | cons x l ih => exact (h s x).trans (ih (f s x))

end UnitFrame

section UnitRecords

variable {s t : State} {u : Nat} {r : UnitRec} (h : t.units = Smap.set unitDefault s.units u r)
include h

theorem unitsOk_of_set (hs : UnitsOk s) : UnitsOk t := by
  rw [UnitsOk, h]
  exact smap_set_wf _ _ _ _ hs

theorem unitOf_of_set (hs : UnitsOk s) : unitOf t u = r := by
  rw [unitOf, h]
  exact smap_get_set_same _ _ 0 _ _ hs

theorem unitOf_of_set_other (hs : UnitsOk s) {v : Nat} (hv : v ≠ u) : unitOf t v = unitOf s v := by
  rw [unitOf, h]
  exact smap_get_set_other _ _ 0 _ _ _ hs hv

end UnitRecords

theorem unitSet_unitFrame (s : State) (u : Nat) (r : UnitRec) (hr : r.st = unitSt s u) : UnitFrame s (unitSet s u r) := by
  refine ⟨unitsOk_of_set rfl, fun hs v => ?_, [], by simp⟩
  by_cases hv : v = u
  · rw [hv, unitSt, unitOf_of_set rfl hs, hr]
  · rw [unitSt, unitOf_of_set_other rfl hs hv]; rfl

theorem unitUpd_unitFrame (s : State) (u : Nat) (f : UnitRec → UnitRec) (hf : ∀ r, (f r).st = r.st) : UnitFrame s (unitUpd s u f) :=
  unitSet_unitFrame s u _ (hf _)

theorem raise_unitFrame (s : State) (c u a b : Nat) : UnitFrame s (raise s c u a b) :=
  .of_units (raise_units ..) (raise_eventFrame ..).added

theorem raiseOnion_unitFrame (s : State) (k c u a b : Nat) : UnitFrame s (raiseOnion s k c u a b) :=
  .of_units (setEventBits_units ..) ⟨_, (congrArg Logs.buf (setEventBits_logs ..)).trans rfl⟩

/-! ### The tasks of a unit that fails (R279) -/

theorem decOne_unitFrame (a : ClkAcc) (d : Decr) : UnitFrame a.st (decOne a d).st := by
  unfold decOne
  dsimp only
  split
  · exact .refl _
  · split
    · exact (raiseOnion_unitFrame ..).of_start rfl rfl
    · split
      · split <;> exact .of_eq rfl rfl
      · exact .of_eq rfl rfl

theorem decOne_foldl_unitFrame (l : List Decr) (a : ClkAcc) : UnitFrame a.st (l.foldl decOne a).st := by
  induction l generalizing a with
  | nil => exact .refl _
  | cons d l ih => exact (decOne_unitFrame a d).trans (ih (decOne a d))

theorem queueRelease_unitFrame (s : State) (n : Nat) : UnitFrame s (queueRelease s n) := by
  unfold queueRelease
  dsimp only
  split <;> exact .of_eq rfl rfl

theorem clkDecs_unitFrame (s : State) (gates others : List Decr) : UnitFrame s (clkDecs s gates others) := by
  have decs (a : ClkAcc) (l : List Decr) (rels : List Nat) (h : UnitFrame s a.st) :
      UnitFrame s (rels.foldl queueRelease (l.foldl decOne a).st) :=
    h.trans ((decOne_foldl_unitFrame l a).trans (.foldl queueRelease_unitFrame rels _))
  exact .trans (decs _ _ _ (.of_eq rfl rfl)) (.of_eq rfl rfl)

theorem recallOne_unitFrame (s : State) (cls stack lvl : Nat) : UnitFrame s (recallOne s cls stack lvl) := by
  unfold recallOne
  split
  · exact .refl s
  · split
    · next u _ =>
      split
      · exact (unitUpd_unitFrame s u (fun r => { r with pref := none }) fun _ => rfl).trans (.of_eq rfl rfl)
      · exact .refl s
    · exact .refl s

theorem readyHead_unitFrame (s : State) (t : Task) : UnitFrame s (readyHead s t) :=
  (recallOne_unitFrame ..).of_start rfl rfl

theorem failTask_unitFrame (s : State) (t : Task) (u : Nat) : UnitFrame s (failTask s t u) := by
  unfold failTask
  split
  · refine .trans ?_ (readyHead_unitFrame ..)
    split
    · exact .of_eq rfl rfl
    · exact .refl s
  · exact clkDecs_unitFrame ..

theorem noteBusy_units_logs (s : State) (u : Nat) : (noteBusy s u).units = s.units ∧ (noteBusy s u).logs = s.logs := by
  unfold noteBusy
  split
  · split
    · unfold busyAdd
      dsimp only
      split <;> exact ⟨rfl, rfl⟩
    · exact ⟨rfl, rfl⟩
  · exact ⟨rfl, rfl⟩

theorem cutRun_unitFrame (s : State) (t : Task) (u : Nat) : UnitFrame s (cutRun s t u).2 := by
  have iters : UnitFrame s (freeIters s t).2 := by
    unfold freeIters
    split <;> exact .of_eq rfl rfl
  exact iters.trans (.of_eq rfl rfl)

theorem psnDiscard_unitFrame (s : State) (u : Nat) (t : Task) (iters : Nat) : UnitFrame s (psnDiscard s u t iters) := by
  unfold psnDiscard
  refine (raise_unitFrame s 0x0801 u (probWord s t) iters).trans ?_
  dsimp only
  split
  · exact .of_eq rfl rfl
  · exact .of_eq rfl rfl
  · exact .refl _

theorem failRun_unitFrame (s : State) (t : Task) (u : Nat) : UnitFrame s (failRun s t u) := by
  unfold failRun
  split
  · refine (cutRun_unitFrame s t u).trans (.trans ?_ (failTask_unitFrame ..))
    split
    · exact psnDiscard_unitFrame ..
    · exact .refl _
  · exact failTask_unitFrame ..

theorem dropTasks_unitFrame (s : State) (u : Nat) : UnitFrame s (dropTasks s u) := by
  unfold dropTasks
  extract_lets r emptied returned
  have hemptied : UnitFrame s emptied := by
    obtain ⟨hunits, hlogs⟩ := noteBusy_units_logs s u
    refine (unitSet_unitFrame _ _ _ ?_).of_start hunits hlogs
    show (unitOf s u).st = (Smap.get unitDefault (noteBusy s u).units u).st
    rw [hunits]
    rfl
  have hreturned : UnitFrame s returned := by
    dsimp only [returned]
    split
    · exact hemptied.trans (readyHead_unitFrame ..)
    · exact hemptied
  split
  · split
    · exact hreturned.trans (failRun_unitFrame ..)
    · exact hreturned.trans (readyHead_unitFrame ..)
  · exact hreturned

/-! ### One event of a unit (R14, R16) -/

/-- An event of R14 writes the unit's own record, with the state of the table, except for the Husk's failed test (R13). -/
theorem unitEvent_units (s : State) (u : Nat) {e : UEvent} (he : e ≠ .fail) :
    ∃ room r, (unitEvent s u e).units = Smap.set unitDefault s.units u r ∧
      r.st = (unitNext e room (unitSt s u) (unitOf s u).ep).1 := by
  refine ⟨decide (countIn s (poolUnits u) .active < poolTarget u), ?_⟩
  simp only [unitEvent, apply_ite State.units, w1cSet_units, unitSet_units, ite_self, he, and_false, if_false]
  exact ⟨_, rfl, rfl⟩

theorem unitEvent_other (s : State) (u : Nat) {e : UEvent} (he : e ≠ .fail) (hs : UnitsOk s) :
    UnitsOk (unitEvent s u e) ∧ ∀ v, v ≠ u → unitSt (unitEvent s u e) v = unitSt s v := by
  obtain ⟨room, r, hunits, -⟩ := unitEvent_units s u he
  exact ⟨unitsOk_of_set hunits hs, fun v hv => by rw [unitSt, unitOf_of_set_other hunits hs hv]; rfl⟩

/-- A unit ends OFFLINE, in unit records of canonical form, with the records that wait only added to. -/
structure LeftService (s t : State) (u : Nat) : Prop where
  ok : UnitsOk t
  st : unitSt t u = .offline
  added : ∃ l, t.logs.buf = s.logs.buf ++ l

theorem LeftService.trans {s t t' : State} {u : Nat} (h : LeftService s t u) (h' : LeftService t t' u) : LeftService s t' u :=
  ⟨h'.ok, h'.st, added_trans h.added h'.added⟩

theorem LeftService.trans_frame {s t t' : State} {u : Nat} (h : LeftService s t u) (h' : UnitFrame t t') : LeftService s t' u :=
  ⟨h'.ok h.ok, (h'.st h.ok u).trans h.st, added_trans h.added h'.added⟩

theorem UnitFrame.trans_left {s t t' : State} {u : Nat} (h : UnitFrame s t) (h' : LeftService t t' u) : LeftService s t' u :=
  ⟨h'.ok, h'.st, added_trans h.added h'.added⟩

theorem unitEvent_fault_left {s : State} {u : Nat} (hs : UnitsOk s) (h : unitSt s u = .active ∨ unitSt s u = .draining) :
    LeftService s (unitEvent s u .fault) u := by
  have hne : UEvent.fault ≠ .fail := by decide
  obtain ⟨room, r, hunits, hr⟩ := unitEvent_units s u hne
  refine ⟨(unitEvent_other s u hne hs).1, ?_, (unitEvent_eventFrame ..).added⟩
  rw [unitSt, unitOf_of_set hunits hs, hr]
  rcases h with h | h <;> rw [h] <;> rfl

/-- The unit that takes a place is a SPARE (R16), so no other than it moves. -/
theorem substitute_left {s : State} {u : Nat} (hs : UnitsOk s) (h : unitSt s u = .offline) : LeftService s (substitute s u) u := by
  have here : LeftService s s u := ⟨hs, h, [], by simp⟩
  have subst (t : State) (n : Nat) : UnitFrame t (unitUpd t u (fun r => { r with subst := n })) := unitUpd_unitFrame t u _ fun _ => rfl
  unfold substitute
  split
  · next sp hsp =>
    have hspare : unitSt s sp = .spare := by simpa using List.find?_some hsp
    have hne : u ≠ sp := by
      rintro rfl
      simp [h] at hspare
    split
    · obtain ⟨hok, hother⟩ := unitEvent_other s sp (e := .subst) (by decide) hs
      have moved : LeftService s (unitEvent s sp .subst) u := ⟨hok, (hother u hne).trans h, (unitEvent_eventFrame ..).added⟩
      exact moved.trans_frame (subst _ sp)
    · exact here.trans_frame (subst s 0xFFFF)
  · dsimp only
    split
    · exact here.trans_frame ((subst s 0xFFFF).trans ((raise_unitFrame ..).trans (.of_eq rfl rfl)))
    · exact here.trans_frame (subst s 0xFFFF)

theorem svcDepart_unitFrame (s : State) (u : Nat) : UnitFrame s (svcDepart s u) := by
  unfold svcDepart
  extract_lets mask
  split
  · split
    · exact .of_eq rfl rfl
    · exact .refl s
  · exact .refl s

theorem selAgain_unitFrame (s : State) (u : Nat) : UnitFrame s (selAgain s u) := by
  unfold selAgain
  split
  · exact .of_eq rfl rfl
  · exact .refl s

theorem departed_left {s : State} {u : Nat} (hs : UnitsOk s) (h : unitSt s u = .offline) : LeftService s (departed s u) u :=
  (substitute_left hs h).trans_frame ((svcDepart_unitFrame ..).trans (selAgain_unitFrame ..))

/-! ### A fault (R14, R161, R279, R381) -/

theorem peaShort_unitFrame (s : State) (u : Nat) : UnitFrame s (peaShort s u) := by
  unfold peaShort
  dsimp only
  split
  · exact raise_unitFrame ..
  · exact .refl s

theorem podFault_unitFrame (s : State) (u : Nat) (was : Bool) : UnitFrame s (podFault s u was) := by
  unfold podFault
  extract_lets g busy why emptied woken
  split
  · have hwoken : UnitFrame s woken := by
      dsimp only [woken]
      split <;> exact .of_eq rfl rfl
    exact hwoken.trans (raise_unitFrame ..)
  · exact peaShort_unitFrame s u

theorem faultOut_left {s : State} {u : Nat} (hs : UnitsOk s) (h : unitSt s u = .active ∨ unitSt s u = .draining) :
    LeftService s (faultOut s u) u := by
  have fault := unitEvent_fault_left hs h
  have rest (t : State) (was : Bool) : UnitFrame t (podFault (dropTasks t u) u was) :=
    (dropTasks_unitFrame t u).trans (podFault_unitFrame ..)
  unfold faultOut
  simp only [if_pos h]
  split
  · exact (fault.trans (departed_left fault.ok fault.st)).trans_frame (rest ..)
  · exact fault.trans_frame (rest ..)

theorem faultOut_idle {s : State} {u : Nat} (h : unitSt s u = .offline) : faultOut s u = s := by
  simp [faultOut, h]

theorem probFail_unitFrame (s : State) (code : Nat) : UnitFrame s (probFail s code) := by
  unfold probFail
  split
  · exact .of_eq rfl rfl
  · exact .refl s

theorem judgePath_off_path {s : State} {u : Nat} (h : onPath u = false) : judgePath s u = s := by
  simp [judgePath, h]

/-- The fault of a unit off the verdict path is counted, or it is lasting and takes the unit out of service. -/
theorem countFault_effect {s : State} {u : Nat} (hs : UnitsOk s) (hpath : onPath u = false) :
    UnitFrame s (countFault s u) ∨ LeftService s (countFault s u) u := by
  unfold countFault
  extract_lets r w faults counted out struck lasting noted failed
  split
  · next h =>
    have hcounted : UnitFrame s counted := unitSet_unitFrame s u _ rfl
    split
    · have hserving : unitSt counted u = .active ∨ unitSt counted u = .draining := by
        rw [hcounted.st hs u]
        exact h.2
      have hout : LeftService s out u := hcounted.trans_left (faultOut_left (hcounted.ok hs) hserving)
      have hstruck : UnitFrame out struck :=
        .trans (.of_eq (t := recordWrite out) rfl rfl) (unitUpd_unitFrame _ _ _ fun _ => rfl)
      have hfailed : UnitFrame struck failed := by
        dsimp only [failed]
        split
        · exact .trans (.of_eq (t := noted) rfl rfl) (probFail_unitFrame ..)
        · exact .of_eq rfl rfl
      rw [judgePath_off_path hpath]
      exact .inr (hout.trans_frame (hstruck.trans (hfailed.trans (raise_unitFrame ..))))
    · exact .inl hcounted
  · exact .inl (.refl s)

/-- A unit in service with a fault to its charge leaves service, whether the fault was lasting or not. -/
theorem faultOut_countFault_left {s : State} {u : Nat} (hs : UnitsOk s) (hpath : onPath u = false)
    (h : unitSt s u = .active ∨ unitSt s u = .draining) : LeftService s (faultOut (countFault s u) u) u := by
  rcases countFault_effect hs hpath with counted | left
  · exact counted.trans_left (faultOut_left (counted.ok hs) (by rwa [counted.st hs]))
  · rwa [faultOut_idle left.st]

/-! ### Watchdogs (R482) -/

theorem onPath_firmware {u : Nat} (h : idClass u = 0x0B) : onPath u = false := by
  simp [onPath, h]

theorem fwWatchdog_other {s : State} {u : Nat} (h : idClass u ≠ 0x0B ∨ (unitSt s u ≠ .active ∧ unitSt s u ≠ .draining)) :
    fwWatchdog s u = s := by
  refine if_neg fun ⟨hcls, hserving⟩ => ?_
  rcases h with h | ⟨hactive, hdraining⟩
  · exact h hcls
  · exact hserving.elim hactive hdraining

theorem fwWatchdog_effect {s : State} {u : Nat} (hs : UnitsOk s) (hcls : idClass u = 0x0B)
    (h : unitSt s u = .active ∨ unitSt s u = .draining) :
    let t := fwWatchdog s u
    unitSt t u = .offline ∧ (unitOf t u).actDue = true ∧ Raised t 0x1302 u u (field (regGet s Reg.svcCtrl) 0 8) := by
  let out := faultOut (countFault (raise s 0x1302 u u (field (regGet s Reg.svcCtrl) 0 8)) u) u
  have ht : fwWatchdog s u = unitUpd (probFail out 0x1302) u (fun r => { r with actDue := true }) := if_pos ⟨hcls, h⟩
  have raised := raise_unitFrame s 0x1302 u u (field (regGet s Reg.svcCtrl) 0 8)
  have left : LeftService _ out u :=
    faultOut_countFault_left (raised.ok hs) (onPath_firmware hcls) (by rwa [raised.st hs])
  have failed := left.trans_frame (probFail_unitFrame out 0x1302)
  have marked := failed.trans_frame (unitUpd_unitFrame _ u (fun r => { r with actDue := true }) fun _ => rfl)
  rw [ht]
  refine ⟨marked.st, ?_, raised_more (raised_here ..) marked.added⟩
  rw [unitOf_of_set rfl failed.ok]

end Sys2Proof.Machine

/-!
The update of firmware (R487 to R491): what the commands of an update do in each of their cases, and the proof of FirmwareUpdateSteps.
-/
namespace Sys2Proof.Machine

/-! ### Install and refusal (R487, R490, R491) -/

theorem fwInstall_idle {s : State} (h : fwIdle s = true) : fwInstall s = { s with
    svc := { s.svc with
      fwSt := .verifying
      pendAddr := if s.cpm.boot = .recovery then ssBase 0 else objW s 0x5000 1
      pendLen := if s.cpm.boot = .recovery then s.od.foeBytes else objW s 0x5000 2
      switchCycle := objW s 0x5000 3, pend := none } } := by
  unfold fwInstall
  split <;> exact if_pos h

theorem fwInstall_busy {s : State} (h : fwIdle s = false) :
    fwInstall s = raise { s with svc := { s.svc with reason := 4 } } 0x1305 0xFFFF 4 0xFFFF := by
  unfold fwInstall
  split <;> exact if_neg (by simp [h])

theorem fwRefuse_effect (s : State) (reason unit : Nat) :
    (fwRefuse s reason unit).svc = { s.svc with fwSt := .refused, reason := reason, pend := none } ∧
      Raised (fwRefuse s reason unit) 0x1305 0xFFFF reason unit ∧ (fwRefuse s reason unit).mem = s.mem :=
  ⟨raise_svc .., raised_here .., raise_mem ..⟩

/-! ### Verification (R486, R487) -/

/-- The reason of R491 for which the image under verification is refused, 0 for a sound one. -/
def fwReason (s : State) : Nat :=
  if fwBadHeader s s.svc.pendAddr s.svc.pendLen then 1
  else if !fwSigned s s.svc.pendAddr || !fwSections s s.svc.pendAddr then 2
  else if verKey (fwImage s s.svc.pendAddr).version < verKey s.svc.floor then 3 else 0

theorem fwVerifyDone_other {s : State} (h : s.svc.fwSt ≠ .verifying) : fwVerifyDone s = s := if_pos h

section Verifying

variable {s : State} (h : s.svc.fwSt = .verifying)
include h

theorem fwVerifyDone_by_reason : fwVerifyDone s =
    if fwReason s ≠ 0 then fwRefuse s (fwReason s) 0xFFFF
    else if s.cpm.boot = .recovery then
      fwWrite { s with svc := { s.svc with run := fwImage s s.svc.pendAddr, pend := none } }
    else { s with svc := { s.svc with pend := some (fwImage s s.svc.pendAddr), fwSt := .staging } } := by
  simp only [fwVerifyDone, fwReason, h, ne_eq, not_true_eq_false, if_false, Bool.or_eq_true]
  split
  · rfl
  · split
    · rfl
    · split <;> rfl

theorem fwVerifyDone_refused (hr : fwReason s ≠ 0) : fwVerifyDone s = fwRefuse s (fwReason s) 0xFFFF := by
  rw [fwVerifyDone_by_reason h, if_pos hr]

theorem fwVerifyDone_staging (hr : fwReason s = 0) (hboot : s.cpm.boot ≠ .recovery) : fwVerifyDone s =
    { s with svc := { s.svc with pend := some (fwImage s s.svc.pendAddr), fwSt := .staging } } := by
  rw [fwVerifyDone_by_reason h, if_neg (not_not_intro hr), if_neg hboot]

theorem fwVerifyDone_recovery (hr : fwReason s = 0) (hboot : s.cpm.boot = .recovery) : fwVerifyDone s =
    fwWrite { s with svc := { s.svc with run := fwImage s s.svc.pendAddr, pend := none } } := by
  rw [fwVerifyDone_by_reason h, if_neg (not_not_intro hr), if_pos hboot]

end Verifying

/-! ### Staging (R487) -/

theorem fwStaged_other {s : State} (h : s.svc.fwSt ≠ .staging) (failed : Option Nat) : fwStaged s failed = s := if_pos h

theorem fwStaged_all {s : State} (h : s.svc.fwSt = .staging) : fwStaged s none =
    raise { s with svc := { s.svc with fwSt := .staged, stagedAt := s.phu.bcount } } 0x1303 0xFFFF (s.svc.pend.getD .none).version
      ((fwUnits s).length + 1) := if_neg (not_not_intro h)

theorem fwStaged_failed {s : State} (h : s.svc.fwSt = .staging) (u : Nat) : fwStaged s (some u) = fwRefuse s 5 u :=
  if_neg (not_not_intro h)

/-! ### Switch and rollback (R487, R488) -/

theorem fwDue_staged {s : State} (h : fwDue s = true) : s.svc.fwSt = .staged := by
  simp only [fwDue, Bool.and_eq_true, beq_iff_eq] at h
  obtain ⟨⟨⟨-, hstaged⟩, -⟩, -⟩ := h
  exact hstaged

theorem fwSwitch_other {s : State} (h : fwDue s = false ∨ s.svc.pend = none) : fwSwitch s = s := by
  unfold fwSwitch
  split
  · rfl
  · next img himg =>
    have hdue : fwDue s = false := h.resolve_right (by simp [himg])
    simp [hdue]

/-- A change of the running image is raised as an event and enters the black box (R495). -/
theorem fwChange_effect (s : State) (v : Svc) (code d : Nat) :
    let t := boxAdd (raise { s with svc := v } code 0xFFFF d s.phu.cycle) 6 [] []
    t.svc = v ∧ Raised t code 0xFFFF d s.phu.cycle ∧ t.mem = s.mem :=
  ⟨(boxAdd_svc ..).trans (raise_svc ..), raised_boxAdd (raised_here ..) .., (boxAdd_mem ..).trans (raise_mem ..)⟩

theorem fwSwitch_due {s : State} {img : FwImage} (hdue : fwDue s = true) (hpend : s.svc.pend = some img) :
    let t := fwSwitch s
    t.svc = { s.svc with old := some s.svc.run, run := img, pend := none, bank := 1 - s.svc.bank, fwSt := .probation
                         probEnd := s.phu.cycle + objN s 0x5000 7, rollbackBy := none } ∧
      Raised t 0x1304 0xFFFF img.version s.phu.cycle ∧ t.mem = s.mem := by
  simp only [fwSwitch, hpend, hdue, if_true]
  exact fwChange_effect ..

theorem fwRollback_other {s : State}
    (h : s.svc.fwSt ≠ .probation ∨ s.phu.atBound = false ∨ s.svc.rollbackBy = none ∨ s.svc.old = none) : fwRollback s = s := by
  unfold fwRollback
  split
  · next hc himg =>
    refine if_neg fun ⟨hbound, hprob⟩ => ?_
    simp [hc, himg, hbound, hprob] at h
  · rfl

theorem fwRollback_due {s : State} {c : Nat} {img : FwImage} (hprob : s.svc.fwSt = .probation) (hbound : s.phu.atBound = true)
    (hc : s.svc.rollbackBy = some c) (himg : s.svc.old = some img) :
    let t := fwRollback s
    t.svc = { s.svc with run := img, old := none, bank := 1 - s.svc.bank, fwSt := .rolledBack, rollbackBy := none } ∧
      Raised t 0x1306 0xFFFF c s.phu.cycle ∧ t.mem = s.mem := by
  simp only [fwRollback, hc, himg, hbound, hprob, and_self, if_true]
  exact fwChange_effect ..

/-! ### Cancellation and the end of probation (R488) -/

theorem fwCancel_due {s : State} (h : fwDue s = true) : fwCancel s = s := by
  simp [fwCancel, fwDue_staged h, h]

theorem fwCancel_pending {s : State} (h : [FwSt.verifying, .staging, .staged].contains s.svc.fwSt = true) (hdue : fwDue s = false) :
    fwCancel s = { s with svc := { s.svc with fwSt := .idle, pend := none } } := by
  have hst : s.svc.fwSt = .verifying ∨ s.svc.fwSt = .staging ∨ s.svc.fwSt = .staged := by simpa using h
  rcases hst with hst | hst | hst <;> simp [fwCancel, hst, hdue]

theorem fwCancel_other {s : State} (h : [FwSt.verifying, .staging, .staged, .probation].contains s.svc.fwSt = false) :
    fwCancel s = s := by
  unfold fwCancel
  split
  case h_5 => rfl
  all_goals next hst => simp [hst] at h

/-- A rollback that is under way keeps its cause. -/
theorem fwCancel_probation {s : State} (h : s.svc.fwSt = .probation) :
    fwCancel s = { s with svc := { s.svc with rollbackBy := some (s.svc.rollbackBy.getD 0) } } := by
  have hcancel : fwCancel s = probFail s 0 := by simp [fwCancel, h]
  rw [hcancel]
  cases hc : s.svc.rollbackBy with
  | none => exact if_pos ⟨h, by simp [hc]⟩
  | some c =>
    refine (if_neg (by simp [hc])).trans ?_
    rw [Option.getD_some, ← hc]

theorem fwEndProbation_ends {s : State} (h : s.svc.fwSt = .probation) (hroll : s.svc.rollbackBy = none) :
    fwEndProbation s = fwWrite s := if_pos ⟨h, by simp [hroll]⟩

theorem probationEnd_ends {s : State} (h : s.svc.fwSt = .probation) (hroll : s.svc.rollbackBy = none) (hbound : s.phu.atBound = true)
    (hend : s.svc.probEnd ≤ s.phu.cycle) : probationEnd s = fwWrite s := if_pos ⟨hbound, h, by simp [hroll], hend⟩

theorem fwEndProbation_other {s : State} (h : s.svc.fwSt ≠ .probation ∨ s.svc.rollbackBy ≠ none) : fwEndProbation s = s := by
  refine if_neg fun ⟨hprob, hroll⟩ => ?_
  exact h.elim (· hprob) (· (Option.isNone_iff_eq_none.mp hroll))

theorem probationEnd_other {s : State} (h : s.svc.fwSt ≠ .probation ∨ s.svc.rollbackBy ≠ none) : probationEnd s = s := by
  refine if_neg fun ⟨_, hprob, hroll, _⟩ => ?_
  exact h.elim (· hprob) (· (Option.isNone_iff_eq_none.mp hroll))

theorem probationEnd_early {s : State} (h : s.phu.atBound = false ∨ s.phu.cycle < s.svc.probEnd) : probationEnd s = s := by
  refine if_neg fun ⟨hbound, _, _, hend⟩ => ?_
  exact h.elim (by simp [hbound]) (Nat.not_lt.mpr hend)

/-! ### The stored copies (R489, R490) -/

theorem storeWriteDone_other {s : State} (hrepair : s.svc.repair = none) (h : s.svc.fwSt ≠ .writing) (ok : Bool) :
    storeWriteDone s ok = s := if_pos ⟨by simp [hrepair], h⟩

/-- A write of a copy is under way, of a repair or of an update. -/
theorem storeWriteDone_not_idle {s : State} (h : s.svc.repair ≠ none ∨ s.svc.fwSt = .writing) :
    ¬ (s.svc.repair.isNone = true ∧ s.svc.fwSt ≠ .writing) := fun ⟨hrepair, hst⟩ =>
  h.elim (· (Option.isNone_iff_eq_none.mp hrepair)) hst

theorem storeWriteDone_redone {s : State} (h : s.svc.repair ≠ none ∨ s.svc.fwSt = .writing) (hretries : s.svc.retries < 3) :
    storeWriteDone s false = { s with svc := { s.svc with retries := s.svc.retries + 1 } } :=
  (if_neg (storeWriteDone_not_idle h)).trans (if_pos ⟨rfl, hretries⟩)

/-- The state in which the end of a write leaves its copy: VALID, or as it was with event 0x1307. -/
def storeJudged (s : State) (ok : Bool) : State :=
  if ok then storeSet s (s.svc.repair.getD s.svc.writingStack) .valid
  else raise s 0x1307 0xFFFF (s.svc.repair.getD s.svc.writingStack) 2

theorem storeWriteDone_judged {s : State} {ok : Bool} (h : s.svc.repair ≠ none ∨ s.svc.fwSt = .writing)
    (hok : ok = true ∨ 3 ≤ s.svc.retries) : storeWriteDone s ok =
      if (storeJudged s ok).svc.repair.isSome then { storeJudged s ok with svc := { (storeJudged s ok).svc with repair := none, retries := 0 } }
      else storeNext (storeJudged s ok) (s.svc.repair.getD s.svc.writingStack) := by
  have hlast : ¬ ((!ok) = true ∧ s.svc.retries < 3) := fun ⟨hfail, hretries⟩ => by
    rcases hok with rfl | hok
    · simp at hfail
    · omega
  exact (if_neg (storeWriteDone_not_idle h)).trans (if_neg hlast)

theorem storeJudged_repair (s : State) (ok : Bool) : (storeJudged s ok).svc.repair = s.svc.repair := by
  cases ok
  · exact congrArg Svc.repair (raise_svc ..)
  · rfl

/-- A repair ends with its copy, whatever became of it. -/
theorem storeWriteDone_repair {s : State} {ok : Bool} {r : Nat} (h : s.svc.repair = some r) (hok : ok = true ∨ 3 ≤ s.svc.retries) :
    storeWriteDone s ok =
      { storeJudged s ok with svc := { (storeJudged s ok).svc with repair := none, retries := 0 } } := by
  rw [storeWriteDone_judged (.inl (by simp [h])) hok, storeJudged_repair, h]
  exact if_pos rfl

theorem storeWriteDone_repaired {s : State} {r : Nat} (h : s.svc.repair = some r) : storeWriteDone s true = { s with
    svc := { s.svc with
      img0 := if r = 0 then s.svc.run else s.svc.img0, img1 := if r = 1 then s.svc.run else s.svc.img1
      store0 := if r = 0 then .valid else s.svc.store0, store1 := if r = 1 then .valid else s.svc.store1
      repair := none, retries := 0 } } := by
  simp only [storeWriteDone_repair h (.inl rfl), storeJudged, storeSet, h, if_true, true_and, Option.getD_some]

theorem storeWriteDone_update {s : State} {ok : Bool} (hrepair : s.svc.repair = none) (hst : s.svc.fwSt = .writing)
    (hok : ok = true ∨ 3 ≤ s.svc.retries) : storeWriteDone s ok = storeNext (storeJudged s ok) s.svc.writingStack := by
  rw [storeWriteDone_judged (.inr hst) hok, storeJudged_repair, hrepair, Option.getD_none]
  exact if_neg (by simp)

/-- The copy of Stack 1 follows. -/
theorem storeNext_first (s : State) : storeNext s 0 =
    { s with svc := { s.svc with store1 := .writing, writingStack := 1, retries := 0 } } := by
  simp [storeNext, storeSet]

/-- Whether both stored copies are VALID. -/
def copiesValid (s : State) : Bool := s.svc.store0 == .valid && s.svc.store1 == .valid

/-- Whether the end of an update raises the anti-rollback floor. -/
def floorRises (s : State) : Bool := copiesValid s && decide (verKey s.svc.floor < verKey s.svc.run.minVersion)

/-- The service state at the end of an update: idle again, the floor raised when both copies are VALID. -/
def updateIdle (s : State) : State := { s with
  svc := { s.svc with fwSt := .idle, old := none, retries := 0
                      floor := if floorRises s then s.svc.run.minVersion else s.svc.floor } }

/-- The end of an update, before the reset that ends a recovery: the record of a new floor, and event 0x1307 for both copies. -/
def updateEnded (s : State) : State :=
  let t := if floorRises s then recordWrite (updateIdle s) else updateIdle s
  if copiesValid s then raise t 0x1307 0xFFFF 1 1 else t

theorem storeNext_last (s : State) {k : Nat} (h : k ≠ 0) :
    storeNext s k = if s.cpm.boot = .recovery then deviceReset (updateEnded s) else updateEnded s := by
  have hcpm : (updateEnded s).cpm = s.cpm := by
    unfold updateEnded
    dsimp only
    split <;> split <;> simp [updateIdle]
  rw [← hcpm]
  exact if_neg h

theorem updateEnded_incomplete {s : State} (h : copiesValid s = false) :
    updateEnded s = { s with svc := { s.svc with fwSt := .idle, old := none, retries := 0 } } := by
  simp [updateEnded, updateIdle, floorRises, h]

theorem updateEnded_complete {s : State} (h : copiesValid s = true) : ∃ t, updateEnded s = raise t 0x1307 0xFFFF 1 1 ∧
    t.mem = s.mem ∧ t.logs = s.logs ∧
    t.svc = { (updateIdle s).svc with writes := if floorRises s then s.svc.writes + 1 else s.svc.writes } := by
  unfold updateEnded
  refine ⟨_, if_pos h, ?_⟩
  split <;> exact ⟨rfl, rfl, rfl⟩

/-- The floor never falls (R489). -/
theorem updateIdle_floor {s : State} (h : copiesValid s = true) :
    verKey (updateIdle s).svc.floor = max (verKey s.svc.floor) (verKey s.svc.run.minVersion) := by
  simp only [updateIdle, floorRises, h, Bool.true_and, decide_eq_true_eq]
  split <;> omega

/-- What the end of an update does whether both copies are VALID or not. -/
theorem updateEnded_effect (s : State) :
    let t := updateEnded s
    t.svc.retries = 0 ∧ t.svc.run = s.svc.run ∧ t.svc.store1 = s.svc.store1 ∧ t.svc.img1 = s.svc.img1 ∧
      t.mem = s.mem ∧ ∃ l, t.logs.buf = s.logs.buf ++ l := by
  intro t
  cases h : copiesValid s with
  | false =>
    have ht : t = _ := updateEnded_incomplete h
    rw [ht]
    exact ⟨rfl, rfl, rfl, rfl, rfl, [], by simp⟩
  | true =>
    obtain ⟨t', ht', hmem, hlogs, hsvc⟩ := updateEnded_complete h
    have ht : t = _ := ht'
    rw [ht, raise_svc, raise_mem, raise_logs, hsvc, hlogs]
    exact ⟨rfl, rfl, rfl, rfl, hmem, _, rfl⟩

/-- A device reset boots with cause 3, the permit low and the stored copies as they were (R473, R480, R490). -/
theorem deviceReset_effect (s : State) :
    let t := deviceReset s
    t.cpm.boot = .booting ∧ t.cpm.cause = 3 ∧ t.svc.store1 = s.svc.store1 ∧ t.svc.img1 = s.svc.img1 ∧ PermitLow t ∧
      Raised t 0x1208 0xFFFF 3 0 := by
  intro t
  have hcpm : t.cpm = _ := raise_cpm ..
  have hsvc : t.svc = _ := raise_svc ..
  have hsafety : t.safety = _ := raise_safety ..
  rw [PermitLow, hcpm, hsvc, hsafety]
  exact ⟨rfl, rfl, rfl, rfl, ⟨rfl, rfl, rfl, rfl⟩, raised_here ..⟩

theorem storeWriteDone_failed {s : State} (h : s.svc.repair ≠ none ∨ s.svc.fwSt = .writing) (hretries : 3 ≤ s.svc.retries) :
    let k := s.svc.repair.getD s.svc.writingStack
    let t := storeWriteDone s false
    k = 0 ∨ s.cpm.boot ≠ .recovery ∨ s.svc.repair ≠ none →
      Raised t 0x1307 0xFFFF k 2 ∧ t.svc.retries = 0 ∧ t.svc.run = s.svc.run ∧
        (s.svc.store1 ≠ .valid → t.svc.floor = s.svc.floor) ∧ t.mem = s.mem := by
  intro k t hgoes
  cases hrepair : s.svc.repair with
  | some r =>
    have ht : t = _ := storeWriteDone_repair hrepair (.inr hretries)
    have hsvc : (storeJudged s false).svc = s.svc := raise_svc ..
    rw [ht, hsvc]
    exact ⟨raised_same (raised_here s 0x1307 0xFFFF k 2) rfl, rfl, rfl, fun _ => rfl, raise_mem ..⟩
  | none =>
    have hst : s.svc.fwSt = .writing := h.resolve_left (by simp [hrepair])
    have ht : t = _ := storeWriteDone_update hrepair hst (.inr hretries)
    have hraised : Raised (storeJudged s false) 0x1307 0xFFFF k 2 := raised_here ..
    have hsvc : (storeJudged s false).svc = s.svc := raise_svc ..
    have hcpm : (storeJudged s false).cpm = s.cpm := raise_cpm ..
    have hmem : (storeJudged s false).mem = s.mem := raise_mem ..
    have hk : k = s.svc.writingStack := by simp [k, hrepair]
    by_cases hfirst : s.svc.writingStack = 0
    · rw [ht, hfirst, storeNext_first, hsvc]
      exact ⟨raised_same hraised rfl, rfl, rfl, fun _ => rfl, hmem⟩
    · have hboot : s.cpm.boot ≠ .recovery := (hgoes.resolve_left (hk ▸ hfirst)).resolve_right (by simp [hrepair])
      rw [ht, storeNext_last _ hfirst, hcpm, if_neg hboot]
      obtain ⟨hretries, hrun, -, -, hmem', hadded⟩ := updateEnded_effect (storeJudged s false)
      refine ⟨raised_more hraised hadded, hretries, hrun.trans (by rw [hsvc]), fun hstore => ?_, hmem'.trans hmem⟩
      have hinvalid : copiesValid (storeJudged s false) = false := by simp [copiesValid, hsvc, hstore]
      rw [updateEnded_incomplete hinvalid, hsvc]

section Written

variable {s : State} (hrepair : s.svc.repair = none) (hst : s.svc.fwSt = .writing)
include hrepair hst

theorem storeWriteDone_written {k : Nat} (hk : s.svc.writingStack = k) : storeWriteDone s true = storeNext (storeSet s k .valid) k := by
  rw [storeWriteDone_update hrepair hst (.inl rfl), storeJudged, hrepair, Option.getD_none, hk]
  rfl

theorem storeWriteDone_first_written (hk : s.svc.writingStack = 0) : storeWriteDone s true = { s with
    svc := { s.svc with img0 := s.svc.run, store0 := .valid, store1 := .writing, writingStack := 1, retries := 0 } } := by
  rw [storeWriteDone_written hrepair hst hk, storeNext_first]
  simp [storeSet]

theorem storeWriteDone_last_written (hk : s.svc.writingStack = 1) : storeWriteDone s true =
    if s.cpm.boot = .recovery then deviceReset (updateEnded (storeSet s 1 .valid)) else updateEnded (storeSet s 1 .valid) := by
  rw [storeWriteDone_written hrepair hst hk, storeNext_last _ (by decide)]
  rfl

theorem storeWriteDone_last_alone (hk : s.svc.writingStack = 1) (hboot : s.cpm.boot ≠ .recovery) (hstore : s.svc.store0 ≠ .valid) :
    storeWriteDone s true = { s with
      svc := { s.svc with img1 := s.svc.run, store1 := .valid, fwSt := .idle, old := none, retries := 0 } } := by
  have hinvalid : copiesValid (storeSet s 1 .valid) = false := by simp [copiesValid, storeSet, hstore]
  rw [storeWriteDone_last_written hrepair hst hk, if_neg hboot, updateEnded_incomplete hinvalid]
  simp [storeSet]

theorem storeWriteDone_both_written (hk : s.svc.writingStack = 1) (hboot : s.cpm.boot ≠ .recovery) (hstore : s.svc.store0 = .valid) :
    let t := storeWriteDone s true
    t.svc.fwSt = .idle ∧ t.svc.store1 = .valid ∧ t.svc.img1 = s.svc.run ∧ Raised t 0x1307 0xFFFF 1 1 ∧
      verKey t.svc.floor = max (verKey s.svc.floor) (verKey s.svc.run.minVersion) ∧ t.mem = s.mem := by
  intro t
  have hvalid : copiesValid (storeSet s 1 .valid) = true := by simp [copiesValid, storeSet, hstore]
  obtain ⟨t', ht', hmem, -, hsvc⟩ := updateEnded_complete hvalid
  have ht : t = raise t' 0x1307 0xFFFF 1 1 := by rw [← ht']; exact (storeWriteDone_last_written hrepair hst hk).trans (if_neg hboot)
  have hfloor := updateIdle_floor hvalid
  rw [ht, raise_svc, raise_mem, hsvc]
  exact ⟨rfl, rfl, rfl, raised_here .., hfloor, hmem⟩

theorem storeWriteDone_recovered (hk : s.svc.writingStack = 1) (hboot : s.cpm.boot = .recovery) :
    let t := storeWriteDone s true
    t.cpm.boot = .booting ∧ t.cpm.cause = 3 ∧ t.svc.store1 = .valid ∧ t.svc.img1 = s.svc.run ∧ PermitLow t ∧
      Raised t 0x1208 0xFFFF 3 0 := by
  intro t
  have ht : t = deviceReset (updateEnded (storeSet s 1 .valid)) := (storeWriteDone_last_written hrepair hst hk).trans (if_pos hboot)
  obtain ⟨-, -, hstore, himg, -⟩ := updateEnded_effect (storeSet s 1 .valid)
  obtain ⟨hbooting, hcause, hstore', himg', hlow, hraised⟩ := deviceReset_effect (updateEnded (storeSet s 1 .valid))
  rw [ht]
  exact ⟨hbooting, hcause, hstore'.trans hstore, himg'.trans himg, hlow, hraised⟩

end Written

/-! ### The commands -/

/-- Settles O53: each clause is the case of the command's meaning that its hypotheses select. -/
theorem firmwareUpdateSteps : Obligations.FirmwareUpdateSteps := by
  intro s hio same w
  have settled {f : State → State} {t : State} (hf : f (answer s .none) = t) (ht : Settled t) :
      (.next (runIo s f) : Host.Outcome State Fault Refusal) = .next t := congrArg Host.Outcome.next (runIo_eq_of_settled hf hio ht)
  have flushed {f : State → State} {t : State} (hf : f (answer s .none) = t) :
      (.next (runIo s f) : Host.Outcome State Fault Refusal) = .next (flush t) := congrArg Host.Outcome.next (runIo_eq_flush hf hio)
  refine ⟨fun h hs => ?_, fun h => ?_, fun h => ⟨fun hr => ?_, fun hr hs => ⟨fun hboot => ?_, fun hboot => ?_⟩⟩, fun h hs => ?_,
    fun h => ⟨?_, fun u => ?_⟩, fun h hs o => ?_, fun img hdue hpend => ?_, fun h hs => ?_, fun hs => ?cancel, fun hs => ?probation,
    fun c img hprob hbound hc himg => ?_, fun h hs => ?_, ?store, fun u => ?watchdog⟩
  case cancel =>
    refine ⟨fun h hdue => ?_, fun h => ?_, fun h => ?_, fun h => ?_⟩
    · exact settled (fwCancel_pending (s := answer s .none) h hdue) hs
    · exact settled (fwCancel_due (s := answer s .none) h) hs
    · exact settled (fwCancel_probation (s := answer s .none) h) hs
    · exact settled (fwCancel_other (s := answer s .none) h) hs
  case probation =>
    refine ⟨fun h hroll => ⟨?_, fun hbound hend => ?_⟩, fun h => ⟨?_, ?_⟩, fun h => ?_⟩
    · exact settled (fwEndProbation_ends (s := answer s .none) h hroll) hs
    · exact settled (probationEnd_ends (s := answer s .none) h hroll hbound hend) hs
    · exact settled (fwEndProbation_other (s := answer s .none) h) hs
    · exact settled (probationEnd_other (s := answer s .none) h) hs
    · exact settled (probationEnd_early (s := answer s .none) h) hs
  case store =>
    refine ⟨fun hrepair h hs ok => ?_, fun h => ⟨fun hretries hs => ?_, fun hretries hgoes => ?_⟩, fun r hr hs => ?_,
      fun hrepair hst => ⟨fun hk hs => ?_, fun hk hboot => ⟨fun hstore hs => ?_, fun hstore => ?_⟩, fun hk hboot => ?_⟩⟩
    · exact settled (storeWriteDone_other (s := answer s .none) hrepair h ok) hs
    · exact settled (storeWriteDone_redone (s := answer s .none) h hretries) hs
    · exact ⟨_, flushed rfl, storeWriteDone_failed (s := answer s .none) h hretries hgoes⟩
    · exact settled (storeWriteDone_repaired (s := answer s .none) hr) hs
    · exact settled (storeWriteDone_first_written (s := answer s .none) hrepair hst hk) hs
    · exact settled (storeWriteDone_last_alone (s := answer s .none) hrepair hst hk hboot hstore) hs
    · exact ⟨_, flushed rfl, storeWriteDone_both_written (s := answer s .none) hrepair hst hk hboot hstore⟩
    · exact ⟨_, flushed rfl, storeWriteDone_recovered (s := answer s .none) hrepair hst hk hboot⟩
  case watchdog =>
    refine ⟨fun hcls hserving hs => ?_, fun h hs => ?_⟩
    · exact ⟨_, flushed rfl, fwWatchdog_effect (s := answer s .none) hs hcls hserving⟩
    · exact settled (fwWatchdog_other (s := answer s .none) h) hs
  · exact settled (fwInstall_idle (s := answer s .none) h) hs
  · exact ⟨_, flushed (fwInstall_busy (s := answer s .none) h), raise_svc .., raised_here .., raise_mem ..⟩
  · have hrefuse := fwRefuse_effect (answer s .none) (fwReason (answer s .none)) 0xFFFF
    exact ⟨_, flushed (fwVerifyDone_refused (s := answer s .none) h hr), hrefuse⟩
  · exact settled (fwVerifyDone_staging (s := answer s .none) h hr hboot) hs
  · exact settled (fwVerifyDone_recovery (s := answer s .none) h hr hboot) hs
  · exact settled (fwVerifyDone_other (s := answer s .none) h) hs
  · exact ⟨_, flushed (fwStaged_all (s := answer s .none) h), raise_svc .., raised_here .., raise_mem ..⟩
  · have hrefuse := fwRefuse_effect (answer s .none) 5 u.toNat
    exact ⟨_, flushed (fwStaged_failed (s := answer s .none) h u.toNat), hrefuse⟩
  · exact settled (fwStaged_other (s := answer s .none) h (o.map (·.toNat))) hs
  · exact ⟨_, flushed rfl, fwSwitch_due (s := answer s .none) hdue hpend⟩
  · exact settled (fwSwitch_other (s := answer s .none) h) hs
  · exact ⟨_, flushed rfl, fwRollback_due (s := answer s .none) hprob hbound hc himg⟩
  · exact settled (fwRollback_other (s := answer s .none) h) hs

end Sys2Proof.Machine

/-!
The whole machine (R364, R379, R483): how each command ends. Every command but a reset and a scan of the TAP leaves the state as it is or, out
of the safe state, ends in `flush`. The proofs of SafeStateAbsorbs, StepKeepsSettled, StepRunsFrontCommand and ResetStateIsSound.
-/
namespace Sys2Proof.Machine

/-! ### The guards of the wrappers -/

theorem mainUp_not_safe {s : State} (h : mainUp s = true) : s.safety.safeState = false := by
  simp only [mainUp, Bool.and_eq_true, Bool.not_eq_true'] at h
  exact h.1
theorem aonUp_not_safe {s : State} (h : aonUp s = true) : s.safety.safeState = false := by
  simp only [aonUp, Bool.and_eq_true, Bool.not_eq_true'] at h
  exact h.1
theorem arithUp_mainUp {s : State} (h : arithUp s = true) : mainUp s = true := by
  simp only [arithUp, Bool.and_eq_true] at h
  exact h.1
theorem ioUp_mainUp {s : State} (h : ioUp s = true) : mainUp s = true := by
  simp only [ioUp, Bool.and_eq_true] at h
  exact h.1
theorem appUp_mainUp {s : State} (h : appUp s = true) : mainUp s = true := by
  simp only [appUp, Bool.and_eq_true] at h
  exact h.1.1
theorem memUp_mainUp {s : State} (h : memUp s = true) : mainUp s = true := by
  simp only [memUp, Bool.and_eq_true] at h
  exact h.1

/-! ### How a command ends -/

/-- How a command ends: the state as it is; out of the safe state, the events raised given their reactions and records; a scan of the TAP,
which raises none; a reset or its release. -/
inductive Ends (s : State) : Instr → State → Prop where
  | same (c : Instr) : Ends s c s
  | flushed (c : Instr) (u : State) (h : s.safety.safeState = false) : Ends s c (flush u)
  | tap (c : Instr) (f : State → State) (h : ∀ u, (f u).logs = u.logs) : Ends s c (runTap s f)
  | powerUp : Ends s .aonPorstLow (aonPorstLow s)
  | release : Ends s .aonPorstRelease (aonPorstRelease s)
  | mainReset (h : aonUp s = true) : Ends s .porstLow (porstLow s)

/-- A guard that the safe state takes away, before a meaning that settles its events. -/
theorem ends_of_guard {p : Prop} [Decidable p] {s : State} (c : Instr) (u : State) (h : p → s.safety.safeState = false) :
    Ends s c (if p then flush u else s) := by
  split
  · exact .flushed c u (h ‹p›)
  · exact .same c

section Wrappers

variable (c : Instr) (s : State) (f : State → State)

theorem run_ends : Ends s c (run s f) := ends_of_guard c _ mainUp_not_safe
theorem runArith_ends : Ends s c (runArith s f) := ends_of_guard c _ (fun h => mainUp_not_safe (arithUp_mainUp h))
theorem runIo_ends : Ends s c (runIo s f) := ends_of_guard c _ (fun h => mainUp_not_safe (ioUp_mainUp h))
theorem runApp_ends : Ends s c (runApp s f) := ends_of_guard c _ (fun h => mainUp_not_safe (appUp_mainUp h.1))
theorem runDrv_ends : Ends s c (runDrv s f) := ends_of_guard c _ (fun h => mainUp_not_safe (appUp_mainUp h.1))
theorem runAon_ends : Ends s c (runAon s f) := ends_of_guard c _ aonUp_not_safe
theorem runMem_ends : Ends s c (runMem s f) := ends_of_guard c _ (fun h => mainUp_not_safe (memUp_mainUp h))
theorem runEcat_ends : Ends s c (runEcat s f) := by
  unfold runEcat
  split
  · exact .same c
  · exact runIo_ends c s f

end Wrappers

theorem jtagExtest_logs (s : State) (b : Bytes) : (jtagExtest s b).logs = s.logs := by
  unfold jtagExtest
  split <;> rfl

/-- Every command ends in one of those ways. -/
theorem exec_ends (c : Instr) (s : State) : ∃ t, exec c s = .next t ∧ Ends s c t := by
  cases c
  case memStallLimit | bgtestRegionStart | bgtestRegionDone | secureWipeDone | framePoseReady | frameFusionDone | versionBuildDone
      | fusionCutoff | streamStale | fovDecay | maskMissing | worldStale | syncEdge | phuSrcSelect | phuSrcOff |
      captureWindowClose | coastEntry | cycleLost | heldGateIssue | stepInFall | stepInRise | barrierForward | barrierRelease |
      tcSnapshotRead | tcFlagsRead | releaseCopy | readyStall | heldDecrement | taskClaim | huskSupervision | queuePush | queuePop
      | queuePushResume | queueStall | taskStart | budgetOverrun | intentAdmit | intentCompileDone | uctlEnable | uctlDisable |
      uctlTest | uctlRetire | uctlBadCommand | uctlUnitSelect | drainComplete | rotationStep | goldenSlotOpen | goldenBatchStart |
      goldenBatchDone | goldenSlotClose | podBatchStart | stealRequest | endMissed | chardVerdict | chardPush | comparison |
      permitBToggle | publication | checkpoint | cycleBoundary | gateIssue | planSwitch | modelSwitch | taskComplete |
      taskCheckFail | probeRetire | podBatchComplete | stealServe | stealReply | cacheRefillDone =>
    exact ⟨_, rfl, runArith_ends ..⟩
  case modelInstall | modelCancel | modelStaged | csiFrameStart | csiLongPacket | csiFrameEnd | csiShortPacket | laneSync |
      pointFragment | primInstall | primCancel | ethFrameRx | departureCommand | sakInstall | weightInstall | weightCancel |
      weightCheckDone | planInstall | planCancel | planVerifyDone | sparamUnlock | sparamStage | sparamConfirm | sparamTimeout |
      fwWatchdog | fwInstall | fwVerifyDone | fwStaged | fwSwitch | fwCancel | fwEndProbation | probationEnd | fwRollback |
      storeWriteDone | ucodeSwitchCommand | ucodeStaged | ucodeSwitch | ucodeCancel | attestRequest | attestDone |
      lifecycleCommand | planKeyWrite | provisioning | telemetrySnapshot | agingCheck | pmicVoltageDone | imuDrdy | imuSampleDone
      | i3cIbi | serdesLock | pcsLock | gptpSync | sdoUpload | sdoDownload | sdoInfo | storeParameters | restoreDefaults |
      deviceResetCommand | pstateRequest | sm2Watchdog | ecatLinkChange | fsoeFrameRx =>
    exact ⟨_, rfl, runIo_ends ..⟩
  case ddrChannelFail | clkFail | clkRestored | clkTimeout | cpmGateWrite | capEstimate | appClusterReset | powerFail =>
    exact ⟨_, rfl, run_ends ..⟩
  case safeState | porstRelease | refclkStable | pllLockCheck | tamper | watchOscFail | monitorSample | fsoeWatchdog =>
    exact ⟨_, rfl, runAon_ends ..⟩
  case ddrScrubTick | ddrRefresh | ddrRfmRequest | ddrZqCal | ddrOscMeasure =>
    exact ⟨_, rfl, runMem_ends ..⟩
  case alStateRequest | escRegisterAccess | siiWrite | rxpdoBufferDone | foeWriteOpen | foeData | foeRead =>
    exact ⟨_, rfl, runEcat_ends ..⟩
  case syncCtrWrite | hskStopRequest | hskStopRelease | busAccess =>
    exact ⟨_, rfl, runApp_ends ..⟩
  case paramEdit | driverObjRead | driverObjWrite =>
    exact ⟨_, rfl, runDrv_ends ..⟩
  case trstLow | jtagIdcode | jtagBypass | jtagSamplePreload =>
    exact ⟨_, rfl, .tap _ _ fun _ => rfl⟩
  case jtagExtest b => exact ⟨_, rfl, .tap _ _ fun u => jtagExtest_logs u b⟩
  case aonPorstLow => exact ⟨_, rfl, .powerUp⟩
  case aonPorstRelease => exact ⟨_, rfl, .release⟩
  case porstLow =>
    refine ⟨_, rfl, ?_⟩
    split
    · exact .mainReset ‹_›
    · exact .same _
  case unitTestEnd u r =>
    refine ⟨_, rfl, ?_⟩
    split
    · exact runAon_ends ..
    · exact run_ends ..
  case registerWrite who o v =>
    refine ⟨_, rfl, ?_⟩
    cases who with
    | cluster core => exact runApp_ends ..
    | firmware i =>
      dsimp only
      split
      · exact runArith_ends ..
      · exact .same _

/-! ### The safe state (R364) -/

/-- The release of a power-on reset touches only the Husk's record and the boot. -/
theorem aonPorstRelease_frame (s : State) : (aonPorstRelease s).safety = s.safety ∧ (aonPorstRelease s).mem = s.mem ∧
    (aonPorstRelease s).regs = s.regs ∧ (aonPorstRelease s).phu = s.phu ∧ (aonPorstRelease s).sched = s.sched ∧
    (aonPorstRelease s).od = s.od ∧ (aonPorstRelease s).logs = s.logs := by
  unfold aonPorstRelease
  split <;> exact ⟨rfl, rfl, rfl, rfl, rfl, rfl, rfl⟩

/-- In the safe state a command leaves the state as it is, or is a new power-up or its release. -/
theorem ends_safe {s t : State} {c : Instr} (h : Ends s c t) (hsafe : s.safety.safeState = true) :
    t = s ∨ c = .aonPorstLow ∨ t = aonPorstRelease s := by
  cases h with
  | same => exact .inl rfl
  | flushed _ u hno => exact absurd (hsafe.symm.trans hno) nofun
  | tap _ f => exact .inl (if_pos hsafe)
  | powerUp => exact .inr (.inl rfl)
  | release => exact .inr (.inr rfl)
  | mainReset hup => exact absurd (hsafe.symm.trans (aonUp_not_safe hup)) nofun

/-- Settles O42: no wrapper runs in the safe state, and the release of a power-on reset touches none of these records. -/
theorem safeStateAbsorbs : Obligations.SafeStateAbsorbs := by
  intro s c hsafe hlow
  obtain ⟨t, ht, hends⟩ := exec_ends c s
  refine ⟨t, ht, ?_⟩
  rcases ends_safe hends hsafe with rfl | hc | rfl
  · exact ⟨rfl, rfl, rfl, rfl, rfl, rfl, id⟩
  · exact absurd hc hlow
  · obtain ⟨hsafety, hmem, hregs, hphu, hsched, hod, -⟩ := aonPorstRelease_frame s
    exact ⟨hsafety, hmem, hregs, hphu, hsched, hod, fun h => by simpa only [Dead, PermitLow, hsafety] using h⟩

/-! ### Events (R379, R483) -/

theorem settled_of_logs {s t : State} (h : t.logs = s.logs) (hs : Settled s) : Settled t := by
  rw [Settled, h]
  exact hs

/-- A command ends with no record waiting. -/
theorem ends_settled {s t : State} {c : Instr} (h : Ends s c t) (hs : Settled s) : Settled t := by
  cases h with
  | same => exact hs
  | flushed _ u => exact flush_settled u
  | tap _ f hf =>
    unfold runTap
    split
    · exact hs
    · exact settled_of_logs (hf _) hs
  | powerUp => rfl
  | release =>
    obtain ⟨-, -, -, -, -, -, hlogs⟩ := aonPorstRelease_frame s
    exact settled_of_logs hlogs hs
  | mainReset =>
    unfold porstLow
    split
    · exact hs
    · rfl

/-! ### One step -/

theorem step_cons {s : State} {c : Instr} {rest : List Instr} (h : s.pending = c :: rest) :
    step s = if c.wf then exec c { s with pending := rest } else .fault .illFormed := by
  simp only [step, h]
theorem step_nil {s : State} (h : s.pending = []) : step s = .next (advance s (ticksPerClk s)) := by
  simp only [step, h, idle]

/-- A step that ends in a next state is an idle clk, or the command at the front of the queue. -/
theorem step_next_cases {s t : State} (h : step s = .next t) :
    t = advance s (ticksPerClk s) ∨ ∃ c rest, s.pending = c :: rest ∧ exec c { s with pending := rest } = .next t := by
  cases hp : s.pending with
  | nil =>
    rw [step_nil hp] at h
    exact .inl (Host.Outcome.next.inj h).symm
  | cons c rest =>
    rw [step_cons hp] at h
    split at h
    · exact .inr ⟨c, rest, rfl, h⟩
    · cases h

/-- Settles O56: the branches of `step`. -/
theorem stepRunsFrontCommand : Obligations.StepRunsFrontCommand := by
  intro s c rest
  refine ⟨fun h hwf => ?_, fun h hwf => ?_, step_nil⟩
  · rw [step_cons h, if_pos hwf]
  · rw [step_cons h, hwf]
    rfl

/-- Settles O58: an idle clk raises no event, and each command ends with no record waiting. -/
theorem stepKeepsSettled : Obligations.StepKeepsSettled := by
  intro s t hs hstep
  rcases step_next_cases hstep with rfl | ⟨c, rest, -, hexec⟩
  · exact settled_of_logs (advance_logs ..) hs
  · obtain ⟨u, hu, hends⟩ := exec_ends c { s with pending := rest }
    cases hexec.symm.trans hu
    exact ends_settled hends hs

/-- Settles O60: each field of the record of the state after reset. -/
theorem resetStateIsSound : Obligations.ResetStateIsSound :=
  ⟨rfl, rfl, rfl, ⟨rfl, rfl⟩, rfl, ⟨rfl, fun _ h => absurd h List.not_mem_nil⟩, rfl, ⟨rfl, rfl, rfl, rfl⟩, rfl, rfl, rfl, rfl, rfl, fun _ => rfl, fun _ => rfl⟩

end Sys2Proof.Machine

/-!
Units under command (R14, R16, R17, R28, R29): what an event of a unit leaves unchanged, what a UCTL command does in each of its cases, and the
proofs of UnitCommandsMoveOfflineUnit and DisableDrainsActiveUnit.
-/
namespace Sys2Proof.Machine

/-! ### A command whose meaning is known -/

section Wrappers

variable {s t : State} {f : State → State} (hf : f (answer s .none) = t)
include hf

theorem run_next (hup : mainUp s = true) : (.next (run s f) : Host.Outcome State Fault Refusal) = .next (flush t) :=
  hf ▸ congrArg _ (run_up s f hup)
theorem runArith_next (hup : arithUp s = true) : (.next (runArith s f) : Host.Outcome State Fault Refusal) = .next (flush t) :=
  hf ▸ congrArg _ (runArith_up s f hup)
theorem runIo_next (hup : ioUp s = true) : (.next (runIo s f) : Host.Outcome State Fault Refusal) = .next (flush t) :=
  hf ▸ congrArg _ (runIo_up s f hup)
theorem runArith_next_settled (hup : arithUp s = true) (ht : Settled t) :
    (.next (runArith s f) : Host.Outcome State Fault Refusal) = .next t :=
  (runArith_next hf hup).trans (congrArg _ (flush_quiet t ht))
theorem runIo_next_settled (hup : ioUp s = true) (ht : Settled t) :
    (.next (runIo s f) : Host.Outcome State Fault Refusal) = .next t :=
  (runIo_next hf hup).trans (congrArg _ (flush_quiet t ht))

end Wrappers

/-! ### Accepted and refused commands (R28, R29) -/

section ClusterCmd

variable {s : State} {u cmd : Nat} (hu : u = regGet s Reg.uctlUnitSel)
include hu

theorem clusterCmd_refused (h : cmdJudge s true u cmd ≠ 0) :
    clusterCmd s cmd = w1cSet { s with cmdResult := cmdJudge s true u cmd } Reg.uctlEvent 1 := by
  subst hu
  exact if_neg h

theorem clusterCmd_accepted (h : cmdJudge s true u cmd = 0) (hcmd : cmd ≠ 4) :
    clusterCmd s cmd = applyCmd { s with cmdResult := 0 } u cmd := by
  subst hu
  simp [clusterCmd, h, hcmd]

theorem clusterCmd_retire (h : cmdJudge s true u 4 = 0) :
    clusterCmd s 4 =
      let t := unitEvent { s with cmdResult := 0 } u .retire
      if unitSt s u ≠ .retired ∧ unitSt t u = .retired then retireRecord t u 4 else t := by
  subst hu
  simp only [clusterCmd, h, if_true, true_and]
  rfl

end ClusterCmd

/-! ### One event of a unit (R14) -/

/-- The record that an event of R14 leaves. -/
def eventRec (s : State) (u : Nat) (e : UEvent) : UnitRec :=
  let r := unitOf s u
  let n := unitNext e (decide (countIn s (poolUnits u) .active < poolTarget u)) r.st r.ep
  { r with
    st := n.1, ep := n.2, faults := if n.1 = .test ∧ r.st ≠ .test then [] else r.faults
    drain := if n.1 ≠ .draining then none else if r.st = .draining then r.drain else podHolds s u }

/-- An event writes the unit's record, sets UCTL_EVENT where the state moves, and may end a shortage of spares. -/
theorem unitEvent_eq {s : State} {u : Nat} {e : UEvent} (he : u ≠ huskId ∨ e ≠ .fail) :
    unitEvent s u e =
      let s1 := unitSet s u (eventRec s u e)
      let s2 := if (eventRec s u e).st = unitSt s u then s1 else w1cSet s1 Reg.uctlEvent 0
      if (eventRec s u e).st = .spare ∧ s2.diag.poolShort ∧ poolsWhole s2 then { s2 with diag := { s2.diag with poolShort := false } }
      else s2 := by
  simp only [unitEvent, not_and_of_not_or_not he, if_false]
  rfl

section UnitEvent

variable (s : State) (u : Nat) (e : UEvent)

@[simp] theorem unitEvent_mem : (unitEvent s u e).mem = s.mem := by simp [unitEvent, apply_ite State.mem]
@[simp] theorem unitEvent_phu : (unitEvent s u e).phu = s.phu := by simp [unitEvent, apply_ite State.phu]
@[simp] theorem unitEvent_safety : (unitEvent s u e).safety = s.safety := by simp [unitEvent, apply_ite State.safety]
@[simp] theorem unitEvent_cmdResult : (unitEvent s u e).cmdResult = s.cmdResult := by simp [unitEvent, apply_ite State.cmdResult]

end UnitEvent

theorem unitEvent_unitOf {s : State} {u : Nat} {e : UEvent} (he : u ≠ huskId ∨ e ≠ .fail) (hs : UnitsOk s) :
    unitOf (unitEvent s u e) u = eventRec s u e := by
  refine unitOf_of_set ?_ hs
  simp only [unitEvent_eq he, apply_ite State.units, w1cSet_units, unitSet_units, ite_self]

/-- The unit's state and its ENABLE-pending flag are those of the table of R14. -/
theorem unitEvent_table {s : State} {u : Nat} {e : UEvent} (he : u ≠ huskId ∨ e ≠ .fail) (hs : UnitsOk s) :
    (unitSt (unitEvent s u e) u, (unitOf (unitEvent s u e) u).ep) =
      unitNext e (decide (countIn s (poolUnits u) .active < poolTarget u)) (unitOf s u).st (unitOf s u).ep := by
  rw [unitSt, unitEvent_unitOf he hs]
  rfl

/-! ### ENABLE, TEST and RETIRE -/

theorem cmdJudge_offline {s : State} {u cmd : Nat} (hex : unitExists u = true) (h7 : idClass u ≠ 7) (h10 : idClass u ≠ 0x10)
    (hst : unitSt s u = .offline) (hcmd : cmd = 1 ∨ cmd = 3 ∨ cmd = 4) : cmdJudge s true u cmd = 0 := by
  rcases hcmd with rfl | rfl | rfl <;> simp [cmdJudge, hex, h7, h10, hst]

/-- What a retirement's record leaves unchanged. -/
theorem retireRecord_frame (s : State) (u n : Nat) : (retireRecord s u n).units = s.units ∧ (retireRecord s u n).mem = s.mem ∧
    (retireRecord s u n).phu = s.phu ∧ (retireRecord s u n).safety = s.safety ∧ (retireRecord s u n).cmdResult = s.cmdResult := by
  simp [retireRecord]

/-- What an accepted command gives the unit, with all that it leaves unchanged. -/
abbrev CmdDone (s t : State) (u : Nat) (e : UEvent) : Prop :=
  t.cmdResult = 0 ∧
  (unitSt t u, (unitOf t u).ep) =
    unitNext e (decide (countIn s (poolUnits u) .active < poolTarget u)) (unitOf s u).st (unitOf s u).ep ∧
  t.mem = s.mem ∧ t.phu = s.phu ∧ t.safety = s.safety

theorem unitEvent_cmdDone {s : State} (u : Nat) {e : UEvent} (he : e ≠ .fail) (hs : UnitsOk s) :
    CmdDone s (unitEvent { s with cmdResult := 0 } u e) u e :=
  ⟨unitEvent_cmdResult .., unitEvent_table (.inr he) hs, unitEvent_mem .., unitEvent_phu .., unitEvent_safety ..⟩

theorem clusterCmd_retire_cmdDone {s : State} {u : Nat} (hu : u = regGet s Reg.uctlUnitSel) (hj : cmdJudge s true u 4 = 0)
    (hs : UnitsOk s) : CmdDone s (clusterCmd s 4) u .retire := by
  have done := unitEvent_cmdDone u (e := .retire) (by decide) hs
  rw [clusterCmd_retire hu hj]
  dsimp only
  split
  · obtain ⟨hres, htable, hmem, hphu, hsafety⟩ := done
    obtain ⟨hunits, hmem', hphu', hsafety', hres'⟩ := retireRecord_frame (unitEvent { s with cmdResult := 0 } u .retire) u 4
    rw [unitSt, unitOf] at htable
    refine ⟨hres'.trans hres, ?_, hmem'.trans hmem, hphu'.trans hphu, hsafety'.trans hsafety⟩
    rw [unitSt, unitOf, hunits]
    exact htable
  · exact done

/-- An OFFLINE unit that an event has moved: its record and UCTL_EVENT. -/
def movedFrom (s : State) (u : Nat) (st : UState) (ep : Bool) (faults : List Nat) : State :=
  w1cSet (unitSet s u { unitOf s u with st := st, ep := ep, faults := faults, drain := none }) Reg.uctlEvent 0

theorem unitEvent_offline {s : State} {u : Nat} (hst : unitSt s u = .offline) :
    unitEvent s u .enable = movedFrom s u .test true [] ∧ unitEvent s u .test = movedFrom s u .test false [] ∧
      unitEvent s u .retire = movedFrom s u .retired false (unitOf s u).faults := by
  have hst' : (unitOf s u).st = .offline := hst
  refine ⟨?_, ?_, ?_⟩ <;> simp [unitEvent, movedFrom, hst', unitNext]

theorem movedFrom_unitSt {s : State} (u : Nat) (st : UState) (ep : Bool) (faults : List Nat) (hs : UnitsOk s) :
    unitSt (movedFrom s u st ep faults) u = st := by
  rw [unitSt, unitOf_of_set rfl hs]

/-- Settles O1: an event of R14 writes the unit's record by the table, and a refused command only its result. -/
theorem unitCommandsMoveOfflineUnit : Obligations.UnitCommandsMoveOfflineUnit := by
  intro s u hup hu
  refine ⟨fun hs hex h7 h10 hst => ?_, fun hok => ⟨fun hj => ?_, fun hj => ?_, fun hj => ?_⟩, fun hs => ?_⟩
  · have judged (cmd : Nat) (hcmd : cmd = 1 ∨ cmd = 3 ∨ cmd = 4) : cmdJudge s true u cmd = 0 := cmdJudge_offline hex h7 h10 hst hcmd
    obtain ⟨henable, htest, hretire⟩ := unitEvent_offline (s := { answer s .none with cmdResult := 0 }) hst
    refine ⟨?_, ?_, fun hok => ?_⟩
    · exact runArith_next_settled ((clusterCmd_accepted (s := answer s .none) hu (judged 1 (by simp)) (by decide)).trans henable) hup hs
    · exact runArith_next_settled ((clusterCmd_accepted (s := answer s .none) hu (judged 3 (by simp)) (by decide)).trans htest) hup hs
    · refine runArith_next ((clusterCmd_retire (s := answer s .none) hu (judged 4 (by simp))).trans ?_) hup
      simp only [hretire]
      refine if_pos ⟨?_, movedFrom_unitSt _ _ _ _ hok⟩
      rw [show unitSt (answer s .none) u = .offline from hst]
      decide
  · exact ⟨_, runArith_next (clusterCmd_accepted (s := answer s .none) hu hj (by decide)) hup,
      unitEvent_cmdDone (s := answer s .none) u (by decide) hok⟩
  · exact ⟨_, runArith_next (clusterCmd_accepted (s := answer s .none) hu hj (by decide)) hup,
      unitEvent_cmdDone (s := answer s .none) u (by decide) hok⟩
  · exact ⟨_, runArith_next rfl hup, clusterCmd_retire_cmdDone (s := answer s .none) hu hj hok⟩
  · have refused (cmd : Nat) (hj : cmdJudge s true u cmd ≠ 0) : (.next (runArith s (fun s => clusterCmd s cmd)) :
        Host.Outcome State Fault Refusal) =
        .next { w1cSet s Reg.uctlEvent 1 with cmdResult := cmdJudge s true u cmd, resp := .none } :=
      runArith_next_settled (clusterCmd_refused (s := answer s .none) hu hj) hup hs
    exact ⟨refused 1, refused 3, refused 4⟩

/-! ### A unit that leaves service on a command (R16, R364) -/

/-- What the departure of a unit leaves unchanged. -/
structure DepartFrame (s t : State) : Prop where
  result : t.cmdResult = s.cmdResult
  bytes : t.mem.bytes = s.mem.bytes
  phu : t.phu = s.phu

namespace DepartFrame

theorem refl (s : State) : DepartFrame s s := ⟨rfl, rfl, rfl⟩

theorem trans {s t u : State} (h : DepartFrame s t) (h' : DepartFrame t u) : DepartFrame s u :=
  ⟨h'.result.trans h.result, h'.bytes.trans h.bytes, h'.phu.trans h.phu⟩

end DepartFrame

theorem unitEvent_departFrame (s : State) (u : Nat) (e : UEvent) : DepartFrame s (unitEvent s u e) :=
  ⟨unitEvent_cmdResult .., by rw [unitEvent_mem], unitEvent_phu ..⟩

theorem substitute_departFrame (s : State) (u : Nat) : DepartFrame s (substitute s u) := by
  unfold substitute
  split
  · split
    · exact (unitEvent_departFrame ..).trans ⟨rfl, rfl, rfl⟩
    · exact ⟨rfl, rfl, rfl⟩
  · dsimp only
    split
    · exact ⟨by simp, by simp, by simp⟩
    · exact ⟨rfl, rfl, rfl⟩

theorem svcDepart_departFrame (s : State) (u : Nat) : DepartFrame s (svcDepart s u) := by
  unfold svcDepart
  extract_lets mask
  split
  · split
    · exact ⟨rfl, by dsimp only; split <;> rfl, rfl⟩
    · exact .refl s
  · exact .refl s

theorem selAgain_departFrame (s : State) (u : Nat) : DepartFrame s (selAgain s u) := by
  unfold selAgain
  split
  · exact ⟨rfl, rfl, rfl⟩
  · exact .refl s

theorem departed_departFrame (s : State) (u : Nat) : DepartFrame s (departed s u) :=
  (substitute_departFrame ..).trans ((svcDepart_departFrame ..).trans (selAgain_departFrame ..))

theorem peaShort_departFrame (s : State) (u : Nat) : DepartFrame s (peaShort s u) := by
  unfold peaShort
  dsimp only
  split
  · exact ⟨by simp, by simp, by simp⟩
  · exact .refl s

theorem enterSafeWith_departFrame (s : State) (cause : Nat) (fixed : Bool) : DepartFrame s (enterSafeWith s cause fixed) := by
  unfold enterSafeWith
  split
  · exact .refl s
  · cases fixed <;> exact ⟨by simp [takeFreeBytes], by simp [takeFreeBytes], by simp [takeFreeBytes]⟩

theorem judgePath_departFrame (s : State) (u : Nat) : DepartFrame s (judgePath s u) := by
  unfold judgePath
  split
  · exact enterSafeWith_departFrame ..
  · exact .refl s

theorem boxAdd_unitFrame (s : State) (t : Nat) (b1 b2 : Bytes) : UnitFrame s (boxAdd s t b1 b2) :=
  .of_units (boxAdd_units ..) (boxAdd_eventFrame ..).added

theorem enterSafeWith_unitFrame (s : State) (cause : Nat) (fixed : Bool) : UnitFrame s (enterSafeWith s cause fixed) := by
  have body (t : State) (b : Bytes) (h : UnitFrame s t) : UnitFrame s (raise (boxAdd t 4 [] b) 0x0D06 huskId cause 0) :=
    h.trans ((boxAdd_unitFrame ..).trans (raise_unitFrame ..))
  unfold enterSafeWith
  split
  · exact .refl s
  · cases fixed
    · obtain ⟨hok, hst, hadded⟩ := body s (finalBody s cause) (.refl s)
      exact ⟨hok, hst, hadded⟩
    · obtain ⟨hok, hst, hadded⟩ := body (takeFreeBytes s 44).2 (leBytes 4 cause ++ (takeFreeBytes s 44).1) (.of_eq rfl rfl)
      exact ⟨hok, hst, hadded⟩

theorem judgePath_unitFrame (s : State) (u : Nat) : UnitFrame s (judgePath s u) := by
  unfold judgePath
  split
  · exact enterSafeWith_unitFrame ..
  · exact .refl s

/-- The unit that takes a place is a SPARE (R16), so no unit in another state moves. -/
theorem substitute_unitSt {s : State} {u v : Nat} (hs : UnitsOk s) (h : unitSt s v ≠ .spare) :
    UnitsOk (substitute s u) ∧ unitSt (substitute s u) v = unitSt s v := by
  have subst (t : State) (n : Nat) : UnitFrame t (unitUpd t u (fun r => { r with subst := n })) := unitUpd_unitFrame t u _ fun _ => rfl
  have kept {t : State} (h : UnitFrame s t) : UnitsOk t ∧ unitSt t v = unitSt s v := ⟨h.ok hs, h.st hs v⟩
  unfold substitute
  split
  · next sp hsp =>
    have hspare : unitSt s sp = .spare := by simpa using List.find?_some hsp
    have hne : v ≠ sp := fun heq => h (heq ▸ hspare)
    split
    · obtain ⟨hok, hother⟩ := unitEvent_other s sp (e := .subst) (by decide) hs
      exact ⟨(subst _ sp).ok hok, ((subst _ sp).st hok v).trans (hother v hne)⟩
    · exact kept (subst s 0xFFFF)
  · dsimp only
    split
    · exact kept ((subst s 0xFFFF).trans ((raise_unitFrame ..).trans (.of_eq rfl rfl)))
    · exact kept (subst s 0xFFFF)

theorem departed_unitSt {s : State} {u : Nat} (hs : UnitsOk s) (h : unitSt s u ≠ .spare) :
    UnitsOk (departed s u) ∧ unitSt (departed s u) u = unitSt s u := by
  obtain ⟨hok, hst⟩ := substitute_unitSt (u := u) hs h
  have rest := (svcDepart_unitFrame (substitute s u) u).trans (selAgain_unitFrame _ u)
  exact ⟨rest.ok hok, (rest.st hok u).trans hst⟩

/-! ### DISABLE (R14, R16, R17) -/

theorem disableUnit_active {s : State} {u : Nat} (hs : UnitsOk s) (h : unitSt s u = .active) :
    DepartFrame s (disableUnit s u) ∧ UnitsOk (disableUnit s u) ∧ unitSt (disableUnit s u) u = .draining := by
  have hdrain : unitSt (unitEvent s u .disable) u = .draining := by
    rw [unitSt, unitEvent_unitOf (.inr (by decide)) hs]
    rw [unitSt] at h
    simp [eventRec, h, unitNext]
  obtain ⟨hok, hst⟩ := departed_unitSt (unitEvent_other s u (e := .disable) (by decide) hs).1 (by rw [hdrain]; decide)
  simp only [disableUnit, h, if_true]
  exact ⟨(unitEvent_departFrame ..).trans ((departed_departFrame ..).trans (peaShort_departFrame ..)), (peaShort_unitFrame ..).ok hok,
    ((peaShort_unitFrame ..).st hok u).trans (hst.trans hdrain)⟩

theorem cmdJudge_disable {s : State} {u : Nat} (hex : unitExists u = true) (h7 : idClass u ≠ 7) (h10 : idClass u ≠ 0x10) :
    cmdJudge s true u 2 = if belowMin s u then 2 else if unitSt s u = .retired then 4 else 0 := by
  simp [cmdJudge, hex, h7, h10]

theorem cmdJudge_protected {s : State} {u cmd : Nat} (hex : unitExists u = true) (h : idClass u = 7 ∨ idClass u = 0x10)
    (hcmd : cmd ≤ 4) : cmdJudge s true u cmd = 1 := by
  simp [cmdJudge, hex, h, hcmd]

theorem cmdJudge_bad_code {s : State} (u : Nat) {cmd : Nat} (hcmd : 5 ≤ cmd) : cmdJudge s true u cmd = 3 := by
  have h2 : cmd ≠ 2 := by omega
  have h4 : ¬ cmd ≤ 4 := by omega
  simp [cmdJudge, hcmd, h2, h4]

section DisableCmd

variable {s : State} {u : Nat} (hu : u = regGet s Reg.uctlUnitSel)
include hu

theorem disableCmd_refused (h : cmdJudge s true u 2 ≠ 0) :
    disableCmd s = w1cSet { s with cmdResult := cmdJudge s true u 2 } Reg.uctlEvent 1 := by
  simp only [disableCmd, clusterCmd_refused hu h]
  exact if_pos h

theorem disableCmd_active (hj : cmdJudge s true u 2 = 0) (hst : unitSt s u = .active) (hs : UnitsOk s) :
    unitSt (disableCmd s) u = .draining ∧ (disableCmd s).cmdResult = 0 ∧ (disableCmd s).mem.bytes = s.mem.bytes ∧
      (disableCmd s).phu = s.phu := by
  obtain ⟨hframe, hok, hdrain⟩ := disableUnit_active (s := { s with cmdResult := 0 }) hs hst
  have hcmd : clusterCmd s 2 = disableUnit { s with cmdResult := 0 } u := clusterCmd_accepted hu hj (by decide)
  have hjudged := judgePath_unitFrame (disableUnit { s with cmdResult := 0 } u) u
  obtain ⟨hres, hbytes, hphu⟩ := hframe.trans (judgePath_departFrame _ u)
  simp only [disableCmd, hcmd, ← hu, hframe.result, ne_eq, not_true_eq_false, if_false]
  split <;> exact ⟨(hjudged.st hok u).trans hdrain, hres, hbytes, hphu⟩

end DisableCmd

/-- Settles O2: a DISABLE moves its unit by the table, and what follows from its departure touches no other unit than a SPARE. -/
theorem disableDrainsActiveUnit : Obligations.DisableDrainsActiveUnit := by
  intro s u hup hu
  have refused (cmd why : Nat) (hwhy : why ≠ 0) (hs : Settled s) (hj : cmdJudge s true u cmd = why) :
      (.next (runArith s (fun s => clusterCmd s cmd)) : Host.Outcome State Fault Refusal) =
        .next { w1cSet s Reg.uctlEvent 1 with cmdResult := why, resp := .none } := by
    subst hj
    exact runArith_next_settled (clusterCmd_refused (s := answer s .none) hu hwhy) hup hs
  have disableRefused (why : Nat) (hwhy : why ≠ 0) (hs : Settled s) (hj : cmdJudge s true u 2 = why) :
      exec .uctlDisable s = .next { w1cSet s Reg.uctlEvent 1 with cmdResult := why, resp := .none } := by
    subst hj
    exact runArith_next_settled (disableCmd_refused (s := answer s .none) hu hwhy) hup hs
  refine ⟨fun hex h7 h10 hst hmin hok => ?_, fun hex h7 h10 hmin hs => ?_, fun hs => ⟨fun c => ?_, fun v => ?_⟩, fun hs hex hcls => ?_⟩
  · have hj : cmdJudge s true u 2 = 0 := by simp [cmdJudge_disable hex h7 h10, hmin, hst]
    exact ⟨_, runArith_next rfl hup, disableCmd_active (s := answer s .none) hu hj hst hok⟩
  · exact disableRefused 2 (by decide) hs (by simp [cmdJudge_disable hex h7 h10, hmin])
  · exact refused _ 3 (by decide) hs (cmdJudge_bad_code u (by omega))
  · exact runArith_next_settled rfl hup hs
  · have one (cmd : Nat) (hcmd : cmd ≤ 4) : cmdJudge s true u cmd = 1 := cmdJudge_protected hex hcls hcmd
    exact ⟨refused 1 1 (by decide) hs (one 1 (by decide)), disableRefused 1 (by decide) hs (one 2 (by decide)),
      refused 3 1 (by decide) hs (one 3 (by decide)), refused 4 1 (by decide) hs (one 4 (by decide))⟩

end Sys2Proof.Machine

/-!
The ends of TEST and of DRAINING (R14, R387): what the end of a TEST does in each of its outcomes, and the proof of TestAndDrainEndAsTable.
-/
namespace Sys2Proof.Machine

/-! ### What a march destroys (R387) -/

theorem smap_get_filter {α : Type} [DecidableEq α] (d : Nat → α) {p : Nat → Bool} {m : Smap α} {lo k : Nat}
    (h : Smap.wfFrom d lo m = true) (hk : p k = true) : Smap.get d (m.filter (fun c => p c.1)) k = Smap.get d m k := by
  induction m generalizing lo with
  | nil => rfl
  | cons c t ih =>
    obtain ⟨j, v⟩ := c
    simp only [Smap.wfFrom, Bool.and_eq_true] at h
    obtain ⟨-, ht⟩ := h
    cases hj : p j with
    | true => simp only [List.filter_cons, hj, if_true, Smap.get, ih ht]
    | false =>
      have hne : k ≠ j := by
        rintro rfl
        simp [hk] at hj
      simp only [List.filter_cons, hj, Bool.false_eq_true, if_false, Smap.get, hne, ih ht]
      split
      · exact smap_get_below d t (j + 1) k ht (by omega)
      · rfl

/-- A march leaves every byte outside the unit's window. -/
theorem localLost_memGet {s : State} (u : Nat) {a : Nat} (hs : MemOk s) (ha : a < winBase u ∨ winBase u + 0x100000 ≤ a) :
    memGet (localLost s u) a = memGet s a := by
  unfold localLost
  split
  · rfl
  · exact congrArg BitVec.toNat (smap_get_filter byteDefault (p := fun a => decide (a < winBase u) || decide (winBase u + 0x100000 ≤ a))
      hs (by simpa using ha))

/-! ### What the end of a TEST leaves unchanged -/

structure TestFrame (s t : State) : Prop where
  phu : t.phu = s.phu
  safety : t.safety = s.safety
  cpm : t.cpm = s.cpm
  added : ∃ l, t.logs.buf = s.logs.buf ++ l

namespace TestFrame

theorem of_eq {s t : State} (hphu : t.phu = s.phu) (hsafety : t.safety = s.safety) (hcpm : t.cpm = s.cpm) (hlogs : t.logs = s.logs) :
    TestFrame s t := ⟨hphu, hsafety, hcpm, [], by simp [hlogs]⟩

theorem refl (s : State) : TestFrame s s := of_eq rfl rfl rfl rfl

theorem trans {s t u : State} (h : TestFrame s t) (h' : TestFrame t u) : TestFrame s u :=
  ⟨h'.phu.trans h.phu, h'.safety.trans h.safety, h'.cpm.trans h.cpm, added_trans h.added h'.added⟩

end TestFrame

theorem raise_testFrame (s : State) (c u a b : Nat) : TestFrame s (raise s c u a b) :=
  ⟨raise_phu .., raise_safety .., raise_cpm .., (raise_eventFrame ..).added⟩

theorem localLost_testFrame (s : State) (u : Nat) : TestFrame s (localLost s u) := by
  unfold localLost
  split
  · exact .refl s
  · exact .of_eq rfl rfl rfl rfl

theorem bankLoad_testFrame (s : State) (u : Nat) : TestFrame s (bankLoad s u) := by
  unfold bankLoad
  dsimp only
  split <;> exact .of_eq rfl rfl rfl rfl

theorem testNoted_testFrame (s : State) (u res : Nat) : TestFrame s (testNoted s u res) := .of_eq rfl rfl rfl rfl

@[simp] theorem unitEvent_cpm (s : State) (u : Nat) (e : UEvent) : (unitEvent s u e).cpm = s.cpm := by
  simp [unitEvent, apply_ite State.cpm]

theorem unitEvent_testFrame (s : State) (u : Nat) (e : UEvent) : TestFrame s (unitEvent s u e) :=
  ⟨unitEvent_phu .., unitEvent_safety .., unitEvent_cpm .., (unitEvent_eventFrame ..).added⟩

theorem peaShort_testFrame (s : State) (u : Nat) : TestFrame s (peaShort s u) := by
  unfold peaShort
  dsimp only
  split
  · exact raise_testFrame ..
  · exact .refl s

theorem probFail_testFrame (s : State) (code : Nat) : TestFrame s (probFail s code) := by
  unfold probFail
  split
  · exact .of_eq rfl rfl rfl rfl
  · exact .refl s

theorem probFail_units (s : State) (code : Nat) : (probFail s code).units = s.units := by
  unfold probFail
  split <;> rfl

theorem localLost_units (s : State) (u : Nat) : (localLost s u).units = s.units := by
  unfold localLost
  split <;> rfl

theorem bankLoad_units (s : State) (u : Nat) : (bankLoad s u).units = s.units := by
  unfold bankLoad
  dsimp only
  split <;> rfl

theorem bankLoad_mem (s : State) (u : Nat) : (bankLoad s u).mem = s.mem := by
  unfold bankLoad
  dsimp only
  split <;> rfl

/-! ### A TEST that fails -/

@[simp] theorem peaShort_mem (s : State) (u : Nat) : (peaShort s u).mem = s.mem := by
  unfold peaShort
  dsimp only
  split
  · exact raise_mem ..
  · rfl

theorem unitEvent_units_eq {s : State} {u : Nat} {e : UEvent} (he : u ≠ huskId ∨ e ≠ .fail) :
    (unitEvent s u e).units = Smap.set unitDefault s.units u (eventRec s u e) := by
  simp only [unitEvent_eq he, apply_ite State.units, w1cSet_units, unitSet_units, ite_self]

/-- The unit out of TEST, with its retirement due. -/
def testOut (s : State) (u res : Nat) : State := unitUpd (unitEvent (testNoted s u res) u .fail) u (fun r => { r with retireFor := res })

theorem testOut_testFrame (s : State) (u res : Nat) : TestFrame s (testOut s u res) :=
  have h : TestFrame s (unitEvent (testNoted s u res) u .fail) := (testNoted_testFrame s u res).trans (unitEvent_testFrame ..)
  ⟨h.phu, h.safety, h.cpm, h.added⟩

theorem testOut_offline {s : State} {u : Nat} (res : Nat) (hu : u ≠ huskId) (hs : UnitsOk s) (hst : unitSt s u = .test) :
    UnitsOk (testOut s u res) ∧ unitSt (testOut s u res) u = .offline := by
  have noted : UnitFrame s (testNoted s u res) := unitUpd_unitFrame s u _ fun _ => rfl
  have hnoted : (unitOf (testNoted s u res) u).st = .test := (noted.st hs u).trans hst
  have hunits := unitEvent_units_eq (s := testNoted s u res) (e := .fail) (.inl hu)
  have hok : UnitsOk (unitEvent (testNoted s u res) u .fail) := unitsOk_of_set hunits (noted.ok hs)
  have hfailed : unitSt (unitEvent (testNoted s u res) u .fail) u = .offline := by
    rw [unitSt, unitOf_of_set hunits (noted.ok hs)]
    simp [eventRec, hnoted, unitNext]
  have due : UnitFrame _ (testOut s u res) := unitUpd_unitFrame _ u _ fun _ => rfl
  exact ⟨due.ok hok, (due.st hok u).trans hfailed⟩

theorem testFail_eq {u : Nat} (hu : u ≠ huskId) (s : State) (res : Nat) : testFail s u res = peaShort (testOut s u res) u := if_neg hu

theorem testFail_offline {s : State} {u : Nat} (res : Nat) (hu : u ≠ huskId) (hs : UnitsOk s) (hst : unitSt s u = .test) :
    TestFrame s (testFail s u res) ∧ (testFail s u res).mem = s.mem ∧ unitSt (testFail s u res) u = .offline := by
  obtain ⟨hok, hoff⟩ := testOut_offline res hu hs hst
  have hmem : (testOut s u res).mem = s.mem := unitEvent_mem ..
  rw [testFail_eq hu]
  exact ⟨(testOut_testFrame s u res).trans (peaShort_testFrame ..), (peaShort_mem ..).trans hmem,
    ((peaShort_unitFrame ..).st hok u).trans hoff⟩

/-- A failing step: the event of the step, then the unit leaves TEST. -/
theorem testFail_raised {s t : State} {u c a b : Nat} (res : Nat) (hu : u ≠ huskId) (hs : UnitsOk t) (hst : unitSt t u = .test)
    (hframe : TestFrame s t) (hr : Raised t c u a b) :
    TestFrame s (testFail t u res) ∧ (testFail t u res).mem = t.mem ∧ unitSt (testFail t u res) u = .offline ∧
      Raised (testFail t u res) c u a b := by
  obtain ⟨hfail, hmem, hoff⟩ := testFail_offline res hu hs hst
  exact ⟨hframe.trans hfail, hmem, hoff, raised_more hr hfail.added⟩

section TestEnd

variable {s : State} {u : Nat} (hu : u ≠ huskId) (hst : unitSt s u = .test)
include hu hst

/-- A TEST in progress, by its outcome (R387). -/
theorem testEnd_pass : testEnd s u .pass =
    let marched := localLost s u
    let loaded := if idClass u = 1 then bankLoad marched u else marched
    unitUpd (unitEvent (testNoted loaded u 1) u .pass) u (fun x => { x with goldBad := false }) := by
  simp only [testEnd, hst, hu, ne_eq, not_true_eq_false, false_and, or_self, if_false]
theorem testEnd_bist (w : BitVec 16) :
    testEnd s u (.bist w) = testFail (raise s 0x0E04 u u (65536 + w.toNat)) u 2 := by
  simp only [testEnd, hst, hu, ne_eq, not_true_eq_false, false_and, or_self, if_false]
theorem testEnd_march (w : BitVec 16) :
    testEnd s u (.march w) = testFail (raise (localLost s u) 0x0E04 u u (2 * 65536 + w.toNat)) u 2 := by
  simp only [testEnd, hst, hu, ne_eq, not_true_eq_false, false_and, or_self, if_false]
theorem testEnd_inject (c : BitVec 16) (m : Bool) :
    testEnd s u (.inject c m) =
      testFail (probFail (raise (localLost s u) 0x0E03 u u (c.toNat * 65536 + b2n m)) 0x0E03) u 3 := by
  simp only [testEnd, hst, hu, ne_eq, not_true_eq_false, false_and, or_self, if_false]
theorem testEnd_golden (p : BitVec 16) :
    testEnd s u (.golden p) =
      testFail (raise { localLost s u with diag := { s.diag with goldFails := satInc 32 s.diag.goldFails } } 0x0E05 u u
        (s.phu.cycle % 16 * 2 ^ 24 + p.toNat)) u 2 := by
  have hphu : (localLost s u).phu = s.phu := (localLost_testFrame s u).phu
  simp only [testEnd, hst, hu, ne_eq, not_true_eq_false, false_and, or_self, if_false, hphu]

theorem unitTestEnd_unit {r : TestRes} (hr : isChan u = true → ∀ w, r ≠ .march w ∧ r ≠ .pass) (hboot : s.cpm.boot ≠ .booting)
    (hframe : TestFrame s (testEnd s u r)) : unitTestEnd s u r = testEnd s u r := by
  have hend : (if isChan u then chanTestEnd s u r else testEnd s u r) = testEnd s u r := by
    cases hc : isChan u with
    | false => rfl
    | true => cases r with
      | pass => exact absurd rfl (hr hc 0).2
      | march w => exact absurd rfl (hr hc w).1
      | _ => simp only [if_true, chanTestEnd, hst, ne_eq, not_true_eq_false, if_false]
  have hnext : bootNext (testEnd s u r) = testEnd s u r := if_pos (.inl (by rw [hframe.cpm]; exact hboot))
  simp only [unitTestEnd, hend, hnext, hu, if_false]

end TestEnd

theorem UnitFrame.countIn_eq {s t : State} (h : UnitFrame s t) (hs : UnitsOk s) (l : List Nat) (st : UState) :
    countIn t l st = countIn s l st := by
  simp only [countIn, h.st hs]

/-- The march and the loading of the model before a passed TEST is noted. -/
def marched (s : State) (u : Nat) : State := if idClass u = 1 then bankLoad (localLost s u) u else localLost s u

theorem marched_units (s : State) (u : Nat) : (marched s u).units = s.units := by
  unfold marched
  split
  · exact (bankLoad_units ..).trans (localLost_units ..)
  · exact localLost_units ..

theorem marched_mem (s : State) (u : Nat) : (marched s u).mem = (localLost s u).mem := by
  unfold marched
  split
  · exact bankLoad_mem ..
  · rfl

theorem marched_testFrame (s : State) (u : Nat) : TestFrame s (marched s u) := by
  unfold marched
  split
  · exact (localLost_testFrame ..).trans (bankLoad_testFrame ..)
  · exact localLost_testFrame ..

/-- A passed TEST: the unit leaves by the table, and only its own local memory is lost. -/
theorem testEnd_pass_effect {s : State} {u : Nat} (hu : u ≠ huskId) (hs : UnitsOk s) (hst : unitSt s u = .test) :
    TestFrame s (testEnd s u .pass) ∧ (testEnd s u .pass).mem = (localLost s u).mem ∧
      unitSt (testEnd s u .pass) u =
        (if (unitOf s u).ep then (if decide (countIn s (poolUnits u) .active < poolTarget u) then .active else .spare) else .offline) := by
  have hmarched : UnitFrame s (marched s u) := .of_units (marched_units ..) (marched_testFrame ..).added
  have noted : UnitFrame (marched s u) (testNoted (marched s u) u 1) := unitUpd_unitFrame _ u _ fun _ => rfl
  have before := hmarched.trans noted
  have hok := before.ok hs
  have hrec : unitOf (testNoted (marched s u) u 1) u = { unitOf s u with lastTest := s.phu.cycle, lastResult := 1 } := by
    rw [unitOf_of_set (t := testNoted (marched s u) u 1) rfl (hmarched.ok hs), (marched_testFrame s u).phu]
    simp only [unitOf, marched_units]
  have passed := unitUpd_unitFrame (unitEvent (testNoted (marched s u) u 1) u .pass) u (fun x => { x with goldBad := false }) fun _ => rfl
  have hframe : TestFrame s (unitEvent (testNoted (marched s u) u 1) u .pass) :=
    (marched_testFrame s u).trans ((testNoted_testFrame ..).trans (unitEvent_testFrame ..))
  have hmem : (unitEvent (testNoted (marched s u) u 1) u .pass).mem = (marched s u).mem := unitEvent_mem ..
  have hst' : unitSt (unitEvent (testNoted (marched s u) u 1) u .pass) u =
      (if (unitOf s u).ep then (if decide (countIn s (poolUnits u) .active < poolTarget u) then .active else .spare) else .offline) := by
    rw [unitSt, unitEvent_unitOf (.inl hu) hok]
    have htest : (unitOf s u).st = .test := hst
    simp only [eventRec, hrec, before.countIn_eq hs, htest, unitNext]
    split
    · split <;> rfl
    · rfl
  rw [testEnd_pass hu hst]
  exact ⟨⟨hframe.phu, hframe.safety, hframe.cpm, hframe.added⟩, hmem.trans (marched_mem ..),
    (passed.st ((unitEvent_other _ u (by decide) hok).1) u).trans hst'⟩

/-- The end of a channel's passed TEST trains it; no byte changes by that. -/
theorem unitTestEnd_pass_effect {s : State} {u : Nat} (hu : u ≠ huskId) (hs : UnitsOk s) (hst : unitSt s u = .test)
    (hboot : s.cpm.boot ≠ .booting) :
    TestFrame s (unitTestEnd s u .pass) ∧ (unitTestEnd s u .pass).mem.bytes = (localLost s u).mem.bytes ∧
      unitSt (unitTestEnd s u .pass) u =
        (if (unitOf s u).ep then (if decide (countIn s (poolUnits u) .active < poolTarget u) then .active else .spare) else .offline) := by
  obtain ⟨hframe, hmem, hst'⟩ := testEnd_pass_effect hu hs hst
  cases hc : isChan u with
  | false =>
    rw [unitTestEnd_unit hu hst (by simp [hc]) hboot hframe]
    exact ⟨hframe, by rw [hmem], hst'⟩
  | true =>
    have hbytes (n : Nat) (f : Chan → Chan) : (chanUpd (testEnd s u .pass) n f).mem.bytes = (testEnd s u .pass).mem.bytes := by
      unfold chanUpd
      dsimp only
      split <;> rfl
    have hnext (n : Nat) (f : Chan → Chan) : bootNext (chanUpd (testEnd s u .pass) n f) = chanUpd (testEnd s u .pass) n f :=
      if_pos (.inl (by rw [show (chanUpd (testEnd s u .pass) n f).cpm = s.cpm from hframe.cpm]; exact hboot))
    simp only [unitTestEnd, hc, if_true, chanTestEnd, hst, ne_eq, not_true_eq_false, if_false, hnext, hu]
    exact ⟨⟨hframe.phu, hframe.safety, hframe.cpm, hframe.added⟩, by rw [hbytes, hmem], hst'⟩

/-- A golden failure within TEST, counted after the march. -/
def goldCounted (s : State) (u : Nat) : State :=
  { localLost s u with diag := { s.diag with goldFails := satInc 32 s.diag.goldFails } }

theorem goldCounted_testFrame (s : State) (u : Nat) : TestFrame s (goldCounted s u) :=
  have h := localLost_testFrame s u
  ⟨h.phu, h.safety, h.cpm, h.added⟩

/-- A step of a TEST has failed: the unit ends OFFLINE with the step's event. -/
theorem unitTestEnd_failed {s t : State} {u c a b res : Nat} {r : TestRes} (hu : u ≠ huskId) (hs : UnitsOk s)
    (hst : unitSt s u = .test) (hboot : s.cpm.boot ≠ .booting) (hr : isChan u = true → ∀ w, r ≠ .march w ∧ r ≠ .pass)
    (heq : testEnd s u r = testFail t u res) (hframe : TestFrame s t) (hunits : t.units = s.units) (hraised : Raised t c u a b) :
    unitSt (unitTestEnd s u r) u = .offline ∧ Raised (unitTestEnd s u r) c u a b ∧ (unitTestEnd s u r).mem = t.mem ∧
      (unitTestEnd s u r).phu = s.phu := by
  have frame : UnitFrame s t := .of_units hunits hframe.added
  obtain ⟨hend, hmem, hoff, hr'⟩ := testFail_raised res hu (frame.ok hs) ((frame.st hs _).trans hst) hframe hraised
  rw [unitTestEnd_unit hu hst hr hboot (by rw [heq]; exact hend), heq]
  exact ⟨hoff, hr', hmem, hend.phu⟩

section Failed

variable {s : State} {u : Nat} (hu : u ≠ huskId) (hs : UnitsOk s) (hst : unitSt s u = .test) (hboot : s.cpm.boot ≠ .booting)
include hu hs hst hboot

theorem unitTestEnd_bist (w : BitVec 16) : unitSt (unitTestEnd s u (.bist w)) u = .offline ∧
    Raised (unitTestEnd s u (.bist w)) 0x0E04 u u (65536 + w.toNat) ∧ (unitTestEnd s u (.bist w)).mem = s.mem ∧
    (unitTestEnd s u (.bist w)).phu = s.phu := by
  obtain ⟨hoff, hr, hmem, hphu⟩ := unitTestEnd_failed hu hs hst hboot (by simp) (testEnd_bist hu hst w) (raise_testFrame ..)
    (raise_units ..) (raised_here ..)
  exact ⟨hoff, hr, hmem.trans (raise_mem ..), hphu⟩

theorem unitTestEnd_march (hc : isChan u = false) (w : BitVec 16) : unitSt (unitTestEnd s u (.march w)) u = .offline ∧
    Raised (unitTestEnd s u (.march w)) 0x0E04 u u (2 * 65536 + w.toNat) ∧ (unitTestEnd s u (.march w)).phu = s.phu := by
  obtain ⟨hoff, hr, -, hphu⟩ := unitTestEnd_failed hu hs hst hboot (by simp [hc]) (testEnd_march hu hst w)
    ((localLost_testFrame s u).trans (raise_testFrame ..)) ((raise_units ..).trans (localLost_units s u)) (raised_here ..)
  exact ⟨hoff, hr, hphu⟩

theorem unitTestEnd_inject (c : BitVec 16) (m : Bool) : unitSt (unitTestEnd s u (.inject c m)) u = .offline ∧
    Raised (unitTestEnd s u (.inject c m)) 0x0E03 u u (c.toNat * 65536 + b2n m) ∧ (unitTestEnd s u (.inject c m)).phu = s.phu := by
  obtain ⟨hoff, hr, -, hphu⟩ := unitTestEnd_failed hu hs hst hboot (by simp) (testEnd_inject hu hst c m)
    ((localLost_testFrame s u).trans ((raise_testFrame ..).trans (probFail_testFrame ..)))
    ((probFail_units ..).trans ((raise_units ..).trans (localLost_units s u))) (raised_more (raised_here ..) (probFail_testFrame ..).added)
  exact ⟨hoff, hr, hphu⟩

theorem unitTestEnd_golden (p : BitVec 16) : unitSt (unitTestEnd s u (.golden p)) u = .offline ∧
    Raised (unitTestEnd s u (.golden p)) 0x0E05 u u (s.phu.cycle % 16 * 2 ^ 24 + p.toNat) ∧
    (unitTestEnd s u (.golden p)).phu = s.phu := by
  obtain ⟨hoff, hr, -, hphu⟩ := unitTestEnd_failed hu hs hst hboot (by simp) (testEnd_golden hu hst p)
    ((goldCounted_testFrame s u).trans (raise_testFrame ..)) ((raise_units ..).trans (localLost_units s u)) (raised_here ..)
  exact ⟨hoff, hr, hphu⟩

end Failed

/-! ### The end of a drain (R14) -/

theorem drainComplete_effect {s : State} {u : Nat} (hs : UnitsOk s) (hst : unitSt s u = .draining) (hd : drained s u = true) :
    unitSt (drainComplete s u) u = (if (unitOf s u).ep then .test else .offline) ∧
      drainComplete s u = { s with units := (drainComplete s u).units, regs := (drainComplete s u).regs, clk := (drainComplete s u).clk } := by
  have hdrain : (unitOf s u).st = .draining := hst
  have hrec : (eventRec s u .drained).st = (if (unitOf s u).ep then .test else .offline) := by
    simp only [eventRec, hdrain, unitNext]
    split <;> rfl
  have hmove : (eventRec s u .drained).st ≠ unitSt s u ∧ (eventRec s u .drained).st ≠ .spare := by
    rw [hrec, hst]
    split <;> decide
  have hdone : drainComplete s u = w1cSet (unitSet s u (eventRec s u .drained)) Reg.uctlEvent 0 := by
    rw [drainComplete, if_pos ⟨hst, hd⟩, unitEvent_eq (.inr (by decide))]
    simp [hmove.1, hmove.2]
  rw [hdone]
  exact ⟨by rw [unitSt, unitOf_of_set rfl hs, hrec], rfl⟩

/-- Settles O3: each outcome of a TEST notes its result and moves the unit by the table of R14. -/
theorem testAndDrainEndAsTable : Obligations.TestAndDrainEndAsTable := by
  intro s u hs hu
  refine ⟨fun hup hboot hst => ?_, fun hup hset hst hd => ?_⟩
  · have hexec (r : TestRes) : exec (.unitTestEnd u r) s = .next (flush (unitTestEnd (answer s .none) u.toNat r)) := by
      refine Eq.trans ?_ (run_next (f := fun s => unitTestEnd s u.toNat r) rfl hup)
      exact congrArg Host.Outcome.next (if_neg hu)
    refine ⟨?_, fun w => ?_, fun w hc => ?_, fun c m => ?_, fun p => ?_⟩
    · obtain ⟨hframe, hbytes, hst'⟩ := unitTestEnd_pass_effect (s := answer s .none) hu hs hst hboot
      refine ⟨_, hexec .pass, hst', hframe.phu, hframe.safety, fun hm a ha => ?_⟩
      rw [memGet, hbytes]
      exact localLost_memGet (s := answer s .none) _ hm ha
    · exact ⟨_, hexec _, unitTestEnd_bist (s := answer s .none) hu hs hst hboot w⟩
    · exact ⟨_, hexec _, unitTestEnd_march (s := answer s .none) hu hs hst hboot hc w⟩
    · exact ⟨_, hexec _, unitTestEnd_inject (s := answer s .none) hu hs hst hboot c m⟩
    · exact ⟨_, hexec _, unitTestEnd_golden (s := answer s .none) hu hs hst hboot p⟩
  · obtain ⟨hst', hsame⟩ := drainComplete_effect (s := answer s .none) hs hst hd
    refine ⟨_, runArith_next_settled rfl hup ?_, hst', hsame⟩
    rw [hsame]
    exact hset

end Sys2Proof.Machine

/-!
Rotation and golden batches (R388 to R392): what a rotation step and a golden slot do in each of their cases, and the proof of
RotationAndGoldenSlots.
-/
namespace Sys2Proof.Machine

/-! ### A rotation step (R388) -/

@[simp] theorem unitEvent_rotNext (s : State) (u : Nat) (e : UEvent) : (unitEvent s u e).diag.rotNext = s.diag.rotNext := by
  simp [unitEvent, apply_ite State.diag, apply_ite Diag.rotNext]

@[simp] theorem substitute_rotNext (s : State) (u : Nat) : (substitute s u).diag.rotNext = s.diag.rotNext := by
  unfold substitute
  split
  · split
    · exact unitEvent_rotNext ..
    · rfl
  · dsimp only
    split <;> rfl

@[simp] theorem svcDepart_diag (s : State) (u : Nat) : (svcDepart s u).diag = s.diag := by
  unfold svcDepart
  extract_lets mask
  split
  · split <;> rfl
  · rfl

@[simp] theorem selAgain_diag (s : State) (u : Nat) : (selAgain s u).diag = s.diag := by
  unfold selAgain
  split <;> rfl

@[simp] theorem peaShort_diag (s : State) (u : Nat) : (peaShort s u).diag = s.diag := by
  unfold peaShort
  dsimp only
  split
  · exact raise_diag ..
  · rfl

@[simp] theorem judgePath_diag (s : State) (u : Nat) : (judgePath s u).diag = s.diag := by
  unfold judgePath enterSafe enterSafeWith
  split
  · split
    · rfl
    · cases (1 == 2) <;> simp [takeFreeBytes]
  · rfl

theorem disableUnit_rotNext (s : State) (u : Nat) : (disableUnit s u).diag.rotNext = s.diag.rotNext := by
  unfold disableUnit
  dsimp only
  split
  · simp [departed]
  · exact unitEvent_rotNext ..

theorem firmwareCmd_rotNext (s : State) (u : Nat) {cmd : Nat} (hcmd : cmd = 1 ∨ cmd = 2) :
    (firmwareCmd s u cmd).2.diag.rotNext = s.diag.rotNext := by
  unfold firmwareCmd
  split
  · rcases hcmd with rfl | rfl
    · exact unitEvent_rotNext ..
    · exact disableUnit_rotNext ..
  · rfl

theorem foldl_testNoted_diag (l : List Nat) (s : State) : (l.foldl (fun s u => testNoted s u 1) s).diag = s.diag := by
  induction l generalizing s with
  | nil => rfl
  | cons u l ih => exact ih _

/-- Of a due step, whatever becomes of its pool: the round robin goes to the next entry. -/
theorem rotationStep_rotNext {s : State} (hwatch : s.cpm.watch = false) (hn : objN s 0x4100 4 ≠ 0) (hsubst : autoSubst s = true)
    (hrun : s.plan.run.isSome = true) (hdue : s.phu.cycle % objN s 0x4100 4 = 0) :
    (rotationStep s).diag.rotNext = (s.diag.rotNext + 1) % 80 := by
  have hnone : s.plan.run.isNone = false := by simpa using hrun
  have hopen : ¬ (objN s 0x4100 4 = 0 ∨ s.cpm.watch = true ∨ (!autoSubst s) = true ∨ s.plan.run.isNone = true ∨
      s.phu.cycle % objN s 0x4100 4 ≠ 0) := by simp [hn, hwatch, hsubst, hnone, hdue]
  unfold rotationStep
  extract_lets n reached i was next pool
  have hnext : next.diag.rotNext = (s.diag.rotNext + 1) % 80 := by simp [next, i, reached]
  rw [if_neg hopen]
  split
  · rw [foldl_testNoted_diag, hnext]
  split
  · exact hnext
  split
  · exact hnext
  next u _ =>
  have hdisabled := firmwareCmd_rotNext next u (cmd := 2) (.inr rfl)
  generalize firmwareCmd next u 2 = done at hdisabled ⊢
  obtain ⟨ok, t⟩ := done
  dsimp only at hdisabled ⊢
  split
  · exact hdisabled.trans hnext
  · rw [judgePath_diag, raise_diag]
    dsimp only
    split
    · exact (firmwareCmd_rotNext t u (.inl rfl)).trans (hdisabled.trans hnext)
    · exact hdisabled.trans hnext

/-! ### The golden slots (R390, R391) -/

/-- What the shedding or the deferral of a golden batch leaves unchanged. -/
structure SlotFrame (s t : State) : Prop where
  podSlot : t.diag.podSlot = s.diag.podSlot
  chardSlot : t.diag.chardSlot = s.diag.chardSlot

theorem foldl_slotFrame {α : Type} {f : State → α → State} (h : ∀ s x, SlotFrame s (f s x)) (l : List α) (s : State) :
    SlotFrame s (l.foldl f s) := by
  induction l generalizing s with
  | nil => exact ⟨rfl, rfl⟩
  | cons x l ih => exact ⟨(ih (f s x)).podSlot.trans (h s x).podSlot, (ih (f s x)).chardSlot.trans (h s x).chardSlot⟩

theorem goldStart_slotFrame (s : State) (u : Nat) : SlotFrame s (goldStart s u) := by
  unfold goldStart
  dsimp only
  split <;> exact ⟨rfl, rfl⟩

theorem goldShed_slotFrame (s : State) (g : Nat) : SlotFrame s (goldShed s g) := by
  unfold goldShed
  extract_lets u p
  split
  · exact ⟨rfl, rfl⟩
  split
  · exact goldStart_slotFrame ..
  · extract_lets task head shed was counted
    split
    · exact ⟨rfl, rfl⟩
    · have h := goldStart_slotFrame (raise counted 0x0E07 0xFFFF u task) u
      exact ⟨h.podSlot.trans (by rw [raise_diag]; rfl), h.chardSlot.trans (by rw [raise_diag]; rfl)⟩

theorem goldDefer_slotFrame (s : State) (u : Nat) : SlotFrame s (goldDefer s u) := by
  unfold goldDefer
  dsimp only
  split
  · exact ⟨by rw [raise_diag]; rfl, by rw [raise_diag]; rfl⟩
  · exact ⟨rfl, rfl⟩

theorem goldenSlotOpen_pods {s : State} (hrun : s.plan.run.isSome = true) (hruns : phaseRuns s = true) :
    (goldenSlotOpen s .pods).diag.podSlot = true := by
  have hnone : s.plan.run.isNone = false := by simpa using hrun
  simp only [goldenSlotOpen, hnone, hruns, Bool.not_true, Bool.false_eq_true, or_self, if_false]
  exact (foldl_slotFrame goldShed_slotFrame ..).podSlot

theorem goldenSlotOpen_chards {s : State} (hrun : s.plan.run.isSome = true) (hruns : phaseRuns s = true) :
    (goldenSlotOpen s .chards).diag.chardSlot = true ∧ ∀ u ∈ (goldenSlotOpen s .chards).diag.goldRun, idClass u ≠ 7 := by
  have hnone : s.plan.run.isNone = false := by simpa using hrun
  simp only [goldenSlotOpen, hnone, hruns, Bool.not_true, Bool.false_eq_true, or_self, if_false]
  exact ⟨trivial, fun u hu => by simpa using (List.mem_filter.mp hu).2⟩

theorem goldenSlotClose_pods {s : State} (h : s.diag.podSlot = true) : (goldenSlotClose s .pods).diag.podSlot = false := by
  simp [goldenSlotClose, h]

theorem goldenSlotClose_chards {s : State} (h : s.diag.chardSlot = true) : (goldenSlotClose s .chards).diag.chardSlot = false := by
  simp [goldenSlotClose, h]

/-! ### A golden batch starts (R390) -/

theorem goldenBatchStart_chard {s : State} {u : Nat} (hwatch : s.cpm.watch = false) (hfree : u ∉ s.diag.goldRun) (hcls : idClass u = 7)
    (hslot : s.diag.chardSlot = true) (hact : isActive s u = true) (hexec : (unitOf s u).exec.isNone = true) :
    goldenBatchStart s u = { unitUpd s u (fun r => { r with goldDefer := 0 }) with
      diag := { s.diag with goldRun := s.diag.goldRun ++ [u], goldChards := s.diag.goldChards ++ [u] } } := by
  have hserves : goldServes s u = true := by simp [goldServes, hwatch, hcls, hact]
  have hfree' : goldFree s u = true := by simp [goldFree, hfree]
  simp only [goldenBatchStart, goldStart, hcls, hslot, hserves, hfree', hexec]
  rfl

theorem goldenBatchStart_pod {s : State} {u : Nat} (hwatch : s.cpm.watch = false) (hfree : u ∉ s.diag.goldRun) (hcls : idClass u = 1)
    (hslot : s.diag.podSlot = true) (hserv : podInService s (podOf u) = true) (hexec : (podGet s (podOf u)).exec.isNone = true) :
    goldenBatchStart s u = { podUpd (unitUpd s u (fun r => { r with goldDefer := 0 })) (podOf u)
        (fun p => { p with exec := some goldenBatch }) with
      diag := { s.diag with goldRun := s.diag.goldRun ++ [u] } } := by
  have hserves : goldServes s u = true := by simp [goldServes, hwatch, hcls, hserv]
  have hfree' : goldFree s u = true := by simp [goldFree, hfree]
  simp only [goldenBatchStart, goldStart, hcls, hslot, hserves, hfree', hexec]
  rfl

/-! ### A golden batch ends (R389, R392) -/

/-- The Pod's golden batch is done. -/
def podFreed (s : State) (u : Nat) : State := podUpd s (podOf u) (fun p => { p with exec := none })

/-- The Chard's golden batch is done. -/
def chardFreed (s : State) (u : Nat) : State := { s with diag := { s.diag with goldChards := s.diag.goldChards.filter (· != u) } }

section GoldDone

variable {s : State} {u : Nat} (hwatch : s.cpm.watch = false) (hrun : u ∈ s.diag.goldRun)
include hwatch hrun

/-- The end of a Chard's golden batch. -/
theorem goldenBatchDone_chard (hcls : idClass u = 7) (hchard : u ∈ s.diag.goldChards) :
    goldenBatchDone s u .pass = unitUpd (chardFreed s u) u (fun r => { r with goldBad := false }) ∧
      ∀ m : BitVec 16, goldenBatchDone s u (.chard m) =
        goldBad (unitUpd (chardFreed s u) u (fun x => { x with goldBad := true })) u m.toNat := by
  refine ⟨?_, fun m => ?_⟩ <;> simp [goldenBatchDone, hwatch, hrun, hcls, hchard, chardFreed]

/-- The end of a Pod's golden batch, by the judgement of its probes. -/
theorem goldenBatchDone_pod (hcls : idClass u = 1) (hexec : (podGet s (podOf u)).exec = some goldenBatch) :
    goldenBatchDone s u .pass = unitUpd (podFreed s u) u (fun r => { r with goldBad := false }) ∧
      (∀ m : BitVec 16, goldenBatchDone s u (.centre m) = goldBad (podFreed s u) u m.toNat) ∧
      ∀ l, goldenBatchDone s u (.peas l) =
        if readsOff l then
          goldBad (podFreed s u) (unitId 2 (idStack u) (podOf u % 32)) (l.foldl (fun m x => m ||| x.2.1.toNat) 0)
        else l.foldl (fun s x => goldBad s (unitId 0 (idStack u) (17 * (podOf u % 32) + x.1.val)) x.2.1.toNat) (podFreed s u) := by
  refine ⟨?_, fun m => ?_, fun l => ?_⟩ <;> simp [goldenBatchDone, hwatch, hrun, hcls, hexec, podFreed]

end GoldDone

theorem raised_goldBad (s : State) (u m : Nat) : Raised (goldBad s u m) 0x0E05 u u (s.phu.cycle % 16 * 2 ^ 24 + m) := raised_here ..

theorem goldBad_mem (s : State) (u m : Nat) : (goldBad s u m).mem = s.mem := raise_mem ..

theorem goldBad_units (s : State) (u m : Nat) : (goldBad s u m).units = s.units := raise_units ..

/-- Settles O4: the slots and the golden batches case by case, and the round robin that no command of a step touches. -/
theorem rotationAndGoldenSlots : Obligations.RotationAndGoldenSlots := by
  intro s hup hwatch
  refine ⟨fun hn hsubst hrun hdue => ?_, fun hrun hruns => ⟨?_, ?_⟩, fun u hs hfree => ⟨fun hcls hslot hact hexec => ?_,
    fun hcls hslot hserv hexec => ?_⟩, fun u hrun => ⟨fun hcls hchard => ?_, fun hcls hexec => ?_⟩, fun hslot => ?_, fun hslot => ?_⟩
  · exact ⟨_, runArith_next rfl hup, rotationStep_rotNext (s := answer s .none) hwatch hn hsubst hrun hdue⟩
  · exact ⟨_, runArith_next rfl hup, goldenSlotOpen_pods (s := answer s .none) hrun hruns⟩
  · exact ⟨_, runArith_next rfl hup, goldenSlotOpen_chards (s := answer s .none) hrun hruns⟩
  · exact runArith_next_settled (goldenBatchStart_chard (s := answer s .none) hwatch hfree hcls hslot hact hexec) hup hs
  · exact runArith_next_settled (goldenBatchStart_pod (s := answer s .none) hwatch hfree hcls hslot hserv hexec) hup hs
  · obtain ⟨hpass, hwrong⟩ := goldenBatchDone_chard (s := answer s .none) hwatch hrun hcls hchard
    refine ⟨fun hs => runArith_next_settled hpass hup hs, fun m => ⟨_, runArith_next (hwrong m) hup, raised_goldBad .., fun hok => ?_,
      goldBad_mem ..⟩⟩
    rw [unitOf_of_set (s := s) (goldBad_units ..) hok]
  · obtain ⟨hpass, hcentre, hpeas⟩ := goldenBatchDone_pod (s := answer s .none) hwatch hrun hcls hexec
    refine ⟨fun hs => runArith_next_settled hpass hup hs, fun m => ?_, fun i m v => ?_, fun x y l hx hy hxy => ?_⟩
    · exact ⟨_, runArith_next (hcentre m) hup, raised_goldBad .., goldBad_mem ..⟩
    · have hone : readsOff [(i, m, v)] = false := by simp [readsOff]
      refine ⟨_, runArith_next ((hpeas [(i, m, v)]).trans (if_neg (by simp [hone]))) hup, raised_goldBad .., goldBad_mem ..⟩
    · have hother : (x :: y :: l).any (fun z => z.2.2 != 0 && x.1 != z.1) = true :=
        List.any_eq_true.2 ⟨y, by simp, by simpa using ⟨hy, hxy⟩⟩
      have htwo : readsOff (x :: y :: l) = true :=
        List.any_eq_true.2 ⟨x, by simp, by rw [hother, Bool.and_true]; simpa using hx⟩
      exact ⟨_, _, runArith_next ((hpeas (x :: y :: l)).trans (if_pos htwo)) hup, raised_goldBad .., goldBad_mem ..⟩
  · exact ⟨_, runArith_next rfl hup, goldenSlotClose_chards (s := answer s .none) hslot⟩
  · exact ⟨_, runArith_next rfl hup, goldenSlotClose_pods (s := answer s .none) hslot⟩

end Sys2Proof.Machine

/-!
The phase unit (R31 to R47): source writes, edges, the missing edge, the barrier and the time correspondence, case by case, and the proofs of
SourceWritesMovePhu, LockedEdgeRunsLoop, SpuriousEdgeIsIgnored, MissedSyncCoastsThenIsLost, BarrierForwardsAndReleases and
TimeReadsFreezeAndThaw.
-/
namespace Sys2Proof.Machine

/-! ### The barrier's pins (R45, R46) -/

/-- Readiness drives STEP_OUT and BSTATE and can drop a launch or a fall; nothing else of the state changes. -/
theorem barDrive_eq (s : State) : ∃ out bar launch fall ret, barDrive s = { s with
    phu := { s.phu with stepOut := out, bar := bar, launchTick := launch, fallTick := fall, returnFrom := ret } } := by
  unfold barDrive
  dsimp only
  split
  · exact ⟨_, _, _, _, _, rfl⟩
  split
  · exact ⟨_, _, _, _, _, rfl⟩
  split
  · exact ⟨_, _, _, _, _, rfl⟩
  · exact ⟨_, _, _, _, _, rfl⟩

/-! ### Source writes (R31, R361) -/

theorem srcSelect_off {s : State} (h : s.phu.st = .off) (v : Nat) :
    (srcSelect s v).phu.st = .acquire ∧ (srcSelect s v).phu.src = v ∧ (srcSelect s v).phu.acc = 0 ∧ (srcSelect s v).phu.held = false ∧
      phaseRuns (srcSelect s v) = false ∧
      srcSelect s v = { s with phu := (srcSelect s v).phu, regs := (srcSelect s v).regs } := by
  obtain ⟨out, bar, launch, fall, ret, heq⟩ := barDrive_eq { regField s Reg.phuCtrl 0 2 v with
    phu := { s.phu with src := v, acc := 0, boundaryDue := false, st := .acquire, held := false, lastEdge := none, inRange := false,
                        inTol := 0, outTol := 0, edges := 0 } }
  have hsel : srcSelect s v = _ := (show srcSelect s v = barDrive _ by simp only [srcSelect, h]; rfl).trans heq
  rw [hsel]
  exact ⟨rfl, rfl, rfl, rfl, by simp [phaseRuns], rfl⟩

theorem srcSelect_acquire {s : State} (h : s.phu.st = .acquire) (v : Nat) :
    (srcSelect s v).phu.st = .acquire ∧ (srcSelect s v).phu.src = v ∧
      (s.phu.src ≠ v → (srcSelect s v).phu.lastEdge = none ∧ (srcSelect s v).phu.inRange = false) ∧
      (srcSelect s v).phu.acc = s.phu.acc ∧ (srcSelect s v).phu.inc = s.phu.inc ∧
      srcSelect s v = { s with phu := (srcSelect s v).phu, regs := (srcSelect s v).regs } := by
  by_cases hv : s.phu.src = v
  · have hsel : srcSelect s v = regField s Reg.phuCtrl 0 2 v := by simp [srcSelect, h, hv]
    rw [hsel]
    exact ⟨h, hv, fun hne => absurd hv hne, rfl, rfl, rfl⟩
  · obtain ⟨out, bar, launch, fall, ret, heq⟩ := barDrive_eq { regField s Reg.phuCtrl 0 2 v with
      phu := { s.phu with src := v, lastEdge := none, inRange := false, edges := 0 } }
    have hsel : srcSelect s v = _ := (show srcSelect s v = barDrive _ by simp [srcSelect, h, hv]).trans heq
    rw [hsel]
    exact ⟨h, rfl, fun _ => ⟨rfl, rfl⟩, rfl, rfl, rfl⟩

theorem srcSelect_tracked {s : State} (hoff : s.phu.st ≠ .off) (hacq : s.phu.st ≠ .acquire) (v : Nat) : srcSelect s v = s := by
  unfold srcSelect
  split
  · exact absurd ‹_› hoff
  · exact absurd ‹_› hacq
  · rfl

/-- A permit held or granted lapses with both outputs low (R361). -/
theorem lapse_held {s : State} (h : s.safety.permit = true ∨ s.safety.grant = true) (cause : Nat) :
    PermitLow (lapse s cause) ∧ Raised (lapse s cause) 0x0D04 huskId cause s.phu.cycle := by
  simp only [lapse, if_pos h]
  split
  · exact ⟨by simp [PermitLow], raised_here ..⟩
  · exact ⟨by simp [PermitLow], raised_here ..⟩

@[simp] theorem lapse_phu (s : State) (cause : Nat) : (lapse s cause).phu = s.phu := by
  unfold lapse
  split
  · simp only [raise_phu]
    split <;> rfl
  · rfl
@[simp] theorem lapse_mem (s : State) (cause : Nat) : (lapse s cause).mem = s.mem := by
  unfold lapse
  split
  · simp only [raise_mem]
    split <;> rfl
  · rfl
@[simp] theorem lapse_units (s : State) (cause : Nat) : (lapse s cause).units = s.units := by
  unfold lapse
  split
  · simp only [raise_units]
    split <;> rfl
  · rfl

theorem srcOff_effect (s : State) (v : Nat) :
    (srcOff s v).phu.st = .off ∧ (srcOff s v).phu.src = 0 ∧ phaseRuns (srcOff s v) = false ∧
      (s.safety.permit = true ∨ s.safety.grant = true → PermitLow (srcOff s v) ∧ Raised (srcOff s v) 0x0D04 huskId 5 s.phu.cycle) ∧
      (srcOff s v).mem = s.mem ∧ (srcOff s v).units = s.units := by
  obtain ⟨out, bar, launch, fall, ret, heq⟩ := barDrive_eq { regField s Reg.phuCtrl 0 2 v with
    phu := { s.phu with st := .off, src := 0, held := false, lastEdge := none, inRange := false, inTol := 0, outTol := 0,
                        aligning := none, boundaryDue := false, acc := 0, inc := 0, waitEdge := [] } }
  have hoff : srcOff s v = lapse _ 5 := congrArg (lapse · 5) heq
  rw [hoff]
  exact ⟨by rw [lapse_phu], by rw [lapse_phu], by simp [phaseRuns], fun h => lapse_held (by exact h) 5, lapse_mem .., lapse_units ..⟩

/-- Settles O5: the source write by the state of the unit, and the lapse that a write of 0 or 3 brings. -/
theorem sourceWritesMovePhu : Obligations.SourceWritesMovePhu := by
  intro s w src three hup hs
  have selected (h : lockedOut s w = false) : (fun s => if lockedOut s w then s else srcSelect s (srcNo src)) (answer s .none) =
      srcSelect (answer s .none) (srcNo src) := if_neg (by simp [lockedOut] at h ⊢; exact h)
  have off (h : lockedOut s w = false) : (fun s => if lockedOut s w then s else srcOff s (if three then 3 else 0)) (answer s .none) =
      srcOff (answer s .none) (if three then 3 else 0) := if_neg (by simp [lockedOut] at h ⊢; exact h)
  refine ⟨fun hopen hst => ?_, fun hopen hst => ?_, fun hopen hoff hacq => ?_, fun hopen => ?_, fun hlocked => ⟨?_, ?_⟩⟩
  · obtain ⟨hst', hsrc, hacc, hheld, hruns, hsame⟩ := srcSelect_off (s := answer s .none) hst (srcNo src)
    exact ⟨_, runArith_next_settled (selected hopen) hup (by rw [hsame]; exact hs), hst', hsrc, hacc, hheld, hruns, hsame⟩
  · obtain ⟨hst', hsrc, hne, hacc, hinc, hsame⟩ := srcSelect_acquire (s := answer s .none) hst (srcNo src)
    exact ⟨_, runArith_next_settled (selected hopen) hup (by rw [hsame]; exact hs), hst', hsrc, hne, hacc, hinc, hsame⟩
  · exact runArith_next_settled ((selected hopen).trans (srcSelect_tracked (s := answer s .none) hoff hacq _)) hup hs
  · exact ⟨_, runArith_next (off hopen) hup, srcOff_effect (answer s .none) _⟩
  · exact runArith_next_settled (if_pos hlocked) hup hs
  · exact runArith_next_settled (if_pos hlocked) hup hs

/-! ### Reads of the time correspondence (R43) -/

theorem tcFreeze_free {s : State} (h : s.phu.tcFrozen = none) : tcFreeze s =
    { answer s (.busData (s.phu.tc.cycle % 2 ^ 32)) with phu := { s.phu with tcFrozen := some s.phu.tc } } := by
  simp [tcFreeze, h]

theorem tcFreeze_frozen {s : State} (h : s.phu.tcFrozen.isSome = true) : tcFreeze s = answer s (.busData (s.phu.tc.cycle % 2 ^ 32)) :=
  if_pos h

/-- Settles O10. -/
theorem timeReadsFreezeAndThaw : Obligations.TimeReadsFreezeAndThaw := by
  intro s hup hs
  refine ⟨fun hfree => ?_, fun hfrozen => ?_, ?_⟩
  · exact runArith_next_settled (tcFreeze_free (s := answer s .none) hfree) hup hs
  · exact runArith_next_settled (tcFreeze_frozen (s := answer s .none) hfrozen) hup hs
  · exact runArith_next_settled rfl hup hs

/-! ### An edge (R33, R37) -/

/-- Time changes the tick count and the running phase, and no more. -/
theorem advance_eq (s : State) (dt : Nat) : ∃ acc due atBound, advance s dt =
    { s with now := s.now + dt, phu := { s.phu with acc := acc, boundaryDue := due, atBound := atBound } } := by
  unfold advance
  dsimp only
  split
  · exact ⟨_, _, _, rfl⟩
  · exact ⟨s.phu.acc, s.phu.boundaryDue, s.phu.atBound, rfl⟩

theorem judgeEdge_tracked {s : State} (hoff : s.phu.st ≠ .off) (hacq : s.phu.st ≠ .acquire) (hlost : s.phu.st ≠ .lost) (acc tick win : Nat) :
    judgeEdge s acc tick win =
      if inCapture (acc / 2 ^ 32) ∧ s.phu.usedWin ≠ some win then edgeLoop s acc tick win else raise s 0x0104 0xFFFF (acc / 2 ^ 32) 0 := by
  unfold judgeEdge
  split
  · exact absurd ‹_› hoff
  · exact absurd ‹_› hacq
  · exact absurd ‹_› hlost
  · rfl

section Tracked

variable {s : State} {src : Nat} (hoff : s.phu.st ≠ .off) (hacq : s.phu.st ≠ .acquire) (hlost : s.phu.st ≠ .lost)
  (hsrc : s.phu.src = src) (hal : s.phu.aligning = none)
include hoff hacq hlost hsrc hal

/-- An edge of the selected source while the phase is tracked and no alignment waits: it is judged 2 clk later with the values of its
own clk. -/
theorem syncEdge_tracked (dt : Nat) :
    let a := advance s dt
    let w := advance a (2 * ticksPerClk s)
    syncEdge s src dt =
      if inCapture (phase a) ∧ s.phu.usedWin ≠ some (windowAt a (phase a)) then edgeLoop w a.phu.acc a.now (windowAt a (phase a))
      else raise w 0x0104 0xFFFF (phase a) 0 := by
  intro a w
  obtain ⟨acc, due, atBound, ha⟩ := advance_eq s dt
  obtain ⟨acc', due', atBound', hw⟩ := advance_eq a (2 * ticksPerClk s)
  have hticks : ticksPerClk a = ticksPerClk s := by rw [show a = _ from ha]; rfl
  have hphu : w.phu.st = s.phu.st ∧ w.phu.src = s.phu.src ∧ w.phu.aligning = s.phu.aligning ∧ w.phu.usedWin = s.phu.usedWin := by
    rw [show w = _ from hw, show a = _ from ha]
    exact ⟨rfl, rfl, rfl, rfl⟩
  obtain ⟨hst', hsrc', hal', hused⟩ := hphu
  have hedge : syncEdge s src dt = judgeEdge w a.phu.acc a.now (windowAt a (phase a)) := by
    simp only [syncEdge]
    rw [show advance s dt = a from rfl, hticks, show advance a (2 * ticksPerClk s) = w from rfl, if_neg (by simp [hst', hoff, hsrc', hsrc]),
      if_neg (by simp [hal', hal])]
  rw [hedge, judgeEdge_tracked (by rwa [hst']) (by rwa [hst']) (by rwa [hst']), hused]
  rfl

end Tracked

/-- The phase unit after an edge in LOCKED whose error is within UNLOCK_TOL. -/
def loopedPhu (s : State) (acc tick last win : Nat) : Phu :=
  let avg := loopAvg s.phu.pAvg (tick - last)
  { s.phu with
    st := .locked, err := phaseErr acc, pAvg := avg, inc := loopInc (phaseErr acc) avg, lastEdge := some tick
    inTol := if ((phaseErr acc).natAbs : Int) ≤ lockTol s then min (s.phu.inTol + 1) 255 else 0
    outTol := 0, edges := s.phu.edges + 1, usedWin := some win }

theorem edgeLoop_locked {s : State} {acc tick win last : Nat} (hst : s.phu.st = .locked) (hlast : s.phu.lastEdge = some last)
    (hper : periodOk s (tick - last) = true) (htol : ((phaseErr acc).natAbs : Int) ≤ unlockTol s) :
    edgeLoop s acc tick win = { s with phu := loopedPhu s acc tick last win } := by
  have hin : ¬ unlockTol s < ((phaseErr acc).natAbs : Int) := by omega
  simp only [edgeLoop, hst, hlast, Option.getD_some, hper, if_true, hin, if_false, show ¬ 2 ≤ 0 by decide]
  rfl

/-- An edge in LOCKED, from the state of the command. -/
theorem syncEdge_locked {s : State} {src dt last : Nat} (hst : s.phu.st = .locked) (hsrc : s.phu.src = src) (hal : s.phu.aligning = none)
    (hlast : s.phu.lastEdge = some last) :
    let a := advance s dt
    inCapture (phase a) = true → s.phu.usedWin ≠ some (windowAt a (phase a)) → periodOk s (a.now - last) = true →
    ((phaseErr a.phu.acc).natAbs : Int) ≤ unlockTol s →
      ∃ (now : Nat) (phu : Phu), syncEdge s src dt = { s with now := now, phu := phu } ∧ phu.st = .locked ∧
        phu.err = phaseErr a.phu.acc ∧ phu.pAvg = loopAvg s.phu.pAvg (a.now - last) ∧
        phu.inc = loopInc (phaseErr a.phu.acc) (loopAvg s.phu.pAvg (a.now - last)) ∧ phu.lastEdge = some a.now ∧
        phu.cycle = s.phu.cycle := by
  intro a hcap hwin hper htol
  obtain ⟨acc, due, atBound, ha⟩ := advance_eq s dt
  obtain ⟨acc', due', atBound', hw⟩ := advance_eq a (2 * ticksPerClk s)
  have hsame : advance a (2 * ticksPerClk s) = { s with
      now := a.now + 2 * ticksPerClk s, phu := { s.phu with acc := acc', boundaryDue := due', atBound := atBound' } } := by
    rw [hw, show a = _ from ha]
  have hedge : syncEdge s src dt = edgeLoop (advance a (2 * ticksPerClk s)) a.phu.acc a.now (windowAt a (phase a)) :=
    (syncEdge_tracked (by simp [hst]) (by simp [hst]) (by simp [hst]) hsrc hal dt).trans (if_pos ⟨hcap, hwin⟩)
  rw [hedge, hsame]
  exact ⟨_, _, edgeLoop_locked (by exact hst) (by exact hlast) (by exact hper) (by exact htol), rfl, rfl, rfl, rfl, rfl, rfl⟩

/-- Settles O6: the edge is judged by the loop, which in LOCKED keeps its state while the error is within UNLOCK_TOL. -/
theorem lockedEdgeRunsLoop : Obligations.LockedEdgeRunsLoop := by
  intro s src dt last hup hs hst hsrc hal hlast a e m hcap hwin hper htol
  have hadv : advance (answer s .none) dt.toNat = answer a .none := advance_answer ..
  have hedge := syncEdge_locked (s := answer s .none) (dt := dt.toNat) hst hsrc hal hlast
  dsimp only at hedge
  rw [hadv] at hedge
  obtain ⟨now, phu, heq, hst', herr, havg, hinc, hlast', hcycle⟩ := hedge hcap hwin hper htol
  exact ⟨_, runArith_next_settled heq hup hs, hst', herr, havg, hinc, hlast', hcycle, rfl⟩

/-- Settles O7: the edge is not accepted, so its event is all that is left beside the time. -/
theorem spuriousEdgeIsIgnored : Obligations.SpuriousEdgeIsIgnored := by
  intro s src dt hup hoff hacq hlost hsrc hal a w hspur
  have hadv : advance (answer s .none) dt.toNat = answer a .none := advance_answer ..
  have hadv' : advance (answer a .none) (2 * ticksPerClk s) = answer w .none := advance_answer ..
  have hedge := syncEdge_tracked (s := answer s .none) (src := srcNo src) hoff hacq hlost hsrc hal dt.toNat
  dsimp only at hedge
  rw [hadv, show ticksPerClk (answer s .none) = ticksPerClk s from rfl, hadv', if_neg] at hedge
  · refine ⟨_, runArith_next hedge hup, ?_, raised_here .., ?_, ?_⟩
    · rw [raise_phu]; rfl
    · rw [raise_safety]
      exact (advance_safety ..).trans (advance_safety ..)
    · rw [raise_mem]
      exact (advance_mem ..).trans (advance_mem ..)
  · rintro ⟨hcap, hwin⟩
    rcases hspur with h | h
    · exact absurd (hcap.symm.trans h) (by decide)
    · exact hwin h

/-! ### The missing edge (R37, R417, R430) -/

/-- What the loss of the cycle leaves unchanged in the slave's protocols and around them. -/
structure LossFrame (s t : State) : Prop where
  phu : t.phu = s.phu
  mem : t.mem = s.mem
  al : t.od.al = s.od.al
  alCode : t.od.alCode = s.od.alCode

namespace LossFrame

theorem refl (s : State) : LossFrame s s := ⟨rfl, rfl, rfl, rfl⟩

theorem trans {s t u : State} (h : LossFrame s t) (h' : LossFrame t u) : LossFrame s u :=
  ⟨h'.phu.trans h.phu, h'.mem.trans h.mem, h'.al.trans h.al, h'.alCode.trans h.alCode⟩

end LossFrame

theorem raise_lossFrame (s : State) (c u a b : Nat) : LossFrame s (raise s c u a b) :=
  ⟨raise_phu .., raise_mem .., by rw [raise_od], by rw [raise_od]⟩

theorem lapse_lossFrame (s : State) (cause : Nat) : LossFrame s (lapse s cause) := by
  refine ⟨lapse_phu .., lapse_mem .., ?_, ?_⟩ <;> unfold lapse <;> dsimp only <;> split
  · rw [raise_od]
    split <;> rfl
  · rfl
  · rw [raise_od]
    split <;> rfl
  · rfl

theorem fsoeCheck_lossFrame (s : State) : LossFrame s (fsoeCheck s) := by
  unfold fsoeCheck
  split
  · exact (raise_lossFrame ..).trans (lapse_lossFrame ..)
  · exact .refl s

theorem fsoeReset_lossFrame (s : State) (reason : Nat) : LossFrame s (fsoeReset s reason) := by
  unfold fsoeReset
  extract_lets code was f safety od dropped
  split
  · exact .refl s
  · exact .trans (t := dropped) ⟨rfl, rfl, rfl, rfl⟩ ((raise_lossFrame ..).trans (fsoeCheck_lossFrame ..))

theorem alCycleLoss_phu (s : State) : (alCycleLoss s).phu = s.phu := by
  unfold alCycleLoss
  split
  · exact (fsoeReset_lossFrame ..).phu.trans (raise_phu ..)
  · rfl

theorem alCycleLoss_mem (s : State) : (alCycleLoss s).mem = s.mem := by
  unfold alCycleLoss
  split
  · exact (fsoeReset_lossFrame ..).mem.trans (raise_mem ..)
  · rfl

/-- The slave drops from OP to SAFEOP with the loss. -/
theorem alCycleLoss_op {s : State} (hop : s.od.al = .op) (hloss : cycleLoss s = true) :
    (alCycleLoss s).od.al = .safeop ∧ (alCycleLoss s).od.alCode = 0x002C := by
  rw [alCycleLoss, if_pos ⟨hop, hloss⟩]
  exact ⟨(fsoeReset_lossFrame ..).al.trans (by rw [raise_od]), (fsoeReset_lossFrame ..).alCode.trans (by rw [raise_od])⟩

/-- The window's close where its edge is missing. -/
theorem windowClose_missing {s : State} (hruns : phaseRuns s = true) (hmiss : (reachPhase s 8192).phu.usedWin ≠ some s.phu.bcount) :
    (s.phu.st = .locked → (windowClose s).phu.st = .miss ∧ (windowClose s).phu.cycle = s.phu.cycle ∧
      Raised (windowClose s) 0x0101 0xFFFF s.phu.cycle 0 ∧ (windowClose s).mem = s.mem) ∧
    (s.phu.st = .track → (windowClose s).phu.st = .acquire ∧ (windowClose s).phu.held = true ∧
      Raised (windowClose s) 0x0101 0xFFFF s.phu.cycle 0) := by
  obtain ⟨now, acc, due, atBound, hr⟩ := reachPhase_eq s 8192
  rw [hr] at hmiss
  refine ⟨fun hst => ?_, fun hst => ?_⟩
  · have hclose : windowClose s = raise { reachPhase s 8192 with
        phu := { (reachPhase s 8192).phu with st := .miss, missCycle := s.phu.bcount } } 0x0101 0xFFFF s.phu.cycle 0 := by
      simp only [windowClose, hruns, if_true, hr, if_neg hmiss, hst]
    rw [hclose]
    exact ⟨by rw [raise_phu], by rw [raise_phu, hr], raised_here .., (raise_mem ..).trans (reachPhase_mem ..)⟩
  · obtain ⟨out, bar, launch, fall, ret, hb⟩ := barDrive_eq { reachPhase s 8192 with
      phu := { (reachPhase s 8192).phu with st := .acquire, held := true, lastEdge := none, inRange := false, inTol := 0, outTol := 0,
                                            edges := 0 } }
    have hclose : windowClose s = raise (alCycleLoss (toAcquire (reachPhase s 8192) true none)) 0x0101 0xFFFF s.phu.cycle 0 := by
      simp only [windowClose, hruns, if_true, hr, if_neg hmiss, hst]
    have hacq : toAcquire (reachPhase s 8192) true none = _ := hb
    rw [hclose]
    exact ⟨by rw [raise_phu, alCycleLoss_phu, hacq], by rw [raise_phu, alCycleLoss_phu, hacq], raised_here ..⟩

theorem windowClose_used {s : State} (hruns : phaseRuns s = true) (hused : s.phu.usedWin = some s.phu.bcount) :
    windowClose s = reachPhase s 8192 := by
  obtain ⟨now, acc, due, atBound, hr⟩ := reachPhase_eq s 8192
  simp only [windowClose, hruns, if_true, hr, hused]

theorem coastEntry_due {s : State} (hst : s.phu.st = .miss) (hcyc : s.phu.missCycle = s.phu.bcount) :
    (coastEntry s).phu.st = .coast ∧ (coastEntry s).phu.inc = s.phu.inc ∧
      Raised (coastEntry s) 0x0102 0xFFFF (ofSigned 32 (errQ8 s.phu.err)) 0 ∧ (coastEntry s).mem = s.mem := by
  obtain ⟨now, acc, due, atBound, hr⟩ := reachPhase_eq s 32768
  rw [coastEntry, if_pos ⟨hst, hcyc⟩]
  dsimp only
  rw [hr]
  exact ⟨by rw [raise_phu], by rw [raise_phu], raised_here .., raise_mem ..⟩

theorem cycleLost_due {s : State} (hst : s.phu.st = .coast) (hcyc : s.phu.bcount = s.phu.coastCycle + 4) :
    (cycleLost s).phu.st = .lost ∧ Raised (cycleLost s) 0x0103 0xFFFF 4 0 ∧ (cycleLost s).mem = s.mem ∧
      (s.od.al = .op → (cycleLost s).od.al = .safeop ∧ (cycleLost s).od.alCode = 0x002C) := by
  rw [cycleLost, if_pos ⟨hst, hcyc⟩]
  refine ⟨by rw [raise_phu, alCycleLoss_phu], raised_here .., ?_, fun hop => ?_⟩
  · rw [raise_mem, alCycleLoss_mem]
    exact reachPhase_mem ..
  · rw [raise_od]
    refine alCycleLoss_op ((congrArg Od.al (reachPhase_od ..)).trans hop) rfl

/-- Settles O8: each step of the coasting by its state, the events raised last. -/
theorem missedSyncCoastsThenIsLost : Obligations.MissedSyncCoastsThenIsLost := by
  intro s hup
  refine ⟨fun hruns hmiss => ⟨fun hst => ?_, fun hst => ?_⟩, fun hruns hused hs => ?_, fun hst hcyc => ?_, fun hst hcyc => ?_⟩
  · exact ⟨_, runArith_next rfl hup, (windowClose_missing (s := answer s .none) hruns (by rwa [reachPhase_answer])).1 hst⟩
  · exact ⟨_, runArith_next rfl hup, (windowClose_missing (s := answer s .none) hruns (by rwa [reachPhase_answer])).2 hst⟩
  · refine runArith_next_settled ((windowClose_used (s := answer s .none) hruns hused).trans (reachPhase_answer ..)) hup ?_
    exact (congrArg Logs.buf (reachPhase_logs ..)).trans hs
  · exact ⟨_, runArith_next rfl hup, coastEntry_due (s := answer s .none) hst hcyc⟩
  · exact ⟨_, runArith_next rfl hup, cycleLost_due (s := answer s .none) hst hcyc⟩

/-! ### The barrier (R45) -/

theorem barForward_due {s : State} {tick : Nat} (hfall : s.phu.fallTick = some tick) (hpos : barPos s ≠ 0) (hnow : s.now ≤ tick + barHop s) :
    (barForward s).phu.stepOut = false ∧ (barForward s).now = tick + barHop s ∧
      barForward s = { s with phu := (barForward s).phu, now := (barForward s).now } := by
  obtain ⟨acc, due, atBound, ha⟩ := advance_eq s (tick + barHop s - s.now)
  have hf : barForward s = { advance s (tick + barHop s - s.now) with
      phu := { (advance s (tick + barHop s - s.now)).phu with stepOut := false } } := by
    simp only [barForward, hfall, hpos, if_false]
  rw [hf, ha]
  exact ⟨rfl, by dsimp only; omega, rfl⟩

theorem barRelease_due {s : State} {tick : Nat} (hready : barReady s = true)
    (h : (s.phu.launchTick = some tick ∧ barPos s = 0) ∨ (s.phu.fallTick = some tick ∧ barPos s ≠ 0)) :
    let cyc := regGet s Reg.phuBarCycleHi * 2 ^ 32 + regGet s Reg.phuBarCycleLo
    (barRelease s).phu.st = .track ∧ (barRelease s).phu.bar = .released ∧
      (barRelease s).phu.aligning = some (tick + (if barPos s = 0 then barN s - 1 else barN s - barPos s) * barHop s) ∧
      (barRelease s).phu.cycleLoad = some cyc ∧ Raised (barRelease s) 0x0108 0xFFFF cyc 0 ∧ (barRelease s).mem = s.mem := by
  have htick : releaseTick s = some (tick + (if barPos s = 0 then barN s - 1 else barN s - barPos s) * barHop s) := by
    rcases h with ⟨htick, hpos⟩ | ⟨htick, hpos⟩ <;> simp [releaseTick, htick, hpos]
  intro cyc
  generalize (tick + (if barPos s = 0 then barN s - 1 else barN s - barPos s) * barHop s) = rel at htick ⊢
  obtain ⟨acc, due, atBound, ha⟩ := advance_eq s (rel - s.now)
  have hregs : (advance s (rel - s.now)).regs = s.regs := advance_regs ..
  simp only [barRelease, htick, hready, if_true, startAlign, regGet, hregs]
  exact ⟨by rw [raise_phu], by rw [raise_phu], by rw [raise_phu], by rw [raise_phu]; rfl, raised_here .., (raise_mem ..).trans (advance_mem ..)⟩

/-- STEP_IN low, after the time that has passed. -/
def fellIn (s : State) (dt : Nat) : State := { advance s dt with phu := { (advance s dt).phu with stepIn := false } }

theorem fellIn_effect (s : State) (dt : Nat) : (fellIn s dt).phu.stepIn = false ∧ (fellIn s dt).now = s.now + dt ∧ (fellIn s dt).mem = s.mem := by
  obtain ⟨acc, due, atBound, ha⟩ := advance_eq s dt
  rw [fellIn, ha]
  exact ⟨rfl, rfl, rfl⟩

theorem barDrive_pin (s : State) : (barDrive s).phu.stepIn = s.phu.stepIn ∧ (barDrive s).now = s.now ∧ (barDrive s).mem = s.mem := by
  obtain ⟨out, bar, launch, fall, ret, hb⟩ := barDrive_eq s
  rw [hb]
  exact ⟨rfl, rfl, rfl⟩

theorem stepInFall_effect (s : State) (dt : Nat) :
    (stepInFall s dt).phu.stepIn = false ∧ (stepInFall s dt).now = s.now + dt ∧ (stepInFall s dt).mem = s.mem := by
  obtain ⟨hin, hnow, hmem⟩ := fellIn_effect s dt
  obtain ⟨hin', hnow', hmem'⟩ := barDrive_pin (fellIn s dt)
  unfold stepInFall
  dsimp only
  split
  · exact ⟨hin, hnow, hmem⟩
  split
  · split
    · exact ⟨hin, hnow, hmem⟩
    · split
      · exact ⟨by rw [raise_phu], by rw [raise_now]; exact hnow, by rw [raise_mem]; exact hmem⟩
      · exact ⟨hin, hnow, hmem⟩
  · split
    · exact ⟨hin, hnow, hmem⟩
    · exact ⟨hin'.trans hin, hnow'.trans hnow, hmem'.trans hmem⟩

theorem stepInRise_effect (s : State) : (stepInRise s).phu.stepIn = true ∧ stepInRise s = { s with phu := (stepInRise s).phu } := by
  obtain ⟨out, bar, launch, fall, ret, hb⟩ := barDrive_eq { s with phu := { s.phu with stepIn := true } }
  rw [show stepInRise s = _ from hb]
  exact ⟨rfl, rfl⟩

/-- Settles O9: the forwarding and the release from the tick that they count from, and the pin's level. -/
theorem barrierForwardsAndReleases : Obligations.BarrierForwardsAndReleases := by
  intro s hup cyc
  refine ⟨fun tick hfall hpos hnow hs => ?_, fun tick hready h => ?_, fun hs => ?_, fun dt => ?_⟩
  · obtain ⟨hout, hnow', hsame⟩ := barForward_due (s := answer s .none) hfall hpos hnow
    exact ⟨_, runArith_next_settled rfl hup (by rw [hsame]; exact hs), hout, hnow', hsame⟩
  · exact ⟨_, runArith_next rfl hup, barRelease_due (s := answer s .none) hready h⟩
  · obtain ⟨hin, hsame⟩ := stepInRise_effect (answer s .none)
    exact ⟨_, runArith_next_settled rfl hup (by rw [hsame]; exact hs), hin, hsame⟩
  · exact ⟨_, runArith_next rfl hup, stepInFall_effect (answer s .none) _⟩

end Sys2Proof.Machine

/-!
The gates (R38, R39): what a gate issue does with the queue and with the next gate value, and the proof of GatesIssueEightPerClk.
-/
namespace Sys2Proof.Machine

/-- A clk's issue of a queue that is not empty. -/
theorem issueEight_waiting {s : State} (h : s.phu.gateQ ≠ []) :
    issueEight s =
      let c := ownClk s .gates
      clkDecs { c with phu := { c.phu with gateQ := s.phu.gateQ.drop 8 } } ((s.phu.gateQ.take 8).map (fun x => ⟨x.2, 0xFFFF, x.1⟩)) [] :=
  if_neg (by simpa using h)

theorem issueEight_idle {s : State} (h : s.phu.gateQ = []) : issueEight s = s := if_pos (by simp [h])

theorem gateIssue_waiting {s : State} (hruns : phaseRuns s = true) (h : s.phu.gateQ ≠ []) (roles : List GateRole) :
    gateIssue s roles = issueEight s := by
  simp [gateIssue, hruns, h]

section NextGate

variable {s : State} (hruns : phaseRuns s = true) (h : s.phu.gateQ = []) (roles : List GateRole)
include hruns h

theorem gateIssue_none (hnext : nextGate (latchIfDue s) = none) : gateIssue s roles = latchIfDue s := by
  simp [gateIssue, hruns, h, hnext]

theorem gateIssue_next {g n : Nat} (hnext : nextGate (latchIfDue s) = some (g, n)) :
    gateIssue s roles =
      let l := latchIfDue s
      issueEight (takeGate (if l.phu.aligning.isSome then l else reachPhase l g) g n roles) := by
  simp [gateIssue, hruns, h, hnext]

end NextGate

/-! ### A gate without roles -/

theorem gateEffects_idle {s : State} {p : Plan} {g : Nat} (hrun : s.plan.run = some p) (hslots : p.slots = []) (hend : p.evalEnd ≠ g)
    (hdead : deadlineTasks s g = []) (i n : Nat) : gateEffects s g i n = s := by
  have hslot (k : Nat) : gateSlots s k = [] := by simp [gateSlots, hrun, hslots]
  have hfold (l : List Nat) : l.foldl (fun s k => (gateSlots s (i + k)).foldl slotDeadline s) s = s := by
    induction l with
    | nil => rfl
    | cons k l ih => rw [List.foldl_cons, hslot, List.foldl_nil, ih]
  simp only [gateEffects, hrun, hend, if_false, psnDeadline, hdead, List.foldl_nil, hfold]

/-- The next gate's decrements go into the queue. -/
theorem openGate_next {s : State} {p : Plan} {g n : Nat} (hrun : s.plan.run = some p) (hnext : nextGate s = some (g, n)) :
    (openGate s).2 = { s with phu := { s.phu with
      gatesDone := s.phu.gatesDone + n, gateQ := s.phu.gateQ ++ (p.gates.drop s.phu.gatesDone).take n } } := by
  have hgates : gates s = p.gates := by simp [gates, hrun]
  simp only [nextGate, hgates] at hnext
  simp only [openGate, hgates]
  cases hdrop : p.gates.drop s.phu.gatesDone with
  | nil => simp [hdrop] at hnext
  | cons x t =>
    simp only [hdrop, Option.some.injEq, Prod.mk.injEq] at hnext
    simp only [hnext.2]

/-- A gate whose value nothing is tied to does no more than issue. -/
theorem gateIssue_plain {s : State} {p : Plan} {g n : Nat} (hruns : phaseRuns s = true) (hq : s.phu.gateQ = []) (hrun : s.plan.run = some p)
    (hslots : p.slots = []) (hend : p.evalEnd ≠ g) (hnext : nextGate s = some (g, n)) (hal : s.phu.aligning = none)
    (hlatch : s.cand.latchDue = false) (hdead : deadlineTasks (reachPhase s g) g = []) :
    gateIssue s [] = issueEight { reachPhase s g with phu := { (reachPhase s g).phu with
      gatesDone := s.phu.gatesDone + n, gateQ := (p.gates.drop s.phu.gatesDone).take n } } := by
  obtain ⟨now, acc, due, atBound, hr⟩ := reachPhase_eq s g
  have hl : latchIfDue s = s := if_neg (by simp [hlatch])
  rw [gateIssue_next hruns hq [] (by rw [hl]; exact hnext), hl]
  simp only [hal, Option.isSome_none, Bool.false_eq_true, if_false, takeGate, List.foldl_nil]
  rw [gateEffects_idle (by rw [reachPhase_plan]; exact hrun) hslots hend hdead,
    openGate_next (p := p) (g := g) (n := n) (by rw [reachPhase_plan]; exact hrun) (by rw [hr]; exact hnext)]
  rw [hr]
  simp only [hq, List.nil_append]

/-- A gate that opens has a decrement to issue. -/
theorem nextGate_ne_nil {s : State} {p : Plan} {g n : Nat} (hrun : s.plan.run = some p) (hnext : nextGate s = some (g, n)) :
    (p.gates.drop s.phu.gatesDone).take n ≠ [] := by
  simp only [nextGate, gates, hrun] at hnext
  cases hdrop : p.gates.drop s.phu.gatesDone with
  | nil => simp [hdrop] at hnext
  | cons x t =>
    simp only [hdrop, Option.some.injEq, Prod.mk.injEq] at hnext
    have hn : n ≠ 0 := by omega
    simp [hn]

/-- Settles O11: the queue is issued eight at a time, and the next gate fills it where it is empty. -/
theorem gatesIssueEightPerClk : Obligations.GatesIssueEightPerClk := by
  intro s q hup hq hruns s0 eight
  subst hq
  have held : exec .heldGateIssue s = .next (flush (issueEight s0)) := runArith_next (if_pos hruns) hup
  refine ⟨fun hne => ⟨?_, fun roles => ?_⟩, fun hnil hs => ?_, fun roles hnil => ⟨fun hnext => ?_, fun g n hnext => ?_⟩,
    fun p g n hnil hrun hslots hend hnext hal hlatch hdead => ?_⟩
  · rw [held, issueEight_waiting (s := s0) hne]
  · rw [show exec (.gateIssue roles) s = _ from runArith_next (gateIssue_waiting (s := s0) hruns hne roles) hup,
      issueEight_waiting (s := s0) hne]
  · rw [held, issueEight_idle (s := s0) hnil, flush_quiet s0 hs]
  · exact runArith_next (gateIssue_none (s := s0) hruns hnil roles hnext) hup
  · exact runArith_next (gateIssue_next (s := s0) hruns hnil roles hnext) hup
  · rw [show exec (.gateIssue []) s = _ from
        runArith_next (gateIssue_plain (s := s0) hruns hnil hrun hslots hend hnext hal hlatch hdead) hup]
    exact congrArg (fun t => Host.Outcome.next (flush t)) (issueEight_waiting (nextGate_ne_nil hrun hnext))

end Sys2Proof.Machine

/-!
Sensor frames (R52, R82): what a CSI-2 packet does in each of its cases, and the proof of CsiPacketsBuildFrame.
-/
namespace Sys2Proof.Machine

/-! ### CSI-2 packets by port, header and checksum (R52) -/

section Disabled

variable {s : State} {p : Nat} (hen : csiEn s p = false)
include hen

theorem csiFrameStart_disabled (v num : Nat) (bad : Bool) : csiFrameStart s p v num bad = s := by simp [csiFrameStart, hen]
theorem csiLongPacket_disabled (v dt : Nat) (b : Bytes) (bad ok : Bool) : csiLongPacket s p v dt b bad ok = s := by
  simp [csiLongPacket, hen]
theorem csiFrameEnd_disabled (v : Nat) (bad : Bool) : csiFrameEnd s p v bad = s := by simp [csiFrameEnd, hen]
theorem csiShortPacket_disabled (dt : Nat) (bad : Bool) : csiShortPacket s p dt bad = s := by simp [csiShortPacket, hen]

end Disabled

section Enabled

variable {s : State} {p : Nat} (hen : csiEn s p = true)
include hen

theorem csiFrameStart_opens (v num : Nat) : csiFrameStart s p v num false =
    worldUpd s (fun w => { w with csiOpen := w.csiOpen.filter (fun o => !(o.port == p && o.vc == v)) ++
      [{ port := p, vc := v, num := num, hdr := none, data := [], corrupt := false }] }) := by
  simp [csiFrameStart, hen]

theorem csiFrameStart_bad_header (v num : Nat) : csiFrameStart s p v num true = csiBadHeader s p := by simp [csiFrameStart, hen]
theorem csiLongPacket_bad_header (v dt : Nat) (b : Bytes) (ok : Bool) : csiLongPacket s p v dt b true ok = csiBadHeader s p := by
  simp [csiLongPacket, hen]
theorem csiFrameEnd_bad_header (v : Nat) : csiFrameEnd s p v true = csiBadHeader s p := by simp [csiFrameEnd, hen]
theorem csiShortPacket_bad_header (dt : Nat) : csiShortPacket s p dt true = csiBadHeader s p := by simp [csiShortPacket, hen]

theorem csiShortPacket_line {dt : Nat} (h : dt = 2 ∨ dt = 3) : csiShortPacket s p dt false = s := by simp [csiShortPacket, hen, h]
theorem csiShortPacket_other {dt : Nat} (h2 : dt ≠ 2) (h3 : dt ≠ 3) : csiShortPacket s p dt false = csiErrAdd s p 0 8 := by
  simp [csiShortPacket, hen, h2, h3]

theorem csiLongPacket_depth {v : Nat} (h : (csiStream s 1 p v).isSome = true) (b : Bytes) :
    csiLongPacket s p v 0x2E b false true = csiOpenUpd s p v (fun o => { o with data := o.data ++ b }) := by
  simp [csiLongPacket, hen, h]

theorem csiLongPacket_embedded (v : Nat) (b : Bytes) : csiLongPacket s p v 0x12 b false true =
    csiOpenUpd s p v (fun o => { o with hdr := if o.hdr.isNone ∧ 16 ≤ b.length then some (b.take 16) else o.hdr }) := by
  simp [csiLongPacket, hen]

theorem csiLongPacket_unclaimed {v dt : Nat} (h12 : dt ≠ 0x12) (h2e : dt = 0x2E → csiStream s 1 p v = none)
    (h30 : dt = 0x30 → csiStream s 2 p v = none) (b : Bytes) : csiLongPacket s p v dt b false true = csiErrAdd s p 0 8 := by
  have hdepth : ¬ (dt = 0x2E ∧ (csiStream s 1 p v).isSome = true) := fun h => by simp [h2e h.1] at h
  have hpoint : ¬ (dt = 0x30 ∧ (csiStream s 2 p v).isSome = true) := fun h => by simp [h30 h.1] at h
  simp only [csiLongPacket, hen, Bool.not_true, Bool.false_eq_true, if_false, if_true, hdepth, hpoint, h12]

/-- The frames and the assembled points of a channel after a packet with a bad checksum. -/
def csiHurt (s : State) (p v : Nat) : State :=
  asmCorrupt (csiOpenUpd (csiErrAdd s p 16 16) p v (fun o => { o with corrupt := true })) (fun i => strPort s i == p && strVc s i == v)

/-- A packet with a bad checksum: counted, and once more where no enabled stream claims it. -/
theorem csiLongPacket_bad_checksum (v dt : Nat) (b : Bytes) :
    (csiLongPacket s p v dt b false false = csiHurt s p v ∨
      (¬ (dt = 0x2E ∧ (csiStream s 1 p v).isSome = true) ∧ dt ≠ 0x12 ∧
        csiLongPacket s p v dt b false false = csiErrAdd (csiHurt s p v) p 0 8)) := by
  have hstr (k : Nat) : csiStream (csiHurt s p v) k p v = csiStream s k p v := rfl
  simp only [csiLongPacket, hen, Bool.not_true, Bool.false_eq_true, if_false]
  rw [show asmCorrupt _ _ = csiHurt s p v from rfl]
  simp only [hstr]
  split
  · exact .inl rfl
  · next hdepth =>
    split
    · exact .inl rfl
    · split
      · exact .inl rfl
      · next hemb => exact .inr ⟨hdepth, hemb, rfl⟩

end Enabled

/-- What a packet with a bad checksum changes. -/
theorem csiLongPacket_bad_checksum_effect {s : State} {p : Nat} (hen : csiEn s p = true) (v dt : Nat) (b : Bytes) :
    let t := csiLongPacket s p v dt b false false
    t.world.csiOpen = s.world.csiOpen.map (fun o => if o.port = p ∧ o.vc = v then { o with corrupt := true } else o) ∧
    ((dt = 0x2E ∧ (csiStream s 1 p v).isSome = true) ∨ dt = 0x12 → t.regs = (csiErrAdd s p 16 16).regs) ∧
    t = { s with world := { s.world with csiOpen := t.world.csiOpen, streams := t.world.streams }, regs := t.regs } := by
  intro t
  rcases csiLongPacket_bad_checksum hen v dt b with h | ⟨hdepth, hemb, h⟩
  · rw [show t = _ from h]
    exact ⟨rfl, fun _ => rfl, rfl⟩
  · rw [show t = _ from h]
    exact ⟨rfl, fun hclaim => absurd hclaim (by simp [hdepth, hemb]), rfl⟩

/-- Settles O13: each packet by the port's enable, its header, its checksum and its data type. -/
theorem csiPacketsBuildFrame : Obligations.CsiPacketsBuildFrame := by
  intro s p v hio hs err count opened
  refine ⟨fun hen => ⟨fun num => ?_, fun b hstr => ?_, fun b => ?_, fun dt b h12 h2e h30 => ?_, fun dt b => ?_, ?_, fun dt => ⟨fun h => ?_,
    fun h2 h3 => ?_⟩⟩, fun hen num dt b bad ok => ⟨?_, ?_, ?_, ?_⟩, fun on => ?_⟩
  · exact runIo_next_settled (csiFrameStart_opens (s := answer s .none) hen _ _) hio hs
  · exact runIo_next_settled (csiLongPacket_depth (s := answer s .none) hen hstr b) hio hs
  · exact runIo_next_settled (csiLongPacket_embedded (s := answer s .none) hen _ b) hio hs
  · have hdt (n : BitVec 6) : dt.toNat = n.toNat ↔ dt = n := BitVec.toNat_inj
    exact runIo_next_settled (csiLongPacket_unclaimed (s := answer s .none) hen ((not_congr (hdt 0x12)).2 h12) (fun h => h2e ((hdt 0x2E).1 h))
      (fun h => h30 ((hdt 0x30).1 h)) b) hio hs
  · have hdt (n : BitVec 6) : dt = n → dt.toNat = n.toNat := congrArg BitVec.toNat
    obtain ⟨hopen, hregs, hsame⟩ := csiLongPacket_bad_checksum_effect (s := answer s .none) hen v.val dt.toNat b
    exact ⟨_, runIo_next_settled rfl hio (by rw [hsame]; exact hs), hopen,
      fun h => hregs (h.imp (fun h => ⟨hdt 0x2E h.1, h.2⟩) (hdt 0x12)), hsame⟩
  · refine ⟨_, runIo_next_settled (csiFrameStart_bad_header (s := answer s .none) hen _ _) hio hs, rfl, rfl, rfl, fun num => ?_,
      fun dt b ok => ?_, ?_, fun dt => ?_⟩
    · exact runIo_next_settled (csiFrameStart_bad_header (s := answer s .none) hen _ _) hio hs
    · exact runIo_next_settled (csiLongPacket_bad_header (s := answer s .none) hen _ _ _ _) hio hs
    · exact runIo_next_settled (csiFrameEnd_bad_header (s := answer s .none) hen _) hio hs
    · exact runIo_next_settled (csiShortPacket_bad_header (s := answer s .none) hen _) hio hs
  · exact runIo_next_settled (csiShortPacket_line (s := answer s .none) hen (h.imp (congrArg BitVec.toNat) (congrArg BitVec.toNat))) hio hs
  · have hdt (n : BitVec 6) : dt.toNat = n.toNat ↔ dt = n := BitVec.toNat_inj
    exact runIo_next_settled (csiShortPacket_other (s := answer s .none) hen ((not_congr (hdt 2)).2 h2) ((not_congr (hdt 3)).2 h3)) hio hs
  · exact runIo_next_settled (csiFrameStart_disabled (s := answer s .none) hen _ _ _) hio hs
  · exact runIo_next_settled (csiLongPacket_disabled (s := answer s .none) hen _ _ _ _ _) hio hs
  · exact runIo_next_settled (csiFrameEnd_disabled (s := answer s .none) hen _ _) hio hs
  · exact runIo_next_settled (csiShortPacket_disabled (s := answer s .none) hen _ _) hio hs
  · exact runIo_next_settled rfl hio hs

end Sys2Proof.Machine

/-!
Frames that end (R52, R54 to R56): what the submission of a frame leaves unchanged, how it is judged, and the proof of FramesCloseAndAreJudged.
-/
namespace Sys2Proof.Machine

/-! ### What the judgement of a frame leaves unchanged -/

structure JudgeFrame (s t : State) : Prop where
  mem : t.mem = s.mem
  safety : t.safety = s.safety
  phu : t.phu = s.phu
  csiOpen : t.world.csiOpen = s.world.csiOpen
  cut : t.world.cut = s.world.cut

namespace JudgeFrame

theorem refl (s : State) : JudgeFrame s s := ⟨rfl, rfl, rfl, rfl, rfl⟩

theorem trans {s t u : State} (h : JudgeFrame s t) (h' : JudgeFrame t u) : JudgeFrame s u :=
  ⟨h'.mem.trans h.mem, h'.safety.trans h.safety, h'.phu.trans h.phu, h'.csiOpen.trans h.csiOpen,
    h'.cut.trans h.cut⟩

/-- From a change of the world and the inputs recorded, the open CSI-2 frames apart. -/
theorem of_world {s t : State} {w : World} {d : Det} (h : JudgeFrame s t) (hopen : w.csiOpen = t.world.csiOpen)
    (hcut : w.cut = t.world.cut) : JudgeFrame s { t with world := w, det := d } :=
  ⟨h.mem, h.safety, h.phu, hopen.trans h.csiOpen, hcut.trans h.cut⟩

theorem foldl {α : Type} {f : State → α → State} (h : ∀ s x, JudgeFrame s (f s x)) (l : List α) (s : State) :
    JudgeFrame s (l.foldl f s) := by
  induction l generalizing s with
  | nil => exact .refl s
  | cons x l ih => exact (h s x).trans (ih _)

end JudgeFrame

theorem strPut_judgeFrame (s : State) (i : Nat) (x : Stream) : JudgeFrame s (strPut s i x) := ⟨rfl, rfl, rfl, rfl, rfl⟩

theorem strUpd_judgeFrame (s : State) (i : Nat) (f : Stream → Stream) : JudgeFrame s (strUpd s i f) := ⟨rfl, rfl, rfl, rfl, rfl⟩

theorem raise_judgeFrame (s : State) (c u a b : Nat) : JudgeFrame s (raise s c u a b) :=
  ⟨raise_mem .., raise_safety .., raise_phu .., by rw [raise_world], by rw [raise_world]⟩

theorem reject_judgeFrame (s : State) (i reason : Nat) : JudgeFrame s (reject s i reason) :=
  (strUpd_judgeFrame ..).trans (raise_judgeFrame ..)

theorem admitPosed_judgeFrame (s : State) (f : Frame) (p : Pose) : JudgeFrame s (admitPosed s f p) := by
  unfold admitPosed
  extract_lets i x eq run ffb moved frozen noted rejected y good counted fresh posed rec1 w d
  have hnoted : JudgeFrame s noted := strPut_judgeFrame ..
  have hrejected : JudgeFrame s rejected := hnoted.trans (reject_judgeFrame ..)
  split
  · split
    · exact hrejected.trans ((strUpd_judgeFrame ..).trans (raise_judgeFrame ..))
    · exact hrejected
  · have hcounted : JudgeFrame s counted := hnoted.trans (strPut_judgeFrame ..)
    have hfresh : JudgeFrame s fresh := by
      dsimp only [fresh]
      split
      · exact hcounted.trans ((strUpd_judgeFrame ..).trans (raise_judgeFrame ..))
      · exact hcounted
    split
    · exact hfresh.of_world rfl rfl
    · exact hfresh

theorem poseTest_judgeFrame (s : State) (f : Frame) (since : Nat) : JudgeFrame s (poseTest s f since) := by
  unfold poseTest
  split
  · next p both _ =>
    have hapart : JudgeFrame s (if both then s else worldUpd s (fun w => { w with apart := true })) := by
      split
      · exact .refl s
      · exact ⟨rfl, rfl, rfl, rfl, rfl⟩
    exact hapart.trans (admitPosed_judgeFrame ..)
  · split
    · exact strUpd_judgeFrame ..
    · exact reject_judgeFrame ..

theorem submit_judgeFrame (s : State) (f : Frame) : JudgeFrame s (submit s f) := by
  unfold submit
  dsimp only
  split
  · exact reject_judgeFrame ..
  · exact poseTest_judgeFrame ..

theorem asmEnd_judgeFrame (s : State) (i : Nat) (a : PointAsm) (complete : Bool) : JudgeFrame s (asmEnd s i a complete) :=
  (strUpd_judgeFrame ..).trans (submit_judgeFrame ..)

theorem fragmentFor_judgeFrame (s : State) (i : Nat) (b : Bytes) (hurt : Bool) : JudgeFrame s (fragmentFor s i b hurt) := by
  unfold fragmentFor
  extract_lets npts idx n cntr ended a bad b'
  have hended : JudgeFrame s ended := by
    dsimp only [ended]
    split
    · split
      · exact asmEnd_judgeFrame ..
      · exact .refl s
    · exact .refl s
  split
  · exact .refl s
  · split
    · exact hended.trans (asmEnd_judgeFrame ..)
    · exact hended.trans (strUpd_judgeFrame ..)

theorem framePoseReady_judgeFrame (s : State) (i : Nat) : JudgeFrame s (framePoseReady s i) :=
  (strUpd_judgeFrame ..).trans (.foldl (fun _ _ => poseTest_judgeFrame ..) _ _)

theorem fragmentCsi_judgeFrame (s : State) (p v : Nat) (b : Bytes) : JudgeFrame s (fragmentCsi s p v b) := by
  unfold fragmentCsi
  split
  · exact fragmentFor_judgeFrame ..
  · exact ⟨rfl, rfl, rfl, rfl, rfl⟩

theorem fragmentUdp_judgeFrame (s : State) (p : Nat) (b : Bytes) : JudgeFrame s (fragmentUdp s p b) := by
  unfold fragmentUdp
  split
  · exact fragmentFor_judgeFrame ..
  · exact ⟨rfl, rfl, rfl, rfl, rfl⟩

/-! ### A frame end (R52) -/

section FrameEnd

variable {s : State} {p v : Nat} (hen : csiEn s p = true)
include hen

theorem csiFrameEnd_none (h : s.world.csiOpen.find? (fun o => o.port == p && o.vc == v) = none) : csiFrameEnd s p v false = s := by
  simp [csiFrameEnd, hen, h]

/-- The state with the channel's frame closed. -/
def csiClosed (s : State) (p v : Nat) : State :=
  worldUpd s (fun w => { w with csiOpen := w.csiOpen.filter (fun o => !(o.port == p && o.vc == v)) })

theorem csiFrameEnd_closed {o : OpenFrame} (h : s.world.csiOpen.find? (fun o => o.port == p && o.vc == v) = some o) :
    csiFrameEnd s p v false = csiClosed s p v ∧ csiStream s 1 p v = none ∨
      ∃ i f, csiStream s 1 p v = some i ∧ csiFrameEnd s p v false = submit (csiClosed s p v) f ∧ f.stream = i ∧
        (o.corrupt = true → f.corrupt = true) := by
  have hstr : csiStream (csiClosed s p v) 1 p v = csiStream s 1 p v := rfl
  simp only [csiFrameEnd, hen, Bool.not_true, Bool.false_eq_true, if_false, h]
  rw [show worldUpd s _ = csiClosed s p v from rfl, hstr]
  cases hi : csiStream s 1 p v with
  | none => exact .inl ⟨rfl, rfl⟩
  | some i => exact .inr ⟨i, _, rfl, rfl, rfl, fun ho => by simp [ho]⟩

theorem csiFrameEnd_effect : (∀ o ∈ (csiFrameEnd s p v false).world.csiOpen, ¬ (o.port = p ∧ o.vc = v)) ∧
    (csiFrameEnd s p v false).mem = s.mem ∧ (csiFrameEnd s p v false).safety = s.safety ∧ (csiFrameEnd s p v false).phu = s.phu := by
  cases h : s.world.csiOpen.find? (fun o => o.port == p && o.vc == v) with
  | none =>
    rw [csiFrameEnd_none hen h]
    exact ⟨fun o ho => by simpa using List.find?_eq_none.1 h o ho, rfl, rfl, rfl⟩
  | some o =>
    have hclosed : ∀ o ∈ (csiClosed s p v).world.csiOpen, ¬ (o.port = p ∧ o.vc = v) := fun o ho => by
      have := (List.mem_filter.mp ho).2
      simp only [Bool.not_eq_true', Bool.and_eq_false_iff, beq_eq_false_iff_ne] at this
      rintro ⟨hp, hv⟩
      exact this.elim (fun h => h hp) (fun h => h hv)
    rcases csiFrameEnd_closed hen h with ⟨heq, -⟩ | ⟨i, f, -, heq, -, -⟩
    · rw [heq]
      exact ⟨hclosed, rfl, rfl, rfl⟩
    · rw [heq]
      obtain ⟨hmem, hsafety, hphu, hopen, -⟩ := submit_judgeFrame (csiClosed s p v) f
      exact ⟨fun o ho => hclosed o (hopen ▸ ho), hmem, hsafety, hphu⟩

end FrameEnd

/-- A CORRUPT frame fails the first test. -/
theorem submit_corrupt {s : State} {f : Frame} (h : f.corrupt = true) : submit s f = reject s f.stream 1 := by
  simp [submit, testEarly, h]

theorem raised_reject (s : State) (i reason : Nat) : Raised (reject s i reason) 0x0201 0xFFFF (reason * 256 + i) 0 := raised_here ..

theorem reject_inputs (s : State) (i reason : Nat) : (reject s i reason).world.inputs = s.world.inputs := by
  rw [reject, raise_world]
  rfl

/-! ### A point fragment (R54) -/

/-- The first fragment of a frame, in the form that R54 asks for. -/
theorem fragmentFor_first {s : State} {i : Nat} {b : Bytes} (hmagic : getLe b 0 2 = 0x4A50) (hn0 : getLe b 20 2 ≠ 0)
    (hn : getLe b 20 2 ≤ 180) (hlen : b.length = 32 + 8 * getLe b 20 2) (hasm : (strGet s i).asm = none)
    (hidx : getLe b 16 2 < getLe b 18 2) (hcount : getLe b 18 2 ≤ 1024) :
    let a : PointAsm := { counter := getLe b 4 4, timeNs := getLe b 8 8, count := getLe b 18 2, parts := [(getLe b 16 2, b.drop 32)]
                          corrupt := false }
    fragmentFor s i b false = if getLe b 18 2 = 1 then asmEnd s i a true else strPut s i { strGet s i with asm := some a } := by
  have hform : ¬ (getLe b 0 2 ≠ 0x4A50 ∨ getLe b 20 2 = 0 ∨ 180 < getLe b 20 2 ∨ b.length ≠ 32 + 8 * getLe b 20 2) := by
    simp only [hmagic, hlen]
    omega
  have hzero : getLe b 18 2 ≠ 0 := by omega
  have hbig : ¬ 1024 < getLe b 18 2 := by omega
  have hout : ¬ getLe b 18 2 ≤ getLe b 16 2 := by omega
  have hone : (1 = getLe b 18 2) = (getLe b 18 2 = 1) := propext eq_comm
  simp only [fragmentFor, if_neg hform, hasm, Option.getD_none, hzero, hbig, hout, ne_eq, not_true_eq_false, decide_false, Bool.or_self,
    Bool.false_eq_true, List.any_nil, or_self, if_false, List.nil_append, List.length_singleton, hone]
  rfl

theorem fragmentUdp_unclaimed {s : State} {p : Nat} {b : Bytes}
    (h : (List.range 32).find? (fun i => strEn s i && strKind s i == 3 && strPort s i == p && field (strCfg s i) 0 8 == getLe b 2 1) =
      none) : fragmentUdp s p b = regCount s (Reg.ethOther + 0x40 * p) := by
  simp only [fragmentUdp, h]

theorem fragmentUdp_claimed {s : State} {p i : Nat} {b : Bytes}
    (h : (List.range 32).find? (fun i => strEn s i && strKind s i == 3 && strPort s i == p && field (strCfg s i) 0 8 == getLe b 2 1) =
      some i) : fragmentUdp s p b = fragmentFor s i b false := by
  simp only [fragmentUdp, h]

theorem fragmentCsi_claimed {s : State} {p v i : Nat} {b : Bytes} (h : csiStream s 2 p v = some i)
    (hopen : s.world.csiOpen.any (fun o => o.port == p && o.vc == v && o.corrupt) = false) :
    fragmentCsi s p v b = fragmentFor s i b false := by
  simp only [fragmentCsi, h, hopen]

/-! ### A frame that waits for its poses (R55, R56) -/

theorem framePoseReady_one {s : State} {i : Nat} {f : Frame} {since : Nat} (hw : (strGet s i).waiting = [(f, since)]) :
    framePoseReady s i = poseTest (strUpd s i (fun x => { x with waiting := [] })) f since := by
  simp only [framePoseReady, hw, List.foldl_cons, List.foldl_nil]

theorem poseTest_no_pose {s : State} {f : Frame} {since : Nat} (hpose : sensorPose s f.stream f.time = none)
    (hpast : nearestBoundary f.time ≤ (s.phu.cycle : Int)) : poseTest s f since = reject s f.stream 6 := by
  have hnot : ¬ (nearestBoundary f.time > (s.phu.cycle : Int) ∧ s.phu.cycle < since + 1) := by omega
  simp only [poseTest, hpose, hnot, if_false]

theorem strGet_strPut {s : State} {i : Nat} (x : Stream) (hs : Smap.wf (fun _ => Stream.off) s.world.streams = true) :
    strGet (strPut s i x) i = x := smap_get_set_same _ _ 0 _ _ hs

theorem strPut_streamsWf {s : State} {i : Nat} (x : Stream) (hs : Smap.wf (fun _ => Stream.off) s.world.streams = true) :
    Smap.wf (fun _ => Stream.off) (strPut s i x).world.streams = true := smap_set_wf _ _ _ _ hs

/-- A frame of a FRESH stream whose fingerprint is new enters the queue with its pose. -/
theorem admitPosed_fresh {s : State} {f : Frame} {p : Pose} (hs : Smap.wf (fun _ => Stream.off) s.world.streams = true)
    (hst : (strGet s f.stream).st = .fresh) (hon : bit (regF s Reg.mrwCtrl) 0 = true) (hrep : s.det.replay = false)
    (hfp : (strGet s f.stream).lastFp ≠ some f.fp) :
    (admitPosed s f p).world.inputs = s.world.inputs ++ [{ f with pose := some p }] ∧
      (strGet (admitPosed s f p) f.stream).lastPose = some p ∧
      (strGet (admitPosed s f p) f.stream).waiting = (strGet s f.stream).waiting := by
  have heq : ((strGet s f.stream).lastFp == some f.fp) = false := by simpa using hfp
  unfold admitPosed
  extract_lets i x eq run ffb moved frozen noted rejected y good counted fresh posed rec1 w d
  have hy : y = { x with
      lastCnt := some f.counter, lastTime := some f.time, lastFp := some f.fp, lastPose := some p, sceneVox := 0, eqRun := run } :=
    strGet_strPut _ hs
  have hyst : y.st = .fresh := by rw [hy]; exact hst
  have hypose : y.lastPose = some p := by rw [hy]
  have hywait : y.waiting = (strGet s f.stream).waiting := by rw [hy]
  have hz : strGet counted i = { y with goodRun := good } := strGet_strPut _ (strPut_streamsWf _ hs)
  have hzst : (strGet counted i).st = .fresh := by rw [hz]; exact hyst
  have hfresh : fresh = counted := if_neg (by simp [hyst])
  have hfrozen : frozen = false := by simp only [frozen, eq, x, i, heq, Bool.false_and]
  have hopen : (strGet counted i).st = .fresh ∧ bit (regF counted Reg.mrwCtrl) 0 = true ∧ (!counted.det.replay) = true :=
    ⟨hzst, hon, by rw [show counted.det = s.det from rfl, hrep]; rfl⟩
  rw [hfrozen, if_neg (by decide), hfresh, if_pos hopen]
  have hend : Smap.get (fun _ => Stream.off) w.streams i = { y with goodRun := good } := by
    rw [show w = counted.world from congrArg State.world hfresh]
    exact hz
  exact ⟨rfl, (congrArg Stream.lastPose hend).trans hypose, (congrArg Stream.waiting hend).trans hywait⟩

/-- Settles O14: a frame's end, its fragments and its poses case by case; no judgement leaves the world's records of the frame. -/
theorem framesCloseAndAreJudged : Obligations.FramesCloseAndAreJudged := by
  intro s
  refine ⟨fun p v hio hen => ⟨?_, fun o i hopen hstr hcor => ?_, fun hnone hs => ?_⟩, fun src b hio => ?_, fun p b hio hs hnone => ?_,
    fun src b i hio hclaim => ?_, fun n hup => ?_, fun n f since hup hw hf => ⟨fun hpose hpast => ?_,
    fun pose hpose hok hst hon hrep hfp => ?_⟩⟩
  · exact ⟨_, runIo_next rfl hio, csiFrameEnd_effect (s := answer s .none) hen⟩
  · rcases csiFrameEnd_closed (s := answer s .none) hen hopen with ⟨-, hno⟩ | ⟨j, f, hj, heq, hf, hfc⟩
    · exact absurd (hno.symm.trans hstr) nofun
    · have hji : f.stream = i := hf.trans (Option.some.inj (hj.symm.trans hstr))
      refine ⟨_, runIo_next (heq.trans (submit_corrupt (hfc hcor))) hio, ?_, reject_inputs ..⟩
      rw [hji]
      exact raised_reject ..
  · exact runIo_next_settled (csiFrameEnd_none (s := answer s .none) hen hnone) hio hs
  · have hframe : JudgeFrame (answer s .none) (match src with
        | .csi p v => if csiEn (answer s .none) p.val then fragmentCsi (answer s .none) p.val v.val b else answer s .none
        | .udp p => fragmentUdp (answer s .none) p.val b) := by
      cases src with
      | csi p v =>
        dsimp only
        split
        · exact fragmentCsi_judgeFrame ..
        · exact .refl _
      | udp p => exact fragmentUdp_judgeFrame ..
    exact ⟨_, runIo_next rfl hio, hframe.mem, hframe.safety, hframe.phu⟩
  · exact runIo_next_settled (fragmentUdp_unclaimed (s := answer s .none) hnone) hio hs
  · intro n a hmagic hn0 hn hlen hasm hidx hcount
    have hexec : exec (.pointFragment src b) s = .next (flush (fragmentFor (answer s .none) i b false)) := by
      cases src with
      | udp p => exact runIo_next (fragmentUdp_claimed (s := answer s .none) hclaim) hio
      | csi p v =>
        obtain ⟨hen, hstr, hopen⟩ := hclaim
        exact runIo_next ((if_pos hen).trans (fragmentCsi_claimed (s := answer s .none) hstr hopen)) hio
    have hfirst := fragmentFor_first (s := answer s .none) hmagic hn0 hn hlen hasm hidx hcount
    refine ⟨fun hmore hs => ?_, fun hone => ?_⟩
    · rw [hexec, hfirst, if_neg hmore]
      exact congrArg Host.Outcome.next (flush_quiet _ hs)
    · rw [hexec, hfirst, if_pos hone]
      rfl
  · obtain ⟨hmem, hsafety, hphu, -, -⟩ := framePoseReady_judgeFrame (answer s .none) n.val
    exact ⟨_, runArith_next rfl hup, hmem, hsafety, hphu⟩
  · rw [← hf] at hpose
    refine ⟨_, runArith_next ((framePoseReady_one (s := answer s .none) hw).trans (poseTest_no_pose hpose hpast)) hup, ?_,
      reject_inputs ..⟩
    rw [hf]
    exact raised_reject ..
  · obtain ⟨hstreams, -⟩ := hok
    have hget : strGet (strUpd (answer s .none) n.val (fun x => { x with waiting := [] })) n.val = { strGet s n.val with waiting := [] } :=
      strGet_strPut (s := answer s .none) _ hstreams
    have htest : framePoseReady (answer s .none) n.val = admitPosed (strUpd (answer s .none) n.val (fun x => { x with waiting := [] })) f pose := by
      have hposed : sensorPose (strUpd (answer s .none) n.val (fun x => { x with waiting := [] })) f.stream f.time = some (pose, true) := by
        rw [hf]; exact hpose
      rw [framePoseReady_one (s := answer s .none) hw, poseTest, hposed]
      rfl
    obtain ⟨hin, hlast, hwait⟩ := admitPosed_fresh (s := strUpd (answer s .none) n.val (fun x => { x with waiting := [] })) (f := f) (p := pose)
      (strPut_streamsWf (s := answer s .none) _ hstreams) (by rw [hf, hget]; exact hst) hon hrep (by rw [hf, hget]; exact hfp)
    rw [hf] at hlast hwait
    exact ⟨_, runArith_next htest hup, hin, hlast, hwait.trans (by rw [hget])⟩

end Sys2Proof.Machine

/-!
Fusion and the ages of the world (R59 to R64, R73, R75): what a build leaves unchanged, and the proofs of FusionConsumesAndCutoffCloses and
StreamsAgeAndWorldStales.
-/
namespace Sys2Proof.Machine

/-! ### What a build of the version leaves unchanged (R62, R63, R76) -/

structure BuildFrame (s t : State) : Prop where
  mem : t.mem = s.mem
  safety : t.safety = s.safety
  phu : t.phu = s.phu
  inputs : t.world.inputs = s.world.inputs
  fused : t.world.fused = s.world.fused
  sweeps : t.world.sweeps = s.world.sweeps
  streams : t.world.streams = s.world.streams

namespace BuildFrame

theorem refl (s : State) : BuildFrame s s := ⟨rfl, rfl, rfl, rfl, rfl, rfl, rfl⟩

theorem trans {s t u : State} (h : BuildFrame s t) (h' : BuildFrame t u) : BuildFrame s u :=
  ⟨h'.mem.trans h.mem, h'.safety.trans h.safety, h'.phu.trans h.phu, h'.inputs.trans h.inputs, h'.fused.trans h.fused,
    h'.sweeps.trans h.sweeps, h'.streams.trans h.streams⟩

end BuildFrame

theorem raise_buildFrame (s : State) (c u a b : Nat) : BuildFrame s (raise s c u a b) :=
  ⟨raise_mem .., raise_safety .., raise_phu .., by rw [raise_world], by rw [raise_world], by rw [raise_world], by rw [raise_world]⟩

theorem takeWord_buildFrame {s t : State} {used : List Nat} {n : Nat} (h : takeWord s used = some (n, t)) : BuildFrame s t := by
  unfold takeWord at h
  dsimp only at h
  split at h
  · exact absurd h nofun
  · obtain ⟨k, -, hk⟩ := Option.map_eq_some_iff.1 h
    rw [← (Prod.mk.inj hk).2]
    exact ⟨rfl, rfl, rfl, rfl, rfl, rfl, rfl⟩

theorem allocOne_buildFrame (held : List Nat) (a : AllocAcc) (x : Nat × Bytes) : BuildFrame a.st (allocOne held a x).st := by
  unfold allocOne
  split
  · exact .refl _
  · split
    · exact .refl _
    · split
      · next h => exact takeWord_buildFrame h
      · exact .refl _

theorem foldl_allocOne_buildFrame (held : List Nat) (l : List (Nat × Bytes)) (a : AllocAcc) :
    BuildFrame a.st (l.foldl (allocOne held) a).st := by
  induction l generalizing a with
  | nil => exact .refl _
  | cons x l ih => exact (allocOne_buildFrame held a x).trans (ih _)

theorem wordsReturned_buildFrame (s : State) (held : List Nat) : BuildFrame s (wordsReturned s held) := by
  unfold wordsReturned
  dsimp only
  split
  · exact .refl s
  · exact ⟨rfl, rfl, rfl, rfl, rfl, rfl, rfl⟩

theorem allocate_buildFrame (s : State) : BuildFrame s (allocate s) := by
  unfold allocate
  extract_lets held built need kept a more s'
  have h : BuildFrame s a.st := foldl_allocOne_buildFrame _ _ ⟨s, kept, []⟩
  have hset : BuildFrame s (worldUpd a.st (fun w => { w with words := a.words, noWord := a.out })) :=
    ⟨h.mem, h.safety, h.phu, h.inputs, h.fused, h.sweeps, h.streams⟩
  have hs' : BuildFrame s s' := hset.trans (wordsReturned_buildFrame ..)
  split
  · exact hs'.trans (raise_buildFrame ..)
  · exact hs'

theorem rebuild_buildFrame (s : State) : BuildFrame s (rebuild s) := by
  unfold rebuild
  extract_lets b
  exact .trans (t := worldUpd s (fun w => { w with fine := b.fine, coarse := b.coarse, maskF := b.maskF, maskC := b.maskC }))
    ⟨rfl, rfl, rfl, rfl, rfl, rfl, rfl⟩ (allocate_buildFrame _)

/-- What the count of the scene's changes leaves unchanged, the streams apart. -/
structure SceneFrame (s t : State) : Prop where
  mem : t.mem = s.mem
  safety : t.safety = s.safety
  phu : t.phu = s.phu
  inputs : t.world.inputs = s.world.inputs
  fused : t.world.fused = s.world.fused

namespace SceneFrame

theorem refl (s : State) : SceneFrame s s := ⟨rfl, rfl, rfl, rfl, rfl⟩

theorem trans {s t u : State} (h : SceneFrame s t) (h' : SceneFrame t u) : SceneFrame s u :=
  ⟨h'.mem.trans h.mem, h'.safety.trans h.safety, h'.phu.trans h.phu, h'.inputs.trans h.inputs, h'.fused.trans h.fused⟩

theorem foldl {α : Type} {f : State → α → State} (h : ∀ s x, SceneFrame s (f s x)) (l : List α) (s : State) :
    SceneFrame s (l.foldl f s) := by
  induction l generalizing s with
  | nil => exact .refl s
  | cons x l ih => exact (h s x).trans (ih _)

end SceneFrame

theorem strUpd_sceneFrame (s : State) (i : Nat) (f : Stream → Stream) : SceneFrame s (strUpd s i f) := ⟨rfl, rfl, rfl, rfl, rfl⟩

theorem sceneSeen_sceneFrame (s : State) (stream : Nat) (mask : Smap Nat) (ch : List Nat) : SceneFrame s (sceneSeen s stream mask ch) := by
  refine .foldl (fun s b => .foldl (fun s i => ?_) _ s) _ s
  split
  · exact strUpd_sceneFrame ..
  · exact .refl s

/-! ### Fusion (R62, R63) -/

/-- The first frame that can be fused: its scene, its stream's age and the version's build. -/
theorem frameFusionDone_first {s : State} {f : Frame} (hf : (sortBy frameLe s.world.inputs).find? (fusable s) = some f)
    (hon : bit (regF s Reg.mrwCtrl) 0 = true) (hdone : s.world.done = false) :
    (frameFusionDone s).world.inputs = s.world.inputs.erase f ∧ (frameFusionDone s).world.fused = s.world.fused ++ [f] ∧
      (frameFusionDone s).mem = s.mem ∧ (frameFusionDone s).safety = s.safety ∧ (frameFusionDone s).phu = s.phu := by
  simp only [frameFusionDone, hf, hon, hdone, Bool.not_true, Bool.false_eq_true, or_self, if_false]
  generalize fuseFrame s (buildFrom s (s.world.fused.filter (fun g => frameLe g f))) f = b
  obtain ⟨b, chf, chc⟩ := b
  dsimp only
  have seen := (sceneSeen_sceneFrame s f.stream b.maskF chf).trans ((sceneSeen_sceneFrame _ f.stream b.maskC chc).trans
    (strUpd_sceneFrame _ f.stream (fun x => { x with age := 0 })))
  generalize strUpd (sceneSeen (sceneSeen s f.stream b.maskF chf) f.stream b.maskC chc) f.stream (fun x => { x with age := 0 }) = t at seen
  have built := rebuild_buildFrame (worldUpd t (fun w => { w with inputs := w.inputs.erase f, fused := w.fused ++ [f] }))
  exact ⟨built.inputs.trans (congrArg (List.erase · f) seen.inputs), built.fused.trans (congrArg (· ++ [f]) seen.fused),
    built.mem.trans seen.mem, built.safety.trans seen.safety, built.phu.trans seen.phu⟩

theorem frameFusionDone_none {s : State} (h : s.world.inputs.any (fusable s) = false) : frameFusionDone s = s := by
  have hnone : (sortBy frameLe s.world.inputs).find? (fusable s) = none := by
    refine List.find?_eq_none.2 fun f hf => ?_
    have := List.any_eq_false.1 h f (mem_sortBy _ _ _ hf)
    simpa using this
  simp only [frameFusionDone, hnone]

theorem fusionCutoff_effect {s : State} (hruns : phaseRuns s = true) :
    (fusionCutoff s).world.cut = true ∧ (fusionCutoff s).mem = s.mem ∧ (fusionCutoff s).safety = s.safety := by
  have h : JudgeFrame (worldUpd (reachPhase s (cutoffPu s)) (fun w => { w with cut := true })) (fusionCutoff s) := by
    simp only [fusionCutoff, hruns, if_true]
    refine .foldl (fun s i => ?_) _ _
    split
    · exact asmEnd_judgeFrame ..
    · exact .refl s
  exact ⟨h.cut, h.mem.trans (reachPhase_mem ..), h.safety.trans (reachPhase_safety ..)⟩

theorem versionBuildDone_effect {s : State} (hdone : s.world.done = false) (hnone : s.world.inputs.any (fusable s) = false)
    (hcut : s.world.cut = true) :
    (versionBuildDone s).world.done = true ∧ (versionBuildDone s).world.cur = s.world.cur ∧ (versionBuildDone s).mem = s.mem ∧
      (marginOver s = true → Raised (versionBuildDone s) 0x020A 0xFFFF s.world.h 0) := by
  have hover : marginOver (worldUpd s (fun w => { w with done := true })) = marginOver s := rfl
  simp only [versionBuildDone, hdone, hnone, hcut, Bool.not_true, Bool.false_eq_true, or_self, if_false, hover]
  split
  · exact ⟨by rw [raise_world]; rfl, by rw [raise_world]; rfl, raise_mem .., fun _ => raised_here ..⟩
  · next h => exact ⟨rfl, rfl, rfl, fun hm => absurd hm h⟩

/-- Settles O15: the first frame that can be fused leaves the queue, and nothing that a build does touches it. -/
theorem fusionConsumesAndCutoffCloses : Obligations.FusionConsumesAndCutoffCloses := by
  intro s hup
  refine ⟨fun f hf hon hdone => ?_, fun hs hnone => ?_, fun hruns => ?_, fun hdone hnone hcut => ?_⟩
  · exact ⟨_, runArith_next rfl hup, frameFusionDone_first (s := answer s .none) hf hon hdone⟩
  · exact runArith_next_settled (frameFusionDone_none (s := answer s .none) hnone) hup hs
  · exact ⟨_, runArith_next rfl hup, fusionCutoff_effect (s := answer s .none) hruns⟩
  · exact ⟨_, runArith_next rfl hup, versionBuildDone_effect (s := answer s .none) hdone hnone hcut⟩

/-! ### Ages (R59, R64, R73) -/

theorem streamStale_due {s : State} {i : Nat} (hst : (strGet s i).st = .fresh) (hage : field (strLim s i) 8 8 ≤ (strGet s i).age) :
    streamStale s i = raise (strPut s i { strGet s i with st := .stale }) 0x0202 0xFFFF (512 + i) 0 := if_pos ⟨hst, hage⟩

theorem fovDecay_due {s : State} {i : Nat} (hst : (strGet s i).st = .stale) (hage : field (strLim s i) 16 16 ≤ (strGet s i).age) :
    ∃ n t, fovDecay s i = raise t 0x0204 0xFFFF (n * 256 + i) 0 ∧
      t.world.streams = Smap.set (fun _ => Stream.off) s.world.streams i { strGet s i with st := .decayed } ∧
      t.world.sweeps = s.world.sweeps ++ [i] ∧ t.mem = s.mem := by
  have h := rebuild_buildFrame (worldUpd (strPut s i { strGet s i with st := .decayed }) (fun w => { w with sweeps := w.sweeps ++ [i] }))
  exact ⟨_, _, if_pos ⟨hst, hage⟩, h.streams, h.sweeps, h.mem⟩

theorem maskMissing_one {s : State} {i : Nat} {f : Frame} (hin : s.world.inputs = [f]) (hf : f.stream = i) (hp : strPerson s i = true)
    (hlate : f.maskLate = false) (hmask : f.mask = none) (hstamp : f.stamp / 65536 < s.phu.cycle) (hcut : cutoffPu s ≤ phase s) :
    maskMissing s i = raise (worldUpd s (fun w => { w with inputs := [{ f with maskLate := true }], lateMasks := w.lateMasks + 1 }))
      0x020B 0xFFFF i 0 := by
  simp [maskMissing, hin, sortBy, insertBy, hf, hp, hlate, hmask, hstamp, hcut, worldUpd]

theorem worldStale_due {s : State} (hst : worldIsStale s = true) (hnew : s.world.staleRaised = false) :
    worldStale s = raise (worldUpd s (fun w => { w with staleRaised := true })) 0x0209 0xFFFF (s.phu.cycle - s.world.cur.version) 0 :=
  if_pos ⟨hst, by simp [hnew]⟩

/-- Settles O16: each age that falls due is noted in its record, and its event is raised last. -/
theorem streamsAgeAndWorldStales : Obligations.StreamsAgeAndWorldStales := by
  intro s hup
  refine ⟨fun n hst hage => ?_, fun n hst hage => ?_, fun n f hin hf hp hlate hmask hstamp hcut => ?_, fun hst hnew => ?_⟩
  · exact ⟨_, runArith_next (streamStale_due (s := answer s .none) hst hage) hup, raised_here .., raise_world .., raise_mem ..⟩
  · obtain ⟨swept, t, heq, hstr, hsweeps, hmem⟩ := fovDecay_due (s := answer s .none) hst hage
    exact ⟨_, runArith_next heq hup, ⟨swept, raised_here ..⟩, by rw [raise_world]; exact hstr, by rw [raise_world]; exact hsweeps,
      (raise_mem ..).trans hmem⟩
  · exact ⟨_, runArith_next (maskMissing_one (s := answer s .none) hin hf hp hlate hmask hstamp hcut) hup,
      congrArg World.inputs (raise_world ..), raised_here .., raise_mem ..⟩
  · exact ⟨_, runArith_next (worldStale_due (s := answer s .none) hst hnew) hup, raise_world .., raised_here .., raise_mem ..⟩

end Sys2Proof.Machine

/-!
Robot models, primitives and weights (R104, R107, R120, R254): what an install, a cancel and a check do in each of their cases, and the proofs
of ModelInstallStagesImage and TablesInstallAndCancel.
-/
namespace Sys2Proof.Machine

/-! ### Robot models (R104, R107) -/

section ModelInstall

variable {s : State} (hrep : s.det.replay = false)
include hrep

theorem modelInstall_free (hbusy : s.model.status.busy = false) (hheld : oldBankHeld s = false) : modelInstall s = { s with
    model := { s.model with
      status := .verifying, pend := none, pendAddr := ssBase 0 + objW s 0x2300 6, pendSwitch := objW s 0x2300 7, deferrals := 0 } } := by
  simp [modelInstall, hrep, hbusy, hheld]

theorem modelInstall_busy (hbusy : s.model.status.busy = true) :
    modelInstall s = raise { s with model := { s.model with reason := 7 } } 0x0301 0xFFFF 7 0 := by
  simp [modelInstall, hrep, hbusy]

theorem modelInstall_held (hbusy : s.model.status.busy = false) (hheld : oldBankHeld s = true) :
    modelInstall s = raise { s with model := { s.model with reason := 7, status := .refused } } 0x0301 0xFFFF 7 0 := by
  simp [modelInstall, hrep, hbusy, hheld]

end ModelInstall

/-- The state with the pending model dropped. -/
def modelDrop (s : State) : State := { s with model := { s.model with status := .idle, pend := none, deferrals := 0 } }

theorem modelCancel_untied {s : State} (hbusy : s.model.status.busy = true) (hdue : modelDue s = false) (htied : tied s = false) :
    modelCancel s = modelDrop s := by
  simp [modelCancel, hbusy, hdue, htied, modelDrop]

theorem modelCancel_tied {s : State} (hbusy : s.model.status.busy = true) (hdue : modelDue s = false) (htied : tied s = true) :
    modelCancel s = planRefuseOnly (modelDrop s) 5 0 := by
  simp [modelCancel, hbusy, hdue, htied, modelDrop]

/-- A plan image refused alone. -/
theorem planRefuseOnly_effect (s : State) (reason d : Nat) : (planRefuseOnly s reason d).model = s.model ∧
    (planRefuseOnly s reason d).mem = s.mem ∧ (planRefuseOnly s reason d).plan.status = .refused ∧
    (planRefuseOnly s reason d).plan.pend = none ∧ Raised (planRefuseOnly s reason d) 0x0B01 0xFFFF reason d :=
  ⟨raise_model .., raise_mem .., by rw [planRefuseOnly, raise_plan], by rw [planRefuseOnly, raise_plan], raised_here ..⟩

theorem modelRefuse_effect (s : State) (reason : Nat) :
    (modelRefuse s reason).model = { s.model with status := .refused, reason := reason, pend := none, deferrals := 0 } ∧
      Raised (modelRefuse s reason) 0x0301 0xFFFF reason 0 ∧ (modelRefuse s reason).mem = s.mem := by
  unfold modelRefuse
  dsimp only
  split
  · obtain ⟨hmodel, hmem, -, -, -⟩ := planRefuseOnly_effect (modelRefuseOnly s reason) 5 0
    exact ⟨hmodel.trans (modelRefuseOnly_model ..), raised_more (raised_modelRefuseOnly ..) (raise_eventFrame ..).added, hmem.trans (modelRefuseOnly_mem ..)⟩
  · exact ⟨modelRefuseOnly_model .., raised_modelRefuseOnly .., modelRefuseOnly_mem ..⟩

/-- The bytes of the pending image that the check reads. -/
def modelBytes (s : State) : Bytes :=
  let b := memBytes s s.model.pendAddr (min (memLe s (s.model.pendAddr + 44) 4) 29504)
  fit (max 64 b.length) b

theorem modelStaged_sound {s : State} (hst : s.model.status = .verifying) (hr : modelReason (modelBytes s) = 0) :
    modelStaged s = (bankLeeks s).foldl bankCopy { s with
      model := { s.model with
        status := .staged, pend := some (readModel (modelBytes s)), pendImg := modelBytes s, stagedAt := s.phu.bcount,
        structural := structuralChange s.model.cur (readModel (modelBytes s)) } } := by
  unfold modelBytes at hr ⊢
  simp only [modelStaged, hst, if_true, hr, ne_eq, not_true_eq_false, if_false]
  rfl

theorem modelStaged_refused {s : State} (hst : s.model.status = .verifying) (hr : modelReason (modelBytes s) ≠ 0) :
    modelStaged s = modelRefuse s (modelReason (modelBytes s)) := by
  unfold modelBytes at hr ⊢
  simp only [modelStaged, hst, if_true, hr, ne_eq, not_false_eq_true]

theorem foldl_bankCopy_logs (l : List Nat) (s : State) : (l.foldl bankCopy s).logs = s.logs := by
  induction l generalizing s with
  | nil => rfl
  | cons u l ih => exact ih _

/-- Settles O17: the install, the cancel and the check of a model by its status. -/
theorem modelInstallStagesImage : Obligations.ModelInstallStagesImage := by
  intro s hio
  refine ⟨fun hs hrep hbusy hheld => ?_, fun hrep hbusy => ?_, fun hrep hbusy hheld => ?_, fun hs hbusy hdue htied => ?_,
    fun hbusy hdue htied => ?_, fun hst => ⟨fun hr hs => ?_, fun hr => ?_⟩⟩
  · exact runIo_next_settled (modelInstall_free (s := answer s .none) hrep hbusy hheld) hio hs
  · exact ⟨_, runIo_next (modelInstall_busy (s := answer s .none) hrep hbusy) hio, raise_model .., raised_here .., raise_mem ..⟩
  · exact ⟨_, runIo_next (modelInstall_held (s := answer s .none) hrep hbusy hheld) hio, raise_model .., raised_here .., raise_mem ..⟩
  · exact runIo_next_settled (modelCancel_untied (s := answer s .none) hbusy hdue htied) hio hs
  · obtain ⟨hmodel, hmem, hst, hpend, hraised⟩ := planRefuseOnly_effect (modelDrop (answer s .none)) 5 0
    exact ⟨_, runIo_next (modelCancel_tied (s := answer s .none) hbusy hdue htied) hio, hmodel, hst, hpend, hraised, hmem⟩
  · exact runIo_next_settled (modelStaged_sound (s := answer s .none) hst hr) hio ((congrArg Logs.buf (foldl_bankCopy_logs ..)).trans hs)
  · exact ⟨_, runIo_next (modelStaged_refused (s := answer s .none) hst hr) hio, modelRefuse_effect (answer s .none) _⟩

/-! ### Primitives and weights (R120, R254) -/

theorem primInstall_accepted {s : State} {ok : Bool} (hrep : s.det.replay = false) (hr : primReason s ok = 0) : primInstall s ok =
    { s with cand := { s.cand with primPend := some (objW s 0x2405 1, objW s 0x2405 2), primStatus := 1 } } := by
  simp [primInstall, hrep, hr]

theorem primInstall_refused {s : State} {ok : Bool} (hrep : s.det.replay = false) (hr : primReason s ok ≠ 0) : primInstall s ok =
    raise { s with cand := { s.cand with primStatus := if s.cand.primPend.isSome then s.cand.primStatus else 3 } } 0x0404 0xFFFF
      (primReason s ok) 0 := by
  simp [primInstall, hrep, hr]

theorem weightCheckDone_right {s : State} {k a n : Nat} (hc : s.cob.wCheck = some (k, a, n))
    (hd : declaredDigest s k = some (sha256 (memBytes s a n))) : weightCheckDone s = { s with
      cob := { s.cob with wCheck := none, wPend := some (k, a, memBytes s a n), wStatus := 1 } } := by
  simp only [weightCheckDone, hc]
  exact if_pos hd

theorem weightCheckDone_wrong {s : State} {k a n : Nat} (hc : s.cob.wCheck = some (k, a, n))
    (hd : declaredDigest s k ≠ some (sha256 (memBytes s a n))) : weightCheckDone s = raise { s with
      cob := { s.cob with wCheck := none, wStatus := if s.cob.wPend.isSome then 1 else 3 } } 0x0907 0xFFFF 5 k := by
  simp only [weightCheckDone, hc]
  exact if_neg hd

/-- Settles O19: the tables' installs, cancels and checks. -/
theorem tablesInstallAndCancel : Obligations.TablesInstallAndCancel := by
  intro s hio hs
  refine ⟨fun ok hrep hr => ?_, fun ok hrep hr => ?_, fun hpend => ?_, fun hpend => ?_, fun hrep => ?_, ?_, fun k a n hc => ⟨fun hd => ?_,
    fun hd => ?_⟩⟩
  · exact runIo_next_settled (primInstall_accepted (s := answer s .none) hrep hr) hio hs
  · exact ⟨_, runIo_next (primInstall_refused (s := answer s .none) hrep hr) hio, by rw [raise_cand]; rfl, raised_here .., raise_mem ..⟩
  · exact runIo_next_settled (if_pos hpend) hio hs
  · exact runIo_next_settled (if_neg (by simp [hpend])) hio hs
  · exact runIo_next_settled (if_neg (by simp [hrep])) hio hs
  · exact runIo_next_settled rfl hio hs
  · exact runIo_next_settled (weightCheckDone_right (s := answer s .none) hc hd) hio hs
  · exact ⟨_, runIo_next (weightCheckDone_wrong (s := answer s .none) hc hd) hio, raise_cob .., raised_here .., raise_mem ..⟩

end Sys2Proof.Machine

/-!
The safety state on its own (R361 to R364, R369, R370): the safe state's entry, stop requests, the procedure for a safety set, and the proofs of
SafeStateLowersOutputs, StopRequestsLapsePermit and SafetySetProcedure.
-/
namespace Sys2Proof.Machine

section Wrappers

variable {s t : State} {f : State → State} (hf : f (answer s .none) = t)
include hf

theorem runAon_next (hup : aonUp s = true) : (.next (runAon s f) : Host.Outcome State Fault Refusal) = .next (flush t) :=
  hf ▸ congrArg _ (runAon_up s f hup)
theorem runAon_next_settled (hup : aonUp s = true) (ht : Settled t) :
    (.next (runAon s f) : Host.Outcome State Fault Refusal) = .next t :=
  (runAon_next hf hup).trans (congrArg _ (flush_quiet t ht))
theorem run_next_settled (hup : mainUp s = true) (ht : Settled t) :
    (.next (run s f) : Host.Outcome State Fault Refusal) = .next t :=
  (run_next hf hup).trans (congrArg _ (flush_quiet t ht))
theorem runApp_next (happ : appUp s = true) (hup : arithUp s = true) :
    (.next (runApp s f) : Host.Outcome State Fault Refusal) = .next (flush t) :=
  hf ▸ congrArg _ (runApp_up s f happ hup)
theorem runApp_next_settled (happ : appUp s = true) (hup : arithUp s = true) (ht : Settled t) :
    (.next (runApp s f) : Host.Outcome State Fault Refusal) = .next t :=
  (runApp_next hf happ hup).trans (congrArg _ (flush_quiet t ht))

end Wrappers

/-! ### The entry of the safe state (R364) -/

/-- What the entry of the safe state does, and the fields that it leaves. -/
structure SafeEntry (s t : State) (cause : Nat) : Prop where
  dead : Dead t
  raised : Raised t 0x0D06 huskId cause 0
  lastCause : t.logs.lastCause = cause
  added : ∃ l, t.logs.buf = s.logs.buf ++ l
  mem : t.mem = s.mem
  units : t.units = s.units
  phu : t.phu = s.phu
  cpm : t.cpm = s.cpm

theorem enterSafeWith_entry {s : State} (hsafe : s.safety.safeState = false) (cause : Nat) (fixed : Bool) :
    SafeEntry s (enterSafeWith s cause fixed) cause := by
  have hadded := (enterSafeWith_verdictFrame s cause fixed).added
  rw [enterSafeWith, if_neg (by simp [hsafe])] at hadded ⊢
  cases fixed
  · exact ⟨by simp [Dead, PermitLow], raised_here .., rfl, hadded, by simp, by simp, by simp, by simp⟩
  · exact ⟨by simp [Dead, PermitLow], raised_here .., rfl, hadded, by simp [takeFreeBytes], by simp [takeFreeBytes],
      by simp [takeFreeBytes], by simp [takeFreeBytes]⟩

theorem lapse_safeState (s : State) (cause : Nat) : (lapse s cause).safety.safeState = s.safety.safeState := by
  unfold lapse
  split
  · simp only [raise_safety]
    split <;> rfl
  · rfl

theorem lapse_cpm (s : State) (cause : Nat) : (lapse s cause).cpm = s.cpm := by
  unfold lapse
  split
  · simp only [raise_cpm]
    split <;> rfl
  · rfl

theorem lapse_added (s : State) (cause : Nat) : ∃ l, (lapse s cause).logs.buf = s.logs.buf ++ l := by
  unfold lapse
  split
  · refine added_trans ⟨[], ?_⟩ (raise_eventFrame ..).added
    split <;> exact (List.append_nil _).symm
  · exact ⟨[], (List.append_nil _).symm⟩

theorem clkTimeout_none {s : State} {src : Nat} (h : s.cpm.failed.find? (fun (p : Nat × Nat) => p.1 == src) = none) :
    clkTimeout s src = s := by
  simp [clkTimeout, h]

theorem clkTimeout_entry {s : State} {src : Nat} {p : Nat × Nat} (hsafe : s.safety.safeState = false)
    (h : s.cpm.failed.find? (fun (p : Nat × Nat) => p.1 == src) = some p) :
    Dead (clkTimeout s src) ∧ Raised (clkTimeout s src) 0x0D06 huskId 3 0 ∧ (clkTimeout s src).mem = s.mem := by
  have heq : clkTimeout s src = enterSafe (reachTick s (p.2 + 450000000)) 3 := by simp [clkTimeout, h]
  have entry := enterSafeWith_entry (s := reachTick s (p.2 + 450000000)) (by simpa [reachTick] using hsafe) 3 false
  rw [heq]
  exact ⟨entry.dead, entry.raised, entry.mem.trans (by simp [reachTick])⟩

theorem watchFail_done {s : State} (h : s.cpm.watchOk = false) : watchFail s = s := by simp [watchFail, h]

/-- The state in which the failure of the watch oscillator enters the safe state. -/
def watchFailed (s : State) : State :=
  let s := clockLow { s with cpm := { s.cpm with watchOk := false, fails := satInc 32 s.cpm.fails } }
  advance (raise s 0x1201 0xFFFF 6 s.phu.cycle) 47185920

theorem watchFailed_raised (s : State) : Raised (watchFailed s) 0x1201 0xFFFF 6 s.phu.cycle :=
  raised_same (raised_here (clockLow { s with cpm := { s.cpm with watchOk := false, fails := satInc 32 s.cpm.fails } }) ..)
    (by simp [watchFailed, clockLow])

theorem watchFail_entry {s : State} (hsafe : s.safety.safeState = false) (h : s.cpm.watchOk = true) :
    Dead (watchFail s) ∧ Raised (watchFail s) 0x0D06 huskId 3 0 ∧ Raised (watchFail s) 0x1201 0xFFFF 6 s.phu.cycle ∧
      (watchFail s).cpm.watchOk = false ∧ (watchFail s).mem = s.mem := by
  have heq : watchFail s = enterSafeWith (watchFailed s) 3 true := by simp [watchFail, watchFailed, h]
  have entry := enterSafeWith_entry (s := watchFailed s) (by simpa [watchFailed, clockLow, lapse_safeState] using hsafe) 3 true
  rw [heq]
  exact ⟨entry.dead, entry.raised, raised_more (watchFailed_raised s) entry.added,
    by rw [entry.cpm]; simp [watchFailed, clockLow, lapse_cpm], entry.mem.trans (by simp [watchFailed, clockLow])⟩

/-- Settles O41: every cause ends in the one entry of the safe state, and without its condition nothing changes. -/
theorem safeStateLowersOutputs : Obligations.SafeStateLowersOutputs := by
  unfold Obligations.SafeStateLowersOutputs
  intro s
  refine ⟨fun c hup hold => ?_, fun c hup hs hold => ?_, fun n p hup hp => ?_, fun n hup hs hp => ?_, fun hup hw => ?_, fun hup hs hw => ?_⟩
  · have entry := enterSafeWith_entry (s := answer s .none) (aonUp_not_safe hup) (safeCode c) (safeCode c == 2)
    exact ⟨_, runAon_next (if_pos hold) hup, entry.dead, entry.raised, entry.lastCause, entry.mem, entry.units, entry.phu⟩
  · exact runAon_next_settled (if_neg (by rw [Bool.not_eq_true]; exact hold)) hup hs
  · exact ⟨_, run_next rfl hup, clkTimeout_entry (s := answer s .none) (mainUp_not_safe hup) hp⟩
  · exact run_next_settled (clkTimeout_none (s := answer s .none) hp) hup hs
  · exact ⟨_, runAon_next rfl hup, watchFail_entry (s := answer s .none) (aonUp_not_safe hup) hw⟩
  · exact runAon_next_settled (watchFail_done (s := answer s .none) hw) hup hs

/-! ### Stop requests (R363) -/

theorem lapse_cause {s : State} (h : s.safety.permit = true ∨ s.safety.grant = true) (cause : Nat) :
    (lapse s cause).safety.cause = cause := by
  simp only [lapse, if_pos h]
  split <;> rw [raise_safety]

theorem lapse_stopReq (s : State) (cause : Nat) : (lapse s cause).safety.stopReq = s.safety.stopReq := by
  unfold lapse
  split
  · simp only [raise_safety]
    split <;> rfl
  · rfl

theorem lapse_idle {s : State} (h : s.safety.permit = false) (h' : s.safety.grant = false) (cause : Nat) : lapse s cause = s := by
  simp [lapse, h, h']

/-- The state in which a stop request lapses the permit. -/
def stopRaised (s : State) : State := raise { s with safety := { s.safety with stopReq := true } } 0x0D0A huskId 2 0

theorem stopRequest_effect (s : State) :
    (stopRequest s).safety.stopReq = true ∧ Raised (stopRequest s) 0x0D0A huskId 2 0 ∧
    (s.safety.permit = true ∨ s.safety.grant = true →
      PermitLow (stopRequest s) ∧ (stopRequest s).safety.cause = 3 ∧ Raised (stopRequest s) 0x0D04 huskId 3 s.phu.cycle) ∧
    (s.safety.permit = false → s.safety.grant = false → (stopRequest s).safety = { s.safety with stopReq := true }) ∧
    (stopRequest s).mem = s.mem ∧ (stopRequest s).units = s.units ∧ (stopRequest s).phu = s.phu := by
  have heq : stopRequest s = lapse (stopRaised s) 3 := rfl
  rw [heq]
  refine ⟨lapse_stopReq .., raised_more (raised_here ..) (lapse_added ..), fun h => ?_, fun hp hg => ?_, by simp [stopRaised],
    by simp [stopRaised], by simp [stopRaised]⟩
  · obtain ⟨hlow, hraised⟩ := lapse_held (s := stopRaised s) h 3
    exact ⟨hlow, lapse_cause (s := stopRaised s) h 3, hraised⟩
  · rw [lapse_idle (s := stopRaised s) hp hg]
    rfl

theorem permitBToggle_permitted {s : State} (hp : s.safety.permit = true) (hrun : phaseRuns s = true) :
    permitBToggle s = { reachPhase s 16384 with safety := { s.safety with permitB := !s.safety.permitA } } := by
  simp [permitBToggle, hp, hrun]

theorem permitBToggle_other {s : State} (h : s.safety.permit = false ∨ phaseRuns s = false) : permitBToggle s = s := by
  rcases h with h | h <;> simp [permitBToggle, h]

/-- Settles O39: the request's event and its lapse, its release, and PERMIT_B at 16,384 pu. -/
theorem stopRequestsLapsePermit : Obligations.StopRequestsLapsePermit := by
  unfold Obligations.StopRequestsLapsePermit
  intro s hup
  refine ⟨fun happ => ?_, fun happ hs => ?_, fun hs hp hrun => ?_, fun hs h => ?_⟩
  · obtain ⟨hstop, hraised, hheld, hidle, hframe⟩ := stopRequest_effect (answer s .none)
    exact ⟨_, runApp_next rfl happ hup, hstop, rfl, hraised, hheld, hidle, hframe⟩
  · exact runApp_next_settled rfl happ hup hs
  · refine runArith_next_settled ?_ hup (settled_of_logs (s := s) ?_ hs)
    · rw [permitBToggle_permitted (s := answer s .none) hp hrun, reachPhase_answer]
      rfl
    · simp
  · exact runArith_next_settled (permitBToggle_other (s := answer s .none) h) hup hs

/-! ### The procedure for a safety set (R369, R370) -/

section SafetySet

variable {s : State}

theorem withCoe_up (h : coeUp s = true) (f : State → State) : withCoe (answer s .none) f = f (answer s .none) := if_pos h

theorem withCoe_down (h : coeUp s = false) (f : State → State) : withCoe (answer s .none) f = answer s .noMailbox := by
  rw [withCoe, if_neg (by rw [Bool.not_eq_true]; exact h)]
  rfl

theorem sparUnlock_open (h : s.safety.spStatus = .unlocked ∨ s.safety.spStatus = .confirmed) (v : Nat) :
    sparUnlock s v = sdoAbort s 0x08000020 := if_pos h

theorem sparUnlock_crc (h : ¬ (s.safety.spStatus = .unlocked ∨ s.safety.spStatus = .confirmed)) {v : Nat} (hv : v = sparCrc s.safety.par) :
    sparUnlock s v =
      answer { s with safety := { s.safety with spStatus := .unlocked, staged := [], unlockCycle := s.phu.bcount } } .sdoOk :=
  (if_neg h).trans (if_pos hv)

theorem sparUnlock_wrong (h : ¬ (s.safety.spStatus = .unlocked ∨ s.safety.spStatus = .confirmed)) {v : Nat}
    (hv : v ≠ sparCrc s.safety.par) : sparUnlock s v = sdoAbort (sparRefuse s 1) 0x08000000 :=
  (if_neg h).trans (if_neg hv)

theorem sparStage_range {sub v : Nat} (h : sparRange sub v = false) : sparStage s sub v = sdoAbort s 0x06090030 := by
  simp [sparStage, h]

theorem sparStage_turn {sub v : Nat} (h : sparRange sub v = true) (hst : s.safety.spStatus ≠ .unlocked) :
    sparStage s sub v = sdoAbort s 0x08000020 := by
  simp [sparStage, h, hst]

theorem sparStage_staged {sub v : Nat} (h : sparRange sub v = true) (hst : s.safety.spStatus = .unlocked) :
    sparStage s sub v = answer { s with safety := { s.safety with staged := s.safety.staged ++ [(sub, v)] } } .sdoOk := by
  simp [sparStage, h, hst]

theorem sparConfirm_turn (hst : s.safety.spStatus ≠ .unlocked) (v : Nat) : sparConfirm s v = sdoAbort s 0x08000020 := if_pos hst

theorem sparConfirm_good (hst : s.safety.spStatus = .unlocked) {v : Nat} (hj : sparJudge s v = 0) :
    sparConfirm s v =
      answer { s with safety := { s.safety with spStatus := .confirmed, confirmed := some (s.now, sparNew s) } } .sdoOk := by
  simp [sparConfirm, hst, hj]

theorem sparConfirm_refused (hst : s.safety.spStatus = .unlocked) {v : Nat} (hj : sparJudge s v ≠ 0) :
    sparConfirm s v = sdoAbort (sparRefuse s (sparJudge s v)) 0x08000000 := by
  simp only [sparConfirm, hst, ne_eq, not_true_eq_false, if_false]

/-- A refusal: its event, with the safety record of its reason. -/
theorem sparRefuse_effect (s : State) (r : Nat) (q : Nat) :
    let t := sdoAbort (sparRefuse s r) q
    Raised t 0x0D08 huskId r 0 ∧
      t.safety = { s.safety with staged := [], spStatus := .refused, spReason := r, confirmed := none } ∧
      t.resp = .sdoAbort q ∧ t.mem = s.mem :=
  ⟨raised_here .., rfl, rfl, rfl⟩

theorem sparTimeout_due (hst : s.safety.spStatus = .unlocked) (h : s.safety.unlockCycle + 65536 ≤ s.phu.bcount) :
    sparTimeout s = sparRefuse s 5 := if_pos ⟨hst, h⟩

theorem sparTimeout_other (h : s.safety.spStatus ≠ .unlocked ∨ s.phu.bcount < s.safety.unlockCycle + 65536) : sparTimeout s = s :=
  if_neg fun ⟨hst, hle⟩ => h.elim (fun h => h hst) (fun h => absurd h (Nat.not_lt.mpr hle))

end SafetySet

/-- Settles O40: each step of the procedure by its turn and its value, and its time limit. -/
theorem safetySetProcedure : Obligations.SafetySetProcedure := by
  unfold Obligations.SafetySetProcedure
  intro s hup abort refused isOpen
  refine ⟨fun hcoe => ⟨fun v => ⟨fun ho hs => ?_, fun ho hs hv => ?_, fun ho hv => ?_⟩,
      fun sub v hs => ⟨fun hst hr => ?_, fun hst hr => ?_, fun hr => ?_⟩, fun v => ⟨fun hst => ⟨fun hs hj => ?_, fun hj => ?_⟩, fun hst hs => ?_⟩⟩,
    fun hcoe hs v sub => ⟨?_, ?_, ?_⟩, fun hst hle => ?_, fun h hs => ?_⟩
  · exact runIo_next_settled ((withCoe_up hcoe _).trans (sparUnlock_open (s := answer s .none) ho _)) hup hs
  · exact runIo_next_settled ((withCoe_up hcoe _).trans (sparUnlock_crc (s := answer s .none) ho hv)) hup hs
  · exact ⟨_, runIo_next ((withCoe_up hcoe _).trans (sparUnlock_wrong (s := answer s .none) ho hv)) hup,
      sparRefuse_effect (answer s .none) 1 0x08000000⟩
  · exact runIo_next_settled ((withCoe_up hcoe _).trans (sparStage_staged (s := answer s .none) hr hst)) hup hs
  · exact runIo_next_settled ((withCoe_up hcoe _).trans (sparStage_turn (s := answer s .none) hr hst)) hup hs
  · exact runIo_next_settled ((withCoe_up hcoe _).trans (sparStage_range (s := answer s .none) hr)) hup hs
  · exact runIo_next_settled ((withCoe_up hcoe _).trans (sparConfirm_good (s := answer s .none) hst hj)) hup hs
  · exact ⟨_, runIo_next ((withCoe_up hcoe _).trans (sparConfirm_refused (s := answer s .none) hst hj)) hup,
      sparRefuse_effect (answer s .none) (sparJudge s v.toNat) 0x08000000⟩
  · exact runIo_next_settled ((withCoe_up hcoe _).trans (sparConfirm_turn (s := answer s .none) hst _)) hup hs
  · exact runIo_next_settled (withCoe_down hcoe _) hup hs
  · exact runIo_next_settled (withCoe_down hcoe _) hup hs
  · exact runIo_next_settled (withCoe_down hcoe _) hup hs
  · obtain ⟨hraised, hsafety, -, hmem⟩ := sparRefuse_effect (answer s .none) 5 0
    exact ⟨_, runIo_next (sparTimeout_due (s := answer s .none) hst hle) hup, hraised, hsafety, hmem⟩
  · exact runIo_next_settled (sparTimeout_other (s := answer s .none) h) hup hs

end Sys2Proof.Machine

/-!
Work of the scheduling layer (R268 to R282): what decrements, the failure and the end of a task leave unchanged, the queues, and the proof of
QueuesKeepFirstInFirstOut.
-/
namespace Sys2Proof.Machine

/-! ### What the work of the scheduler leaves unchanged -/

/-- The parts of the device that have nothing to do with work. -/
structure Bystanders where
  peers : PeerSt
  cpm : Cpm
  od : Od
  det : Det
  svc : Svc
  model : ModelSt
  plan : PlanSt
  world : World
  pins : Pins

def bystanders (s : State) : Bystanders := ⟨s.peers, s.cpm, s.od, s.det, s.svc, s.model, s.plan, s.world, s.pins⟩

/-- What work leaves of the scheduler and the Pods, and the rest of the device: the stalls, the counts of tasks over their budget and past
their end, and the evaluations. -/
def workKept (s : State) : List Stall × Nat × Nat × List Eval × Bystanders :=
  (s.sched.stalls, s.sched.overTotal, s.sched.missTotal, s.pod.evals, bystanders s)

/-- Work that touches neither memory nor the safety record nor a stall, and adds to the records that wait. -/
structure WorkFrame (s t : State) : Prop where
  mem : t.mem = s.mem
  safety : t.safety = s.safety
  kept : workKept t = workKept s
  added : ∃ l, t.logs.buf = s.logs.buf ++ l

namespace WorkFrame

theorem refl (s : State) : WorkFrame s s := ⟨rfl, rfl, rfl, [], (List.append_nil _).symm⟩

theorem trans {s t u : State} (h : WorkFrame s t) (h' : WorkFrame t u) : WorkFrame s u :=
  ⟨h'.mem.trans h.mem, h'.safety.trans h.safety, h'.kept.trans h.kept, added_trans h.added h'.added⟩

theorem of_eq {s t : State} (hmem : t.mem = s.mem) (hsafety : t.safety = s.safety) (hkept : workKept t = workKept s)
    (hlogs : t.logs = s.logs) : WorkFrame s t :=
  ⟨hmem, hsafety, hkept, [], by rw [hlogs, List.append_nil]⟩

theorem stalls {s t : State} (h : WorkFrame s t) : t.sched.stalls = s.sched.stalls := congrArg (·.1) h.kept
theorem overTotal {s t : State} (h : WorkFrame s t) : t.sched.overTotal = s.sched.overTotal := congrArg (·.2.1) h.kept
theorem missTotal {s t : State} (h : WorkFrame s t) : t.sched.missTotal = s.sched.missTotal := congrArg (·.2.2.1) h.kept
theorem evals {s t : State} (h : WorkFrame s t) : t.pod.evals = s.pod.evals := congrArg (·.2.2.2.1) h.kept
theorem bystanders {s t : State} (h : WorkFrame s t) : bystanders t = bystanders s := congrArg (·.2.2.2.2) h.kept
theorem peers {s t : State} (h : WorkFrame s t) : t.peers = s.peers := congrArg Bystanders.peers h.bystanders

theorem foldl {α : Type} {f : State → α → State} (h : ∀ s x, WorkFrame s (f s x)) (l : List α) (s : State) :
    WorkFrame s (l.foldl f s) := by
  induction l generalizing s with
  | nil => exact refl s
  | cons x l ih => exact (h s x).trans (ih (f s x))

end WorkFrame

/-- Decrements touch neither a unit nor a Pod, and no queue. -/
structure DecFrame (s t : State) : Prop where
  work : WorkFrame s t
  units : t.units = s.units
  pod : t.pod = s.pod
  pushes : t.sched.pushes = s.sched.pushes

namespace DecFrame

theorem refl (s : State) : DecFrame s s := ⟨.refl s, rfl, rfl, rfl⟩

theorem trans {s t u : State} (h : DecFrame s t) (h' : DecFrame t u) : DecFrame s u :=
  ⟨h.work.trans h'.work, h'.units.trans h.units, h'.pod.trans h.pod, h'.pushes.trans h.pushes⟩

theorem foldl {α : Type} {f : State → α → State} (h : ∀ s x, DecFrame s (f s x)) (l : List α) (s : State) :
    DecFrame s (l.foldl f s) := by
  induction l generalizing s with
  | nil => exact refl s
  | cons x l ih => exact (h s x).trans (ih (f s x))

end DecFrame

/-- A word of a counter is no part of the frame. -/
theorem ctrSet_decFrame (s : State) (n w : Nat) : DecFrame s (ctrSet s n w) := ⟨.of_eq rfl rfl rfl rfl, rfl, rfl, rfl⟩

theorem raise_workFrame (s : State) (c u a b : Nat) : WorkFrame s (raise s c u a b) :=
  ⟨raise_mem .., raise_safety .., by simp [workKept, Machine.bystanders], (raise_eventFrame ..).added⟩

theorem raiseOnion_added (s : State) (k c u a b : Nat) : ∃ l, (raiseOnion s k c u a b).logs.buf = s.logs.buf ++ l :=
  ⟨_, congrArg Logs.buf (setEventBits_logs ..)⟩

theorem raiseOnion_workFrame (s : State) (k c u a b : Nat) : WorkFrame s (raiseOnion s k c u a b) :=
  ⟨raiseOnion_mem .., (raiseOnion_taskFrame ..).safety, by simp [workKept, Machine.bystanders, raiseOnion, raiseX], raiseOnion_added ..⟩

theorem raiseOnion_decFrame (s : State) (k c u a b : Nat) : DecFrame s (raiseOnion s k c u a b) :=
  ⟨raiseOnion_workFrame .., by simp [raiseOnion, raiseX], by simp [raiseOnion, raiseX], by rw [raiseOnion_sched]⟩

theorem decOne_decFrame (a : ClkAcc) (d : Decr) : DecFrame a.st (decOne a d).st := by
  unfold decOne
  dsimp only
  split
  · exact .refl _
  · split
    · exact .trans (t := { a.st with sched := { a.st.sched with disarmTotal := satInc 32 a.st.sched.disarmTotal } })
        ⟨.of_eq rfl rfl rfl rfl, rfl, rfl, rfl⟩ (raiseOnion_decFrame ..)
    · split
      · split
        · exact .refl _
        · exact ctrSet_decFrame ..
      · exact ctrSet_decFrame ..

theorem decOne_foldl_decFrame (l : List Decr) (a : ClkAcc) : DecFrame a.st (l.foldl decOne a).st := by
  induction l generalizing a with
  | nil => exact .refl _
  | cons d l ih => exact (decOne_decFrame a d).trans (ih (decOne a d))

theorem queueRelease_decFrame (s : State) (n : Nat) : DecFrame s (queueRelease s n) := by
  unfold queueRelease
  dsimp only
  split <;> exact ⟨.of_eq rfl rfl rfl rfl, rfl, rfl, rfl⟩

theorem clkDecs_decFrame (s : State) (gates others : List Decr) : DecFrame s (clkDecs s gates others) := by
  have decs (a : ClkAcc) (l : List Decr) (rels : List Nat) (h : DecFrame s a.st) :
      DecFrame s (rels.foldl queueRelease (l.foldl decOne a).st) :=
    h.trans ((decOne_foldl_decFrame l a).trans (.foldl queueRelease_decFrame rels _))
  exact .trans (decs _ _ _ ⟨.of_eq rfl rfl rfl rfl, rfl, rfl, rfl⟩) ⟨.of_eq rfl rfl rfl rfl, rfl, rfl, rfl⟩

theorem clkDecs_workFrame (s : State) (gates others : List Decr) : WorkFrame s (clkDecs s gates others) := (clkDecs_decFrame ..).work

theorem recallOne_workFrame (s : State) (cls stack lvl : Nat) : WorkFrame s (recallOne s cls stack lvl) := by
  unfold recallOne
  split
  · exact .refl s
  · split
    · split
      · exact .of_eq rfl rfl rfl rfl
      · exact .refl s
    · exact .refl s

theorem readyHead_workFrame (s : State) (t : Task) : WorkFrame s (readyHead s t) :=
  .trans (t := readyPut s (taskKey t) (t :: readyGet s (taskKey t))) (.of_eq rfl rfl rfl rfl) (recallOne_workFrame ..)

theorem readyTail_workFrame (s : State) (t : Task) : WorkFrame s (readyTail s t) :=
  .trans (t := readyPut s (taskKey t) (readyGet s (taskKey t) ++ [t])) (.of_eq rfl rfl rfl rfl) (recallOne_workFrame ..)

theorem failTask_workFrame (s : State) (t : Task) (u : Nat) : WorkFrame s (failTask s t u) := by
  unfold failTask
  split
  · refine .trans ?_ (readyHead_workFrame ..)
    split
    · exact .of_eq rfl rfl rfl rfl
    · exact .refl s
  · exact clkDecs_workFrame ..

theorem startCheck_workFrame (s : State) (t : Task) (u : Nat) : WorkFrame s (startCheck s t u) := by
  unfold startCheck
  split
  · exact raiseOnion_workFrame ..
  · exact .refl s

theorem beginTask_workFrame (fuel : Nat) (s : State) (u : Nat) : WorkFrame s (beginTask fuel s u) := by
  induction fuel generalizing s with
  | zero => exact .refl s
  | succ fuel ih =>
    unfold beginTask
    split
    · exact .refl s
    · next t _ =>
      split
      · exact .refl s
      · have checked := startCheck_workFrame s t u
        dsimp only
        split
        · exact checked.trans (.of_eq rfl rfl rfl rfl)
        · next code d0 d1 _ =>
          refine checked.trans ((raise_workFrame _ code u d0 d1).trans (.trans ?_ ((failTask_workFrame ..).trans (ih _))))
          exact .of_eq rfl rfl rfl rfl

theorem noteBusy_workFrame (s : State) (u : Nat) : WorkFrame s (noteBusy s u) := by
  unfold noteBusy
  split
  · split
    · unfold busyAdd
      dsimp only
      split <;> exact .of_eq rfl rfl rfl rfl
    · exact .refl s
  · exact .refl s

theorem slotNext_workFrame (s : State) (u : Nat) : WorkFrame s (slotNext s u) := by
  refine (noteBusy_workFrame s u).trans (.trans ?_ (beginTask_workFrame ..))
  exact .of_eq rfl rfl rfl rfl

theorem countDone_workFrame (s : State) (u : Nat) : WorkFrame s (countDone s u) := by
  unfold countDone
  split
  · exact .of_eq rfl rfl rfl rfl
  · exact .refl s

theorem cutRun_workFrame (s : State) (t : Task) (u : Nat) : WorkFrame s (cutRun s t u).2 := by
  have iters : WorkFrame s (freeIters s t).2 := by
    unfold freeIters
    split <;> exact .of_eq rfl rfl rfl rfl
  exact iters.trans (.of_eq rfl rfl rfl rfl)

theorem psnDiscard_workFrame (s : State) (u : Nat) (t : Task) (iters : Nat) : WorkFrame s (psnDiscard s u t iters) := by
  unfold psnDiscard
  refine (raise_workFrame s 0x0801 u (probWord s t) iters).trans ?_
  dsimp only
  split <;> exact .of_eq rfl rfl rfl rfl

theorem failRun_workFrame (s : State) (t : Task) (u : Nat) : WorkFrame s (failRun s t u) := by
  unfold failRun
  split
  · refine (cutRun_workFrame s t u).trans (.trans ?_ (failTask_workFrame ..))
    split
    · exact psnDiscard_workFrame ..
    · exact .refl _
  · exact failTask_workFrame ..

/-- The failure of the task in a unit's execution slot takes its stalls with it, so that only the rest of the frame stands. -/
theorem failExec_eventFrame (s : State) (u : Nat) : EventFrame s (failExec s u) := by
  unfold failExec
  split
  · exact .refl s
  · next t _ =>
    have h := (slotNext_workFrame (dropStalls s u) u).trans (failRun_workFrame _ t u)
    exact ⟨h.safety, h.added⟩

theorem failExec_mem (s : State) (u : Nat) : (failExec s u).mem = s.mem := (failExec_taskFrame s u).mem

theorem pushEnds_workFrame (s : State) (x : Stall) : WorkFrame s (pushEnds s x) := by
  unfold pushEnds
  split
  · exact .refl s
  · split
    · exact .of_eq rfl rfl rfl rfl
    · exact (countDone_workFrame ..).trans (slotNext_workFrame ..)

/-! ### Queues (R281, R282) -/

/-- The state after the cache has found a queue. -/
def qFound (s : State) (e : Nat × Nat × Nat) : State :=
  { s with sched := { s.sched with qcache := e :: s.sched.qcache.filter (fun x => x.1 != e.1) } }

/-- The state after an entry has entered at TAIL. -/
def qEntered (s : State) (q h t : Nat) (b : Bytes) : State :=
  let s := memPut s (qEntry s q t) (fit 64 b)
  let s := qPut s q h ((t + 1) % 2 ^ 32)
  { s with sched := { s.sched with pushes := satInc 32 s.sched.pushes } }

/-- The state after a stalled push has left the list. -/
def stallTaken (s : State) (x : Stall) : State :=
  { s with sched := { s.sched with stalls := s.sched.stalls.erase x, stallClk := sat 32 (s.sched.stallClk + clkSince s x.since) } }

@[simp] theorem qFound_mem (s : State) (e : Nat × Nat × Nat) : (qFound s e).mem = s.mem := rfl
@[simp] theorem qFound_stalls (s : State) (e : Nat × Nat × Nat) : (qFound s e).sched.stalls = s.sched.stalls := rfl
@[simp] theorem qEntry_qFound (s : State) (e : Nat × Nat × Nat) (q n : Nat) : qEntry (qFound s e) q n = qEntry s q n := rfl
@[simp] theorem stallTaken_mem (s : State) (x : Stall) : (stallTaken s x).mem = s.mem := rfl
@[simp] theorem stallTaken_stalls (s : State) (x : Stall) : (stallTaken s x).sched.stalls = s.sched.stalls.erase x := rfl
@[simp] theorem qEntry_stallTaken (s : State) (x : Stall) (q n : Nat) : qEntry (stallTaken s x) q n = qEntry s q n := rfl
@[simp] theorem qEntered_bytes (s : State) (q h t : Nat) (b : Bytes) :
    (qEntered s q h t b).mem.bytes = cellPut s.mem.bytes (qEntry s q t) (fit 64 b) := rfl
@[simp] theorem qEntered_stalls (s : State) (q h t : Nat) (b : Bytes) : (qEntered s q h t b).sched.stalls = s.sched.stalls := rfl

section Queue


variable {s : State} {q h t : Nat}

theorem qOpen_cached (hc : s.sched.qcache.find? (fun e => e.1 == q) = some (q, h, t)) :
    qOpen s q = ((h, t), qFound s (q, h, t)) := by
  simp only [qOpen, hc]
  rfl

theorem qPush_disabled (hen : qEn s q = false) (u : Nat) (b : Bytes) (after : List Decr) (ends : Bool) :
    qPush s q u b after ends = (.disabled, [], raise s 0x0A0A u q u) := by
  simp [qPush, hen]

theorem qPush_full (hen : qEn s q = true) (hc : s.sched.qcache.find? (fun e => e.1 == q) = some (q, h, t))
    (hf : qFill h t = qSize s q) (u : Nat) (b : Bytes) (after : List Decr) (ends : Bool) :
    qPush s q u b after ends = (.stalled, [], { qFound s (q, h, t) with sched := { (qFound s (q, h, t)).sched with
      stalls := s.sched.stalls ++ [⟨q, u, fit 64 b, s.now, s.now, false, after, ends⟩] } }) := by
  have hfull : qFill h t = qSize (qFound s (q, h, t)) q := hf
  simp only [qPush, hen, qOpen_cached hc, if_pos hfull, Bool.not_true, Bool.false_eq_true, if_false]
  rfl

theorem qPush_done (hen : qEn s q = true) (hc : s.sched.qcache.find? (fun e => e.1 == q) = some (q, h, t))
    (hf : qFill h t ≠ qSize s q) (u : Nat) (b : Bytes) (after : List Decr) (ends : Bool) :
    ∃ l, qPush s q u b after ends = (.done, l, qEntered (qFound s (q, h, t)) q h t b) := by
  have hroom : ¬ qFill h t = qSize (qFound s (q, h, t)) q := hf
  simp only [qPush, hen, qOpen_cached hc, if_neg hroom, Bool.not_true, Bool.false_eq_true, if_false]
  exact ⟨_, rfl⟩

theorem qPop_disabled (hen : qEn s q = false) (u : Nat) : qPop s q u = (none, raise s 0x0A0A u q u) := by
  simp [qPop, hen]

theorem qPop_empty (hen : qEn s q = true) (hc : s.sched.qcache.find? (fun e => e.1 == q) = some (q, h, h)) (u : Nat) :
    qPop s q u = (none, qFound s (q, h, h)) := by
  simp [qPop, hen, qOpen_cached hc]

theorem qPop_head (hen : qEn s q = true) (hc : s.sched.qcache.find? (fun e => e.1 == q) = some (q, h, t)) (hne : h ≠ t) (u : Nat) :
    qPop s q u = (some (memBytes s (qEntry s q h) 64), qPut (qFound s (q, h, t)) q ((h + 1) % 2 ^ 32) t) := by
  simp only [qPop, hen, qOpen_cached hc, if_neg hne, Bool.not_true, Bool.false_eq_true, if_false]
  rfl

variable {u : Nat}

theorem queuePush_unstalled (hst : pushStalled s u = false) (b : Bytes) :
    queuePush s q u b =
      let r := qPush s q u b [] false
      match r.1 with
      | .done => clkDecs r.2.2 [] r.2.1
      | .stalled => r.2.2
      | .disabled => failExec r.2.2 u :=
  if_neg (by rw [hst]; decide)

theorem queuePop_unstalled (hst : pushStalled s u = false) :
    queuePop s q u =
      let r := qPop s q u
      match r.1 with
      | some b => answer r.2 (.entry b)
      | none => if qEn s q then answer r.2 .empty else failExec r.2 u :=
  if_neg (by rw [hst]; decide)

theorem queuePush_disabled (hst : pushStalled s u = false) (hen : qEn s q = false) (b : Bytes) :
    queuePush s q u b = failExec (raise s 0x0A0A u q u) u := by
  rw [queuePush_unstalled hst, qPush_disabled hen]

theorem queuePop_disabled (hst : pushStalled s u = false) (hen : qEn s q = false) :
    queuePop s q u = failExec (raise s 0x0A0A u q u) u := by
  rw [queuePop_unstalled hst, qPop_disabled hen]
  simp [hen]

/-- A disabled queue: its event, and the failure of the task. -/
theorem disabled_effect (s : State) (q u : Nat) :
    Raised (failExec (raise s 0x0A0A u q u) u) 0x0A0A u q u ∧ (failExec (raise s 0x0A0A u q u) u).mem = s.mem :=
  ⟨raised_more (raised_here ..) (failExec_eventFrame ..).added, (failExec_mem ..).trans (raise_mem ..)⟩

theorem queuePush_done (hst : pushStalled s u = false) (hen : qEn s q = true)
    (hc : s.sched.qcache.find? (fun e => e.1 == q) = some (q, h, t)) (hf : qFill h t ≠ qSize s q) (b : Bytes) :
    (queuePush s q u b).mem.bytes = cellPut s.mem.bytes (qEntry s q t) (fit 64 b) ∧
      (queuePush s q u b).sched.pushes = satInc 32 s.sched.pushes ∧ (queuePush s q u b).units = s.units := by
  obtain ⟨l, hl⟩ := qPush_done hen hc hf u b [] false
  rw [queuePush_unstalled hst, hl]
  obtain ⟨hwork, hunits, -, hpushes⟩ := clkDecs_decFrame (qEntered (qFound s (q, h, t)) q h t b) [] l
  exact ⟨congrArg Mem.bytes hwork.mem, hpushes, hunits⟩

theorem queuePush_full (hst : pushStalled s u = false) (hen : qEn s q = true)
    (hc : s.sched.qcache.find? (fun e => e.1 == q) = some (q, h, t)) (hf : qFill h t = qSize s q) (b : Bytes) :
    (queuePush s q u b).mem = s.mem ∧ (queuePush s q u b).units = s.units ∧
      (queuePush s q u b).sched.stalls = s.sched.stalls ++ [⟨q, u, fit 64 b, s.now, s.now, false, [], false⟩] := by
  rw [queuePush_unstalled hst, qPush_full hen hc hf]
  exact ⟨rfl, rfl, rfl⟩

theorem queuePop_head (hst : pushStalled s u = false) (hen : qEn s q = true)
    (hc : s.sched.qcache.find? (fun e => e.1 == q) = some (q, h, t)) (hne : h ≠ t) :
    queuePop s q u =
      answer (qPut (qFound s (q, h, t)) q ((h + 1) % 2 ^ 32) t) (.entry (memBytes s (qEntry s q h) 64)) := by
  rw [queuePop_unstalled hst, qPop_head hen hc hne]

theorem queuePop_empty (hst : pushStalled s u = false) (hen : qEn s q = true)
    (hc : s.sched.qcache.find? (fun e => e.1 == q) = some (q, h, h)) : queuePop s q u = answer (qFound s (q, h, h)) .empty := by
  rw [queuePop_unstalled hst, qPop_empty hen hc]
  simp [hen]

variable {x : Stall} (hx : s.sched.stalls.find? (fun x => x.queue == q) = some x)
include hx

theorem queueResume_done (hen : qEn s q = true) (hc : s.sched.qcache.find? (fun e => e.1 == q) = some (q, h, t))
    (hf : qFill h t ≠ qSize s q) :
    (queueResume s q).mem.bytes = cellPut s.mem.bytes (qEntry s q t) (fit 64 x.entry) ∧
      (queueResume s q).sched.stalls = s.sched.stalls.erase x := by
  obtain ⟨l, hl⟩ := qPush_done (s := stallTaken (qFound s (q, h, t)) x) hen (by simp [stallTaken, qFound]) hf x.unit x.entry [] false
  have heq : queueResume s q =
      pushEnds (clkDecs (qEntered (qFound (stallTaken (qFound s (q, h, t)) x) (q, h, t)) q h t x.entry) [] (l ++ x.after)) x := by
    unfold queueResume
    rw [hx]
    dsimp only
    rw [qOpen_cached hc, if_neg hf]
    change pushEnds (clkDecs (qPush (stallTaken (qFound s (q, h, t)) x) q x.unit x.entry [] false).2.2 []
      ((qPush (stallTaken (qFound s (q, h, t)) x) q x.unit x.entry [] false).2.1 ++ x.after)) x = _
    rw [hl]
  have hwork := (clkDecs_workFrame (qEntered (qFound (stallTaken (qFound s (q, h, t)) x) (q, h, t)) q h t x.entry) [] (l ++ x.after)).trans
    (pushEnds_workFrame _ x)
  rw [heq]
  exact ⟨by rw [hwork.mem]; simp, by rw [hwork.stalls]; simp⟩

theorem queueResume_full (hc : s.sched.qcache.find? (fun e => e.1 == q) = some (q, h, t)) (hf : qFill h t = qSize s q) :
    queueResume s q = qFound s (q, h, t) := by
  simp only [queueResume, hx, qOpen_cached hc, if_pos hf]

theorem queueStall_effect (hr : s.sched.stalls.any (fun y => y.queue == q && y.reported) = false) :
    Raised (queueStall s q) 0x0A09 x.unit q x.unit ∧ (queueStall s q).mem = s.mem := by
  simp only [queueStall, hx, hr, Bool.false_eq_true, if_false]
  exact ⟨raised_here .., by simp [reachClk]⟩

end Queue

/-- Settles O24: a push, a pop and a resumed push by what the cache holds of the queue. -/
theorem queuesKeepFirstInFirstOut : Obligations.QueuesKeepFirstInFirstOut := by
  unfold Obligations.QueuesKeepFirstInFirstOut
  intro s q u hd tl hup
  refine ⟨fun hst hs => ⟨fun b => ?_, ?_⟩, fun hst hen => ⟨fun b => ?_, ?_⟩,
    fun hc hen => ⟨fun b hst => ⟨fun hf => ?_, fun hf => ?_⟩, fun hst hs => ⟨fun hne => ?_, fun he => ?_⟩, fun x hx hf => ?_, fun x hx hf hs => ?_⟩,
    fun x hx hr => ?_⟩
  · exact runArith_next_settled (if_pos hst) hup hs
  · exact runArith_next_settled (if_pos hst) hup hs
  · exact ⟨_, runArith_next (queuePush_disabled (s := answer s .none) hst hen b) hup, disabled_effect (answer s .none) ..⟩
  · exact ⟨_, runArith_next (queuePop_disabled (s := answer s .none) hst hen) hup, disabled_effect (answer s .none) ..⟩
  · exact ⟨_, runArith_next rfl hup, queuePush_done (s := answer s .none) hst hen hc hf b⟩
  · exact ⟨_, runArith_next rfl hup, queuePush_full (s := answer s .none) hst hen hc hf b⟩
  · exact ⟨_, runArith_next_settled (queuePop_head (s := answer s .none) hst hen hc hne) hup hs, rfl, by simp [qPut], rfl⟩
  · subst he
    exact ⟨_, runArith_next_settled (queuePop_empty (s := answer s .none) hst hen hc) hup hs, rfl, rfl⟩
  · exact ⟨_, runArith_next rfl hup, queueResume_done (s := answer s .none) hx hen hc hf⟩
  · exact ⟨_, runArith_next_settled (queueResume_full (s := answer s .none) hx hc hf) hup hs, rfl, rfl⟩
  · exact ⟨_, runArith_next rfl hup, queueStall_effect (s := answer s .none) hx hr⟩

end Sys2Proof.Machine

/-!
Limits of tasks (R284, R286): what a unit's leaving of service leaves of memory and of the scheduler's counts, the ends that come too late, and
the proof of LateTasksAreReported.
-/
namespace Sys2Proof.Machine

/-! ### What a unit's fault leaves unchanged -/

/-- The bytes of memory and the DDR5 channels. -/
def stored (s : State) : List Host.Cell × Chan × Chan × Chan × Chan := (s.mem.bytes, s.mem.ch0, s.mem.ch1, s.mem.ch2, s.mem.ch3)

/-- A fault takes no byte of memory, no channel, no count of late tasks and no evaluation, and adds to the records that wait. -/
structure OutFrame (s t : State) : Prop where
  stored : stored t = stored s
  overTotal : t.sched.overTotal = s.sched.overTotal
  evals : t.pod.evals = s.pod.evals
  added : ∃ l, t.logs.buf = s.logs.buf ++ l

namespace OutFrame

theorem bytes {s t : State} (h : OutFrame s t) : t.mem.bytes = s.mem.bytes := congrArg Prod.fst h.stored

theorem refl (s : State) : OutFrame s s := ⟨rfl, rfl, rfl, [], (List.append_nil _).symm⟩

theorem trans {s t u : State} (h : OutFrame s t) (h' : OutFrame t u) : OutFrame s u :=
  ⟨h'.stored.trans h.stored, h'.overTotal.trans h.overTotal, h'.evals.trans h.evals, added_trans h.added h'.added⟩

theorem of_eq {s t : State} (hmem : Machine.stored t = Machine.stored s) (hsched : t.sched.overTotal = s.sched.overTotal)
    (hevals : t.pod.evals = s.pod.evals) (hlogs : t.logs = s.logs) : OutFrame s t :=
  ⟨hmem, hsched, hevals, [], by rw [hlogs, List.append_nil]⟩

theorem of_work {s t : State} (h : WorkFrame s t) : OutFrame s t :=
  ⟨by rw [Machine.stored, h.mem, Machine.stored], h.overTotal, h.evals, h.added⟩

end OutFrame

theorem unitEvent_sched (s : State) (u : Nat) (e : UEvent) : (unitEvent s u e).sched = s.sched := by
  simp [unitEvent, apply_ite State.sched]
theorem unitEvent_pod (s : State) (u : Nat) (e : UEvent) : (unitEvent s u e).pod = s.pod := by
  simp [unitEvent, apply_ite State.pod]

theorem unitEvent_outFrame (s : State) (u : Nat) (e : UEvent) : OutFrame s (unitEvent s u e) :=
  ⟨by rw [stored, unitEvent_mem, stored], by rw [unitEvent_sched], by rw [unitEvent_pod], (unitEvent_eventFrame ..).added⟩

theorem substitute_outFrame (s : State) (u : Nat) : OutFrame s (substitute s u) := by
  have noted (t : State) (n : Nat) : OutFrame t (unitUpd t u (fun r => { r with subst := n })) := .of_eq rfl rfl rfl rfl
  unfold substitute
  split
  · next sp _ =>
    split
    · exact (unitEvent_outFrame s sp .subst).trans (noted _ sp)
    · exact noted s 0xFFFF
  · dsimp only
    split
    · refine (noted s 0xFFFF).trans (.trans (.of_work (raise_workFrame _ 0x0E08 0xFFFF (idClass u * 256 + idStack u * 16)
        (activeCount (unitUpd s u (fun r => { r with subst := 0xFFFF })) (idClass u) (idStack u)))) ?_)
      exact .of_eq rfl rfl rfl rfl
    · exact noted s 0xFFFF

theorem svcDepart_outFrame (s : State) (u : Nat) : OutFrame s (svcDepart s u) := by
  have kept : stored (svcDepart s u) = stored s ∧ (svcDepart s u).sched = s.sched ∧ (svcDepart s u).pod = s.pod := by
    unfold svcDepart
    extract_lets mask
    split
    · split
      · exact ⟨by dsimp only [stored]; split <;> rfl, rfl, rfl⟩
      · exact ⟨rfl, rfl, rfl⟩
    · exact ⟨rfl, rfl, rfl⟩
  obtain ⟨hstored, hsched, hpod⟩ := kept
  exact ⟨hstored, congrArg Sched.overTotal hsched, congrArg PodSt.evals hpod, (svcDepart_unitFrame s u).added⟩

theorem selAgain_outFrame (s : State) (u : Nat) : OutFrame s (selAgain s u) := by
  unfold selAgain
  split
  · exact .of_eq rfl rfl rfl rfl
  · exact .refl s

theorem departed_outFrame (s : State) (u : Nat) : OutFrame s (departed s u) :=
  (substitute_outFrame ..).trans ((svcDepart_outFrame ..).trans (selAgain_outFrame ..))

theorem dropStalls_outFrame (s : State) (u : Nat) : OutFrame s (dropStalls s u) := .of_eq rfl rfl rfl rfl

theorem dropTasks_outFrame (s : State) (u : Nat) : OutFrame s (dropTasks s u) := by
  unfold dropTasks
  extract_lets r emptied returned
  have hemptied : OutFrame s emptied :=
    (OutFrame.of_work (noteBusy_workFrame s u)).trans ((dropStalls_outFrame (noteBusy s u) u).trans (.of_eq rfl rfl rfl rfl))
  have hreturned : OutFrame s returned := by
    dsimp only [returned]
    split
    · exact hemptied.trans (.of_work (readyHead_workFrame ..))
    · exact hemptied
  split
  · split
    · exact hreturned.trans (.of_work (failRun_workFrame ..))
    · exact hreturned.trans (.of_work (readyHead_workFrame ..))
  · exact hreturned

theorem peaShort_outFrame (s : State) (u : Nat) : OutFrame s (peaShort s u) := by
  unfold peaShort
  dsimp only
  split
  · exact .of_work (raise_workFrame ..)
  · exact .refl s

theorem podFault_outFrame (s : State) (u : Nat) (was : Bool) : OutFrame s (podFault s u was) := by
  unfold podFault
  extract_lets g busy why emptied woken
  split
  · have hwoken : OutFrame s woken := by
      dsimp only [woken]
      split <;> exact .of_eq rfl rfl rfl rfl
    exact hwoken.trans (.of_work (raise_workFrame ..))
  · exact peaShort_outFrame s u

theorem faultOut_outFrame (s : State) (u : Nat) : OutFrame s (faultOut s u) := by
  have rest (t : State) (was : Bool) : OutFrame t (podFault (dropTasks t u) u was) := (dropTasks_outFrame t u).trans (podFault_outFrame ..)
  unfold faultOut
  dsimp only
  split
  · split
    · exact (unitEvent_outFrame s u .fault).trans ((departed_outFrame ..).trans (rest ..))
    · exact (unitEvent_outFrame s u .fault).trans (rest ..)
  · exact .refl s

theorem enterSafeWith_kept (s : State) (cause : Nat) (fixed : Bool) :
    (enterSafeWith s cause fixed).mem = s.mem ∧ (enterSafeWith s cause fixed).sched = s.sched ∧ (enterSafeWith s cause fixed).pod = s.pod := by
  unfold enterSafeWith
  split
  · exact ⟨rfl, rfl, rfl⟩
  · cases fixed <;> simp [takeFreeBytes]

theorem judgePath_outFrame (s : State) (u : Nat) : OutFrame s (judgePath s u) := by
  have kept : (judgePath s u).mem = s.mem ∧ (judgePath s u).sched = s.sched ∧ (judgePath s u).pod = s.pod := by
    unfold judgePath
    split
    · exact enterSafeWith_kept ..
    · exact ⟨rfl, rfl, rfl⟩
  obtain ⟨hmem, hsched, hpod⟩ := kept
  exact ⟨by rw [stored, hmem, stored], congrArg Sched.overTotal hsched, congrArg PodSt.evals hpod, (judgePath_unitFrame s u).added⟩

theorem ueOther_outFrame (s : State) (u : Nat) (t : Task) : OutFrame s (ueOther s u t) := by
  unfold ueOther
  split
  · exact (faultOut_outFrame ..).trans (judgePath_outFrame ..)
  · exact .refl s

theorem failExec_outFrame (s : State) (u : Nat) : OutFrame s (failExec s u) := by
  unfold failExec
  split
  · exact .refl s
  · next t _ =>
    exact (dropStalls_outFrame s u).trans (.of_work ((slotNext_workFrame ..).trans (failRun_workFrame _ t u)))

/-! ### Tasks and evaluations over their budget (R284) -/

theorem reachBudget_answer (s : State) (r : Resp) (t : Task) : reachBudget (answer s r) t = answer (reachBudget s t) r := by
  let lim := t.startCycle * 65536 + t.startPhase + t.desc.budget + 1 - s.phu.cycle * 65536
  change (if lim < 65536 then reachPhase (answer s r) lim else answer s r) = answer (if lim < 65536 then reachPhase s lim else s) r
  split
  · exact reachPhase_answer ..
  · rfl

theorem reachEnd_answer (s : State) (r : Resp) (t : Task) : reachEnd (answer s r) t = answer (reachEnd s t) r := by
  change (if s.phu.cycle = t.cycle + t.desc.endCyc then reachPhase (answer s r) _ else answer s r) =
    answer (if s.phu.cycle = t.cycle + t.desc.endCyc then reachPhase s _ else s) r
  split
  · exact reachPhase_answer ..
  · rfl

@[simp] theorem reachBudget_mem (s : State) (t : Task) : (reachBudget s t).mem = s.mem := by
  unfold reachBudget
  dsimp only
  split <;> simp
@[simp] theorem reachBudget_sched (s : State) (t : Task) : (reachBudget s t).sched = s.sched := by
  unfold reachBudget
  dsimp only
  split <;> simp
@[simp] theorem reachBudget_pod (s : State) (t : Task) : (reachBudget s t).pod = s.pod := by
  unfold reachBudget
  dsimp only
  split <;> simp
@[simp] theorem reachEnd_mem (s : State) (t : Task) : (reachEnd s t).mem = s.mem := by
  unfold reachEnd
  split <;> simp
@[simp] theorem reachEnd_sched (s : State) (t : Task) : (reachEnd s t).sched = s.sched := by
  unfold reachEnd
  split <;> simp
@[simp] theorem reachEnd_units (s : State) (t : Task) : (reachEnd s t).units = s.units := by
  unfold reachEnd
  split <;> simp

section Late

variable {s : State} {u : Nat}

theorem budgetOverrun_task {t : Task} (hr : running s u = some t) (hlate : t.desc.budget < elapsed (reachBudget s t) t) :
    (budgetOverrun s u).sched.overTotal = satInc 32 s.sched.overTotal ∧ Raised (budgetOverrun s u) 0x0A05 u t.desc.taskId u ∧
      (budgetOverrun s u).mem.bytes = s.mem.bytes := by
  have frame := (failExec_outFrame (raiseOnion (overCount (reachBudget s t) t.stack) t.stack 0x0A05 u t.desc.taskId u) u).trans
    (ueOther_outFrame _ u t)
  have heq : budgetOverrun s u =
      ueOther (failExec (raiseOnion (overCount (reachBudget s t) t.stack) t.stack 0x0A05 u t.desc.taskId u) u) u t := by
    simp only [budgetOverrun, hr, if_neg (Nat.not_le.mpr hlate)]
  rw [heq]
  exact ⟨frame.overTotal.trans (by simp [overCount]), raised_more (raised_raiseOnion ..) frame.added, frame.bytes.trans (by simp [overCount])⟩

theorem budgetOverrun_eval {e : Eval} (hr : running s u = none) (he : evalRun s u = some e) (hst : e.started = true)
    (hlate : e.task.desc.budget < elapsed (reachBudget s e.task) e.task) :
    (budgetOverrun s u).sched.overTotal = satInc 32 s.sched.overTotal ∧ Raised (budgetOverrun s u) 0x0A05 u e.task.desc.taskId u ∧
      (budgetOverrun s u).pod.evals = s.pod.evals.filter (fun x => x.task.rid != e.task.rid) ∧ (budgetOverrun s u).mem = s.mem := by
  have heq : budgetOverrun s u =
      evalFail (raiseOnion (overCount (reachBudget s e.task) e.task.stack) e.task.stack 0x0A05 u e.task.desc.taskId u) e u := by
    simp [budgetOverrun, hr, evalBudget, he, hst, Nat.not_le.mpr hlate]
  obtain ⟨work, -, hpod, -⟩ := clkDecs_decFrame (dropEval (raiseOnion (overCount (reachBudget s e.task) e.task.stack) e.task.stack
    0x0A05 u e.task.desc.taskId u) e.task.rid) [] (decFor e.task.desc.failCtr u)
  rw [heq]
  refine ⟨work.overTotal.trans ?_, raised_more (raised_raiseOnion _ e.task.stack ..) work.added, (congrArg PodSt.evals hpod).trans ?_,
    work.mem.trans ?_⟩
  · simp [dropEval, overCount]
  · simp [dropEval, overCount, raiseOnion, raiseX]
  · simp [dropEval, overCount]

/-! ### Ends that come too late (R284, R286) -/

/-- A task leaves the ready lists, or the unit that holds it. -/
theorem removeTask_effect (s : State) (t : Task) :
    (removeTask s t).mem = s.mem ∧ (removeTask s t).sched.missTotal = s.sched.missTotal ∧
      ∃ l, (removeTask s t).logs.buf = s.logs.buf ++ l := by
  unfold removeTask
  extract_lets same sched listed
  split
  · exact ⟨rfl, rfl, [], (List.append_nil _).symm⟩
  · next p _ =>
    split
    · have h := slotNext_workFrame (dropStalls listed p.1) p.1
      exact ⟨h.mem, h.missTotal, h.added⟩
    · exact ⟨rfl, rfl, [], (List.append_nil _).symm⟩

theorem lateUnstarted_workFrame (s : State) (t : Task) : WorkFrame s (lateUnstarted s t) := by
  unfold lateUnstarted
  split
  · exact raiseOnion_workFrame ..
  · exact .refl s

/-- The state in which the end that a task has missed is reported. -/
def missCounted (s : State) (t : Task) : State :=
  lateUnstarted { s with sched := { s.sched with missCnt := cntUp s.sched.missCnt t.stack, missTotal := satInc 32 s.sched.missTotal } } t

theorem endMissed_effect {id : Nat} {v : Option Nat} {t : Task} (ho : openTask s id = some (v, t)) (hp : endPassed (reachEnd s t) t = true) :
    (endMissed s id).sched.missTotal = satInc 32 s.sched.missTotal ∧
      Raised (endMissed s id) 0x0A06 (v.getD 0xFFFF) id (b2n t.rerun * 2 ^ 31 + v.getD 0xFFFF) ∧
      (endMissed s id).mem.bytes = s.mem.bytes := by
  let n := v.getD 0xFFFF
  have heq : endMissed s id = endFailed (removeTask (raiseOnion (missCounted (reachEnd s t) t) t.stack 0x0A06 n id
      (b2n t.rerun * 2 ^ 31 + n)) t) t n := by
    simp only [endMissed, ho, hp, Bool.not_true, Bool.false_eq_true, if_false]
    rfl
  obtain ⟨hmem, hmiss, hadded⟩ := removeTask_effect (raiseOnion (missCounted (reachEnd s t) t) t.stack 0x0A06 n id
    (b2n t.rerun * 2 ^ 31 + n)) t
  have ended := clkDecs_workFrame (removeTask (raiseOnion (missCounted (reachEnd s t) t) t.stack 0x0A06 n id
    (b2n t.rerun * 2 ^ 31 + n)) t) [] (decFor t.desc.failCtr n)
  have counted := lateUnstarted_workFrame { reachEnd s t with sched := { (reachEnd s t).sched with
    missCnt := cntUp (reachEnd s t).sched.missCnt t.stack, missTotal := satInc 32 (reachEnd s t).sched.missTotal } } t
  rw [heq]
  refine ⟨ended.missTotal.trans (hmiss.trans ?_), raised_more (raised_more (raised_raiseOnion ..) hadded) ended.added, ?_⟩
  · rw [raiseOnion_sched]
    exact counted.missTotal.trans (by simp)
  · rw [show (endFailed _ t n).mem = _ from ended.mem.trans (hmem.trans (raiseOnion_mem ..))]
    exact (congrArg Mem.bytes counted.mem).trans (by simp)

theorem huskSupervision_effect {id : Nat} {v : Option Nat} {t : Task} (ho : openTask s id = some (v, t)) (hc : t.desc.crit < 2)
    (hp : endPassed (reachEnd s (huskView s t)) (huskView s t) = true) :
    let h := huskView s t
    let e := reachEnd s h
    (huskSupervision s id).sched.superTotal = satInc 32 s.sched.superTotal ∧
      Raised (huskSupervision s id) 0x0A08 (unitId 8 t.stack 0) id (phase (advance e ((64 - clkLate e h) * ticksPerClk e))) ∧
      (huskSupervision s id).mem = s.mem ∧ (huskSupervision s id).units = s.units := by
  intro h e
  have hstack : h.stack = t.stack := by
    dsimp only [h, huskView]
    split <;> rfl
  have heq : huskSupervision s id = raiseOnion { advance e ((64 - clkLate e h) * ticksPerClk e) with
      sched := { e.sched with superTotal := satInc 32 e.sched.superTotal } } t.stack 0x0A08 (unitId 8 t.stack 0) id
        (phase (advance e ((64 - clkLate e h) * ticksPerClk e))) := by
    simp only [huskSupervision, ho, if_neg (Nat.not_le.mpr hc), hp, Bool.not_true, Bool.false_eq_true, if_false, advance_sched]
    rw [show (huskView s t).stack = t.stack from hstack]
    rfl
  rw [heq]
  exact ⟨by simp [e], raised_raiseOnion .., by simp [e], by simp [e, raiseOnion, raiseX]⟩

end Late

/-- Settles O23: each limit has its event and its count; the failure that follows touches no byte of memory. -/
theorem lateTasksAreReported : Obligations.LateTasksAreReported := by
  unfold Obligations.LateTasksAreReported
  intro s tk hup
  refine ⟨fun u hr hlate => ?_, fun u e hr he hst hlate => ?_, fun id v ho hp => ?_, fun id v ho hc => ?_⟩
  · refine ⟨_, runArith_next rfl hup, budgetOverrun_task (s := answer s .none) hr ?_⟩
    rw [reachBudget_answer]
    exact hlate
  · refine ⟨_, runArith_next rfl hup, budgetOverrun_eval (s := answer s .none) hr he hst ?_⟩
    rw [reachBudget_answer]
    exact hlate
  · refine ⟨_, runArith_next rfl hup, endMissed_effect (s := answer s .none) ho ?_⟩
    rw [reachEnd_answer]
    exact hp
  · intro h e hp
    have hview : huskView (answer s .none) tk = h := rfl
    obtain ⟨htotal, hraised, hframe⟩ := huskSupervision_effect (s := answer s .none) ho hc (by rw [hview, reachEnd_answer]; exact hp)
    refine ⟨_, runArith_next rfl hup, htotal, ?_, hframe⟩
    rw [hview, reachEnd_answer] at hraised
    have hclk : clkLate (answer e .none) h = clkLate e h := rfl
    have hticks : ticksPerClk (answer e .none) = ticksPerClk e := rfl
    rw [hclk, hticks, advance_answer] at hraised
    exact hraised

end Sys2Proof.Machine

/-!
Release engines (R273, R275, R276): the clk of an engine, what becomes of the descriptor that it copies, its stall, and the proof of
ReleaseCopiesDescriptor.
-/
namespace Sys2Proof.Machine

/-! ### A clk of a unit's own -/

/-- Time passes by itself: nothing but the time and the PHU moves. -/
theorem advance_form (s : State) (dt : Nat) : ∃ phu, advance s dt = { s with now := s.now + dt, phu := phu } := by
  unfold advance
  split
  · exact ⟨_, rfl⟩
  · exact ⟨s.phu, rfl⟩

/-- A clk of a unit's own moves the time, the PHU and the record of the clk. -/
theorem ownClk_form (s : State) (a : ClkAct) : ∃ now phu clk, ownClk s a = { s with now := now, phu := phu, clk := clk } := by
  unfold ownClk
  extract_lets later c
  have hlater : ∃ now phu, later = { s with now := now, phu := phu } := by
    dsimp only [later]
    split
    · obtain ⟨phu, h⟩ := advance_form s (ticksPerClk s)
      exact ⟨_, phu, h⟩
    · exact ⟨s.now, s.phu, rfl⟩
  obtain ⟨now, phu, h⟩ := hlater
  exact ⟨now, phu, { c with acts := a :: c.acts }, by rw [h]⟩

/-! ### The copy of a descriptor (R273) -/

/-- The descriptor as the engine copies it: its block lies in the copy of the plan at the release. -/
def releaseDesc (s : State) (r : Release) (d0 : Desc) : Desc :=
  let off := if r.pcopy = 1 then (match s.plan.run with | some p => p.copyOff | none => 0) else 0
  { d0 with param := d0.param + (if r.ctr < ctrPlan s then off else 0) }

/-- A release number has been given, and an invocation of a Cob may have been counted. -/
structure Numbered (s t : State) : Prop where
  sched : t.sched = { s.sched with nextRid := s.sched.nextRid + 1 }
  mem : t.mem = s.mem
  pod : t.pod = s.pod
  safety : t.safety = s.safety
  units : t.units = s.units

theorem joinInv_state (s : State) (k p : Nat) : ∃ cob, (joinInv s k p).2 = { s with cob := cob } := by
  unfold joinInv
  extract_lets alt n i rest new
  split
  · split
    · exact ⟨_, rfl⟩
    · exact ⟨_, rfl⟩
  · exact ⟨_, rfl⟩

/-- What becomes of a descriptor, by the checks of R273 and R275. -/
theorem copyOne_eq (s : State) (est : State → Nat → Bool) (bad : List Nat) (r : Release) (d0 : Desc) :
    let d := releaseDesc s r d0
    ∃ s1 t, Numbered s s1 ∧ t.desc = d ∧ taskKey t = readyKey d.cls (chooseStack s d r.ctr) d.crit ∧
      copyOne s est bad r d0 =
        if descReject d false ≠ 0 then
          some (endFailed (raiseOnion s1 r.stack 0x0A07 0xFFFF d.taskId (descReject d false)) t 0xFFFF)
        else if watchGates s d (est s d.param) then some (endFailed s1 t 0xFFFF)
        else if slotBad s bad d then some (endFailed s1 t 0xFFFF)
        else if d.cls = 1 then some (startEval s1 t)
        else if 512 ≤ (readyGet s (taskKey t)).length then none
        else some (readyTail s1 t) := by
  unfold copyOne
  extract_lets d off d' k inv t s' sched s1 rej
  refine ⟨s1, t, ?_, rfl, rfl, rfl⟩
  have hjoin : ∃ cob, inv.2 = { s with cob := cob } := by
    dsimp only [inv]
    split
    · exact joinInv_state ..
    · exact ⟨s.cob, rfl⟩
  obtain ⟨cob, h⟩ := hjoin
  exact ⟨rfl, congrArg (·.mem) h, congrArg (·.pod) h, congrArg (·.safety) h, congrArg (·.units) h⟩

/-- In the engine's own clk the checks see what they saw before it. -/
theorem copyOne_ownClk (s : State) (a : ClkAct) (bad : List Nat) (r : Release) (d0 : Desc) :
    let d := releaseDesc s r d0
    ∃ s1 t, Numbered s s1 ∧ t.desc = d ∧ taskKey t = readyKey d.cls (chooseStack s d r.ctr) d.crit ∧
      copyOne (ownClk s a) isEstimate bad r d0 =
        if descReject d false ≠ 0 then
          some (endFailed (raiseOnion s1 r.stack 0x0A07 0xFFFF d.taskId (descReject d false)) t 0xFFFF)
        else if watchGates s d (isEstimate s d.param) then some (endFailed s1 t 0xFFFF)
        else if slotBad s bad d then some (endFailed s1 t 0xFFFF)
        else if d.cls = 1 then some (startEval s1 t)
        else if 512 ≤ (readyGet s (taskKey t)).length then none
        else some (readyTail s1 t) := by
  obtain ⟨now, phu, clk, hown⟩ := ownClk_form s a
  obtain ⟨s1, t, ⟨hsched, hmem, hpod, hsafety, hunits⟩, hdesc, hkey, hcopy⟩ :=
    copyOne_eq { s with now := now, phu := phu, clk := clk } isEstimate bad r d0
  rw [hown]
  exact ⟨s1, t, ⟨hsched, hmem, hpod, hsafety, hunits⟩, hdesc, hkey, hcopy⟩

/-- A task that ends with an event of its Onion. -/
theorem endFailed_raised (s : State) (t : Task) (k c u a b v : Nat) :
    let x := endFailed (raiseOnion s k c u a b) t v
    Raised x c u a b ∧ x.mem = s.mem ∧ x.pod = s.pod ∧ x.safety = s.safety := by
  intro x
  obtain ⟨work, -, hpod, -⟩ := clkDecs_decFrame (raiseOnion s k c u a b) [] (decFor t.desc.failCtr v)
  obtain ⟨raisedWork, -, raisedPod, -⟩ := raiseOnion_decFrame s k c u a b
  exact ⟨raised_more (raised_raiseOnion s k c u a b) work.added, work.mem.trans raisedWork.mem, hpod.trans raisedPod,
    work.safety.trans raisedWork.safety⟩

section Copied

variable {s s' : State} {est : State → Nat → Bool} {bad : List Nat} {r : Release} {d0 : Desc} {k l : Nat}

/-- The clk of an engine whose release holds one descriptor. -/
theorem engineClk_only (hrel : s.sched.rels = [r]) (hk : r.stack = k) (hl : r.level = l) (hn : r.next = 0) (hd : r.descs = [d0])
    (hc : copyOne (ownClk s (.engine (k * 4 + l))) est bad r d0 = some s') :
    ∃ n, engineClk s est bad k l = { s' with sched := { s'.sched with rels := s'.sched.rels.erase r, stalledEng := n } } := by
  obtain ⟨now, phu, clk, hown⟩ := ownClk_form s (.engine (k * 4 + l))
  have hfind : (ownClk s (.engine (k * 4 + l))).sched.rels.find? (fun r => r.stack == k && r.level == l) = some r := by
    simp [hown, hrel, hk, hl]
  have hmany : copyMany est bad 4 (ownClk s (.engine (k * 4 + l))) r = (s', none, false) := by
    simp [copyMany, hn, hd, hc]
  refine ⟨cntPut s'.sched.stalledEng (k * 4 + l) 0, ?_⟩
  unfold engineClk
  dsimp only
  rw [hfind]
  dsimp only
  rw [hmany]
  rfl

/-- A ready list takes its task. -/
theorem readyTail_frame (s : State) (t : Task) :
    (readyTail s t).pod = s.pod ∧ (readyTail s t).sched.rels = s.sched.rels ∧ (readyTail s t).sched.nextRid = s.sched.nextRid := by
  unfold readyTail recallOne
  split
  · exact ⟨rfl, rfl, rfl⟩
  · split
    · split <;> exact ⟨rfl, rfl, rfl⟩
    · exact ⟨rfl, rfl, rfl⟩

theorem dealBatches_frame (s : State) (rid total : Nat) (gs : List Nat) : ∃ pods,
    dealBatches s rid total gs = { s with pod := { s.pod with pods := pods } } := by
  unfold dealBatches
  dsimp only
  generalize gs.zip (List.range gs.length) = l
  induction l generalizing s with
  | nil => exact ⟨s.pod.pods, rfl⟩
  | cons x l ih => exact ih _

/-- An evaluation starts with none of its batches done. -/
theorem startEval_frame (s : State) (t : Task) : ∃ e pod, startEval s t = { s with pod := pod } ∧ pod.evals = s.pod.evals ++ [e] ∧
    e.task = t ∧ e.total = t.desc.arg0 ∧ e.done = 0 := by
  unfold startEval
  extract_lets flags main recheck only e listed pod
  obtain ⟨pods, h⟩ := dealBatches_frame pod t.rid t.desc.arg0 (evalPods pod only)
  exact ⟨e, _, h, rfl, rfl, rfl, rfl⟩

variable (hrel : s.sched.rels = [r]) (hk : r.stack = k) (hl : r.level = l) (hn : r.next = 0) (hd : r.descs = [d0])
include hrel hk hl hn hd

theorem releaseCopy_ready (hrej : descReject (releaseDesc s r d0) false = 0)
    (hgate : watchGates s (releaseDesc s r d0) (isEstimate s (releaseDesc s r d0).param) = false)
    (hslot : slotBad s s.cob.noWeights (releaseDesc s r d0) = false) (hcls : (releaseDesc s r d0).cls ≠ 1)
    (hroom : (readyGet s (readyKey (releaseDesc s r d0).cls (chooseStack s (releaseDesc s r d0) r.ctr)
      (releaseDesc s r d0).crit)).length < 512) :
    (releaseCopy s k l).sched.rels = [] ∧ (releaseCopy s k l).sched.nextRid = s.sched.nextRid + 1 ∧ (releaseCopy s k l).mem = s.mem ∧
      (releaseCopy s k l).pod = s.pod ∧ (releaseCopy s k l).safety = s.safety := by
  obtain ⟨s1, t, hnum, -, hkey, hcopy⟩ := copyOne_ownClk s (.engine (k * 4 + l)) s.cob.noWeights r d0
  have hfull : ¬ 512 ≤ (readyGet s (taskKey t)).length := by
    rw [hkey]
    exact Nat.not_le.mpr hroom
  rw [if_neg (not_not_intro hrej), if_neg (by rw [Bool.not_eq_true]; exact hgate), if_neg (by rw [Bool.not_eq_true]; exact hslot),
    if_neg hcls, if_neg hfull] at hcopy
  obtain ⟨n, heq⟩ := engineClk_only hrel hk hl hn hd hcopy
  obtain ⟨hpod, hrels, hrid⟩ := readyTail_frame s1 t
  have htail := readyTail_workFrame s1 t
  rw [releaseCopy, heq]
  refine ⟨?_, hrid.trans (by rw [hnum.sched]), htail.mem.trans hnum.mem, hpod.trans hnum.pod, htail.safety.trans hnum.safety⟩
  dsimp only
  rw [hrels, hnum.sched]
  simp [hrel]

theorem releaseCopy_eval (hrej : descReject (releaseDesc s r d0) false = 0)
    (hgate : watchGates s (releaseDesc s r d0) (isEstimate s (releaseDesc s r d0).param) = false)
    (hslot : slotBad s s.cob.noWeights (releaseDesc s r d0) = false) (hcls : (releaseDesc s r d0).cls = 1) :
    ∃ e, (releaseCopy s k l).sched.rels = [] ∧ (releaseCopy s k l).sched.nextRid = s.sched.nextRid + 1 ∧
      (releaseCopy s k l).pod.evals = s.pod.evals ++ [e] ∧ e.task.desc = releaseDesc s r d0 ∧ e.total = d0.arg0 ∧ e.done = 0 ∧
      (releaseCopy s k l).units = s.units ∧ (releaseCopy s k l).mem = s.mem ∧ (releaseCopy s k l).safety = s.safety := by
  obtain ⟨s1, t, hnum, hdesc, -, hcopy⟩ := copyOne_ownClk s (.engine (k * 4 + l)) s.cob.noWeights r d0
  rw [if_neg (not_not_intro hrej), if_neg (by rw [Bool.not_eq_true]; exact hgate), if_neg (by rw [Bool.not_eq_true]; exact hslot),
    if_pos hcls] at hcopy
  obtain ⟨n, heq⟩ := engineClk_only hrel hk hl hn hd hcopy
  obtain ⟨e, pod, hstart, hevals, htask, htotal, hdone⟩ := startEval_frame s1 t
  rw [releaseCopy, heq, hstart]
  refine ⟨e, ?_, congrArg Sched.nextRid hnum.sched, hevals.trans (by rw [hnum.pod]), by rw [htask, hdesc],
    by rw [htotal, hdesc]; rfl, hdone, hnum.units, hnum.mem, hnum.safety⟩
  dsimp only
  rw [hnum.sched]
  simp [hrel]

theorem releaseCopy_rejected (hrej : descReject (releaseDesc s r d0) false ≠ 0) :
    Raised (releaseCopy s k l) 0x0A07 0xFFFF (releaseDesc s r d0).taskId (descReject (releaseDesc s r d0) false) ∧ (releaseCopy s k l).mem = s.mem ∧
      (releaseCopy s k l).pod = s.pod ∧ (releaseCopy s k l).safety = s.safety := by
  obtain ⟨s1, t, hnum, -, -, hcopy⟩ := copyOne_ownClk s (.engine (k * 4 + l)) s.cob.noWeights r d0
  rw [if_pos hrej] at hcopy
  obtain ⟨n, heq⟩ := engineClk_only hrel hk hl hn hd hcopy
  obtain ⟨hraised, hmem, hpod, hsafety⟩ := endFailed_raised s1 t r.stack 0x0A07 0xFFFF (releaseDesc s r d0).taskId
    (descReject (releaseDesc s r d0) false) 0xFFFF
  rw [releaseCopy, heq]
  exact ⟨hraised, by rw [hmem, hnum.mem], by rw [hpod, hnum.pod], by rw [hsafety, hnum.safety]⟩

end Copied

/-! ### A stalled engine (R276) -/

theorem readyStall_reported {s : State} {k l : Nat} {d : Desc} {n : Nat} (hhead : engineHead s k l = some (d, n))
    (hst : cnt s.sched.stalledEng (k * 4 + l) ≠ 0) :
    let g := chooseStack s d n
    let key := readyKey d.cls g l
    key ∉ s.sched.stallReported →
    (readyStall s k l).sched.stallReported = s.sched.stallReported ++ [key] ∧
      (∃ n, Raised (readyStall s k l) 0x0A01 (unitId 8 g 0) (d.cls * 256 + g * 16 + l) n) ∧ (readyStall s k l).mem = s.mem := by
  intro g key hnew
  let t := reachClk s (cnt s.sched.stalledEng (k * 4 + l) - 1) 1025
  have hform : ∃ phu now, t = { s with now := now, phu := phu } := by
    obtain ⟨phu, h⟩ := advance_form s (cnt s.sched.stalledEng (k * 4 + l) - 1 + 1025 * ticksPerClk s - s.now)
    exact ⟨phu, _, h⟩
  obtain ⟨phu, now, ht⟩ := hform
  have hg : chooseStack t d n = g := by rw [ht]; rfl
  have heq : readyStall s k l = raiseOnion { t with sched := { t.sched with stallReported := t.sched.stallReported ++ [key] } } g 0x0A01
      (unitId 8 g 0) (d.cls * 256 + g * 16 + l) (sat 32 (clkSince t (cnt s.sched.stalledEng (k * 4 + l) - 1))) := by
    have hreported : ¬ t.sched.stallReported.contains key = true := by
      rw [ht]
      simpa using hnew
    unfold readyStall
    rw [hhead]
    dsimp only
    rw [if_neg hst, show reachClk s (cnt s.sched.stalledEng (k * 4 + l) - 1) 1025 = t from rfl, hg, if_neg hreported]
    rfl
  rw [heq]
  exact ⟨by simp [ht], ⟨_, raised_raiseOnion ..⟩, by simp [ht]⟩

/-- Settles O21: the engine's clk by what the checks say of its one descriptor, and the report of its stall. -/
theorem releaseCopiesDescriptor : Obligations.ReleaseCopiesDescriptor := by
  unfold Obligations.ReleaseCopiesDescriptor
  intro s k l hup
  refine ⟨fun r d0 hrel hk hl hn hd => ?_, fun d n hhead hst => ?_⟩
  · intro off d
    refine ⟨fun hrej hgate hslot => ⟨fun hcls hroom => ?_, fun hcls => ?_⟩, fun hrej => ?_⟩
    · exact ⟨_, runArith_next rfl hup, releaseCopy_ready (s := answer s .none) hrel hk hl hn hd hrej hgate hslot hcls hroom⟩
    · obtain ⟨e, heffect⟩ := releaseCopy_eval (s := answer s .none) hrel hk hl hn hd hrej hgate hslot hcls
      exact ⟨_, e, runArith_next rfl hup, heffect⟩
    · exact ⟨_, runArith_next rfl hup, releaseCopy_rejected (s := answer s .none) (d0 := d0) hrel hk hl hn hd hrej⟩
  · intro g key hnew
    exact ⟨_, runArith_next rfl hup, readyStall_reported (s := answer s .none) hhead hst hnew⟩

end Sys2Proof.Machine

/-!
Tasks in a unit (R277, R279, R283, R304, R310): the claim, the beginning, what a task's reads leave unchanged, the operators HASH and FW_COPY,
the failed checks, and the proof of TaskIsClaimedRunAndEnded.
-/
namespace Sys2Proof.Machine

/-! ### The claim (R277) -/

section Claim

variable {s : State} {u k : Nat} {t : Task} {l : List Task}

theorem claim_taken (hst : (unitOf s u).st = .active) (hcls : readyClass (idClass u) = true) (hwatch : watchUnit s u = false)
    (hchard : chardWaits s u = false) (hfrom : claimFrom s u [0, 1, 2, 3] = some (k, t, l))
    (hroom : ¬ ((unitOf s u).exec.isSome ∧ (unitOf s u).pref.isSome)) :
    claim s u =
      if (unitOf s u).exec.isNone then
        unitSet (readyPut (ownClk s (.claim u)) k l) u { unitOf s u with exec := some t }
      else unitSet (readyPut (ownClk s (.claim u)) k l) u { unitOf s u with pref := some t } := by
  obtain ⟨now, phu, clk, hown⟩ := ownClk_form s (.claim u)
  unfold claim
  dsimp only
  rw [if_neg (by simp only [hst, hcls, hwatch, hchard]; simpa using hroom), hfrom, hown]
  rfl

theorem ownClk_readyPut_logs (s : State) (a : ClkAct) (k : Nat) (l : List Task) : (readyPut (ownClk s a) k l).logs = s.logs := by
  obtain ⟨now, phu, clk, hown⟩ := ownClk_form s a
  rw [hown]
  rfl

end Claim

/-! ### The beginning (R278, R283) -/

theorem memLe_congr {s t : State} (h : t.mem = s.mem) (a n : Nat) : memLe t a n = memLe s a n := by
  simp only [memLe, memBytes, memGet, h]

theorem startCheck_free {s : State} {t : Task} (h : t.desc.startBy = 0xFFFF) (u : Nat) : startCheck s t u = s := by
  simp [startCheck, h]

theorem beginTask_begun {s : State} {u : Nat} {t : Task} (he : (unitOf s u).exec = some t) (hb : t.began = false)
    (hstart : t.desc.startBy = 0xFFFF) (hok : headerOk s t = true) (hrej : startReject s t.desc = none) (n : Nat) :
    beginTask (n + 1) s u = unitSet s u { unitOf s u with exec := some (begun s t) } := by
  rw [beginTask, he]
  simp only [hb, startCheck_free hstart, hok, hrej, true_or, if_true, Bool.false_eq_true, if_false]
  rfl

/-- A task whose block's header does not agree fails, after its event. -/
theorem beginTask_badHeader {s : State} {u : Nat} {t : Task} (he : (unitOf s u).exec = some t) (hb : t.began = false)
    (hok : headerOk s t = false) (hhusk : t.byHusk = false) (n : Nat) :
    Raised (beginTask (n + 1) s u) 0x0B08 u t.desc.taskId t.desc.opId ∧ (beginTask (n + 1) s u).mem = s.mem := by
  have hbad : ¬ (headerOk (startCheck s t u) t = true ∨ t.byHusk = true) := by
    have hmem : headerOk (startCheck s t u) t = headerOk s t := by
      simp only [headerOk, memLe_congr (startCheck_workFrame s t u).mem, memGet, (startCheck_workFrame s t u).mem]
    rw [hmem, hok, hhusk]
    simp
  rw [beginTask, he]
  simp only [hb, if_neg hbad, Bool.false_eq_true, if_false]
  have rest := (failTask_workFrame (unitUpd (raise (startCheck s t u) 0x0B08 u t.desc.taskId t.desc.opId) u (fun r => { r with
    exec := (unitOf (raise (startCheck s t u) 0x0B08 u t.desc.taskId t.desc.opId) u).pref, pref := none }))
      (begun (unitUpd (raise (startCheck s t u) 0x0B08 u t.desc.taskId t.desc.opId) u (fun r => { r with
        exec := (unitOf (raise (startCheck s t u) 0x0B08 u t.desc.taskId t.desc.opId) u).pref, pref := none })) t) u).trans
    (beginTask_workFrame n _ u)
  exact ⟨raised_more (raised_here (startCheck s t u) 0x0B08 u ..) rest.added,
    rest.mem.trans ((raise_mem ..).trans (startCheck_workFrame s t u).mem)⟩

/-! ### What a task reads (R310, R320) -/

/-- A read may raise an event and take values that the spec leaves free. -/
structure ReadFrame (s t : State) : Prop where
  mem : t.mem = s.mem
  units : t.units = s.units
  sched : t.sched = s.sched
  plan : t.plan = s.plan
  safety : t.safety = s.safety
  added : ∃ l, t.logs.buf = s.logs.buf ++ l

namespace ReadFrame

theorem refl (s : State) : ReadFrame s s := ⟨rfl, rfl, rfl, rfl, rfl, [], (List.append_nil _).symm⟩

theorem trans {s t u : State} (h : ReadFrame s t) (h' : ReadFrame t u) : ReadFrame s u :=
  ⟨h'.mem.trans h.mem, h'.units.trans h.units, h'.sched.trans h.sched, h'.plan.trans h.plan, h'.safety.trans h.safety,
    added_trans h.added h'.added⟩

theorem foldl {α : Type} {f : State → α → State} (h : ∀ s x, ReadFrame s (f s x)) (l : List α) (s : State) :
    ReadFrame s (l.foldl f s) := by
  induction l generalizing s with
  | nil => exact refl s
  | cons x l ih => exact (h s x).trans (ih (f s x))

theorem unitOf {s t : State} (h : ReadFrame s t) (u : Nat) : unitOf t u = unitOf s u := by
  rw [Machine.unitOf, h.units]
  rfl

theorem running {s t : State} (h : ReadFrame s t) (u : Nat) : running t u = running s u := by
  simp only [Machine.running, h.unitOf, endStalled, h.sched]
  rfl

theorem windowOk {s t : State} (h : ReadFrame s t) (a n : Nat) : windowOk t a n = windowOk s a n := by
  simp only [Machine.windowOk, h.plan]

end ReadFrame

theorem raise_readFrame (s : State) (c u a b : Nat) : ReadFrame s (raise s c u a b) :=
  ⟨raise_mem .., raise_units .., raise_sched .., raise_plan .., raise_safety .., (raise_eventFrame ..).added⟩

theorem takeFreeBytes_readFrame (s : State) (n : Nat) : ReadFrame s (takeFreeBytes s n).2 :=
  ⟨rfl, rfl, rfl, rfl, rfl, [], (List.append_nil _).symm⟩

theorem secureTouch_readFrame (s : State) (u a n : Nat) : ReadFrame s (secureTouch s u a n) := by
  unfold secureTouch
  split
  · refine .foldl (fun s k => ?_) _ _
    split
    · exact raise_readFrame ..
    · exact .refl s
  · exact .refl s

theorem shownBytes_readFrame (s : State) (a n : Nat) : ReadFrame s (shownBytes s a n).2 := by
  unfold shownBytes
  split
  · exact takeFreeBytes_readFrame s n
  · exact .refl s

theorem taskRead_readFrame (s : State) (u a n : Nat) : ReadFrame s (taskRead s u a n).2 :=
  (secureTouch_readFrame ..).trans (shownBytes_readFrame ..)

theorem tracePoints_readFrame (s : State) (u : Nat) : ReadFrame s (tracePoints s u) := by
  unfold tracePoints
  split
  · exact .refl s
  · refine ReadFrame.trans (t := (takeFree s).2) ⟨rfl, rfl, rfl, rfl, rfl, [], (List.append_nil _).symm⟩ (.foldl (fun s i => ?_) _ _)
    refine ReadFrame.trans (t := { s with freeCtr := s.freeCtr + 4 }) ⟨rfl, rfl, rfl, rfl, rfl, [], (List.append_nil _).symm⟩ ?_
    exact ⟨setEventBits_mem .., setEventBits_units .., setEventBits_sched .., setEventBits_plan .., setEventBits_safety .., _,
      congrArg Logs.buf (setEventBits_logs ..)⟩

/-! ### The end of a task (R279) -/

theorem beginTask_empty {s : State} {u : Nat} (h : (unitOf s u).exec = none) (n : Nat) : beginTask n s u = s := by
  cases n with
  | zero => rfl
  | succ n => rw [beginTask, h]

theorem noteBusy_units (s : State) (u : Nat) : (noteBusy s u).units = s.units := by
  unfold noteBusy
  split
  · split
    · unfold busyAdd
      dsimp only
      split <;> rfl
    · rfl
  · rfl

/-- A unit whose task ends, with no other behind it, is free. -/
theorem slotNext_units {s : State} {u : Nat} (hs : UnitsOk s) (hp : (unitOf s u).pref = none) :
    (slotNext s u).units = Smap.set unitDefault s.units u { unitOf s u with exec := none, pref := none } := by
  have hrec : unitOf (noteBusy s u) u = unitOf s u := by
    rw [unitOf, noteBusy_units]
    rfl
  have hunits : (unitUpd (noteBusy s u) u (fun r => { r with exec := none, pref := none })).units =
      Smap.set unitDefault s.units u { unitOf s u with exec := none, pref := none } := by
    rw [unitUpd, unitSet_units, noteBusy_units, hrec]
  have hempty : (unitOf (unitUpd (noteBusy s u) u (fun r => { r with exec := none, pref := none })) u).exec = none :=
    congrArg UnitRec.exec (unitOf_of_set hunits hs)
  rw [slotNext, hp, beginTask_empty hempty]
  exact hunits

/-- A task that names no queue ends with its unit free, its safety record untouched. -/
theorem finishTask_free {s : State} {u : Nat} {t : Task} (h : running s u = some t) (hq : t.desc.outQueue = 0xFFFFF) (hs : UnitsOk s)
    (hp : (unitOf s u).pref = none) (addr n : Nat) (b : Bytes) :
    (finishTask s u addr n b).mem = s.mem ∧
      (finishTask s u addr n b).units = Smap.set unitDefault s.units u { unitOf s u with exec := none, pref := none } ∧
      (finishTask s u addr n b).safety = s.safety := by
  refine ⟨finishTask_mem_of_no_queue h hq addr n b, ?_, (finishTask_safety_phu ..).1⟩
  have heq : finishTask s u addr n b = slotNext (clkDecs (countDone s u) [] (decFor t.desc.doneCtr u)) u := by
    simp only [finishTask, h, hq, if_true]
  have hcount : (countDone s u).units = s.units := by
    unfold countDone
    split <;> rfl
  have hunits := (clkDecs_decFrame (countDone s u) [] (decFor t.desc.doneCtr u)).units.trans hcount
  have hrec : unitOf (clkDecs (countDone s u) [] (decFor t.desc.doneCtr u)) u = unitOf s u := by
    rw [unitOf, hunits]
    rfl
  rw [heq, slotNext_units (by rw [UnitsOk, hunits]; exact hs) (by rw [hrec]; exact hp), hunits, hrec]

theorem windowFault_effect {s : State} {u : Nat} {t : Task} (h : running s u = some t) :
    Raised (windowFault s u) 0x0B07 u t.desc.taskId u ∧ OutFrame s (windowFault s u) := by
  have heq : windowFault s u = failExec (raise s 0x0B07 u t.desc.taskId u) u := by simp only [windowFault, h]
  have hout := failExec_outFrame (raise s 0x0B07 u t.desc.taskId u) u
  rw [heq]
  exact ⟨raised_more (raised_here ..) hout.added, (OutFrame.of_work (raise_workFrame s 0x0B07 u t.desc.taskId u)).trans hout⟩

section Write

variable {s x : State} {u : Nat} {t : Task} (hx : ReadFrame s x) (hr : running s u = some t) (dst n : Nat) (b : Bytes)
include hx hr

/-- A result within the window goes to its destination, and its task leaves the unit. -/
theorem taskWrite_done (hw : windowOk s dst b.length = true) (hs : UnitsOk s) (hp : (unitOf s u).pref = none)
    (hq : t.desc.outQueue = 0xFFFFF) :
    let y := taskWrite x u dst b (fun s => finishTask s u dst n [])
    y.mem.bytes = cellPut s.mem.bytes dst b ∧
      y.units = Smap.set unitDefault s.units u { unitOf s u with exec := none, pref := none } ∧ y.safety = s.safety := by
  intro y
  have heq : y = finishTask (memPut x dst b) u dst n [] := if_pos ((hx.windowOk ..).trans hw)
  have hrun : running (memPut x dst b) u = some t := (hx.running u).trans hr
  have hrec : unitOf (memPut x dst b) u = unitOf s u := hx.unitOf u
  obtain ⟨hmem, hunits, hsafety⟩ := finishTask_free hrun hq (by rw [UnitsOk, memPut_units, hx.units]; exact hs) (by rw [hrec]; exact hp) dst n []
  rw [heq]
  refine ⟨?_, hunits.trans ?_, hsafety.trans hx.safety⟩
  · rw [hmem]
    exact congrArg (cellPut · dst b) (congrArg Mem.bytes hx.mem)
  · rw [hrec, memPut_units, hx.units]

/-- A result outside the window fails the task with its event. -/
theorem taskWrite_outside (hw : windowOk s dst b.length = false) (k : State → State) :
    Raised (taskWrite x u dst b k) 0x0B07 u t.desc.taskId u ∧ (taskWrite x u dst b k).mem.bytes = s.mem.bytes := by
  have heq : taskWrite x u dst b k = windowFault (secureTouch x u dst b.length) u :=
    if_neg (by rw [hx.windowOk, hw]; decide)
  have touched := hx.trans (secureTouch_readFrame x u dst b.length)
  obtain ⟨hraised, hout⟩ := windowFault_effect ((touched.running u).trans hr)
  rw [heq]
  exact ⟨hraised, hout.bytes.trans (congrArg Mem.bytes touched.mem)⟩

end Write

/-! ### Completion by class (R279, R304) -/

theorem imposed_none {s : State} (h : s.det.replay = false) (code : Nat) (d : Option Nat) : imposed s code d = false := by
  simp [imposed, imposedRecs, h]

theorem imposedRecs_none {s : State} (h : s.det.replay = false) (n : Nat) : imposedRecs s n = [] := by
  simp [imposedRecs, h]

theorem replayStop_none {s : State} (h : s.det.replay = false) (u : Nat) (t : Task) : replayStop s u t = none := by
  simp only [replayStop, imposed_none h, imposedRecs_none h, Bool.false_eq_true, if_false, Bool.and_false, List.find?_nil, Option.map_none]
  split
  · rfl
  · split <;> rfl
  · rfl

section Complete

variable {s : State} {u : Nat} {t : Task} (hst : pushStalled s u = false) (hr : running s u = some t) (hreplay : s.det.replay = false)
include hst hr hreplay

theorem taskComplete_hash (hcls : t.desc.cls = 0x0C) (hop : t.desc.opId = 0x0801) (w : Work) : taskComplete s u w = hashWork s u t := by
  simp [taskComplete, hst, hr, replayStop_none hreplay, hcls, hop]

theorem taskComplete_copy (hcls : t.desc.cls = 0x0B) (hop : t.desc.opId = 0x0702) (w : Work) :
    taskComplete s u w = copyWork (tracePoints s u) u t := by
  simp [taskComplete, hst, hr, replayStop_none hreplay, hcls, hop]

theorem taskComplete_tile (hcls : t.desc.cls = 3) (o : TileOut) :
    taskComplete s u (.tile o) =
      tileWork s u t o (fun s => finishTask s u (taskTensor s u t 2).base (o.rows.toNat * o.cols.toNat) []) := by
  simp [taskComplete, hst, hr, replayStop_none hreplay, hcls]

theorem taskComplete_solve (hcls : t.desc.cls = 4) (o : SolveOut) :
    taskComplete s u (.solve o) = solveWork s u t o (fun s a n => finishTask s u a n []) := by
  simp [taskComplete, hst, hr, replayStop_none hreplay, hcls]

theorem taskComplete_select (hcls : t.desc.cls = 5) (w : Work) :
    taskComplete s u w =
      selWork s u t (fun t' => finishTask t' u (selArgs s t.desc.param).block (selArgs s t.desc.param).k []) := by
  simp [taskComplete, hst, hr, replayStop_none hreplay, hcls]

end Complete

/-- HASH writes its digest (R304). -/
theorem hashWork_eq (s : State) (u : Nat) (t : Task) :
    hashWork s u t =
      let x := taskRead s u (memLe s (t.desc.param + 16) 8) (memLe s (t.desc.param + 24) 4)
      let dst := memLe s (t.desc.param + 32) 8
      taskWrite x.2 u dst (sha256 x.1) (fun s => finishTask s u dst 32 []) := rfl

/-- FW_COPY writes the bytes that it reads (R304). -/
theorem copyWork_eq (s : State) (u : Nat) (t : Task) :
    copyWork s u t =
      let n := memLe s (t.desc.param + 32) 4
      let x := taskRead s u (memLe s (t.desc.param + 16) 8) n
      let dst := memLe s (t.desc.param + 24) 8
      taskWrite x.2 u dst x.1 (fun s => finishTask s u dst n []) := rfl


/-! ### Failed checks (R279) -/

theorem removeTask_outFrame (s : State) (t : Task) : OutFrame s (removeTask s t) := by
  unfold removeTask
  extract_lets same sched listed
  have hlisted : OutFrame s listed := .of_eq rfl rfl rfl rfl
  split
  · exact hlisted
  · next p _ =>
    split
    · exact hlisted.trans ((dropStalls_outFrame listed p.1).trans (.of_work (slotNext_workFrame ..)))
    · exact hlisted.trans (.of_eq rfl rfl rfl rfl)

theorem endFailed_outFrame (s : State) (t : Task) (u : Nat) : OutFrame s (endFailed s t u) := .of_work (clkDecs_workFrame ..)

theorem regCount_outFrame (s : State) (o : Nat) : OutFrame s (regCount s o) := .of_eq rfl rfl rfl rfl

theorem raise_outFrame (s : State) (c u a b : Nat) : OutFrame s (raise s c u a b) := .of_work (raise_workFrame ..)

theorem OutFrame.foldl {α : Type} {f : State → α → State} (h : ∀ s x, OutFrame s (f s x)) (l : List α) (s : State) :
    OutFrame s (l.foldl f s) := by
  induction l generalizing s with
  | nil => exact refl s
  | cons x l ih => exact (h s x).trans (ih (f s x))

theorem badReport_outFrame (s : State) (i : Invoke) (u : Nat) : OutFrame s (badReport s i u) := by
  unfold badReport
  split
  · exact .refl s
  · exact raise_outFrame ..

theorem invocationEnd_outFrame (s : State) (i : Invoke) : OutFrame s (invocationEnd s i) := by
  unfold invocationEnd
  extract_lets counted reported
  have hcounted : OutFrame s counted := (raise_outFrame s 0x0902 0xFFFF i.slot (i.total - i.done)).trans (regCount_outFrame ..)
  have hreported : OutFrame counted reported :=
    OutFrame.trans (t := invUpd counted i.id (fun x => { x with failed := true })) (.of_eq rfl rfl rfl rfl) (badReport_outFrame ..)
  exact hcounted.trans (hreported.trans (.foldl (fun t x => (removeTask_outFrame ..).trans (endFailed_outFrame ..)) _ _))

theorem abftFail_effect (s : State) (u : Nat) (t : Task) :
    let d1 := modelSlot s t % 16 * 2 ^ 28 + tileNo s t % 2 ^ 28
    Raised (abftFail s u t) 0x0901 u u d1 ∧ OutFrame s (abftFail s u t) := by
  intro d1
  have counted := regCount_outFrame (raise s 0x0901 u u d1) Reg.cobAbftFail
  have rest : OutFrame (regCount (raise s 0x0901 u u d1) Reg.cobAbftFail) (abftFail s u t) := by
    unfold abftFail
    dsimp only
    split
    · split
      · exact failExec_outFrame ..
      · exact invocationEnd_outFrame ..
    · exact failExec_outFrame ..
  exact ⟨raised_more (raised_here ..) (counted.trans rest).added, (raise_outFrame ..).trans (counted.trans rest)⟩

theorem sparseFail_effect (s : State) (u : Nat) (t : Task) :
    Raised (sparseFail s u t) 0x0905 u (modelSlot s t) (tileNo s t) ∧ OutFrame s (sparseFail s u t) := by
  have rest := failExec_outFrame (raise s 0x0905 u (modelSlot s t) (tileNo s t)) u
  exact ⟨raised_more (raised_here ..) rest.added, (raise_outFrame ..).trans rest⟩

theorem residualFail_effect (s : State) (u : Nat) (t : Task) (row n : Nat) :
    Raised (residualFail s u t row n) 0x0802 u u row ∧ OutFrame s (residualFail s u t row n) := by
  have rest : OutFrame (raise s 0x0802 u u row) (residualFail s u t row n) := by
    unfold residualFail
    extract_lets counted discarded
    have hdiscarded : OutFrame (raise s 0x0802 u u row) discarded := by
      dsimp only [discarded]
      split
      · exact (regCount_outFrame ..).trans (.of_work (psnDiscard_workFrame ..))
      · exact regCount_outFrame ..
    exact hdiscarded.trans ((dropStalls_outFrame discarded u).trans (.of_work ((slotNext_workFrame ..).trans (failTask_workFrame ..))))
  exact ⟨raised_more (raised_here ..) rest.added, (raise_outFrame ..).trans rest⟩

section Check

variable {s : State} {u : Nat} {t : Task} (hr : running s u = some t)
include hr

theorem checkFail_window : checkFail s u .window = ueOther (windowFault s u) u t := by
  simp only [checkFail, hr]

theorem checkFail_residual (hcls : t.desc.cls = 4) (row : BitVec 32) :
    checkFail s u (.residual row) = ueOther (residualFail (cutRun s t u).2 u t row.toNat (cutRun s t u).1) u t := by
  simp only [checkFail, hr, hcls, if_true]

theorem checkFail_abft (hcls : t.desc.cls = 3) : checkFail s u .abft = ueOther (abftFail s u t) u t := by
  simp only [checkFail, hr, hcls, if_true]

theorem checkFail_sparse (hcls : t.desc.cls = 3) : checkFail s u .sparseMeta = ueOther (sparseFail s u t) u t := by
  simp only [checkFail, hr, hcls, if_true]

theorem checkFail_ue (a : BitVec 40) : checkFail s u (.ue a) = ueFail s u t a.toNat := by
  simp only [checkFail, hr]

end Check

/-- What follows a failed check leaves its event and every byte of memory. -/
theorem ueOther_after {s x : State} {c u a b : Nat} (hraised : Raised x c u a b) (hout : OutFrame s x) (v : Nat) (t : Task) :
    Raised (ueOther x v t) c u a b ∧ (ueOther x v t).mem.bytes = s.mem.bytes :=
  ⟨raised_more hraised (ueOther_outFrame ..).added, ((ueOther_outFrame ..).bytes).trans hout.bytes⟩

theorem runClocked_next {s t : State} {u : Nat} {f : State → State} (hwatch : watchUnit s u = false) (hf : f (answer s .none) = t)
    (hup : arithUp s = true) : (.next (runClocked s u f) : Host.Outcome State Fault Refusal) = .next (flush t) := by
  refine runArith_next ?_ hup
  rw [← hf]
  exact if_neg (by rw [show watchUnit (answer s .none) u = watchUnit s u from rfl, hwatch]; decide)

/-- Settles O22: the claim, the beginning, the work of each class and the failed checks, each by its own case. -/
theorem taskIsClaimedRunAndEnded : Obligations.TaskIsClaimedRunAndEnded := by
  unfold Obligations.TaskIsClaimedRunAndEnded
  intro s u tk hup r s0
  refine ⟨fun k l hs hst hcls hwatch hchard hfrom => ?_, fun he hb => ⟨fun hs hstart hok hrej => ?_, fun hok hhusk => ?_⟩,
    fun hr hwatch => ⟨fun hst hreplay => ⟨fun w hcls hop => ?_, fun w hcls hop => ?_, fun o hcls => ?_, fun o hcls => ?_, fun w hcls => ?_⟩,
      ?_, fun row hcls => ?_, fun hcls => ?_, fun hcls => ?_, fun a => ?_⟩⟩
  · intro c
    have hsettled (v : UnitRec) : Settled (unitSet c u.toNat v) :=
      settled_of_logs (s := s) (ownClk_readyPut_logs (answer s .none) (.claim u.toNat) k l) hs
    refine ⟨fun hnone => ?_, fun hsome hnone => ?_⟩
    · refine runArith_next_settled ?_ hup (hsettled _)
      refine (claim_taken (s := answer s .none) hst hcls hwatch hchard hfrom (fun h => ?_)).trans (if_pos ?_)
      · exact absurd h.1 (by rw [show (unitOf (answer s .none) u.toNat).exec = none from hnone]; decide)
      · rw [show (unitOf (answer s .none) u.toNat).exec = none from hnone]
        rfl
    · refine runArith_next_settled ?_ hup (hsettled _)
      refine (claim_taken (s := answer s .none) hst hcls hwatch hchard hfrom (fun h => ?_)).trans (if_neg ?_)
      · exact absurd h.2 (by rw [show (unitOf (answer s .none) u.toNat).pref = none from hnone]; decide)
      · rw [show (unitOf (answer s .none) u.toNat).exec = r.exec from rfl, Option.isNone_iff_eq_none]
        exact Option.isSome_iff_ne_none.mp hsome
  · exact runArith_next_settled (beginTask_begun (s := answer s .none) he hb hstart hok hrej 1) hup hs
  · exact ⟨_, runArith_next rfl hup, beginTask_badHeader (s := answer s .none) he hb hok hhusk 1⟩
  · intro p dst h
    have hread := taskRead_readFrame s0 u.toNat (memLe s (p + 16) 8) (memLe s (p + 24) 4)
    have heq : (.next (runClocked s u.toNat (fun s => taskComplete s u.toNat w)) : Host.Outcome State Fault Refusal) = _ :=
      runClocked_next hwatch ((taskComplete_hash (s := s0) hst hr hreplay hcls hop w).trans (hashWork_eq ..)) hup
    refine ⟨fun hw hs hp hq _ => ⟨_, heq, ?_⟩, fun hw => ⟨_, heq, ?_⟩⟩
    · exact taskWrite_done (s := s0) hread hr dst 32 h hw hs hp hq
    · exact taskWrite_outside (s := s0) hread hr dst h hw _
  · intro p n dst b
    have htrace := tracePoints_readFrame s0 u.toNat
    have hread := htrace.trans (taskRead_readFrame (tracePoints s0 u.toNat) u.toNat (memLe s (p + 16) 8) n)
    have hcopy : copyWork (tracePoints s0 u.toNat) u.toNat tk =
        taskWrite (taskRead (tracePoints s0 u.toNat) u.toNat (memLe s (p + 16) 8) n).2 u.toNat dst b
          (fun s => finishTask s u.toNat dst n []) := by
      rw [copyWork_eq]
      simp only [memLe_congr htrace.mem]
      rfl
    have heq : (.next (runClocked s u.toNat (fun s => taskComplete s u.toNat w)) : Host.Outcome State Fault Refusal) = _ :=
      runClocked_next hwatch ((taskComplete_copy (s := s0) hst hr hreplay hcls hop w).trans hcopy) hup
    refine ⟨fun hw hs hp hq _ => ⟨_, heq, ?_⟩, fun hw => ⟨_, heq, ?_⟩⟩
    · exact taskWrite_done (s := s0) hread hr dst n b hw hs hp hq
    · exact taskWrite_outside (s := s0) hread hr dst b hw _
  · exact runClocked_next hwatch (taskComplete_tile (s := s0) hst hr hreplay hcls o) hup
  · exact runClocked_next hwatch (taskComplete_solve (s := s0) hst hr hreplay hcls o) hup
  · exact runClocked_next hwatch (taskComplete_select (s := s0) hst hr hreplay hcls w) hup
  · obtain ⟨hraised, hout⟩ := windowFault_effect (s := s0) hr
    exact ⟨_, runClocked_next hwatch (checkFail_window (s := s0) hr) hup, ueOther_after hraised hout u.toNat tk⟩
  · obtain ⟨hraised, hout⟩ := residualFail_effect (cutRun s0 tk u.toNat).2 u.toNat tk row.toNat (cutRun s0 tk u.toNat).1
    exact ⟨_, runClocked_next hwatch (checkFail_residual (s := s0) hr hcls row) hup,
      ueOther_after (s := s0) hraised ((OutFrame.of_work (cutRun_workFrame ..)).trans hout) u.toNat tk⟩
  · obtain ⟨hraised, hout⟩ := abftFail_effect s0 u.toNat tk
    exact ⟨_, runClocked_next hwatch (checkFail_abft (s := s0) hr hcls) hup, ueOther_after hraised hout u.toNat tk⟩
  · obtain ⟨hraised, hout⟩ := sparseFail_effect s0 u.toNat tk
    exact ⟨_, runClocked_next hwatch (checkFail_sparse (s := s0) hr hcls) hup, ueOther_after hraised hout u.toNat tk⟩
  · exact runClocked_next hwatch (checkFail_ue (s := s0) hr a) hup

end Sys2Proof.Machine

/-!
Batches of the Pods (R157, R161, R275, R310): what the settling of events leaves unchanged, the start of a batch, the proof of
PodTakesNextBatch, and the refutations of ProbesAccumulateInBatch and BatchCompletionWritesRecords by a result list over its own block.
-/
namespace Sys2Proof.Machine

/-! ### What the settling of events leaves unchanged -/

theorem countFault_outFrame (s : State) (u : Nat) : OutFrame s (countFault s u) := by
  unfold countFault
  extract_lets r w w' counted out struck diag noted failed
  have hcounted : OutFrame s counted := .of_eq rfl rfl rfl rfl
  have hnoted : OutFrame s noted := hcounted.trans ((faultOut_outFrame counted u).trans (.of_eq rfl rfl rfl rfl))
  have hfailed : OutFrame s failed := by
    dsimp only [failed]
    split
    · refine hnoted.trans ?_
      unfold probFail
      split
      · exact .of_eq rfl rfl rfl rfl
      · exact .refl _
    · exact hnoted
  split
  · split
    · exact hfailed.trans ((raise_outFrame ..).trans (judgePath_outFrame ..))
    · exact hcounted
  · exact .refl s

theorem react_outFrame (s : State) (r : EvRec) : OutFrame s (react s r) := by
  unfold react
  split
  · exact countFault_outFrame ..
  · split
    · exact .of_eq rfl rfl rfl rfl
    · exact .refl s
  · exact .refl s

theorem stamp_kept (s : State) (r : EvRec) : (stamp s r).mem = s.mem ∧ (stamp s r).pod = s.pod := by
  have ring (t : State) (r : EvRec) : (ringAdd t r).mem = t.mem ∧ (ringAdd t r).pod = t.pod := by
    unfold ringAdd
    dsimp only
    split
    · exact ⟨rfl, rfl⟩
    · split <;> split <;> exact ⟨rfl, rfl⟩
  unfold stamp
  dsimp only
  split
  · rw [boxAdd_mem, boxAdd_pod]
    exact ring ..
  · exact ring ..

theorem stampAll_kept (s : State) : (stampAll s).mem = s.mem ∧ (stampAll s).pod = s.pod := by
  unfold stampAll
  generalize sortBy evLe s.logs.buf = l
  have fold (t : State) : (l.foldl stamp t).mem = t.mem ∧ (l.foldl stamp t).pod = t.pod := by
    induction l generalizing t with
    | nil => exact ⟨rfl, rfl⟩
    | cons r l ih => exact ⟨(ih _).1.trans (stamp_kept t r).1, (ih _).2.trans (stamp_kept t r).2⟩
  exact fold _

theorem timingRec_fold_kept (l : List EvRec) (s : State) : (l.foldl timingRec s).mem = s.mem ∧ (l.foldl timingRec s).pod = s.pod := by
  induction l generalizing s with
  | nil => exact ⟨rfl, rfl⟩
  | cons r l ih =>
    have one : (timingRec s r).mem = s.mem ∧ (timingRec s r).pod = s.pod := by
      unfold timingRec
      split <;> exact ⟨rfl, rfl⟩
    exact ⟨(ih _).1.trans one.1, (ih _).2.trans one.2⟩

/-- The reactions to events and their records touch no byte of memory and no evaluation. -/
theorem flush_kept (s : State) : (flush s).mem.bytes = s.mem.bytes ∧ (flush s).pod.evals = s.pod.evals := by
  have reacted : OutFrame s (s.logs.buf.foldl react s) := .foldl react_outFrame _ _
  have timed := timingRec_fold_kept s.logs.buf (s.logs.buf.foldl react s)
  have once := stampAll_kept (s.logs.buf.foldl timingRec (s.logs.buf.foldl react s))
  have twice := stampAll_kept (stampAll (s.logs.buf.foldl timingRec (s.logs.buf.foldl react s)))
  exact ⟨(congrArg Mem.bytes (twice.1.trans (once.1.trans timed.1))).trans reacted.bytes,
    (congrArg PodSt.evals (twice.2.trans (once.2.trans timed.2))).trans reacted.evals⟩

/-! ### The start of a batch (R157, R283, R378) -/

section Start

variable {s : State} {g : Nat} {r : BRange} {e : Eval}

/-- The batch with which a Pod starts, and the count of candidates with it. -/
def batchOf (r : BRange) (e : Eval) : Batch :=
  { rid := r.rid, num := r.lo, level := e.task.desc.crit, golden := false, acc := [], written := [] }
def generatedWith (s : State) (r : BRange) (e : Eval) : Nat :=
  if e.main then sat 32 (s.cand.generated + (batchIds s r.lo).length) else s.cand.generated

theorem evalStart_started (h : e.started = true) (leek : Nat) : evalStart s e leek = (true, s) := if_pos h

theorem evalStart_begun (h : e.started = false) (hok : headerOk s e.task = true) (hstart : e.task.desc.startBy = 0xFFFF) (leek : Nat) :
    evalStart s e leek = (true, evalUpd s e.task.rid (fun x => { x with started := true, task := begun s x.task })) := by
  simp [evalStart, h, startCheck_free hstart, hok]

theorem evalStart_failed (h : e.started = false) (hok : headerOk s e.task = false) (hstart : e.task.desc.startBy = 0xFFFF) (leek : Nat) :
    evalStart s e leek = (false, evalFail (raise s 0x0B08 leek e.task.desc.taskId e.task.desc.opId) e leek) := by
  simp [evalStart, h, startCheck_free hstart, hok]

/-- A failed evaluation leaves the Pods, whatever its event. -/
theorem evalFail_raised (s : State) (e : Eval) (u c x a b : Nat) :
    let t := evalFail (raise s c x a b) e u
    Raised t c x a b ∧ t.pod.evals = s.pod.evals.filter (fun y => y.task.rid != e.task.rid) ∧ t.mem = s.mem := by
  intro t
  obtain ⟨work, -, hpod, -⟩ := clkDecs_decFrame (dropEval (raise s c x a b) e.task.rid) [] (decFor e.task.desc.failCtr u)
  refine ⟨raised_more (raised_here s c x a b) work.added, (congrArg PodSt.evals hpod).trans ?_, work.mem.trans (raise_mem ..)⟩
  simp [dropEval]

variable (htakes : podTakes s g = true) (hexec : (podGet s g).exec = none) (hwatch : watchUnit s (leekOf g) = false)
  (hr : nextRange s (podGet s g).list = some r) (he : evalOf s r.rid = some e)
include htakes hexec hwatch hr he

theorem podBatchStart_eq (residue : Option Nat) :
    podBatchStart s g residue =
      let x := evalStart s e (leekOf g)
      if !x.1 then x.2
      else match residue with
        | some k => raise x.2 0x0E09 (leekOf g) (leekOf g) (4 + k)
        | none =>
          let t := if e.main then
            { x.2 with cand := { x.2.cand with generated := sat 32 (x.2.cand.generated + (batchIds x.2 r.lo).length) } } else x.2
          podUpd t g (fun p => { p with list := takeFirst r p.list, exec := some (batchOf r e) }) := by
  simp only [podBatchStart, htakes, hexec, hwatch, hr, he, Bool.not_true, Option.isSome_none, Bool.false_eq_true, or_self, if_false]
  rfl

variable {t : State}

/-- An evaluation that runs gives its batch. -/
theorem podBatchStart_taken (hrun : evalStart s e (leekOf g) = (true, t)) :
    podBatchStart s g none = { podUpd t g (fun p => { p with list := takeFirst r p.list, exec := some (batchOf r e) }) with
      cand := { t.cand with generated := generatedWith t r e } } := by
  rw [podBatchStart_eq htakes hexec hwatch hr he, hrun]
  simp only [Bool.not_true, Bool.false_eq_true, if_false, generatedWith]
  split <;> rfl

theorem podBatchStart_residue (hrun : evalStart s e (leekOf g) = (true, t)) (k : Nat) :
    podBatchStart s g (some k) = raise t 0x0E09 (leekOf g) (leekOf g) (4 + k) := by
  rw [podBatchStart_eq htakes hexec hwatch hr he, hrun]
  rfl

theorem podBatchStart_failed (hrun : evalStart s e (leekOf g) = (false, t)) (x : Option Nat) : podBatchStart s g x = t := by
  rw [podBatchStart_eq htakes hexec hwatch hr he, hrun]
  rfl

end Start

theorem batchGo_congr {s t : State} (hquota : ∀ f, quota t f = quota s f)
    (hbatches : ∀ f, famBatches t f = famBatches s f) (hplace : ∀ f i, placeId t f i = placeId s f i) (n f b : Nat) :
    batchGo t n f b = batchGo s n f b := by
  induction n generalizing f b with
  | zero => rfl
  | succ n ih => simp only [batchGo, hquota, hbatches, hplace, ih]

/-- The candidates of a batch are none of the Pods' record or of an answer. -/
theorem generatedWith_kept (s : State) (pod : PodSt) (x : Resp) (r : BRange) (e : Eval) :
    generatedWith { s with pod := pod, resp := x } r e = generatedWith s r e := by
  have hids : batchIds { s with pod := pod, resp := x } r.lo = batchIds s r.lo :=
    batchGo_congr (fun _ => rfl) (fun _ => rfl) (fun _ _ => rfl) 4 0 r.lo
  simp only [generatedWith, hids]

/-- Settles O25: by whether the evaluation runs, starts with this batch, or fails its header. -/
theorem podTakesNextBatch : Obligations.PodTakesNextBatch := by
  unfold Obligations.PodTakesNextBatch
  intro s g r e hup htakes hexec hwatch hr he leek b n
  refine ⟨fun hst => ⟨fun hs => ?_, fun k => ?_⟩, fun hst hok hstart => ?_, fun hst hok hstart x => ?_⟩
  · refine runArith_next_settled ((podBatchStart_taken (s := answer s .none) htakes hexec hwatch hr he (evalStart_started hst _)).trans ?_) hup hs
    rw [show generatedWith (answer s .none) r e = n from generatedWith_kept s s.pod .none r e]
    rfl
  · refine ⟨_, runArith_next (podBatchStart_residue (s := answer s .none) htakes hexec hwatch hr he (evalStart_started hst _) k.val) hup,
      ?_, raised_here .., ?_, ?_⟩
    · rw [raise_pod]; rfl
    · rw [raise_mem]; rfl
    · rw [raise_safety]; rfl
  · intro a
    have hrun : evalStart (answer s .none) e (leekOf g.val) = (true, answer a .none) := by
      rw [evalStart_begun (s := answer s .none) hst hok hstart]
      rfl
    refine ⟨fun hs => ?_, fun k => ?_⟩
    · refine runArith_next_settled ((podBatchStart_taken (s := answer s .none) htakes hexec hwatch hr he hrun).trans ?_) hup hs
      rw [show generatedWith (answer a .none) r e = n from generatedWith_kept s a.pod .none r e]
      rfl
    · refine ⟨_, runArith_next (podBatchStart_residue (s := answer s .none) htakes hexec hwatch hr he hrun k.val) hup,
        ?_, raised_here .., ?_⟩
      · rw [raise_pod]; rfl
      · rw [raise_mem]; rfl
  · have hrun := evalStart_failed (s := answer s .none) hst hok hstart (leekOf g.val)
    exact ⟨_, runArith_next (podBatchStart_failed (s := answer s .none) htakes hexec hwatch hr he hrun (x.map (·.val))) hup,
      evalFail_raised (answer s .none) e (leekOf g.val) ..⟩

/-! ### A result list over its own block

An evaluation's write window may cover its parameter block (R310 holds only the records to the window). A record then rewrites the place of the
list, or the flag of a first-feasible exit, before the next record or before that flag is read. -/

/-- A model without joints and spheres: a candidate has no test and is CLEAR. -/
def emptyModel : Model :=
  { planar := false, joints := [], bounds := [], spheres := [], pairs := [], bpairs := [], levers := [], caps := [], vDecl := 0, digest := [] }

/-- An EVAL_RECORDS task of level 1 whose block stands at 0x4000, its evaluation of two batches, and its first batch. -/
def listTask : Task :=
  { desc := { descOf [] with opId := 0x0102, cls := 1, crit := 1, param := 0x4000, arg0 := 1, outQueue := 0xFFFFF, doneCtr := 0xFFFF,
                             failCtr := 0xFFFF }
    rid := 1, cycle := 0, stack := 0, byHusk := false, pcopy := 0, rerun := false, excl := none, began := true, startCycle := 0, startPhase := 0
    lateChecked := true, resumed := false, ueRegion := none, ctr := 20, ver := 0, gen := 0, wgen := 0, inv := 0, warm := 0 }
def listEval : Eval :=
  { task := listTask, total := 2, done := 0, only := none, started := true, exited := false, main := false, recheck := false, clear := 0
    blocked := 0, unknown := 0, outside := 0 }
def listBatch : Batch := { rid := 1, num := 0, level := 1, golden := false, acc := [], written := [] }

/-- A running image whose only region is 64 bytes at `a`. -/
def regionPlan (a : Nat) : Plan :=
  { grade := 0, structural := false, imageId := 1, modelDigest := [], dtUs := 50000, ctrPlan := 16, queuePlan := 16, evalStart := 0
    evalEnd := 50000, minPods := 0, gates := [], ctrWords := [], queues := [], mins := [], slots := []
    regions := [{ loc := 2, carry := false, zero := false, size := 64, addr := a }], settings := [], edits := [], base := 0, paramOff := 0
    paramLen := 0, copyOff := 0, relocs := [], digest := [], mainEval := none, recheck := none, tiles := [], solves := [], ends := [] }

/-- Pod 0 with the batch in work: `n` candidates in the block's list at 0x5000, their results to go to `a`. -/
def listState (n a : Nat) : State :=
  let s : State := { State.reset with
    cpm := { Cpm.reset with boot := .up }, model := { State.reset.model with cur := some emptyModel }
    pod := { State.reset.pod with evals := [listEval] }, plan := { State.reset.plan with run := some (regionPlan a) } }
  let s := unitSet s (unitId 0 0 0) { unitOf s (unitId 0 0 0) with st := .active }
  podPut (memPut (memPut s 0x4010 (leBytes 8 0x5000 ++ [n, 0, 0, 0, 32])) 0x4020 (leBytes 8 a)) 0 { Pod.empty with exec := some listBatch }

/-- One record, whose byte of 0xFF (R150) falls on the block's flags. -/
def flagState : State := listState 1 0x3FF3
/-- Two records, the first of which falls on the place of the list. -/
def placeState : State := listState 2 0x4020

/-- What two states settle to alike they hold alike, of memory and of the evaluations. -/
theorem kept_of_flush_eq {s t : State} (h : (.next (flush s) : Host.Outcome State Fault Refusal) = .next (flush t)) :
    t.mem.bytes = s.mem.bytes ∧ t.pod.evals = s.pod.evals := by
  have hflush : flush s = flush t := Host.Outcome.next.inj h
  exact ⟨by rw [← (flush_kept t).1, ← hflush, (flush_kept s).1], by rw [← (flush_kept t).2, ← hflush, (flush_kept s).2]⟩

theorem flagState_exec : exec (.probeRetire 0 0 0 0 (.pairs []) none) flagState =
    .next (flush (probeRetire (answer flagState .none) 0 0 0 0 (.pairs []) none)) := by
  have hup : arithUp flagState = true := by decide +kernel
  exact runArith_next (if_neg (by decide +kernel)) hup

/-- Refutes O26: a CLEAR record of `flagState` sets the flag of a first-feasible exit, so that its evaluation exits, although the evaluation had no
such flag. -/
theorem not_probesAccumulateInBatch : ¬ Obligations.ProbesAccumulateInBatch := by
  intro h
  obtain ⟨hprobe, -⟩ := h flagState 0 0 0 0 (.pairs []) listBatch listEval emptyModel 0 (recAt flagState 0x5000) (by decide +kernel)
    (by decide +kernel) (by decide +kernel) (by decide +kernel) (by decide +kernel) (by decide +kernel) (by decide +kernel) (by decide +kernel)
  obtain ⟨-, hlast, -, -⟩ := hprobe (by decide +kernel) (.inl (by decide))
  obtain ⟨t, hexec, -, -, hevals⟩ := hlast (by decide +kernel) (by decide +kernel)
  obtain ⟨heq, -⟩ := hevals (by decide +kernel)
  rw [flagState_exec] at hexec
  have hexited : (probeRetire (answer flagState .none) 0 0 0 0 (.pairs []) none).pod.evals.map (·.exited) = [true] := by decide +kernel
  rw [← (kept_of_flush_eq hexec).2, heq] at hexited
  exact absurd hexited (by decide)

theorem placeState_exec : exec (.podBatchComplete 0) placeState = .next (flush (podBatchComplete (answer placeState .none) 0)) := by
  have hup : arithUp placeState = true := by decide +kernel
  exact runArith_next (if_neg (by decide +kernel)) hup

/-- Refutes O27: the first record of `placeState` replaces the list's place, so that the second one does not go to 0x4040, whose sixteenth byte
it would make 0xFF. -/
theorem not_batchCompletionWritesRecords : ¬ Obligations.BatchCompletionWritesRecords := by
  intro h
  obtain ⟨-, hbatch⟩ := h placeState 0 listBatch (by decide +kernel) (by decide +kernel) (by decide +kernel)
  obtain ⟨-, heval⟩ := hbatch (by decide) (by decide +kernel)
  obtain ⟨hwritten, -⟩ := heval listEval (by decide +kernel)
  obtain ⟨-, hfree⟩ := hwritten (by decide +kernel)
  obtain ⟨t, hexec, hbytes, -⟩ := hfree (by decide +kernel) (by decide) (by decide +kernel)
  rw [placeState_exec] at hexec
  have hbyte : Smap.get byteDefault (podBatchComplete (answer placeState .none) 0).mem.bytes 0x4050 = 0 := by decide +kernel
  rw [← (kept_of_flush_eq hexec).1, hbytes] at hbyte
  exact absurd hbyte (by decide +kernel)

end Sys2Proof.Machine

/-!
Stealing and the brick caches (R155, R158, R159): the requests, the ports and the replies, and the proof of StealingAndRefillMovePodsOnly.
-/
namespace Sys2Proof.Machine

theorem runPods_next {s t : State} {f : State → State} (hwatch : s.cpm.watch = false) (hf : f (answer s .none) = t)
    (hup : arithUp s = true) : (.next (runPods s f) : Host.Outcome State Fault Refusal) = .next (flush t) := by
  refine runArith_next ?_ hup
  rw [← hf]
  exact if_neg (by rw [show (answer s .none).cpm.watch = s.cpm.watch from rfl, hwatch]; decide)

theorem runPods_next_settled {s t : State} {f : State → State} (hwatch : s.cpm.watch = false) (hf : f (answer s .none) = t)
    (hup : arithUp s = true) (ht : Settled t) : (.next (runPods s f) : Host.Outcome State Fault Refusal) = .next t :=
  (runPods_next hwatch hf hup).trans (congrArg _ (flush_quiet t ht))

/-! ### Records of the Pods -/

section Pods

variable {s : State} {g h : Nat} {p : Pod} (hs : PodsOk s)
include hs

theorem podGet_podPut : podGet (podPut s g p) g = p := smap_get_set_same _ _ 0 _ _ hs
theorem podGet_podPut_other (hne : h ≠ g) : podGet (podPut s g p) h = podGet s h := smap_get_set_other _ _ 0 _ _ _ hs hne
theorem podPut_podsOk : PodsOk (podPut s g p) := smap_set_wf _ _ _ _ hs

end Pods

/-! ### Requests (R158, R159) -/

/-- What a dry Pod's request meets first in its ring. -/
def stealNext (s : State) (g : Nat) : Option Nat :=
  (List.range 63).find? (fun i => decide ((podGet s g).asked ≤ i) && ringOk s g ((g + i + 1) % 64))

section Request

variable {s : State} {g : Nat} (hin : podInService s g = true) (hidle : (podGet s g).idle = false) (hexec : (podGet s g).exec = none)
  (hlist : (podGet s g).list = []) (hask : (podGet s g).asking = none) (hreply : (podGet s g).reply = none) (hev : s.pod.evals ≠ [])
  (hwatch : s.cpm.watch = false)
include hin hidle hexec hlist hask hreply hev hwatch

theorem stealRequest_dry : stealRequest s g =
    match stealNext s g with
    | none =>
      if (podGet s g).busy then podUpd s g (fun p => { p with asked := 0, busy := false })
      else podUpd s g (fun p => { p with idle := true, asked := 0 })
    | some i =>
      let v := (g + i + 1) % 64
      let a := podUpd s g (fun p => { p with asked := i + 1, asking := some v })
      let q := portAdd (podGet a v).port s.now g
      let c := podUpd a v (fun p => { p with port := q.1 })
      match q.2 with
      | some o => podUpd c o (fun p => { p with reply := some [], replyBusy := true })
      | none => c := by
  have hevals : s.pod.evals.isEmpty = false := by simpa using hev
  have hgate : watchUnit s (leekOf g) = false := by simp [watchUnit, hwatch]
  exact if_neg (by simp [hin, hidle, hexec, hlist, hask, hreply, hevals, hgate])

theorem stealRequest_none (hn : stealNext s g = none) :
    stealRequest s g = podUpd s g (fun p => if p.busy then { p with asked := 0, busy := false } else { p with idle := true, asked := 0 }) := by
  rw [stealRequest_dry hin hidle hexec hlist hask hreply hev hwatch, hn]
  simp only [podUpd]
  split <;> rfl

theorem stealRequest_asked {i : Nat} (hn : stealNext s g = some i) :
    let v := (g + i + 1) % 64
    let a := podUpd s g (fun p => { p with asked := i + 1, asking := some v })
    let q := portAdd (podGet a v).port s.now g
    let c := podUpd a v (fun p => { p with port := q.1 })
    (q.2 = none → stealRequest s g = c) ∧
    ∀ o, q.2 = some o → stealRequest s g = podUpd c o (fun p => { p with reply := some [], replyBusy := true }) := by
  intro v a q c
  rw [stealRequest_dry hin hidle hexec hlist hask hreply hev hwatch, hn]
  refine ⟨fun hq => ?_, fun o hq => ?_⟩
  · change (match q.2 with | some o => _ | none => c) = c
    rw [hq]
  · change (match q.2 with | some o => podUpd c o (fun p => { p with reply := some [], replyBusy := true }) | none => c) = _
    rw [hq]

end Request

/-! ### Ports and replies (R158, R159) -/

section Serve

variable {s : State} {g : Nat} {x : Nat × Nat} {rest : List (Nat × Nat)}

/-- The port of a victim in its own clk, its oldest entry taken out. -/
def portServed (s : State) (g : Nat) (rest : List (Nat × Nat)) : State := podUpd (ownClk s (.steal g)) g (fun p => { p with port := rest })

/-- The thief has its batches, and the victim has given them. -/
def stolen (q : State) (g t : Nat) : State :=
  let got := stealGive q g t
  let n := rangeCount got
  let a := podUpd q g (fun p => { p with list := rangeMinus p.list got, left := rangeMinus p.left got, given := p.given + n })
  podUpd { a with pod := { a.pod with cycStolen := a.pod.cycStolen + n } } t (fun p =>
    { p with reply := some got, replyBusy := false, stolen := p.stolen + n })

theorem stealServe_eq (hport : (podGet s g).port = x :: rest) : stealServe s g =
    if !podInService (portServed s g rest) x.2 then podUpd (portServed s g rest) x.2 (fun p => { p with asking := none })
    else stolen (portServed s g rest) g x.2 := by
  unfold stealServe
  rw [hport]
  rfl

theorem stealServe_empty (hport : (podGet s g).port = []) : stealServe s g = s := by
  simp only [stealServe, hport]

theorem portServed_form (s : State) (g : Nat) (rest : List (Nat × Nat)) : ∃ now phu clk,
    portServed s g rest = podPut { s with now := now, phu := phu, clk := clk } g { podGet s g with port := rest } := by
  obtain ⟨now, phu, clk, hown⟩ := ownClk_form s (.steal g)
  exact ⟨now, phu, clk, by rw [portServed, hown]; rfl⟩

/-- The theft changes the two Pods and the count of the cycle. -/
theorem stolen_pods {t : Nat} (hs : PodsOk s) (hne : t ≠ g) :
    let q := portServed s g rest
    let got := stealGive q g t
    let n := rangeCount got
    let y := stolen q g t
    y = { ownClk s (.steal g) with pod := y.pod } ∧ y.pod.cycStolen = s.pod.cycStolen + n ∧
      podGet y g = { podGet s g with port := rest, list := rangeMinus (podGet s g).list got, left := rangeMinus (podGet s g).left got,
                                     given := (podGet s g).given + n } ∧
      podGet y t = { podGet s t with reply := some got, replyBusy := false, stolen := (podGet s t).stolen + n } ∧
      ∀ h, h ≠ g → h ≠ t → podGet y h = podGet s h := by
  intro q got n y
  obtain ⟨now, phu, clk, hq⟩ := portServed_form s g rest
  have hbase : PodsOk { s with now := now, phu := phu, clk := clk } := hs
  have hqok : PodsOk q := by
    rw [show q = _ from hq]
    exact podPut_podsOk hbase
  have hqg : podGet q g = { podGet s g with port := rest } := by
    rw [show q = _ from hq]
    exact podGet_podPut hbase
  have hqother (h : Nat) (hg : h ≠ g) : podGet q h = podGet s h := by
    rw [show q = _ from hq]
    exact podGet_podPut_other hbase hg
  let a := podPut q g { podGet q g with list := rangeMinus (podGet q g).list got, left := rangeMinus (podGet q g).left got,
                                        given := (podGet q g).given + n }
  let b : State := { a with pod := { a.pod with cycStolen := a.pod.cycStolen + n } }
  have haok : PodsOk a := podPut_podsOk hqok
  have hbok : PodsOk b := haok
  have hy : y = podPut b t { podGet b t with reply := some got, replyBusy := false, stolen := (podGet b t).stolen + n } := rfl
  have hbt : podGet b t = podGet s t := (podGet_podPut_other hqok hne).trans (hqother t hne)
  refine ⟨rfl, ?_, ?_, ?_, fun h hg ht => ?_⟩
  · change (portServed s g rest).pod.cycStolen + n = _
    rw [hq]
    rfl
  · rw [hy, podGet_podPut_other hbok hne.symm, show podGet b g = _ from podGet_podPut hqok, hqg]
  · rw [hy, podGet_podPut hbok, hbt]
  · rw [hy, podGet_podPut_other hbok ht, show podGet b h = _ from podGet_podPut_other hqok hg, hqother h hg]

end Serve

section Reply

variable {s : State} {g : Nat} {got : List BRange}

theorem stealReply_none (hr : (podGet s g).reply = none) : stealReply s g = s := by
  simp only [stealReply, hr]

theorem stealReply_empty (hr : (podGet s g).reply = some []) : stealReply s g =
    podPut s g { podGet s g with
      reply := none, asking := none, busy := (podGet s g).busy || (podGet s g).replyBusy, replyBusy := false } := by
  simp only [stealReply, hr, List.isEmpty_nil, if_true]

theorem stealReply_batches (hr : (podGet s g).reply = some got) (hne : got ≠ []) :
    let q := { podGet s g with reply := none, asking := none, asked := 0, busy := false, replyBusy := false }
    stealReply s g = if podInService s g then podPut s g { q with list := got.foldl rangeAdd q.list }
      else wakePods (podPut s g { q with left := q.left ++ got }) := by
  have hgot : ¬ got.isEmpty = true := by simpa using hne
  simp only [stealReply, hr, if_neg hgot]

theorem cacheRefill_awaited {l : CacheLine} (h : (podGet s g).refills.any (fun m => m.line == lineNo l) = true) :
    cacheRefill s g l = podUpd s g (fun p =>
      cacheSend { p with refills := p.refills.filter (fun m => m.line != lineNo l), lines := cacheInsert p.lines (lineNo l) } s.now) :=
  if_pos h

end Reply

/-- Settles O28: each of the four commands by the case of the Pod's own record. -/
theorem stealingAndRefillMovePodsOnly : Obligations.StealingAndRefillMovePodsOnly := by
  unfold Obligations.StealingAndRefillMovePodsOnly
  intro s g hup hs hwatch p
  refine ⟨fun hin hidle hexec hlist hask hreply hev => ?_, fun x rest hport hok => ?_, fun hport => ?_, fun hr => ?_, fun got hr hne => ?_,
    fun hr => ?_, fun l hl => ?_⟩
  · intro next
    refine ⟨fun i hn => ?_, fun hn => ?_⟩
    · obtain ⟨hroom, hfull⟩ := stealRequest_asked (s := answer s .none) hin hidle hexec hlist hask hreply hev hwatch hn
      exact ⟨fun hq => runArith_next_settled (hroom hq) hup hs, fun o hq => runArith_next_settled (hfull o hq) hup hs⟩
    · exact runArith_next_settled (stealRequest_none (s := answer s .none) hin hidle hexec hlist hask hreply hev hwatch hn) hup hs
  · intro c q
    have hserve := stealServe_eq (s := answer s .none) hport
    obtain ⟨now, phu, clk, hform⟩ := portServed_form (answer s .none) g.val rest
    have hin : podInService (portServed (answer s .none) g.val rest) x.2 = podInService s x.2 := by
      rw [hform]
      rfl
    have hlogs : (portServed (answer s .none) g.val rest).logs = s.logs := by
      rw [hform]
      rfl
    refine ⟨fun hout => ?_, fun hin' hne => ?_⟩
    · refine runPods_next_settled hwatch (hserve.trans (if_pos (by rw [hin, hout]; decide))) hup (settled_of_logs (s := s) hlogs hs)
    · intro got n
      refine ⟨stolen (portServed (answer s .none) g.val rest) g.val x.2, ?_, stolen_pods (s := answer s .none) hok hne⟩
      refine runPods_next_settled hwatch (hserve.trans (if_neg (by rw [hin, hin']; decide))) hup (settled_of_logs (s := s) hlogs hs)
  · exact runPods_next_settled hwatch (stealServe_empty (s := answer s .none) hport) hup hs
  · exact runPods_next_settled hwatch (stealReply_empty (s := answer s .none) hr) hup hs
  · intro q
    have hreply := stealReply_batches (s := answer s .none) hr hne
    exact ⟨fun hin => runPods_next_settled hwatch (hreply.trans (if_pos hin)) hup hs,
      fun hin => runPods_next_settled hwatch (hreply.trans (if_neg (by rw [Bool.not_eq_true]; exact hin))) hup hs⟩
  · exact runPods_next_settled hwatch (stealReply_none (s := answer s .none) hr) hup hs
  · exact runPods_next_settled hwatch (cacheRefill_awaited (s := answer s .none) hl) hup hs

end Sys2Proof.Machine

/-!
Ethernet reception (R171, R172, R178): MACsec, the receive ring and the keys, and the proof of EthernetFramesEnterRing.
-/
namespace Sys2Proof.Machine

section Ethernet

variable {s : State} {p : Nat}

/-- MACsec raises no more than a packet number of its port (R172). -/
theorem secCheck_form (s : State) (p : Nat) (sec : Option SecTag) : ∃ port0 port1,
    (secCheck s p sec).2 = { s with peers := { s.peers with port0 := port0, port1 := port1 } } := by
  unfold secCheck
  extract_lets need
  split
  · exact ⟨_, _, rfl⟩
  · extract_lets
    split
    · exact ⟨_, _, rfl⟩
    · extract_lets pn
      split
      · unfold ethPortSet
        split <;> exact ⟨_, _, rfl⟩
      · exact ⟨_, _, rfl⟩

theorem ethPortSet_answer (s : State) (p : Nat) (x : EthPort) (r : Resp) : ethPortSet (answer s r) p x = answer (ethPortSet s p x) r := by
  unfold ethPortSet
  split <;> rfl

theorem ethPortSet_logs (s : State) (p : Nat) (x : EthPort) : (ethPortSet s p x).logs = s.logs := by
  unfold ethPortSet
  split <;> rfl

/-- The SA that a frame's tag names, and whether MACsec takes the frame by it (R172). -/
def tagSa (s : State) (p : Nat) (t : SecTag) : Option Sa := (ethPort s p).sas.find? (fun a => a.an == t.an.val)
def tagOk (s : State) (p : Nat) (t : SecTag) (sa : Sa) : Bool :=
  bit (macsecReg s p) 0 && t.icvOk && decide (sa.nextPn ≤ t.pn.toNat + field (macsecReg s p) 16 16)

theorem secCheck_untagged (s : State) (p : Nat) {t : SecTag} (h : tagSa s p t = none) :
    secCheck s p (some t) = (!bit (regF s Reg.ethCtrl) 4, s) := by
  rw [tagSa] at h
  simp only [secCheck, h]

theorem secCheck_tagged (s : State) (p : Nat) {t : SecTag} {sa : Sa} (h : tagSa s p t = some sa) :
    secCheck s p (some t) =
      if tagOk s p t sa then
        (true, ethPortSet s p { ethPort s p with sas := (ethPort s p).sas.map (fun a =>
          if a.an = t.an.val then { a with nextPn := max a.nextPn (t.pn.toNat + 1) } else a) })
      else (!bit (regF s Reg.ethCtrl) 4, s) := by
  rw [tagSa] at h
  simp only [secCheck, h]
  rfl

/-- The answer of a command has no part in what MACsec judges. -/
theorem secCheck_answer (s : State) (p : Nat) (sec : Option SecTag) (r : Resp) :
    secCheck (answer s r) p sec = ((secCheck s p sec).1, answer (secCheck s p sec).2 r) := by
  cases sec with
  | none => rfl
  | some t =>
    cases hsa : tagSa s p t with
    | none =>
      rw [secCheck_untagged s p hsa, secCheck_untagged (answer s r) p hsa]
      rfl
    | some sa =>
      rw [secCheck_tagged s p hsa, secCheck_tagged (answer s r) p hsa, ethPortSet_answer]
      change (if tagOk s p t sa then _ else _) = _
      split <;> rfl

/-- A frame that may not pass raises no packet number. -/
theorem secCheck_refused {sec : Option SecTag} (h : (secCheck s p sec).1 = false) : (secCheck s p sec).2 = s := by
  cases sec with
  | none => rfl
  | some t =>
    cases hsa : tagSa s p t with
    | none => rw [secCheck_untagged s p hsa]
    | some sa =>
      rw [secCheck_tagged s p hsa] at h ⊢
      split at h
      · exact Bool.noConfusion h
      · next hok => rw [if_neg hok]

theorem secCheck_one {t : SecTag} {sa : Sa} (hsas : (ethPort s p).sas = [sa]) :
    let ok := bit (macsecReg s p) 0 && t.icvOk && decide (sa.nextPn ≤ t.pn.toNat + field (macsecReg s p) 16 16)
    (sa.an = t.an.val → ok = true → secCheck s p (some t) =
      (true, ethPortSet s p { ethPort s p with sas := [{ sa with nextPn := max sa.nextPn (t.pn.toNat + 1) }] })) ∧
    (sa.an ≠ t.an.val ∨ ok = false → secCheck s p (some t) = (!bit (regF s Reg.ethCtrl) 4, s)) := by
  intro ok
  by_cases han : sa.an = t.an.val
  · have hsa : tagSa s p t = some sa := by simp [tagSa, hsas, han]
    rw [secCheck_tagged s p hsa]
    refine ⟨fun _ hok => ?_, fun h => if_neg ?_⟩
    · rw [if_pos (show tagOk s p t sa = true from hok), hsas]
      simp [han]
    · rw [show tagOk s p t sa = false from h.resolve_left (not_not_intro han)]
      decide
  · have hsa : tagSa s p t = none := by simp [tagSa, hsas, han]
    exact ⟨fun h => absurd h han, fun _ => secCheck_untagged s p hsa⟩

/-- What becomes of a datagram that MACsec has let pass, in the state that it leaves (R171, R178). -/
def datagram (s : State) (p ns : Nat) : EthData → State
  | .other => regCount s (Reg.ethOther + 0x40 * p)
  | .udp dst port b =>
    if dst.toNat ≠ regF s Reg.ethIpv4 ∧ dst.toNat ≠ regF s Reg.ethMcast then regCount s (Reg.ethOther + 0x40 * p)
    else if port.toNat = field (regF s Reg.ethUdp) 16 16 then (if s.det.replay then s else ringIn s p ns b)
    else if port.toNat = field (regF s Reg.ethUdp) 0 16 then fragmentUdp s p b
    else regCount s (Reg.ethOther + 0x40 * p)

theorem ethFrameRx_off (h : ethOn s p = false) (sec : Option SecTag) (ns : Nat) (d : EthData) : ethFrameRx s p sec ns d = s :=
  if_pos (by rw [h]; rfl)

theorem ethFrameRx_on (h : ethOn s p = true) (sec : Option SecTag) (ns : Nat) (d : EthData) :
    ethFrameRx s p sec ns d =
      if !(secCheck s p sec).1 then regCount (secCheck s p sec).2 (Reg.ethSecErr + 0x40 * p)
      else datagram (secCheck s p sec).2 p ns d := by
  refine (if_neg (by rw [h]; decide)).trans ?_
  cases d <;> rfl

section Datagram

variable {dst : BitVec 32} {port : BitVec 16} {ns : Nat} {b : Bytes}

theorem datagram_foreign (h : ¬ (dst.toNat = regF s Reg.ethIpv4 ∨ dst.toNat = regF s Reg.ethMcast)) :
    datagram s p ns (.udp dst port b) = regCount s (Reg.ethOther + 0x40 * p) := if_pos (not_or.mp h)

variable (hmine : dst.toNat = regF s Reg.ethIpv4 ∨ dst.toNat = regF s Reg.ethMcast)
include hmine

theorem datagram_krytan (hport : port.toNat = field (regF s Reg.ethUdp) 16 16) :
    datagram s p ns (.udp dst port b) = if s.det.replay then s else ringIn s p ns b :=
  (if_neg (not_and_of_not_or_not (hmine.imp not_not_intro not_not_intro))).trans (if_pos hport)

theorem datagram_fusion (hport : port.toNat ≠ field (regF s Reg.ethUdp) 16 16) (hfusion : port.toNat = field (regF s Reg.ethUdp) 0 16) :
    datagram s p ns (.udp dst port b) = fragmentUdp s p b :=
  (if_neg (not_and_of_not_or_not (hmine.imp not_not_intro not_not_intro))).trans ((if_neg hport).trans (if_pos hfusion))

theorem datagram_port (hport : port.toNat ≠ field (regF s Reg.ethUdp) 16 16) (hfusion : port.toNat ≠ field (regF s Reg.ethUdp) 0 16) :
    datagram s p ns (.udp dst port b) = regCount s (Reg.ethOther + 0x40 * p) :=
  (if_neg (not_and_of_not_or_not (hmine.imp not_not_intro not_not_intro))).trans ((if_neg hport).trans (if_neg hfusion))

end Datagram

theorem ringIn_room {ns : Nat} {b : Bytes} (h : s.peers.ring.length < 8192) :
    ringIn s p ns b = { regCount s (Reg.ethRxCnt + 0x40 * p) with peers := { s.peers with ring := s.peers.ring ++ [⟨ns, p, b⟩] } } :=
  if_neg (Nat.not_le.mpr h)

theorem ringIn_full {ns : Nat} {b : Bytes} (h : 8192 ≤ s.peers.ring.length) :
    ringIn s p ns b = regCount { regCount s (Reg.ethRxCnt + 0x40 * p) with
      peers := { s.peers with dropCyc := s.peers.dropCyc + 1 } } Reg.ethRingDrop :=
  if_pos h

theorem sakInstall_on (h : gateOn s p = true) (w : Nat) :
    let an := field (macsecReg s p) 4 2
    let put := fun (l : List Sa) => l.filter (fun a => a.an != an) ++ [({ an := an, key := fit 7 (ethPort s p).sak ++ [w], nextPn := 1 } : Sa)]
    sakInstall s p w = ethPortSet s p { ethPort s p with sas := put (ethPort s p).sas, tx := put (ethPort s p).tx, txAn := an } :=
  if_neg (by rw [h]; decide)

theorem sakInstall_off (h : gateOn s p = false) (w : Nat) : sakInstall s p w = s := if_pos (by rw [h]; rfl)

end Ethernet

/-- Settles O29: a frame by its port, by MACsec's judgement and by its datagram; a key by its gate. -/
theorem ethernetFramesEnterRing : Obligations.EthernetFramesEnterRing := by
  unfold Obligations.EthernetFramesEnterRing
  intro s p hup hs need
  have hlogs (sec : Option SecTag) : (secCheck s p.val sec).2.logs = s.logs := by
    obtain ⟨port0, port1, h⟩ := secCheck_form s p.val sec
    rw [h]
  refine ⟨fun hon => ⟨fun sec hsec ns d => ?_, fun sec hsec => ?_⟩, rfl, fun t sa hsas => secCheck_one hsas, fun hoff sec ns d => ?_, fun w => ?_⟩
  · refine runIo_next_settled ((ethFrameRx_on (s := answer s .none) hon sec ns.toNat d).trans ?_) hup hs
    rw [secCheck_answer, hsec, secCheck_refused hsec]
    exact if_pos (by decide)
  · intro a other c ns
    have hpass (d : EthData) : ethFrameRx (answer s .none) p.val sec ns.toNat d = datagram (answer a .none) p.val ns.toNat d := by
      rw [ethFrameRx_on (s := answer s .none) hon, secCheck_answer, hsec]
      exact if_neg (by decide)
    obtain ⟨port0, port1, hform⟩ := secCheck_form s p.val sec
    have hregs (o : Nat) : regF (answer a .none) o = regF s o := by rw [show a = _ from hform]; rfl
    have hreplay : (answer a .none).det.replay = s.det.replay := by rw [show a = _ from hform]; rfl
    have hring : (answer a .none).peers.ring = s.peers.ring := by rw [show a = _ from hform]; rfl
    have hdrop : (answer a .none).peers.dropCyc = s.peers.dropCyc := by rw [show a = _ from hform]; rfl
    have done {d : EthData} {t : State} (hd : datagram (answer a .none) p.val ns.toNat d = t) (ht : t.logs = a.logs) :
        exec (.ethFrameRx p sec ns d) s = .next t :=
      runIo_next_settled ((hpass d).trans hd) hup (settled_of_logs (s := s) (ht.trans (hlogs sec)) hs)
    refine ⟨done rfl rfl, fun dst port b => ?_⟩
    intro mine
    refine ⟨fun hmine => ?_, fun hmine hport => ⟨fun hrep => ?_, fun hrep hroom => ?_, fun hrep hfull => ?_⟩, fun hmine hport hfusion => ?_,
      fun hmine hport hfusion => ?_⟩
    · exact done (datagram_foreign (by rw [hregs, hregs]; exact hmine)) rfl
    · refine done ((datagram_krytan (by rw [hregs, hregs]; exact hmine) (by rw [hregs]; exact hport)).trans (if_pos ?_)) rfl
      rw [hreplay, hrep]
    · refine done ((datagram_krytan (by rw [hregs, hregs]; exact hmine) (by rw [hregs]; exact hport)).trans ((if_neg ?_).trans ?_)) rfl
      · rw [hreplay, hrep]
        decide
      · rw [ringIn_room (by rw [hring]; exact hroom), hring]
        rfl
    · refine done ((datagram_krytan (by rw [hregs, hregs]; exact hmine) (by rw [hregs]; exact hport)).trans ((if_neg ?_).trans ?_)) rfl
      · rw [hreplay, hrep]
        decide
      · rw [ringIn_full (by rw [hring]; exact hfull), hdrop]
        rfl
    · exact runIo_next ((hpass _).trans
        (datagram_fusion (by rw [hregs, hregs]; exact hmine) (by rw [hregs]; exact hport) (by rw [hregs]; exact hfusion))) hup
    · exact done (datagram_port (by rw [hregs, hregs]; exact hmine) (by rw [hregs]; exact hport) (by rw [hregs]; exact hfusion)) rfl
  · exact runIo_next_settled (ethFrameRx_off (s := answer s .none) hoff sec ns.toNat d) hup hs
  · intro an sa put
    refine ⟨fun hon => ?_, fun hoff => ?_⟩
    · refine runIo_next_settled ((sakInstall_on (s := answer s .none) hon w.toNat).trans (ethPortSet_answer ..)) hup
        (settled_of_logs (s := s) (ethPortSet_logs ..) hs)
    · exact runIo_next_settled (sakInstall_off (s := answer s .none) hoff w.toNat) hup hs

end Sys2Proof.Machine

/-!
Peers (R178 to R190): admission, the compile of a set, the departure, and the proof of IntentsAreAdmittedAndCompiled.
-/
namespace Sys2Proof.Machine

/-! ### Admission (R178, R179) -/

/-- What an entry of the ring leaves, whatever its tests: all but the peers' own record, whose ring and compile stand, and what it raises. -/
structure AdmitFrame (s t : State) : Prop where
  mem : t.mem = s.mem
  safety : t.safety = s.safety
  ring : t.peers.ring = s.peers.ring
  done : t.peers.admitDone = s.peers.admitDone
  compiling : t.peers.compiling = s.peers.compiling

namespace AdmitFrame

theorem refl (s : State) : AdmitFrame s s := ⟨rfl, rfl, rfl, rfl, rfl⟩

theorem trans {s t u : State} (h : AdmitFrame s t) (h' : AdmitFrame t u) : AdmitFrame s u :=
  ⟨h'.mem.trans h.mem, h'.safety.trans h.safety, h'.ring.trans h.ring, h'.done.trans h.done, h'.compiling.trans h.compiling⟩

theorem foldl {α : Type} {f : State → α → State} (h : ∀ s x, AdmitFrame s (f s x)) (l : List α) (s : State) :
    AdmitFrame s (l.foldl f s) := by
  induction l generalizing s with
  | nil => exact refl s
  | cons x l ih => exact (h s x).trans (ih (f s x))

theorem ite {s t u : State} (c : Prop) [Decidable c] (h : AdmitFrame s t) (h' : AdmitFrame s u) : AdmitFrame s (if c then t else u) := by
  split
  · exact h
  · exact h'

end AdmitFrame

theorem raise_admitFrame (s : State) (c u a b : Nat) : AdmitFrame s (raise s c u a b) :=
  ⟨raise_mem .., raise_safety .., by rw [raise_peers], by rw [raise_peers], by rw [raise_peers]⟩

theorem slotSet_admitFrame (s : State) (k : Nat) (x : PeerSlot) : AdmitFrame s (slotSet s k x) := ⟨rfl, rfl, rfl, rfl, rfl⟩

theorem peerReject_admitFrame (s : State) (n : Nat) : AdmitFrame s (peerReject s n) := ⟨rfl, rfl, rfl, rfl, rfl⟩

theorem peerAdmit_admitFrame (s : State) (k n : Nat) (b : Bytes) : AdmitFrame s (peerAdmit s k n b) := ⟨rfl, rfl, rfl, rfl, rfl⟩

theorem admitNew_admitFrame (s : State) (b : Bytes) : AdmitFrame s (admitNew s b) := by
  unfold admitNew
  split
  · exact peerAdmit_admitFrame ..
  · split
    · split
      · exact (raise_admitFrame ..).trans (peerAdmit_admitFrame ..)
      · exact peerReject_admitFrame ..
    · exact peerReject_admitFrame ..

theorem admitOne_admitFrame (s : State) (e : RingEnt) : AdmitFrame s (admitOne s e) := by
  unfold admitOne
  extract_lets b f lim
  refine .ite _ (peerReject_admitFrame ..) (.ite _ (peerReject_admitFrame ..) (.ite _ (peerReject_admitFrame ..)
    (.ite _ (peerReject_admitFrame ..) (.ite _ (peerReject_admitFrame ..) ?_))))
  split
  · exact .ite _ (.refl s) (admitNew_admitFrame ..)
  · extract_lets x old d clash
    refine .ite _ (peerReject_admitFrame ..) (.ite _ (.ite _ ⟨rfl, rfl, rfl, rfl, rfl⟩ ?_) (.ite _ (peerReject_admitFrame ..)
      (.ite _ ?_ (peerAdmit_admitFrame ..))))
    · exact (peerReject_admitFrame s 7).trans ((slotSet_admitFrame ..).trans (raise_admitFrame ..))
    · exact AdmitFrame.trans (t := { s with peers := { s.peers with admitted := s.peers.admitted + 1 } })
        ⟨rfl, rfl, rfl, rfl, rfl⟩ ((slotSet_admitFrame ..).trans (raise_admitFrame ..))

/-- The entries that an admission takes (R178). -/
def admitTakes (s : State) (e : RingEnt) : Bool := admitLate s || decide (e.ns < intentCutNs s) || !s.phu.tc.gptpValid

/-- The state in which the entries taken meet their tests. -/
def admitOpen (s : State) : State :=
  let l := sortBy ringLe (s.peers.ring.filter (admitTakes s))
  let recs := l.map (ringRec s) ++ lateRec s (l.filter (fun e => s.phu.tc.gptpValid && decide (intentCutNs s ≤ e.ns)))
  { s with
    det := { s.det with recs := s.det.recs ++ recs }
    peers := { s.peers with ring := s.peers.ring.filter (fun e => !admitTakes s e), admitDone := true, lateNext := admitLate s,
                            compiling := some (s.phu.cycle + 1, s.peers.tb + declNs s), rejReasons := [] } }

/-- The reasons of a cycle's rejections go out. -/
def admitReport (s : State) : State := s.peers.rejReasons.foldl (fun s p => raise s 0x0601 0xFFFF p.1 p.2) s

theorem admitReport_admitFrame (s : State) : AdmitFrame s (admitReport s) := .foldl (fun _ _ => raise_admitFrame ..) _ _

theorem admitReport_peers (s : State) : (admitReport s).peers = s.peers := by
  unfold admitReport
  generalize s.peers.rejReasons = l
  induction l generalizing s with
  | nil => rfl
  | cons p l ih => exact (ih _).trans (raise_peers ..)

section Admit

variable {s : State}

theorem intentAdmit_idle (h : s.peers.admitDone = true ∨ phaseRuns s = false) : intentAdmit s = s :=
  if_pos (h.imp id (fun h => by rw [h]; rfl))

variable (hdone : s.peers.admitDone = false) (hrun : phaseRuns s = true)
include hdone hrun

theorem intentAdmit_eq :
    let t := reachPhase s (field (regF s Reg.ethCutoff) 0 16)
    intentAdmit s = admitReport ((sortBy ringLe (t.peers.ring.filter (admitTakes t))).foldl admitOne (admitOpen t)) :=
  if_neg (by simp [hdone, hrun])

end Admit

/-- Time passes by itself to a phase. -/
theorem reachPhase_form (s : State) (g : Nat) : ∃ now acc due at', reachPhase s g =
    { s with now := now, phu := { s.phu with acc := acc, boundaryDue := due, atBound := at' } } := by
  unfold reachPhase
  split
  · unfold advance
    split
    · exact ⟨_, _, _, _, rfl⟩
    · exact ⟨_, _, _, _, rfl⟩
  · exact ⟨s.now, s.phu.acc, s.phu.boundaryDue, s.phu.atBound, rfl⟩

section AdmitOne

variable {s : State} {e : RingEnt}

theorem admitOne_wrong (h : frameOk e.frame = false) : admitOne s e = peerReject s 1 := if_pos (by rw [h]; rfl)

theorem admitNew_empty {k : Nat} (h : emptySlot s = some k) (b : Bytes) : admitNew s b = peerAdmit s k 0 b := by
  unfold admitNew
  generalize emptySlot s = x at h ⊢
  subst h
  rfl


/-- A new peer's frame that no test refuses takes the lowest empty slot. -/
theorem admitOne_new {k : Nat} (hok : frameOk e.frame = true) (h0 : (intentOf e.frame).peer ≠ 0)
    (hall : (intentOf e.frame).peer ≠ 0xFFFFFFFF) (hown : (intentOf e.frame).peer ≠ regF s Reg.ethOwnId) (hgptp : s.phu.tc.gptpValid = true)
    (hti : (intentOf e.frame).ti ≤ e.ns + field (regF s Reg.ethPeerTol) 16 16 * 1000)
    (hat : (siteToWorld s (intentOf e.frame).anchor).all (fun x => decide (-16000 * 65536 ≤ x) && decide (x ≤ 16000 * 65536)) = true)
    (hpeer : peerSlot s (intentOf e.frame).peer = none) (hkind : (intentOf e.frame).kind = 0) (hslot : emptySlot s = some k) :
    admitOne s e = peerAdmit s k 0 e.frame := by
  have hin : ¬ (siteToWorld s (intentOf e.frame).anchor).any
      (fun x => decide (x < -(16000 * 65536)) || decide (16000 * 65536 < x)) = true := by
    simp only [List.any_eq_true, List.all_eq_true, Bool.and_eq_true, Bool.or_eq_true, decide_eq_true_eq] at hat ⊢
    rintro ⟨x, hx, h⟩
    obtain ⟨hlo, hhi⟩ := hat x hx
    omega
  have hid : ¬ ((intentOf e.frame).peer = 0 ∨ (intentOf e.frame).peer = 0xFFFFFFFF ∨ (intentOf e.frame).peer = regF s Reg.ethOwnId) := by
    rintro (h | h | h)
    · exact h0 h
    · exact hall h
    · exact hown h
  have hnew : (if (intentOf e.frame).kind = 1 then s else admitNew s e.frame) = peerAdmit s k 0 e.frame :=
    (if_neg (by rw [hkind]; decide)).trans (admitNew_empty hslot e.frame)
  refine (if_neg (by rw [hok]; decide)).trans ((if_neg hid).trans
    ((if_neg (by rw [hgptp]; decide)).trans ((if_neg (Nat.not_lt.mpr hti)).trans ((if_neg hin).trans ?_))))
  rw [hpeer]
  exact hnew

end AdmitOne

/-! ### The compile (R182 to R186) -/

theorem slotAge_kept (s : State) (k tb : Nat) :
    (slotAge s k tb).safety = s.safety ∧ (slotAge s k tb).units = s.units ∧ (slotAge s k tb).sched = s.sched := by
  unfold slotAge
  dsimp only
  split
  · exact ⟨rfl, rfl, rfl⟩
  · split
    · exact ⟨raise_safety .., raise_units .., raise_sched ..⟩
    · split
      · exact ⟨raise_safety .., raise_units .., raise_sched ..⟩
      · exact ⟨rfl, rfl, rfl⟩

theorem slotAge_fold_kept (l : List Nat) (s : State) (tb : Nat) :
    let t := l.foldl (fun s k => slotAge s k tb) s
    t.safety = s.safety ∧ t.units = s.units ∧ t.sched = s.sched := by
  induction l generalizing s with
  | nil => exact ⟨rfl, rfl, rfl⟩
  | cons k l ih =>
    obtain ⟨hsafety, hunits, hsched⟩ := ih (slotAge s k tb)
    obtain ⟨hsafety', hunits', hsched'⟩ := slotAge_kept s k tb
    exact ⟨hsafety.trans hsafety', hunits.trans hunits', hsched.trans hsched'⟩

/-- The set that has been formed stands in the peers' record. -/
theorem setPut_effect (s : State) (c : Nat) (raw : List (List WCap)) (box : Level) :
    let t := setPut s c raw box
    t.safety = s.safety ∧ t.units = s.units ∧ t.sched = s.sched ∧ t.peers.compiling = s.peers.compiling ∧
      t.peers.sets.any (fun x => x.1 == c) = true := by
  unfold setPut
  extract_lets l full was peers put t
  have hput : put.safety = s.safety ∧ put.units = s.units ∧ put.sched = s.sched ∧ put.peers.compiling = s.peers.compiling ∧
      put.peers.sets.any (fun x => x.1 == c) = true := ⟨rfl, rfl, rfl, rfl, by simp [put]⟩
  dsimp only [t]
  split
  · rwa [raise_safety, raise_units, raise_sched, raise_peers]
  · exact hput

theorem compileSet_effect (s : State) (c tb : Nat) :
    let t := compileSet s c tb
    t.safety = s.safety ∧ t.units = s.units ∧ t.sched = s.sched ∧ t.peers.compiling = none ∧
      t.peers.sets.any (fun x => x.1 == c) = true := by
  intro t
  obtain ⟨hsafety, hunits, hsched⟩ := slotAge_fold_kept (s.peers.slots.map (·.1)) s tb
  obtain ⟨hsafety', hunits', hsched', hcompiling, hsets⟩ := setPut_effect
    { (s.peers.slots.map (·.1)).foldl (fun s k => slotAge s k tb) s with peers :=
      { ((s.peers.slots.map (·.1)).foldl (fun s k => slotAge s k tb) s).peers with
        compiling := none
        compiled := some ⟨c, tb, siteRegs ((s.peers.slots.map (·.1)).foldl (fun s k => slotAge s k tb) s),
          rawSet ((s.peers.slots.map (·.1)).foldl (fun s k => slotAge s k tb) s) tb⟩ } } c
    (rawSet ((s.peers.slots.map (·.1)).foldl (fun s k => slotAge s k tb) s) tb)
    (if ((s.peers.slots.map (·.1)).foldl (fun s k => slotAge s k tb) s).phu.cycle < c then
      ((s.peers.slots.map (·.1)).foldl (fun s k => slotAge s k tb) s).world.coarse
      else ((s.peers.slots.map (·.1)).foldl (fun s k => slotAge s k tb) s).world.cur.coarse)
  exact ⟨hsafety'.trans hsafety, hunits'.trans hunits, hsched'.trans hsched, hcompiling, hsets⟩

/-- The unit's INTENT_COMPILE task ends with its compile. -/
def compileEnds (s : State) (u : Nat) : State :=
  match running s u with
  | some t => if t.desc.opId = 0x0504 then finishTask s u 0 0 [] else s
  | none => s

theorem qPush_peers (s : State) (q u : Nat) (b : Bytes) (after : List Decr) (ends : Bool) : (qPush s q u b after ends).2.2.peers = s.peers := by
  have hopen : (qOpen s q).2.peers = s.peers := by
    unfold qOpen
    split
    · rfl
    · dsimp only
      split <;> rfl
  unfold qPush
  split
  · exact raise_peers ..
  · dsimp only
    split <;> exact hopen

theorem failExec_peers (s : State) (u : Nat) : (failExec s u).peers = s.peers := by
  unfold failExec
  split
  · rfl
  · next t _ => exact ((slotNext_workFrame (dropStalls s u) u).trans (failRun_workFrame _ t u)).peers

theorem finishTask_peers (s : State) (u addr n : Nat) (b : Bytes) : (finishTask s u addr n b).peers = s.peers := by
  have ended (t : State) (l : List Decr) : (slotNext (clkDecs (countDone t u) [] l) u).peers = t.peers :=
    ((countDone_workFrame t u).trans ((clkDecs_workFrame ..).trans (slotNext_workFrame ..))).peers
  unfold finishTask
  split
  · rfl
  · dsimp only
    split
    · exact ended ..
    · split
      · exact (ended ..).trans (qPush_peers ..)
      · exact qPush_peers ..
      · exact (failExec_peers ..).trans (qPush_peers ..)

theorem compileEnds_kept (s : State) (u : Nat) : (compileEnds s u).safety = s.safety ∧ (compileEnds s u).peers = s.peers := by
  unfold compileEnds
  split
  · split
    · exact ⟨(finishTask_safety_phu ..).1, finishTask_peers ..⟩
    · exact ⟨rfl, rfl⟩
  · exact ⟨rfl, rfl⟩

theorem compileEnds_fold_kept (l : List Nat) (s : State) :
    (l.foldl compileEnds s).safety = s.safety ∧ (l.foldl compileEnds s).peers = s.peers := by
  induction l generalizing s with
  | nil => exact ⟨rfl, rfl⟩
  | cons u l ih => exact ⟨(ih _).1.trans (compileEnds_kept s u).1, (ih _).2.trans (compileEnds_kept s u).2⟩

/-- Without an INTENT_COMPILE task under way none ends. -/
theorem compileEnds_fold_none {s : State} (h : ∀ u t, running s u = some t → t.desc.opId ≠ 0x0504) (l : List Nat) :
    l.foldl compileEnds s = s := by
  have one (u : Nat) : compileEnds s u = s := by
    unfold compileEnds
    split
    · next t ht => exact if_neg (h u t ht)
    · rfl
  induction l with
  | nil => rfl
  | cons u l ih => rw [List.foldl_cons, one, ih]

theorem intentCompileDone_eq {s : State} {c tb : Nat} (h : s.peers.compiling = some (c, tb)) :
    intentCompileDone s = (classUnits 6 0 ++ classUnits 6 1).foldl compileEnds (compileSet s c tb) := by
  unfold intentCompileDone
  rw [h]
  rfl

theorem intentCompileDone_none {s : State} (h : s.peers.compiling = none) : intentCompileDone s = s := by
  unfold intentCompileDone
  rw [h]

theorem running_congr {s t : State} (hunits : t.units = s.units) (hsched : t.sched = s.sched) (u : Nat) : running t u = running s u := by
  have hrec : unitOf t u = unitOf s u := by
    rw [unitOf, hunits]
    rfl
  simp only [running, hrec, endStalled, hsched]
  rfl

/-! ### The departure (R177, R190) -/

/-- What is sent on a port changes only what has been sent and its packet numbers. -/
theorem sendOn_form (s : State) (p pcp : Nat) (b : Bytes) : ∃ port0 port1 sent,
    sendOn s p pcp b = { s with peers := { s.peers with port0 := port0, port1 := port1, sent := sent } } ∧
      (bit (macsecReg s p) 0 = false → sent = s.peers.sent ++ [⟨p, pcp, none, b⟩]) := by
  unfold sendOn
  extract_lets put
  split
  · exact ⟨_, _, _, rfl, fun _ => rfl⟩
  · next hsec =>
    have off {x : List TxFrame} : bit (macsecReg s p) 0 = false → x = s.peers.sent ++ [⟨p, pcp, none, b⟩] := fun h => absurd (by rw [h]; rfl) hsec
    split
    · exact ⟨_, _, _, rfl, off⟩
    · dsimp only [put, ethPortSet]
      split <;> exact ⟨_, _, _, rfl, off⟩

/-- The priority of the device's own frames (R188). -/
def pubPcp (s : State) : Nat := field (regF s Reg.ethPub) 8 3

theorem sendOn_fold (l : List Nat) (s : State) (b : Bytes) : ∃ port0 port1 sent,
    l.foldl (fun s p => sendOn s p (pubPcp s) b) s = { s with peers := { s.peers with port0 := port0, port1 := port1, sent := sent } } ∧
      (l.all (fun p => !bit (macsecReg s p) 0) = true → sent = s.peers.sent ++ l.map (fun p => ⟨p, pubPcp s, none, b⟩)) := by
  induction l generalizing s with
  | nil => exact ⟨_, _, _, rfl, fun _ => by simp⟩
  | cons p l ih =>
    obtain ⟨port0, port1, sent, hone, hplain⟩ := sendOn_form s p (pubPcp s) b
    obtain ⟨port0', port1', sent', hrest, hplain'⟩ := ih (sendOn s p (pubPcp s) b)
    have hpcp : pubPcp (sendOn s p (pubPcp s) b) = pubPcp s := by
      rw [hone]
      rfl
    refine ⟨port0', port1', sent', by rw [List.foldl_cons, hrest, hone], fun h => ?_⟩
    simp only [List.all_cons, Bool.and_eq_true] at h
    obtain ⟨hp, hl⟩ := h
    rw [hplain' (by rw [hone]; exact hl), hpcp, hone]
    simp [hplain (by simpa using hp)]

/-- The ports that TX_PORTS selects. -/
def txPorts (s : State) : List Nat := [0, 1].filter (fun p => bit (regF s Reg.ethCtrl) (6 + p) && ethOn s p)

/-- The ports have sent a frame. -/
def sentOn (s : State) (b : Bytes) : State :=
  (txPorts s).foldl (fun t p => sendOn t p (pubPcp t) b) { s with peers := { s.peers with sent := [] } }

/-- A frame is sent, and its number is counted (R188, R190). -/
theorem sendFrame_eq (s : State) (b : Bytes) :
    sendFrame s b =
      let x := sentOn s b
      let y := if x.peers.pubFrames + 1 = 65536 then recordWrite x else x
      { y with peers := { x.peers with
          pubLast := x.peers.pubSeq, pubSeq := (x.peers.pubSeq + 1) % 2 ^ 32, pubFrames := (x.peers.pubFrames + 1) % 65536
          pubStore := if x.peers.pubFrames + 1 = 65536 then x.peers.pubSeq else x.peers.pubStore } } := rfl

theorem sendFrame_effect (s : State) (b : Bytes) :
    let t := sendFrame s b
    t = { s with peers := t.peers, svc := t.svc } ∧ t.peers.pubSeq = (s.peers.pubSeq + 1) % 2 ^ 32 ∧ t.peers.pubLast = s.peers.pubSeq ∧
      ((txPorts s).all (fun p => !bit (macsecReg s p) 0) = true →
        t.peers.sent = (txPorts s).map (fun p => ⟨p, field (regF s Reg.ethPub) 8 3, none, b⟩)) := by
  obtain ⟨port0, port1, sent, hfold, hplain⟩ := sendOn_fold (txPorts s) { s with peers := { s.peers with sent := [] } } b
  have hsent : sentOn s b = { s with peers := { s.peers with port0 := port0, port1 := port1, sent := sent } } := hfold
  rw [sendFrame_eq, hsent]
  refine ⟨?_, rfl, rfl, hplain⟩
  dsimp only
  split <;> rfl

theorem putAt_length (l : Bytes) (off : Nat) (v : Bytes) (h : off ≤ l.length) : (putAt l off v).length = l.length := by
  simp only [putAt, List.length_take, List.length_append, List.length_drop]
  omega

theorem frameHead_length (s : State) (kind ti v sl vmax n : Nat) (x y z : Int) (caps len : Nat) :
    (frameHead s kind ti v sl vmax n [x, y, z] caps len).length = 64 := by
  simp [frameHead, leBytes_length, zeros_length]

theorem departure_none {s : State} (h : regF s Reg.ethOwnId = 0) : departure s = s := if_pos h

/-- A departure is a frame of 64 bytes. -/
theorem departure_frame {s : State} (h : regF s Reg.ethOwnId ≠ 0) : ∃ b : Bytes, b.length = 64 ∧
    departure s = sendFrame { s with freeCtr := s.freeCtr + 26 } b := by
  refine ⟨_, ?_, if_neg h⟩
  rw [sealFrame, putAt_length _ _ _ (by rw [frameHead_length]; decide), frameHead_length]

theorem departure_effect {s : State} (h : regF s Reg.ethOwnId ≠ 0) :
    let t := departure s
    t.peers.pubSeq = (s.peers.pubSeq + 1) % 2 ^ 32 ∧ t.peers.pubLast = s.peers.pubSeq ∧
      ((txPorts s).all (fun p => !bit (macsecReg s p) 0) = true → t.peers.sent.map (fun x => (x.port, x.pcp, x.sec, x.payload.length)) =
        (txPorts s).map (fun p => (p, field (regF s Reg.ethPub) 8 3, none, 64))) ∧
      t = { s with peers := t.peers, svc := t.svc, freeCtr := t.freeCtr } := by
  intro t
  obtain ⟨b, hlen, heq⟩ := departure_frame h
  obtain ⟨hform, hseq, hlast, hsent⟩ := sendFrame_effect { s with freeCtr := s.freeCtr + 26 } b
  rw [← heq] at hform hseq hlast hsent
  refine ⟨hseq, hlast, fun hplain => ?_, ?_⟩
  · rw [hsent hplain, List.map_map]
    exact List.map_congr_left (fun p _ => by simp only [Function.comp, hlen]; rfl)
  · have hfree : t.freeCtr = s.freeCtr + 26 := congrArg State.freeCtr hform
    rw [hfree]
    exact hform

/-- Settles O30: the ring's entries by their tests, the compile's end, and the departure. -/
theorem intentsAreAdmittedAndCompiled : Obligations.IntentsAreAdmittedAndCompiled := by
  unfold Obligations.IntentsAreAdmittedAndCompiled
  intro s
  refine ⟨fun hup hdone hrun => ?_, fun hup hs h => ?_, fun c tb hup hc => ⟨?_, fun hnone => ?_⟩, fun hup hs hc => ?_, fun hup hs hid => ?_,
    fun hup hs hid => ?_⟩
  · intro take
    let t := reachPhase (answer s .none) (field (regF s Reg.ethCutoff) 0 16)
    obtain ⟨now, acc, due, at', hform⟩ := reachPhase_form (answer s .none) (field (regF s Reg.ethCutoff) 0 16)
    have ht : t = _ := hform
    have htake : admitTakes t = take := by rw [ht]; rfl
    have heq : exec .intentAdmit s = .next (flush (admitReport ((sortBy ringLe (s.peers.ring.filter take)).foldl admitOne (admitOpen t)))) := by
      refine runArith_next ((intentAdmit_eq (s := answer s .none) hdone hrun).trans ?_) hup
      change admitReport ((sortBy ringLe (t.peers.ring.filter (admitTakes t))).foldl admitOne (admitOpen t)) = _
      rw [htake, show t.peers.ring = s.peers.ring by rw [ht]; rfl]
    have hopen : (admitOpen t).peers.admitDone = true ∧ (admitOpen t).peers.ring = s.peers.ring.filter (fun e => !take e) ∧
        (admitOpen t).peers.compiling = some (s.phu.cycle + 1, s.peers.tb + declNs s) ∧ (admitOpen t).mem = s.mem ∧
        (admitOpen t).safety = s.safety := by
      refine ⟨rfl, ?_, ?_, ?_, ?_⟩
      · change t.peers.ring.filter (fun e => !admitTakes t e) = _
        rw [htake, show t.peers.ring = s.peers.ring by rw [ht]; rfl]
      · rw [ht]; rfl
      · rw [ht]; rfl
      · rw [ht]; rfl
    refine ⟨⟨_, heq, ?_⟩, fun e he htakes => ?_⟩
    · obtain ⟨hdone', hring, hcompiling, hmem, hsafety⟩ := hopen
      have frame : AdmitFrame (admitOpen t) (admitReport ((sortBy ringLe (s.peers.ring.filter take)).foldl admitOne (admitOpen t))) :=
        (AdmitFrame.foldl admitOne_admitFrame _ _).trans (admitReport_admitFrame _)
      exact ⟨frame.done.trans hdone', frame.ring.trans hring, frame.compiling.trans hcompiling, frame.mem.trans hmem,
        frame.safety.trans hsafety⟩
    · intro f
      have hlist : sortBy ringLe (s.peers.ring.filter take) = [e] := by
        rw [he, List.filter_cons_of_pos (by simpa using htakes), List.filter_nil]
        rfl
      rw [hlist] at heq
      refine ⟨fun hok => ⟨_, heq, ?_, ?_⟩, fun k hok h0 hall hown hgptp hti hat hpeer hkind hslot => ⟨_, heq, ?_⟩⟩
      · rw [List.foldl_cons, List.foldl_nil, admitOne_wrong hok]
        exact raised_here (peerReject (admitOpen t) 1) 0x0601 0xFFFF 1 1
      · rw [List.foldl_cons, List.foldl_nil, admitOne_wrong hok, admitReport_peers]
        rw [ht]
        rfl
      · have hnew : admitOne (admitOpen t) e = peerAdmit (admitOpen t) k 0 e.frame := by
          rw [ht]
          exact admitOne_new (s := admitOpen _) hok h0 hall hown hgptp hti hat hpeer hkind hslot
        rw [List.foldl_cons, List.foldl_nil, hnew, admitReport_peers, ht]
        exact ⟨rfl, rfl, rfl⟩
  · exact runArith_next_settled (intentAdmit_idle (s := answer s .none) h) hup hs
  · obtain ⟨hsafety, -, -, hcompiling, hsets⟩ := compileSet_effect (answer s .none) c tb
    obtain ⟨hsafety', hpeers⟩ := compileEnds_fold_kept (classUnits 6 0 ++ classUnits 6 1) (compileSet (answer s .none) c tb)
    refine ⟨_, runArith_next (intentCompileDone_eq (s := answer s .none) hc) hup, ?_, ?_, hsafety'.trans hsafety⟩
    · rw [hpeers, hcompiling]
    · rw [hpeers, hsets]
  · obtain ⟨-, hunits, hsched, -, -⟩ := compileSet_effect (answer s .none) c tb
    refine runArith_next ((intentCompileDone_eq (s := answer s .none) hc).trans (compileEnds_fold_none (fun u tk hr => ?_) _)) hup
    exact hnone u tk ((running_congr hunits hsched u).symm.trans hr)
  · exact runArith_next_settled (intentCompileDone_none (s := answer s .none) hc) hup hs
  · intro ports
    obtain ⟨hseq, hlast, hsent, hform⟩ := departure_effect (s := answer s .none) hid
    refine ⟨_, runIo_next_settled rfl hup (settled_of_logs (s := s) ?_ hs), hseq, hlast, hsent, hform⟩
    rw [hform]
    rfl
  · exact runIo_next_settled (departure_none (s := answer s .none) hid) hup hs

end Sys2Proof.Machine

/-!
Pins and the serial ports (R173, R449 to R453, R455, R496, R500): the IMU, I3C, Ethernet links, the TAP, the monitors and the tamper inputs, and
the proofs of SerialPortsAndTap and MonitorsAndTamperInputs.
-/
namespace Sys2Proof.Machine

/-! ### The IMU port (R452) -/

/-- Whether an edge of the IMU, `dt` ticks after the last command, comes before the least time between two samples. -/
def imuEarly (s : State) (dt : Nat) : Bool := s.pins.imuLast.any (fun l => decide (s.now + dt < l + objN s 0x2E02 5 * 9000))

theorem imuOn_advance (s : State) (dt : Nat) : imuOn (advance s dt) = imuOn s := by simp [imuOn, regGet]

theorem advance_phu_cycle (s : State) (dt : Nat) : (advance s dt).phu.cycle = s.phu.cycle := by
  unfold advance
  split <;> rfl

theorem objN_advance (s : State) (dt i j : Nat) : objN (advance s dt) i j = objN s i j := by rw [objN, objN, objF, objF, advance_od]

/-- An edge in the terms of the state before its time passes. -/
theorem imuDrdy_eq (s : State) (dt : Nat) : imuDrdy s dt =
    if imuOn s = true then
      if s.pins.imuBusy = true ∨ imuEarly s dt = true then
        { advance s dt with pins := { s.pins with imuIgn := s.pins.imuIgn + 1, imuMiss := satInc 32 s.pins.imuMiss } }
      else { advance s dt with pins := { s.pins with
        imuBusy := true, imuLast := some (advance s dt).now, imuCycle := s.phu.cycle, imuPhase := phase (advance s dt) } }
    else advance s dt := by
  have hearly : (s.pins.imuLast.any fun l => decide ((advance s dt).now < l + objN (advance s dt) 0x2E02 5 * 9000)) = imuEarly s dt := by
    rw [objN_advance, advance_now, imuEarly]
  unfold imuDrdy
  simp only [imuOn_advance, advance_pins, hearly, advance_phu_cycle]
  cases imuOn s <;> rfl

theorem imuDrdy_taken {s : State} {dt : Nat} (hon : imuOn s = true) (hbusy : s.pins.imuBusy = false) (hearly : imuEarly s dt = false) :
    imuDrdy s dt = { advance s dt with pins := { s.pins with
      imuBusy := true, imuLast := some (advance s dt).now, imuCycle := s.phu.cycle, imuPhase := phase (advance s dt) } } := by
  rw [imuDrdy_eq, if_pos hon, if_neg (by simp [hbusy, hearly])]

theorem imuDrdy_ignored {s : State} {dt : Nat} (hon : imuOn s = true) (hign : s.pins.imuBusy = true ∨ imuEarly s dt = true) :
    imuDrdy s dt = { advance s dt with pins := { s.pins with imuIgn := s.pins.imuIgn + 1, imuMiss := satInc 32 s.pins.imuMiss } } := by
  rw [imuDrdy_eq, if_pos hon, if_pos hign]

theorem imuDrdy_off {s : State} (hoff : imuOn s = false) (dt : Nat) : imuDrdy s dt = advance s dt := by
  rw [imuDrdy_eq, if_neg (by simp [hoff])]

theorem imuDone_kept {s : State} (hbusy : s.pins.imuBusy = true) (hlive : s.det.replay = false) (b : Bytes) :
    imuDone s b = { s with
      pins := { s.pins with imuBusy := false, imuSample := fit (objN s 0x2E02 4) b, imuCur := satInc 16 s.pins.imuCur }
      det := { s.det with recs := s.det.recs ++
        [{ typ := 4, source := 0, cycle := s.pins.imuCycle, phase := s.pins.imuPhase, content := fit (objN s 0x2E02 4) b }] } } := by
  simp only [imuDone, hbusy, hlive]
  rfl

theorem imuDone_replay {s : State} (hbusy : s.pins.imuBusy = true) (hreplay : s.det.replay = true) (b : Bytes) :
    imuDone s b = { s with pins := { s.pins with imuBusy := false } } := by
  simp only [imuDone, hbusy, hreplay]
  rfl

theorem imuDone_idle {s : State} (hidle : s.pins.imuBusy = false) (b : Bytes) : imuDone s b = s := by
  simp only [imuDone, hidle]
  rfl

/-! ### I3C (R451) and the links of the Ethernet ports (R173, R451) -/

theorem i3cIbi_served {s : State} (hon : bit (regGet s Reg.cpmGate) 11 = true) (a : Nat) :
    i3cIbi s a none = { s with pins := { s.pins with ibi := satInc 32 s.pins.ibi, lastIbi := a } } := by
  simp only [i3cIbi, hon]
  rfl

theorem i3cIbi_off {s : State} (hoff : bit (regGet s Reg.cpmGate) 11 = false) (a : Nat) (err : Option Nat) : i3cIbi s a err = s := by
  simp only [i3cIbi, hoff]
  rfl

theorem i3cIbi_failed {s : State} (hon : bit (regGet s Reg.cpmGate) 11 = true) (a e : Nat) :
    Raised (i3cIbi s a (some e)) 0x1105 0xFFFF a e ∧ (i3cIbi s a (some e)).mem = s.mem ∧ (i3cIbi s a (some e)).safety = s.safety := by
  simp only [i3cIbi, hon]
  exact ⟨raised_here .., raise_mem .., raise_safety ..⟩

theorem setPcs_eq (s : State) (p : Nat) (b : Bool) : setPcs s p b =
    { s with pins := { s.pins with pcs0 := if p = 0 then b else s.pins.pcs0, pcs1 := if p = 0 then s.pins.pcs1 else b } } := by
  unfold setPcs
  split <;> rfl

theorem serdesLock_raised {s : State} {p : Nat} (hon : gateOn s p = true) (why : Nat) :
    let t := serdesLock s p why
    (if p = 0 then t.pins.pcs0 else t.pins.pcs1) = false ∧ Raised t 0x1107 0xFFFF p why ∧ t.mem = s.mem := by
  intro t
  have ht : t = raise (setPcs s p false) 0x1107 0xFFFF p why := by simp only [t, serdesLock, hon, if_true]
  rw [ht, raise_pins, raise_mem, setPcs_eq]
  refine ⟨?_, raised_here .., rfl⟩
  split <;> rfl

theorem serdesLock_off {s : State} {p : Nat} (hoff : gateOn s p = false) (why : Nat) : serdesLock s p why = s := by
  simp only [serdesLock, hoff]
  rfl

theorem pcsLock_on {s : State} {p : Nat} (hon : gateOn s p = true) :
    pcsLock s p = { s with pins := { s.pins with pcs0 := p = 0 || s.pins.pcs0, pcs1 := p ≠ 0 || s.pins.pcs1 } } := by
  simp only [pcsLock, hon, if_true, setPcs_eq]
  by_cases hp : p = 0 <;> simp [hp]

theorem pcsLock_off {s : State} {p : Nat} (hoff : gateOn s p = false) : pcsLock s p = s := by
  simp only [pcsLock, hoff]
  rfl

theorem gptpSync_eq (s : State) (p : Nat) (on : Bool) :
    let b := on && gateOn s p && (if p = 0 then s.pins.pcs0 else s.pins.pcs1)
    gptpSync s p on = { s with
      pins := { s.pins with gptp0 := if p = 0 then b else s.pins.gptp0, gptp1 := if p = 0 then s.pins.gptp1 else b } } := by
  intro b
  unfold gptpSync
  by_cases hp : p = 0 <;> simp [hp, b]

/-! ### The TAP (R453) -/

theorem runTap_powered {s t : State} {f : State → State} (hf : f (answer s .none) = t) (hsafe : s.safety.safeState = false) :
    (.next (runTap s f) : Host.Outcome State Fault Refusal) = .next t := by
  simp only [runTap, hsafe, hf]
  rfl

theorem jtagExtest_manufacture {s : State} (hlife : s.svc.life = 0) (b : Bytes) : jtagExtest s b = scanOut s .extest b := if_pos hlife

theorem jtagExtest_locked {s : State} (hlife : s.svc.life ≠ 0) (b : Bytes) : jtagExtest s b = s := if_neg hlife

/-- Settles O52, by the port: the IMU, I3C and the links of Ethernet, each on and off, and the TAP. -/
theorem serialPortsAndTap : Obligations.SerialPortsAndTap := by
  unfold Obligations.SerialPortsAndTap
  refine fun s => ⟨fun hup hs => ⟨fun dt => ?_, fun b => ?_, fun a => ?_, fun p => ?_⟩, fun hup => ⟨fun a late hon => ?_, fun p refused hon => ?_⟩,
    fun hsafe => ⟨runTap_powered rfl hsafe, runTap_powered rfl hsafe, runTap_powered rfl hsafe, fun b => ⟨_, runTap_powered rfl hsafe⟩,
      fun b hlife => ⟨_, runTap_powered (jtagExtest_manufacture (s := answer s .none) hlife b) hsafe⟩,
      fun b hlife => runTap_powered (jtagExtest_locked (s := answer s .none) hlife b) hsafe⟩⟩
  · intro a early
    have hlogs : (advance (answer s .none) dt.toNat).logs = s.logs := advance_logs ..
    have ha : advance (answer s .none) dt.toNat = answer a .none := advance_answer ..
    have hphase : phase (answer a .none) = phase a := rfl
    refine ⟨fun hon hbusy hearly => runIo_next_settled ?_ hup (settled_of_logs (s := s) (advance_logs ..) hs),
      fun hon hign => runIo_next_settled ?_ hup (settled_of_logs (s := s) (advance_logs ..) hs),
      fun hoff => runIo_next_settled ?_ hup (settled_of_logs (s := s) (advance_logs ..) hs)⟩
    · exact (imuDrdy_taken (s := answer s .none) hon hbusy hearly).trans (by rw [ha]; rfl)
    · exact (imuDrdy_ignored (s := answer s .none) hon hign).trans (by rw [ha]; rfl)
    · exact (imuDrdy_off (s := answer s .none) hoff dt.toNat).trans (by rw [ha]; rfl)
  · exact ⟨fun hbusy hlive => runIo_next_settled (imuDone_kept (s := answer s .none) hbusy hlive b) hup hs,
      fun hbusy hreplay => runIo_next_settled (imuDone_replay (s := answer s .none) hbusy hreplay b) hup hs,
      fun hidle => runIo_next_settled (imuDone_idle (s := answer s .none) hidle b) hup hs⟩
  · exact ⟨fun hon => runIo_next_settled (i3cIbi_served (s := answer s .none) hon _) hup hs,
      fun hoff e => runIo_next_settled (i3cIbi_off (s := answer s .none) hoff _ _) hup hs⟩
  · intro pcs
    exact ⟨fun hon => runIo_next_settled (pcsLock_on (s := answer s .none) hon) hup hs,
      fun hoff => ⟨runIo_next_settled (pcsLock_off (s := answer s .none) hoff) hup hs,
        fun r => runIo_next_settled (serdesLock_off (s := answer s .none) hoff _) hup hs⟩,
      fun on => runIo_next_settled (gptpSync_eq (answer s .none) p.val on) hup hs⟩
  · exact ⟨_, runIo_next rfl hup, i3cIbi_failed (s := answer s .none) hon _ _⟩
  · exact ⟨_, runIo_next rfl hup, serdesLock_raised (s := answer s .none) hon _⟩

/-! ### The black box -/

/-- A new entry is the last of the box, with its kind, its cycle and the next number. -/
theorem boxAdd_last (s : State) (k : Nat) (b1 b2 : Bytes) :
    ∃ e, (boxAdd s k b1 b2).logs.box.getLast? = some e ∧ e.btype = k ∧ e.cycle = s.phu.cycle ∧ e.bseq = s.logs.bseq := by
  refine ⟨boxEntry (takeFreeBytes s 80).2 k b1 b2 (takeFreeBytes s 80).1, ?_, rfl, rfl, rfl⟩
  unfold boxAdd
  dsimp only
  split
  · exact List.getLast?_concat
  · rw [raise_logs]
    exact List.getLast?_concat

/-- A power failure: its event, its final entry, and what it leaves (R445, R496). -/
theorem powerFail_effect (s : State) :
    let t := powerFail s
    Raised t 0x1103 0xFFFF s.phu.cycle 0 ∧ t.logs.lastCause = 6 ∧
      (∃ e, t.logs.box.getLast? = some e ∧ e.btype = 4 ∧ e.cycle = s.phu.cycle) ∧ t.mem = s.mem ∧ t.safety = s.safety := by
  intro t
  obtain ⟨e, hlast, hkind, hcycle, -⟩ := boxAdd_last s 4 [] (finalBody s 6)
  have hbox : t.logs.box = (boxAdd s 4 [] (finalBody s 6)).logs.box := by
    change (raise (boxAdd s 4 [] (finalBody s 6)) 0x1103 0xFFFF s.phu.cycle 0).logs.box = _
    rw [raise_logs]
  exact ⟨raised_here .., rfl, ⟨e, by rw [hbox, hlast], hkind, hcycle⟩, by simp [t, powerFail], by simp [t, powerFail]⟩

/-! ### Monitors (R455, R456) -/

/-- What the reading of a sensor or a rail leaves. -/
structure MonitorFrame (s t : State) : Prop where
  temps : t.pins.temps = s.pins.temps
  rails : t.pins.rails = s.pins.rails
  mem : t.mem = s.mem
  units : t.units = s.units
  phu : t.phu = s.phu
  safety : t.safety = s.safety
  svc : t.svc = s.svc

namespace MonitorFrame

theorem refl (s : State) : MonitorFrame s s := ⟨rfl, rfl, rfl, rfl, rfl, rfl, rfl⟩

theorem trans {s t u : State} (h : MonitorFrame s t) (h' : MonitorFrame t u) : MonitorFrame s u :=
  ⟨h'.temps.trans h.temps, h'.rails.trans h.rails, h'.mem.trans h.mem, h'.units.trans h.units, h'.phu.trans h.phu,
    h'.safety.trans h.safety, h'.svc.trans h.svc⟩

theorem foldl {α : Type} {f : State → α → State} (h : ∀ s x, MonitorFrame s (f s x)) (l : List α) (s : State) :
    MonitorFrame s (l.foldl f s) := by
  induction l generalizing s with
  | nil => exact refl s
  | cons x l ih => exact (h s x).trans (ih (f s x))

end MonitorFrame

theorem raise_monitorFrame (s : State) (c u a b : Nat) : MonitorFrame s (raise s c u a b) := by constructor <;> simp

theorem MonitorFrame.raised {s t : State} (h : MonitorFrame s t) {c u a b : Nat} : MonitorFrame s (raise t c u a b) :=
  h.trans (raise_monitorFrame ..)

/-- Runs of the limits of the dies; the readings of rails and the steps of the voltage leave them. -/
theorem pointSet_monitorFrame (s : State) (p why : Nat) : MonitorFrame s (pointSet s p why) ∧ (pointSet s p why).pins = s.pins := by
  unfold pointSet
  split
  · exact ⟨.refl s, rfl⟩
  · exact ⟨.raised (by exact ⟨rfl, rfl, rfl, rfl, rfl, rfl, rfl⟩), raise_pins ..⟩

theorem tempDown_monitorFrame (s : State) : MonitorFrame s (tempDown s) ∧ (tempDown s).pins = s.pins := by
  obtain ⟨hframe, hpins⟩ := pointSet_monitorFrame
    { s with cpm := { s.cpm with
      tempHold := true, capCeil := min 2 (s.cpm.point + 1), upTo := none, coolMs := 0
      voltAt := if min 2 (s.cpm.point + 1) = s.cpm.point then s.cpm.voltAt else some s.now } } (min 2 (s.cpm.point + 1)) 2
  exact ⟨.trans (by exact ⟨rfl, rfl, rfl, rfl, rfl, rfl, rfl⟩) hframe, hpins⟩

theorem excludeSensors_monitorFrame (s : State) (d : Nat) : MonitorFrame s (excludeSensors s d) :=
  .foldl (fun s i => .raised (by exact ⟨rfl, rfl, rfl, rfl, rfl, rfl, rfl⟩)) _ s

theorem excludeSensors_limitRun (s : State) (d : Nat) : (excludeSensors s d).pins.limitRun = s.pins.limitRun := by
  unfold excludeSensors
  dsimp only
  generalize (dieLeft s d).filter _ = l
  induction l generalizing s with
  | nil => rfl
  | cons i l ih => rw [List.foldl_cons, ih, raise_pins]

/-- Whether a die's temperature counts against its limits (R455). -/
def beyondLimit (s : State) (x : Int) : Bool := decide (tJunction s + 50 < x) || decide (x < -450)

/-- One die's reading: what it leaves, and the run that it puts. -/
theorem dieWarn_effect (s : State) (d : Nat) (x : Int) :
    MonitorFrame s (dieWarn s d x) ∧ (dieWarn s d x).pins.limitRun = runNext s.pins.limitRun d (beyondLimit s x) := by
  unfold dieWarn
  dsimp only
  split
  · split
    · split
      · exact ⟨⟨rfl, rfl, rfl, rfl, rfl, rfl, rfl⟩, rfl⟩
      · exact ⟨⟨rfl, rfl, rfl, rfl, rfl, rfl, rfl⟩, rfl⟩
    · exact ⟨⟨rfl, rfl, rfl, rfl, rfl, rfl, rfl⟩, rfl⟩
  · split
    · exact ⟨.trans (.raised (by exact ⟨rfl, rfl, rfl, rfl, rfl, rfl, rfl⟩)) (tempDown_monitorFrame _).1,
        by rw [(tempDown_monitorFrame _).2, raise_pins]; rfl⟩
    · exact ⟨⟨rfl, rfl, rfl, rfl, rfl, rfl, rfl⟩, rfl⟩

theorem dieRead_monitorFrame (s : State) (d : Nat) : MonitorFrame s (dieRead s d) := by
  refine (excludeSensors_monitorFrame s d).trans ?_
  unfold dieRead
  dsimp only
  split
  · exact .refl _
  · exact .trans (by exact ⟨rfl, rfl, rfl, rfl, rfl, rfl, rfl⟩) (dieWarn_effect ..).1

theorem runNext_get_other {m : Smap Nat} {k k' : Nat} (hm : Smap.wf (fun _ => (0 : Nat)) m = true) (hk : k' ≠ k) (beyond : Bool) :
    cnt (runNext m k beyond) k' = cnt m k' := smap_get_set_other _ m 0 k k' _ hm hk

/-- The reading of a die leaves the runs of the others and their canonical form. -/
theorem dieRead_limitRun_other {s : State} {d : Nat} (hs : LimitsOk s) (hd : d ≠ 0) :
    cnt (dieRead s d).pins.limitRun 0 = cnt s.pins.limitRun 0 ∧ LimitsOk (dieRead s d) := by
  unfold dieRead
  dsimp only
  split
  · rw [LimitsOk, excludeSensors_limitRun]
    exact ⟨rfl, hs⟩
  · rw [LimitsOk, (dieWarn_effect ..).2]
    dsimp only
    rw [excludeSensors_limitRun]
    exact ⟨runNext_get_other hs hd.symm _, smap_set_wf _ _ _ _ hs⟩

theorem dieReads_limitRun_other {l : List Nat} {s : State} (hs : LimitsOk s) (hl : ∀ d ∈ l, d ≠ 0) :
    cnt (l.foldl dieRead s).pins.limitRun 0 = cnt s.pins.limitRun 0 := by
  induction l generalizing s with
  | nil => rfl
  | cons d l ih =>
    obtain ⟨hrun, hok⟩ := dieRead_limitRun_other hs (hl d (by simp))
    rw [List.foldl_cons, ih hok fun d hd => hl d (by simp [hd]), hrun]

theorem railRead_frame (s : State) (r : Nat) :
    MonitorFrame s (railRead s r) ∧ (railRead s r).pins.limitRun = s.pins.limitRun := by
  unfold railRead
  dsimp only
  split
  · split
    · exact ⟨⟨rfl, rfl, rfl, rfl, rfl, rfl, rfl⟩, rfl⟩
    · exact ⟨⟨rfl, rfl, rfl, rfl, rfl, rfl, rfl⟩, rfl⟩
  · split
    · exact ⟨.raised (by exact ⟨rfl, rfl, rfl, rfl, rfl, rfl, rfl⟩), by rw [raise_pins]⟩
    · exact ⟨⟨rfl, rfl, rfl, rfl, rfl, rfl, rfl⟩, rfl⟩

theorem railReads_limitRun (l : List Nat) (s : State) : (l.foldl railRead s).pins.limitRun = s.pins.limitRun := by
  induction l generalizing s with
  | nil => rfl
  | cons r l ih => rw [List.foldl_cons, ih, (railRead_frame ..).2]

/-- The readings of a sample before its limits are judged. -/
def monitorRead (s : State) (temps : List Int) (rails : List Nat) : State :=
  ((List.range 11).map (· + 1)).foldl railRead
    ((List.range 5).foldl dieRead { s with pins := { s.pins with temps := temps, rails := rails } })

theorem monitorRead_frame (s : State) (temps : List Int) (rails : List Nat) :
    MonitorFrame { s with pins := { s.pins with temps := temps, rails := rails } } (monitorRead s temps rails) :=
  (MonitorFrame.foldl dieRead_monitorFrame _ _).trans (.foldl (fun s r => (railRead_frame s r).1) _ _)

/-- A sample after its reading, with the dies' temperatures. -/
def withDieT (t : State) : State := { t with pins := { t.pins with dieT := (List.range 5).map (fun d => (dieTemp t d).getD 0) } }

/-- The limits of a sample (R455, R456). -/
def judgeLimits (t : State) : State := if tempLimit t then enterSafe t 4 else if supplyLimit t then enterSafe t 5 else t

theorem withDieT_monitorFrame (t : State) : MonitorFrame t (withDieT t) := ⟨rfl, rfl, rfl, rfl, rfl, rfl, rfl⟩

theorem withDieT_limitRun (t : State) : (withDieT t).pins.limitRun = t.pins.limitRun := rfl

theorem monitorSample_eq (s : State) (temps : List Int) (rails : List Nat) :
    monitorSample s temps rails = judgeLimits (withDieT (monitorRead s temps rails)) := by
  unfold monitorSample judgeLimits withDieT monitorRead
  rfl

theorem enterSafeWith_pins (s : State) (cause : Nat) (fixed : Bool) : (enterSafeWith s cause fixed).pins = s.pins := by
  unfold enterSafeWith
  split
  · rfl
  · cases fixed <;> simp [takeFreeBytes]

/-- The entry of the safe state leaves what a sample has read. -/
theorem enterSafe_monitorKept (s : State) (cause : Nat) :
    (enterSafe s cause).pins = s.pins ∧ (enterSafe s cause).mem = s.mem ∧ (enterSafe s cause).units = s.units ∧
      (enterSafe s cause).phu = s.phu := by
  refine ⟨enterSafeWith_pins .., ?_⟩
  cases hsafe : s.safety.safeState with
  | true =>
    have : enterSafe s cause = s := if_pos hsafe
    rw [this]
    exact ⟨rfl, rfl, rfl⟩
  | false =>
    have hentry := enterSafeWith_entry hsafe cause (cause == 2)
    exact ⟨hentry.mem, hentry.units, hentry.phu⟩

theorem judgeLimits_kept (t : State) :
    (judgeLimits t).pins = t.pins ∧ (judgeLimits t).mem = t.mem ∧ (judgeLimits t).units = t.units ∧ (judgeLimits t).phu = t.phu := by
  unfold judgeLimits
  split
  · exact enterSafe_monitorKept ..
  · split
    · exact enterSafe_monitorKept ..
    · exact ⟨rfl, rfl, rfl, rfl⟩

theorem monitorSample_kept (s : State) (temps : List Int) (rails : List Nat) :
    let t := monitorSample s temps rails
    t.pins.temps = temps ∧ t.pins.rails = rails ∧ t.mem = s.mem ∧ t.units = s.units ∧ t.phu = s.phu := by
  have hread := (monitorRead_frame s temps rails).trans (withDieT_monitorFrame _)
  intro t
  rw [show t = _ from monitorSample_eq s temps rails]
  generalize withDieT (monitorRead s temps rails) = r at hread ⊢
  obtain ⟨hpins, hmem, hunits, hphu⟩ := judgeLimits_kept r
  rw [hpins, hmem, hunits, hphu]
  exact ⟨hread.temps, hread.rails, hread.mem, hread.units, hread.phu⟩

/-! ### A hot die (R455) -/

theorem replicate_getD (x : Int) {n i : Nat} (hi : i < n) : (List.replicate n x).getD i 0 = x := by
  simp [List.getD, hi]

/-- With one temperature everywhere no sensor of die 0 is excluded. -/
theorem excludeSensors_uniform {s : State} {x : Int} (htemps : s.pins.temps = List.replicate 17 x) (hex : s.pins.excluded = []) :
    excludeSensors s 0 = s := by
  have hleft : dieLeft s 0 = [0, 1, 2, 3, 4, 5] := by simp [dieLeft, dieSensors, hex, List.range_succ]
  have hmedian : median2 ([0, 1, 2, 3, 4, 5].map (sensorT s)) = x + x := by
    simp [median2, sensorT, htemps, sortBy, insertBy]
  have hnone : [0, 1, 2, 3, 4, 5].filter (fun i => decide (300 < (2 * sensorT s i - (x + x)).natAbs)) = [] := by
    simp [sensorT, htemps, Int.two_mul]
  unfold excludeSensors
  dsimp only
  rw [hleft, hmedian, hnone]
  rfl

theorem dieTemp_uniform {s : State} {x : Int} (htemps : s.pins.temps = List.replicate 17 x) (hex : s.pins.excluded = []) :
    dieTemp s 0 = some x := by
  have hleft : dieLeft s 0 = [0, 1, 2, 3, 4, 5] := by simp [dieLeft, dieSensors, hex, List.range_succ]
  simp [dieTemp, hleft, sensorT, htemps]

theorem dieRead_hot {s : State} {x : Int} (hs : LimitsOk s) (htemps : s.pins.temps = List.replicate 17 x) (hex : s.pins.excluded = [])
    (hhot : tJunction s + 50 < x) (hrun : cnt s.pins.limitRun 0 = 19) :
    cnt (dieRead s 0).pins.limitRun 0 = 20 ∧ LimitsOk (dieRead s 0) := by
  have hbeyond : beyondLimit { s with pins := { s.pins with tMax := max s.pins.tMax x } } x = true := by
    unfold beyondLimit
    exact Bool.or_eq_true_iff.mpr (Or.inl (decide_eq_true hhot))
  have hread : dieRead s 0 = dieWarn { s with pins := { s.pins with tMax := max s.pins.tMax x } } 0 x := by
    unfold dieRead
    dsimp only
    rw [excludeSensors_uniform htemps hex, dieTemp_uniform htemps hex]
  rw [hread, LimitsOk, (dieWarn_effect ..).2, hbeyond]
  refine ⟨?_, smap_set_wf _ _ _ _ hs⟩
  rw [runNext, cnt, cntPut, smap_get_set_same _ _ 0 _ _ hs, hrun]
  rfl

theorem tempLimit_of_run {s : State} (h : cnt s.pins.limitRun 0 = 20) : tempLimit s = true :=
  List.any_eq_true.mpr ⟨0, by decide, by simp [h]⟩

theorem monitorSample_hot {s : State} {x : Int} (hsafe : s.safety.safeState = false) (hs : LimitsOk s) (hex : s.pins.excluded = [])
    (hhot : tJunction s + 50 < x) (hrun : cnt s.pins.limitRun 0 = 19) (rails : List Nat) :
    let t := monitorSample s (List.replicate 17 x) rails
    Dead t ∧ Raised t 0x0D06 huskId 4 0 := by
  obtain ⟨h20, hok⟩ := dieRead_hot (s := { s with pins := { s.pins with temps := List.replicate 17 x, rails := rails } }) hs rfl hex hhot hrun
  have hlimit : tempLimit (withDieT (monitorRead s (List.replicate 17 x) rails)) = true := by
    refine tempLimit_of_run ?_
    rw [withDieT_limitRun, monitorRead, railReads_limitRun, show List.range 5 = 0 :: [1, 2, 3, 4] from rfl, List.foldl_cons,
      dieReads_limitRun_other hok (by decide), h20]
  have hsafe' := ((monitorRead_frame s (List.replicate 17 x) rails).trans (withDieT_monitorFrame _)).safety
  intro t
  rw [show t = _ from monitorSample_eq s (List.replicate 17 x) rails, judgeLimits, if_pos hlimit]
  generalize withDieT (monitorRead s (List.replicate 17 x) rails) = r at hsafe' ⊢
  have hentry := enterSafeWith_entry (s := r) (by rw [hsafe']; exact hsafe) 4 false
  exact ⟨hentry.dead, hentry.raised⟩

/-! ### Tamper inputs (R500) -/

theorem smap_get_filtered {α : Type} (d : Nat → α) {p : Nat → Bool} (m : Smap α) {k : Nat} (hk : p k = false) :
    Smap.get d (m.filter (fun c => p c.1)) k = d k := by
  induction m with
  | nil => rfl
  | cons c m ih =>
    obtain ⟨j, v⟩ := c
    cases hj : p j with
    | true =>
      have hne : k ≠ j := by
        rintro rfl
        simp [hk] at hj
      simp only [List.filter_cons, hj, if_true, Smap.get, hne, ih, if_false]
      split <;> rfl
    | false => simp only [List.filter_cons, hj, Bool.false_eq_true, if_false, ih]

/-- Whether an address lies outside the secure region of stack k. -/
def outsideSecure (k a : Nat) : Bool := !(decide (secureBase k ≤ a) && decide (a < secureBase k + 0x100000))

theorem wipeStart_bytes (s : State) (k cause : Nat) :
    (wipeStart s k cause).mem.bytes = s.mem.bytes.filter (fun c => outsideSecure k c.1) := by
  unfold wipeStart
  split <;> rfl

theorem wipeStart_memGet_inside (s : State) (k cause : Nat) {a : Nat} (h : outsideSecure k a = false) : memGet (wipeStart s k cause) a = 0 := by
  rw [memGet, wipeStart_bytes, smap_get_filtered byteDefault (p := outsideSecure k) _ h]
  rfl

theorem wipeStart_memGet_outside {s : State} (hs : MemOk s) {k a : Nat} (cause : Nat) (h : outsideSecure k a = true) :
    memGet (wipeStart s k cause) a = memGet s a := by
  rw [memGet, wipeStart_bytes, smap_get_filter byteDefault (p := outsideSecure k) hs h]
  rfl

theorem wipeStart_memOk {s : State} (hs : MemOk s) (k cause : Nat) : MemOk (wipeStart s k cause) := by
  rw [MemOk, wipeStart_bytes]
  exact smap_filter_wfFrom byteDefault _ _ 0 hs

/-- Both secure regions as the wipes leave them. -/
theorem wipes_memGet {s : State} (hs : MemOk s) (cause : Nat) :
    let t := wipeStart (wipeStart s 0 cause) 1 cause
    (∀ a, (∃ k, k < 2 ∧ secureBase k ≤ a ∧ a < secureBase k + 0x100000) → memGet t a = 0) ∧
    (∀ a, (∀ k, k < 2 → a < secureBase k ∨ secureBase k + 0x100000 ≤ a) → memGet t a = memGet s a) := by
  intro t
  refine ⟨?_, fun a ha => ?_⟩
  · rintro a ⟨k, hk, hlo, hhi⟩
    have hin : outsideSecure k a = false := by simp [outsideSecure, hlo, hhi]
    cases hone : outsideSecure 1 a with
    | false => exact wipeStart_memGet_inside _ 1 cause hone
    | true =>
      have hzero : outsideSecure 0 a = false := by
        obtain rfl | rfl : k = 0 ∨ k = 1 := by omega
        · exact hin
        · rw [hin] at hone
          exact absurd hone (by decide)
      exact (wipeStart_memGet_outside (wipeStart_memOk hs 0 cause) cause hone).trans (wipeStart_memGet_inside s 0 cause hzero)
  · have hout : ∀ k, k < 2 → outsideSecure k a = true := fun k hk => by
      have := ha k hk
      simp only [outsideSecure, Bool.not_eq_true', Bool.and_eq_false_iff, decide_eq_false_iff_not]
      omega
    exact (wipeStart_memGet_outside (wipeStart_memOk hs 0 cause) cause (hout 1 (by decide))).trans
      (wipeStart_memGet_outside hs cause (hout 0 (by decide)))

theorem wipeStart_frame (s : State) (k cause : Nat) :
    (wipeStart s k cause).svc = s.svc ∧ (wipeStart s k cause).safety = s.safety ∧ (wipeStart s k cause).logs = s.logs := ⟨rfl, rfl, rfl⟩

/-- The device as a tamper input leaves it before TAMPER_ACTION. -/
def tamperTaken (s : State) (n : Nat) : State :=
  let w := wipeStart (wipeStart s 0 1) 1 1
  let f := { w with svc := { w.svc with tamper := setBit w.svc.tamper n, tamperCnt := satInc 32 w.svc.tamperCnt } }
  raise (boxAdd (recordWrite f) 5 [] []) 0x1308 0xFFFF n f.svc.tamperCnt

theorem tamper_eq (s : State) (n : Nat) :
    tamper s n = if (tamperTaken s n).svc.tamperAction = 1 then stopRequest (tamperTaken s n) else tamperTaken s n := rfl

theorem tamperTaken_svc (s : State) (n : Nat) : (tamperTaken s n).svc = { s.svc with
    tamper := setBit s.svc.tamper n, tamperCnt := satInc 32 s.svc.tamperCnt, writes := s.svc.writes + 1 } := by
  simp only [tamperTaken, raise_svc, boxAdd_svc]
  rfl

theorem tamperTaken_raised (s : State) (n : Nat) : Raised (tamperTaken s n) 0x1308 0xFFFF n (satInc 32 s.svc.tamperCnt) := raised_here ..

theorem tamperTaken_mem (s : State) (n : Nat) : (tamperTaken s n).mem = (wipeStart (wipeStart s 0 1) 1 1).mem := by
  simp only [tamperTaken, raise_mem, boxAdd_mem]
  rfl

theorem tamperTaken_safety (s : State) (n : Nat) : (tamperTaken s n).safety = s.safety := by
  simp only [tamperTaken, raise_safety, boxAdd_safety]
  rfl

theorem bit_setBit (x n : Nat) : bit (setBit x n) n = true := by
  simp [bit, setBit, Nat.testBit_or, Nat.shiftLeft_eq]

theorem stopRequest_added (s : State) : ∃ l, (stopRequest s).logs.buf = s.logs.buf ++ l :=
  added_trans (t := stopRaised s) ⟨_, congrArg Logs.buf (raise_logs ..)⟩ (lapse_added ..)

theorem lapse_svc (s : State) (cause : Nat) : (lapse s cause).svc = s.svc := by
  unfold lapse
  split
  · simp only [raise_svc]
    split <;> rfl
  · rfl

theorem stopRequest_svc (s : State) : (stopRequest s).svc = s.svc := by rw [stopRequest, lapse_svc, raise_svc]

/-- A tamper input: the wipes, its flag and event, and the stop request that TAMPER_ACTION asks for. -/
theorem tamper_effect {s : State} (hs : MemOk s) (n : Nat) :
    let t := tamper s n
    (∀ a, (∃ k, k < 2 ∧ secureBase k ≤ a ∧ a < secureBase k + 0x100000) → memGet t a = 0) ∧
    (∀ a, (∀ k, k < 2 → a < secureBase k ∨ secureBase k + 0x100000 ≤ a) → memGet t a = memGet s a) ∧
    bit t.svc.tamper n = true ∧ Raised t 0x1308 0xFFFF n (satInc 32 s.svc.tamperCnt) ∧
    (s.svc.tamperAction = 1 → t.safety.stopReq = true ∧ (s.safety.permit = true ∨ s.safety.grant = true → PermitLow t)) ∧
    (s.svc.tamperAction ≠ 1 → t.safety = s.safety) := by
  intro t
  have haction : (tamperTaken s n).svc.tamperAction = s.svc.tamperAction := by rw [tamperTaken_svc]
  obtain ⟨hinside, houtside⟩ := wipes_memGet hs 1
  by_cases h : s.svc.tamperAction = 1
  · have ht : t = stopRequest (tamperTaken s n) := (tamper_eq s n).trans (if_pos (haction.trans h))
    obtain ⟨hstop, -, hlow, -, hmem, -, -⟩ := stopRequest_effect (tamperTaken s n)
    have hbytes : t.mem = (wipeStart (wipeStart s 0 1) 1 1).mem := by rw [ht, hmem, tamperTaken_mem]
    refine ⟨fun a ha => ?_, fun a ha => ?_, ?_, ?_, fun _ => ?_, fun hne => absurd h hne⟩
    · rw [memGet, hbytes]
      exact hinside a ha
    · rw [memGet, hbytes]
      exact houtside a ha
    · rw [ht, stopRequest_svc, tamperTaken_svc]
      exact bit_setBit ..
    · rw [ht]
      exact raised_more (tamperTaken_raised s n) (stopRequest_added _)
    · rw [ht]
      refine ⟨hstop, fun hheld => (hlow ?_).1⟩
      rw [tamperTaken_safety]
      exact hheld
  · have ht : t = tamperTaken s n := (tamper_eq s n).trans (if_neg (by rw [haction]; exact h))
    refine ⟨fun a ha => ?_, fun a ha => ?_, ?_, ?_, fun h1 => absurd h1 h, fun _ => ?_⟩
    · rw [ht, memGet, tamperTaken_mem]
      exact hinside a ha
    · rw [ht, memGet, tamperTaken_mem]
      exact houtside a ha
    · rw [ht, tamperTaken_svc]
      exact bit_setBit ..
    · rw [ht]
      exact tamperTaken_raised s n
    · rw [ht, tamperTaken_safety]

/-- Settles O51: a sample kept, a hot die, a power failure and a tamper input. -/
theorem monitorsAndTamperInputs : Obligations.MonitorsAndTamperInputs := by
  unfold Obligations.MonitorsAndTamperInputs
  refine fun s => ⟨fun temps rails hup hwatch => ⟨⟨_, runAon_next (if_pos hwatch) hup, monitorSample_kept (answer s .none) _ _⟩, ?_⟩,
    fun temps rails hup hwatch hs => runAon_next_settled (if_neg (by simp [hwatch])) hup hs,
    fun hup => ⟨_, run_next rfl hup, powerFail_effect (answer s .none)⟩,
    fun n hup hs => ⟨_, runAon_next rfl hup, tamper_effect (s := answer s .none) hs n.val⟩⟩
  rintro x rfl hhot hex hrun hlimits
  refine ⟨_, runAon_next (if_pos hwatch) hup, ?_⟩
  rw [List.map_replicate]
  exact monitorSample_hot (s := answer s .none) (aonUp_not_safe hup) hlimits hex hhot hrun _

end Sys2Proof.Machine

/-!
The service life (R407, R492 to R499): the life cycle, microcode, attestation, the snapshot, the aging monitors and the checkpoint, and the proofs
of LifeCycleChanges and MicrocodeAndRecords.
-/
namespace Sys2Proof.Machine

/-! ### The permit under a change of the life cycle (R497) -/

/-- The safety record after a lapse. -/
theorem lapse_safety_eq (s : State) (cause : Nat) : (lapse s cause).safety =
    if s.safety.permit = true ∨ s.safety.grant = true then
      { s.safety with permit := false, grant := false, permitA := false, permitB := false, cause := cause }
    else s.safety := by
  unfold lapse
  split
  · simp only [raise_safety]
    split <;> rfl
  · rfl

theorem lifePermit_safety_congr {s t : State} (h : t.safety = s.safety) (life : Nat) :
    (lifePermit t life).safety = (lifePermit s life).safety := by
  unfold lifePermit
  split
  · exact h
  · split
    · simp only [noPermit, lapse_safety_eq, h]
    · simp only [lapse_safety_eq, h]

theorem lifePermit_added (s : State) (life : Nat) : ∃ l, (lifePermit s life).logs.buf = s.logs.buf ++ l := by
  unfold lifePermit
  split
  · exact ⟨[], (List.append_nil _).symm⟩
  · split
    · exact lapse_added s 6
    · exact lapse_added s 6

theorem lifePermit_svc (s : State) (life : Nat) : (lifePermit s life).svc = s.svc := by
  unfold lifePermit
  split
  · rfl
  · split
    · exact lapse_svc s 6
    · exact lapse_svc s 6

/-! ### The change itself (R497) -/

/-- The service record of a life-cycle change to `life` with `key`. -/
def lifeChanged (v : Svc) (life : Nat) (key : Bytes) : Svc :=
  { v with life := life, lifePend := none, planKey := if key = [] then v.planKey else some key, haveKeys := v.haveKeys && life != 4 }

/-- The device after the wipes, the entry and the event of a change, before the permit's part. -/
def lifeNoted (s : State) (life : Nat) (key : Bytes) : State :=
  let w := wipeStart (wipeStart s 0 2) 1 2
  raise (boxAdd (recordWrite { w with svc := lifeChanged w.svc life key }) 3 [] []) 0x1309 0xFFFF life s.svc.life

/-- The TAP after a change. -/
def lifeTap (s : State) : State := if s.pins.tapIr = .extest then { s with pins := { s.pins with tapIr := .bypass } } else s

/-- The TAP and the clock gates after a change. -/
def lifePorts (s : State) (life : Nat) : State :=
  let s := lifeTap s
  if bit (regGet s Reg.cpmGate) 13 then gateWrite s (gateIn life (regGet s Reg.cpmGate)) else s

theorem lifeTap_kept (s : State) : (lifeTap s).svc = s.svc ∧ (lifeTap s).safety = s.safety ∧ (lifeTap s).logs = s.logs := by
  unfold lifeTap
  split
  · exact ⟨rfl, rfl, rfl⟩
  · exact ⟨rfl, rfl, rfl⟩

theorem lifeApply_pending {s : State} {life : Nat} {key : Bytes} (h : s.svc.lifePend = some (life, key)) :
    lifeApply s = lifePorts (lifePermit (lifeNoted s life key) life) life := by
  unfold lifeApply
  rw [h]
  rfl

theorem lifePorts_kept (s : State) (life : Nat) :
    (lifePorts s life).svc = s.svc ∧ (lifePorts s life).safety = s.safety ∧ (lifePorts s life).logs = s.logs := by
  unfold lifePorts
  dsimp only
  split
  · exact lifeTap_kept s
  · exact lifeTap_kept s

theorem lifeNoted_svc (s : State) (life : Nat) (key : Bytes) :
    (lifeNoted s life key).svc = { lifeChanged s.svc life key with writes := s.svc.writes + 1 } := by
  simp only [lifeNoted, raise_svc, boxAdd_svc]
  rfl

theorem lifeNoted_safety (s : State) (life : Nat) (key : Bytes) : (lifeNoted s life key).safety = s.safety := by
  simp only [lifeNoted, raise_safety, boxAdd_safety]
  rfl

/-- A change at once: the service record, its event and the permit's part. -/
theorem lifeApply_effect {s : State} {life : Nat} {key : Bytes} (h : s.svc.lifePend = some (life, key)) :
    (lifeApply s).svc = { lifeChanged s.svc life key with writes := s.svc.writes + 1 } ∧
    Raised (lifeApply s) 0x1309 0xFFFF life s.svc.life ∧ (lifeApply s).safety = (lifePermit s life).safety := by
  rw [lifeApply_pending h]
  obtain ⟨hsvc, hsafety, hlogs⟩ := lifePorts_kept (lifePermit (lifeNoted s life key) life) life
  refine ⟨by rw [hsvc, lifePermit_svc, lifeNoted_svc], ?_, ?_⟩
  · exact raised_same (raised_more (raised_here ..) (lifePermit_added (lifeNoted s life key) life)) (congrArg Logs.buf hlogs)
  · rw [hsafety]
    exact lifePermit_safety_congr (lifeNoted_safety s life key) life

theorem lifeSet_waits {s : State} (hrun : phaseRuns s = true) (life : Nat) (key : Bytes) :
    lifeSet s life key = { s with svc := { s.svc with lifePend := some (life, key) } } := if_pos hrun

/-- With no phase a change takes effect at once. -/
theorem lifeSet_effect {s : State} (hrun : phaseRuns s = false) (life : Nat) (key : Bytes) :
    (lifeSet s life key).svc = { lifeChanged s.svc life key with writes := s.svc.writes + 1 } ∧
    Raised (lifeSet s life key) 0x1309 0xFFFF life s.svc.life ∧ (lifeSet s life key).safety = (lifePermit s life).safety := by
  have hset : lifeSet s life key = lifeApply { s with svc := { s.svc with lifePend := some (life, key) } } :=
    if_neg fun h => Bool.false_ne_true (hrun.symm.trans h)
  rw [hset]
  obtain ⟨hsvc, hraised, hsafety⟩ :=
    lifeApply_effect (s := { s with svc := { s.svc with lifePend := some (life, key) } }) (life := life) (key := key) rfl
  exact ⟨hsvc, hraised, hsafety.trans (lifePermit_safety_congr (by rfl) life)⟩

/-! ### The command (R498) -/

/-- The key that a life-cycle command carries; none where its field is 0. -/
def lifeKey (b : Bytes) : Bytes := if slice b 40 32 == zeros 32 then [] else slice b 40 32

/-- The service record with the tamper flags that a command clears. -/
def lifeCleared (s : State) (b : Bytes) : State := { s with svc := { s.svc with tamper := s.svc.tamper - (s.svc.tamper &&& getLe b 1 1) } }

theorem lifeCommand_refused {s : State} {b : Bytes} (h : lifeRefused s b = true) :
    lifeCommand s b = (false, raise s 0x1309 0xFFFF (getLe b 0 1) 0xFF) := if_pos h

theorem lifeCommand_same {s : State} {b : Bytes} (h : lifeRefused s b = false) (hlife : getLe b 0 1 = s.svc.life) :
    lifeCommand s b = (true, { s with svc := { (lifeCleared s b).svc with
      planKey := if slice b 40 32 == zeros 32 then s.svc.planKey else some (slice b 40 32) } }) :=
  (if_neg (by rw [h]; decide)).trans (if_pos hlife)

theorem lifeCommand_change {s : State} {b : Bytes} (h : lifeRefused s b = false) (hlife : getLe b 0 1 ≠ s.svc.life) :
    lifeCommand s b = (true, lifeSet (lifeCleared s b) (getLe b 0 1) (lifeKey b)) :=
  (if_neg (by rw [h]; decide)).trans (if_neg hlife)

theorem planKeyWrite_first {s : State} (hlife : s.svc.life = 1) (hpend : s.svc.lifePend = none) (key : Bytes) :
    planKeyWrite s key = (true, lifeSet s 2 (fit 32 key)) := if_pos ⟨hlife, by rw [hpend]; rfl⟩

theorem planKeyWrite_refused {s : State} (h : s.svc.life ≠ 1 ∨ s.svc.lifePend ≠ none) (key : Bytes) : planKeyWrite s key = (false, s) := by
  refine if_neg ?_
  rintro ⟨hlife, hpend⟩
  exact h.elim (· hlife) (· (Option.isNone_iff_eq_none.mp hpend))

/-- The device with an identity key of n and an attestation key of m free bytes. -/
def keysTaken (s : State) (n m : Nat) : State :=
  let (a, s) := takeFreeBytes s n
  let (b, s) := takeFreeBytes s m
  { s with svc := { s.svc with idKey := a, attKey := b, haveKeys := true } }

theorem keysTaken_form (s : State) {n m c : Nat} (hc : n + m = c) :
    ∃ a b, keysTaken s n m = { s with svc := { s.svc with idKey := a, attKey := b, haveKeys := true }, freeCtr := s.freeCtr + c } := by
  rw [← hc, ← Nat.add_assoc]
  exact ⟨_, _, rfl⟩

theorem provisioning_first {s : State} (hlife : s.svc.life = 0) (hpend : s.svc.lifePend = none) :
    provisioning s = lifeSet (keysTaken s 32 7888) 1 [] := if_pos ⟨hlife, by rw [hpend]; rfl⟩

theorem provisioning_waits {s : State} (hlife : s.svc.life = 0) (hpend : s.svc.lifePend = none) (hrun : phaseRuns s = true) :
    ∃ a b, provisioning s = { s with
      svc := { s.svc with idKey := a, attKey := b, haveKeys := true, lifePend := some (1, []) }, freeCtr := s.freeCtr + 7920 } := by
  obtain ⟨a, b, hkeys⟩ := keysTaken_form s (show 32 + 7888 = 7920 from rfl)
  refine ⟨a, b, ?_⟩
  rw [provisioning_first hlife hpend, hkeys]
  exact lifeSet_waits (by exact hrun) 1 []

theorem provisioning_refused {s : State} (h : s.svc.life ≠ 0 ∨ s.svc.lifePend ≠ none) : provisioning s = s := by
  refine if_neg ?_
  rintro ⟨hlife, hpend⟩
  exact h.elim (· hlife) (· (Option.isNone_iff_eq_none.mp hpend))

theorem fit_ne_nil {n : Nat} (hn : 0 < n) (b : Bytes) : fit n b ≠ [] := by
  intro h
  have hlen : (fit n b).length = n := by
    rw [fit, List.length_append, List.length_take, zeros_length]
    omega
  rw [h] at hlen
  exact absurd hlen (Nat.ne_of_lt hn)

/-- An accepted change at once, as its command answers it. -/
theorem lifeCommand_atOnce {s : State} {b : Bytes} (h : lifeRefused s b = false) (hlife : getLe b 0 1 ≠ s.svc.life)
    (hrun : phaseRuns s = false) :
    let t := answered (lifeCommand s b)
    t.resp = .sdoOk ∧ t.svc.life = getLe b 0 1 ∧ t.svc.lifePend = none ∧
      t.svc.planKey = (if lifeKey b = [] then s.svc.planKey else some (lifeKey b)) ∧
      t.svc.haveKeys = (s.svc.haveKeys && getLe b 0 1 != 4) ∧ Raised t 0x1309 0xFFFF (getLe b 0 1) s.svc.life ∧
      t.safety = (lifePermit s (getLe b 0 1)).safety := by
  intro t
  have ht : t = answer (lifeSet (lifeCleared s b) (getLe b 0 1) (lifeKey b)) .sdoOk := congrArg answered (lifeCommand_change h hlife)
  obtain ⟨hsvc, hraised, hsafety⟩ := lifeSet_effect (s := lifeCleared s b) hrun (getLe b 0 1) (lifeKey b)
  rw [ht]
  refine ⟨rfl, ?_, ?_, ?_, ?_, hraised, hsafety.trans (lifePermit_safety_congr (by rfl) _)⟩ <;> rw [answer_svc, hsvc] <;> rfl

theorem planKeyWrite_atOnce {s : State} (hlife : s.svc.life = 1) (hpend : s.svc.lifePend = none) (hrun : phaseRuns s = false) (key : Bytes) :
    let t := answered (planKeyWrite s key)
    t.svc.life = 2 ∧ t.svc.planKey = some (fit 32 key) ∧ t.resp = .sdoOk ∧ Raised t 0x1309 0xFFFF 2 1 ∧ t.safety = s.safety := by
  intro t
  have ht : t = answer (lifeSet s 2 (fit 32 key)) .sdoOk := congrArg answered (planKeyWrite_first hlife hpend key)
  obtain ⟨hsvc, hraised, hsafety⟩ := lifeSet_effect hrun 2 (fit 32 key)
  rw [hlife] at hraised
  rw [ht]
  refine ⟨by rw [answer_svc, hsvc]; rfl, ?_, rfl, hraised, hsafety⟩
  rw [answer_svc, hsvc]
  exact if_neg (fit_ne_nil (by decide) key)

theorem provisioning_atOnce {s : State} (hlife : s.svc.life = 0) (hpend : s.svc.lifePend = none) (hrun : phaseRuns s = false) :
    let t := provisioning s
    t.svc.haveKeys = true ∧ t.svc.life = 1 ∧ Raised t 0x1309 0xFFFF 1 0 ∧ t.safety = (lifePermit s 1).safety := by
  intro t
  obtain ⟨hsvc, hraised, hsafety⟩ := lifeSet_effect (s := keysTaken s 32 7888) hrun 1 []
  rw [show (keysTaken s 32 7888).svc.life = 0 from hlife] at hraised
  rw [show t = _ from provisioning_first hlife hpend]
  exact ⟨by rw [hsvc]; rfl, by rw [hsvc]; rfl, hraised, hsafety.trans (lifePermit_safety_congr (by rfl) 1)⟩

/-- Settles O55, by the command: refused, of the present state, waiting for the boundary and at once; the plan key; and PROVISIONING. -/
theorem lifeCycleChanges : Obligations.LifeCycleChanges := by
  unfold Obligations.LifeCycleChanges
  refine fun s hup => ⟨fun b => ?_, fun key => ⟨fun hlife hpend hrun hs => ?_, fun hlife hpend hrun => ?_, fun h hs => ?_⟩,
    fun hlife hpend => ⟨fun hrun hs => ?_, fun hrun => ?_⟩, fun h hs => ?_⟩
  · intro key
    refine ⟨fun href => ?_, fun hacc => ?_⟩
    · exact ⟨_, runIo_next (congrArg answered (lifeCommand_refused (s := answer s .none) href)) hup, raise_svc .., rfl, raised_here ..,
        raise_mem ..⟩
    intro kept
    refine ⟨fun hlife hs => ?_, fun hlife hrun hs => ?_, fun hlife hrun => ?_⟩
    · exact runIo_next_settled (congrArg answered (lifeCommand_same (s := answer s .none) hacc hlife)) hup hs
    · refine runIo_next_settled ?_ hup hs
      rw [lifeCommand_change (s := answer s .none) hacc hlife, lifeSet_waits (by exact hrun)]
      rfl
    · have hpermit : (lifePermit (answer s .none) (getLe b 0 1)).safety = (lifePermit s (getLe b 0 1)).safety :=
        lifePermit_safety_congr (by rfl) _
      exact ⟨_, runIo_next rfl hup, hpermit ▸ lifeCommand_atOnce (s := answer s .none) hacc hlife hrun⟩
  · refine runIo_next_settled ?_ hup hs
    rw [planKeyWrite_first (s := answer s .none) hlife hpend, lifeSet_waits (by exact hrun)]
    rfl
  · exact ⟨_, runIo_next rfl hup, planKeyWrite_atOnce (s := answer s .none) hlife hpend hrun key⟩
  · exact runIo_next_settled (congrArg answered (planKeyWrite_refused (s := answer s .none) h key)) hup hs
  · obtain ⟨a, b, hwaits⟩ := provisioning_waits (s := answer s .none) hlife hpend hrun
    exact ⟨_, runIo_next_settled hwaits hup hs, rfl⟩
  · have hpermit : (lifePermit (answer s .none) 1).safety = (lifePermit s 1).safety := lifePermit_safety_congr (by rfl) 1
    exact ⟨_, runIo_next rfl hup, hpermit ▸ provisioning_atOnce (s := answer s .none) hlife hpend hrun⟩
  · exact runIo_next_settled (provisioning_refused (s := answer s .none) h) hup hs

/-! ### Microcode (R494) -/

theorem ucodeCommand_idle {s : State} (h : s.svc.ucStatus.busy = false) : ucodeCommand s = { s with svc := { s.svc with
    ucClass := objW s 0x5001 1, ucSwitch := objW s 0x5001 2, ucStatus := .verifying, ucDefer := 0
    ucRev := s.svc.run.ucode.getD (objW s 0x5001 1) 0 } } := if_neg (by rw [h]; decide)

theorem ucodeCommand_busy {s : State} (h : s.svc.ucStatus.busy = true) : ucodeCommand s = s := if_pos h

theorem ucodeStaged_verifying {s : State} (h : s.svc.ucStatus = .verifying) :
    ucodeStaged s = { s with svc := { s.svc with ucStatus := .staged, ucStagedAt := s.phu.bcount } } := if_pos h

theorem ucodeStaged_other {s : State} (h : s.svc.ucStatus ≠ .verifying) : ucodeStaged s = s := if_neg h

theorem ucodeCancel_busy {s : State} (h : s.svc.ucStatus.busy = true) (hdue : ucodeDue s = false) :
    ucodeCancel s = { s with svc := { s.svc with ucStatus := .idle, ucDefer := 0 } } := if_pos ⟨h, by rw [hdue]; rfl⟩

theorem ucodeCancel_other {s : State} (h : s.svc.ucStatus.busy = false ∨ ucodeDue s = true) : ucodeCancel s = s := by
  refine if_neg ?_
  rintro ⟨hbusy, hdue⟩
  rcases h with h | h
  · exact Bool.false_ne_true (h.symm.trans hbusy)
  · rw [h] at hdue
    exact Bool.false_ne_true hdue

theorem ucodeSwitch_notDue {s : State} (h : ucodeDue s = false) (n : Nat) : ucodeSwitch s n = s := if_pos (by rw [h]; rfl)

theorem ucodeSwitch_made {s : State} (h : ucodeDue s = true) : ucodeSwitch s 0 =
    raise { s with svc := { s.svc with ucode := s.svc.ucode.set s.svc.ucClass s.svc.ucRev, ucStatus := .idle, ucDefer := 0 } }
      0x130E 0xFFFF s.svc.ucClass s.svc.ucRev :=
  (if_neg (by rw [h]; decide)).trans (if_neg (by decide))

/-- With units left the switch is deferred, and the 16th time refused. -/
theorem ucodeSwitch_left {s : State} (h : ucodeDue s = true) {n : Nat} (hn : n ≠ 0) : ucodeSwitch s n = { s with
    svc := if s.svc.ucDefer < 15 then { s.svc with ucStatus := .deferred, ucDefer := s.svc.ucDefer + 1, ucStagedAt := s.phu.bcount }
      else { s.svc with ucStatus := .refused, ucDefer := 0 } } := by
  refine (if_neg (by rw [h]; decide)).trans ((if_pos hn).trans ?_)
  by_cases hd : s.svc.ucDefer < 15
  · rw [if_neg (by omega), if_pos hd]
  · rw [if_pos (by omega), if_neg hd]

/-! ### Attestation, the snapshot and the aging monitors (R495, R496, R499) -/

theorem attestDone_formed {s : State} (h : s.svc.reportSt = 1) : ∃ sig d f, attestDone s =
    raise { s with svc := { s.svc with report := attestBytes s ++ sig, reportSt := 2 }, freeCtr := f } 0x130B 0xFFFF d 0 :=
  ⟨_, _, _, if_pos h⟩

theorem attestDone_none {s : State} (h : s.svc.reportSt ≠ 1) : attestDone s = s := if_neg h

theorem attestBytes_answer (s : State) (r : Resp) : attestBytes (answer s r) = attestBytes s := rfl

/-- A report formed: its state, its bytes and its event. -/
theorem attestDone_effect {s : State} (h : s.svc.reportSt = 1) :
    let t := attestDone s
    t.svc.reportSt = 2 ∧ (∃ sig, t.svc.report = attestBytes s ++ sig) ∧ (∃ d, Raised t 0x130B 0xFFFF d 0) ∧ t.mem = s.mem := by
  intro t
  obtain ⟨sig, d, f, hform⟩ := attestDone_formed h
  rw [show t = _ from hform, raise_svc, raise_mem]
  exact ⟨rfl, ⟨sig, rfl⟩, ⟨d, raised_here ..⟩, rfl⟩

theorem snapshot_due {s : State} (h : 4194304 ≤ s.svc.sinceSnap) :
    let t := snapshot s
    t.svc = { s.svc with sinceSnap := 0 } ∧ (∃ e, t.logs.box.getLast? = some e ∧ e.btype = 2 ∧ e.bseq = s.logs.bseq) ∧ t.mem = s.mem := by
  intro t
  have ht : t = boxAdd { s with svc := { s.svc with sinceSnap := 0 } } 2 [] [] := if_pos h
  obtain ⟨e, hlast, hkind, -, hseq⟩ := boxAdd_last { s with svc := { s.svc with sinceSnap := 0 } } 2 [] []
  rw [ht]
  exact ⟨boxAdd_svc .., ⟨e, hlast, hkind, hseq⟩, boxAdd_mem ..⟩

theorem snapshot_early {s : State} (h : s.svc.sinceSnap < 4194304) : snapshot s = s := if_neg (Nat.not_le.mpr h)

/-- One monitor of the aging check. -/
def ageNote (s : State) (x : Nat × Nat) : State :=
  if s.svc.aged.contains (4 * x.1 + x.2) then s
  else raise { s with svc := { s.svc with aged := s.svc.aged ++ [4 * x.1 + x.2] } } 0x130C 0xFFFF x.1 x.2

theorem agingCheck_due {s : State} (hbound : s.phu.atBound = true) (hcycle : s.phu.bcount % 65536 = 0) (l : List (Nat × Nat)) :
    agingCheck s l = l.foldl ageNote s := if_pos ⟨hbound, hcycle⟩

theorem agingCheck_notDue {s : State} (h : s.phu.atBound = false ∨ s.phu.bcount % 65536 ≠ 0) (l : List (Nat × Nat)) : agingCheck s l = s := by
  refine if_neg ?_
  rintro ⟨hbound, hcycle⟩
  exact h.elim (fun h => Bool.false_ne_true (h.symm.trans hbound)) (· hcycle)

theorem ageNote_known {s : State} {x : Nat × Nat} (h : 4 * x.1 + x.2 ∈ s.svc.aged) : ageNote s x = s :=
  if_pos (List.contains_iff_mem.mpr h)

theorem ageNote_new {s : State} {x : Nat × Nat} (h : 4 * x.1 + x.2 ∉ s.svc.aged) :
    ageNote s x = raise { s with svc := { s.svc with aged := s.svc.aged ++ [4 * x.1 + x.2] } } 0x130C 0xFFFF x.1 x.2 :=
  if_neg (by rwa [List.contains_iff_mem])

/-- A monitor's key is known after its note, with every key known before and no other. -/
theorem ageNote_aged (s : State) (x : Nat × Nat) (k : Nat) :
    k ∈ (ageNote s x).svc.aged ↔ k ∈ s.svc.aged ∨ k = 4 * x.1 + x.2 := by
  by_cases h : 4 * x.1 + x.2 ∈ s.svc.aged
  · rw [ageNote_known h]
    exact ⟨Or.inl, fun hk => hk.elim id (by rintro rfl; exact h)⟩
  · rw [ageNote_new h, raise_svc]
    exact List.mem_append.trans (or_congr_right List.mem_singleton)

theorem ageNote_mem (s : State) (x : Nat × Nat) : (ageNote s x).mem = s.mem := by
  by_cases h : 4 * x.1 + x.2 ∈ s.svc.aged
  · rw [ageNote_known h]
  · rw [ageNote_new h, raise_mem]

theorem ageNotes_aged (l : List (Nat × Nat)) (s : State) (k : Nat) :
    k ∈ (l.foldl ageNote s).svc.aged ↔ k ∈ s.svc.aged ∨ ∃ x ∈ l, k = 4 * x.1 + x.2 := by
  induction l generalizing s with
  | nil => simp
  | cons x l ih =>
    rw [List.foldl_cons, ih, ageNote_aged, or_assoc]
    simp only [List.mem_cons, exists_eq_or_imp]

theorem ageNotes_mem (l : List (Nat × Nat)) (s : State) : (l.foldl ageNote s).mem = s.mem := by
  induction l generalizing s with
  | nil => rfl
  | cons x l ih => rw [List.foldl_cons, ih, ageNote_mem]

/-! ### The checkpoint (R407) -/

/-- The recorder with its checkpoint counted. -/
def ckptTaken (s : State) : State := { s with det := { s.det with ckptDue := false, sinceCkpt := 0, chainZero := true } }

theorem checkpoint_due {s : State} (hbound : s.phu.atBound = true) (hdue : s.det.ckptDue = true) :
    checkpoint s = ringPush (ckptTaken s) [.ckpt (ckptNow s)] := if_pos ⟨hbound, hdue⟩

theorem checkpoint_notDue {s : State} (h : s.phu.atBound = false ∨ s.det.ckptDue = false) : checkpoint s = s := by
  refine if_neg ?_
  rintro ⟨hbound, hdue⟩
  exact h.elim (fun h => Bool.false_ne_true (h.symm.trans hbound)) (fun h => Bool.false_ne_true (h.symm.trans hdue))

theorem ringPush_open {s : State} (hrec : recRing s = true) (hopen : ringOpen s = true) (l : List RingRec) :
    ringPush s l = { s with det := { s.det with
      ring := ringTrim (ringCapacity s) (s.det.ring.length + l.length) (s.det.ring ++ l) } } := by
  rw [ringPush, if_pos hrec, if_pos hopen]

/-- A push leaves memory and the recorder's counts. -/
theorem ringPush_kept (s : State) (l : List RingRec) :
    (ringPush s l).det.ckptDue = s.det.ckptDue ∧ (ringPush s l).det.sinceCkpt = s.det.sinceCkpt ∧
    (ringPush s l).det.chainZero = s.det.chainZero ∧ (ringPush s l).mem = s.mem := by
  unfold ringPush
  split
  · split
    · exact ⟨rfl, rfl, rfl, rfl⟩
    · split
      · exact ⟨rfl, rfl, rfl, rfl⟩
      · rw [raise_det]
        exact ⟨rfl, rfl, rfl, raise_mem ..⟩
  · exact ⟨rfl, rfl, rfl, rfl⟩

theorem checkpoint_effect {s : State} (hbound : s.phu.atBound = true) (hdue : s.det.ckptDue = true) :
    let t := checkpoint s
    t.det.ckptDue = false ∧ t.det.sinceCkpt = 0 ∧ t.det.chainZero = true ∧ t.mem.bytes = s.mem.bytes := by
  intro t
  obtain ⟨hckpt, hsince, hchain, hmem⟩ := ringPush_kept (ckptTaken s) [.ckpt (ckptNow s)]
  rw [show t = _ from checkpoint_due hbound hdue]
  exact ⟨hckpt, hsince, hchain, congrArg Mem.bytes hmem⟩

theorem checkpoint_open {s : State} (hbound : s.phu.atBound = true) (hdue : s.det.ckptDue = true) (hrec : recRing s = true)
    (hopen : ringOpen s = true) : checkpoint s = { s with det := { s.det with
      ckptDue := false, sinceCkpt := 0, chainZero := true
      ring := ringTrim (ringCapacity s) (s.det.ring.length + 1) (s.det.ring ++ [RingRec.ckpt (ckptNow s)]) } } :=
  (checkpoint_due hbound hdue).trans (ringPush_open (s := ckptTaken s) hrec hopen _)

/-- Settles O54: microcode by its status, the report, the snapshot, the aging monitors and the checkpoint, each due and not. -/
theorem microcodeAndRecords : Obligations.MicrocodeAndRecords := by
  unfold Obligations.MicrocodeAndRecords
  intro s hup same
  refine ⟨fun hs => ⟨fun h => ?_, fun h => ?_, fun h => ?_, fun h => ?_, fun h hd => ?_, fun h => ?_⟩, fun hdue => ⟨?_, fun n hn hs => ?_⟩,
    fun h hs n => ?_, fun hs => ?_, fun h => ?_, fun h hs => ?_, fun h => ?_, fun h hs => ?_, fun d m => ⟨fun hb hc hnew => ?_, fun hold hs => ?_⟩,
    fun l hb hc => ?_, fun l h hs => ?_, fun harith => ⟨fun hb hd hr ho hs => ?_, fun hb hd => ?_, fun h hs => ?_⟩⟩
  · exact runIo_next_settled (ucodeCommand_idle (s := answer s .none) h) hup hs
  · exact runIo_next_settled (ucodeCommand_busy (s := answer s .none) h) hup hs
  · exact runIo_next_settled (ucodeStaged_verifying (s := answer s .none) h) hup hs
  · exact runIo_next_settled (ucodeStaged_other (s := answer s .none) h) hup hs
  · exact runIo_next_settled (ucodeCancel_busy (s := answer s .none) h hd) hup hs
  · exact runIo_next_settled (ucodeCancel_other (s := answer s .none) h) hup hs
  · exact ⟨_, runIo_next (ucodeSwitch_made (s := answer s .none) hdue) hup, raise_svc .., raised_here .., raise_mem ..⟩
  · exact runIo_next_settled (ucodeSwitch_left (s := answer s .none) hdue fun h => hn (BitVec.eq_of_toNat_eq h)) hup hs
  · exact runIo_next_settled (ucodeSwitch_notDue (s := answer s .none) h _) hup hs
  · exact runIo_next_settled rfl hup hs
  · exact ⟨_, runIo_next rfl hup, attestDone_effect (s := answer s .none) h⟩
  · exact runIo_next_settled (attestDone_none (s := answer s .none) h) hup hs
  · exact ⟨_, runIo_next rfl hup, snapshot_due (s := answer s .none) h⟩
  · exact runIo_next_settled (snapshot_early (s := answer s .none) h) hup hs
  · refine ⟨_, runIo_next ((agingCheck_due (s := answer s .none) hb hc _).trans (ageNote_new (s := answer s .none) hnew)) hup, raise_svc ..,
      raised_here .., raise_mem ..⟩
  · refine runIo_next_settled ?_ hup hs
    by_cases hdue : s.phu.atBound = true ∧ s.phu.bcount % 65536 = 0
    · exact (agingCheck_due (s := answer s .none) hdue.1 hdue.2 _).trans (ageNote_known (s := answer s .none) hold)
    · exact if_neg hdue
  · refine ⟨_, runIo_next (agingCheck_due (s := answer s .none) hb hc _) hup, fun x hx => ?_, fun k hk => ?_, ageNotes_mem _ _⟩
    · exact (ageNotes_aged _ _ _).mpr (Or.inr ⟨_, List.mem_map_of_mem hx, rfl⟩)
    · obtain hk | ⟨y, hy, rfl⟩ := (ageNotes_aged _ _ _).mp hk
      · exact Or.inl hk
      · obtain ⟨x, hx, rfl⟩ := List.mem_map.mp hy
        exact Or.inr ⟨x, hx, rfl⟩
  · exact runIo_next_settled (agingCheck_notDue (s := answer s .none) h _) hup hs
  · exact runArith_next_settled (checkpoint_open (s := answer s .none) hb hd hr ho) harith hs
  · exact ⟨_, runArith_next rfl harith, checkpoint_effect (s := answer s .none) hb hd⟩
  · exact runArith_next_settled (checkpoint_notDue (s := answer s .none) h) harith hs

end Sys2Proof.Machine

/-!
Resets, the boot, clocks and power (R461 to R480, R357, R432): the standard objects that store, reset and set the power state, and the proof of
ParametersStoreAndDeviceResets.
-/
namespace Sys2Proof.Machine

/-! ### Stored parameters and the device reset (R432, R473) -/

theorem sdoEnd_done {s t : State} : sdoEnd (did t) = answer t .sdoOk ∧ sdoEnd ((0x08000000, s) : Did) = sdoAbort s 0x08000000 := ⟨rfl, rfl⟩

theorem resetCommand_open {s : State} (hopen : rwpOpen s = true) (hlow : s.safety.permit = false) : resetCommand s = did (deviceReset s) :=
  if_pos ⟨hopen, by rw [hlow]; rfl⟩

theorem resetCommand_refused {s : State} (h : rwpOpen s = false ∨ s.safety.permit = true) : resetCommand s = (0x08000000, s) := by
  refine if_neg ?_
  rintro ⟨hopen, hlow⟩
  rcases h with h | h
  · exact Bool.false_ne_true (h.symm.trans hopen)
  · rw [h] at hlow
    exact Bool.false_ne_true hlow

/-- What a device reset leaves of the device, beside its boot. -/
theorem deviceReset_kept (s : State) :
    let t := deviceReset s
    t.cpm.step = 0 ∧ t.phu = State.reset.phu ∧ t.mem.bytes = [] ∧ t.od.stored = s.od.stored ∧ t.safety.par = s.safety.par ∧
      t.logs.box = s.logs.box := by
  intro t
  have hcpm : t.cpm = _ := raise_cpm ..
  have hphu : t.phu = _ := raise_phu ..
  have hmem : t.mem = _ := raise_mem ..
  have hod : t.od = _ := raise_od ..
  have hsafety : t.safety = _ := raise_safety ..
  have hlogs : t.logs = _ := raise_logs ..
  rw [hcpm, hphu, hmem, hod, hsafety, hlogs]
  exact ⟨rfl, rfl, rfl, rfl, rfl, rfl⟩

/-! ### The power state as an object (R461) -/

/-- The row of the object that requests a power state. -/
def pstateRow : Config.ObjDef := ⟨0x2F00, 1, 0x3, 1, .u8, .rw, [0], .span 0 1, false⟩

theorem objFind_pstate : objFind 0x2F00 3 = some pstateRow := by decide +kernel

theorem foeHolds_pstate (s : State) : foeHolds s 0x2F00 3 = false := by
  unfold foeHolds
  cases s.od.foe with
  | none => rfl
  | some x =>
    have hfile : ∀ f, (foeObjs f).contains (0x2F00, 3) = false := by
      intro f
      unfold foeObjs
      split <;> decide
    exact hfile x.file

theorem tyVal_pstate (v : Fin 2) : tyVal .u8 (ofLe [v.val]) = (v.val : Int) := by revert v; decide

theorem rngOk_pstate (s : State) (v : Fin 2) : rngOk s pstateRow 0x2F00 3 (v.val : Int) = true := by
  have hwith : rngWith s 0x2F00 3 = true :=
    (if_neg fun h => absurd h.1 (by decide)).trans (if_neg fun h => absurd h.1 (by decide))
  have hspan : (decide ((0 : Int) ≤ (v.val : Int)) && decide ((v.val : Int) ≤ 1)) = true := by revert v; decide
  rw [rngOk, hwith]
  exact hspan

/-- No test of an access refuses the request. -/
theorem writeCheck_pstate (s s' : State) (v : Fin 2) : writeCheck s s' .mailbox 0x2F00 3 [v.val] = 0 := by
  rw [writeCheck, objFind_pstate]
  dsimp only
  rw [show tyVal pstateRow.ty (ofLe [v.val]) = _ from tyVal_pstate v, rngOk_pstate, accCheck]
  refine (if_neg (by decide)).trans ((if_neg (by simp [pstateRow, tyBytes])).trans ((if_neg (by decide)).trans ((if_neg ?_).trans
    ((if_neg ?_).trans (if_neg ?_)))))
  · exact fun h => absurd h.1 (by decide)
  · exact fun h => absurd h.1 (by decide)
  · rw [foeHolds_pstate]
    decide

theorem writeOne_pstate (s : State) (v : Fin 2) :
    writeOne s .mailbox 0x2F00 3 [v.val] true = pstateWrite s pstateRow (v.val : Int) := by
  rw [writeOne, objFind_pstate]
  dsimp only
  rw [writeCheck_pstate, if_neg (by decide), ← tyVal_pstate v]
  rfl

theorem pstateWrite_held {s : State} (hheld : s.safety.permit = true) : pstateWrite s pstateRow 1 = (0x08000000, s) := if_pos ⟨rfl, hheld⟩

theorem pstateWrite_taken {s : State} {v : Fin 2} (h : v = 0 ∨ s.safety.permit = false) :
    pstateWrite s pstateRow (v.val : Int) = did (writeVal s pstateRow 0x2F00 3 (v.val : Int)) := by
  refine if_neg ?_
  rintro ⟨hone, hheld⟩
  rcases h with rfl | h
  · exact absurd hone (by decide)
  · exact Bool.false_ne_true (h.symm.trans hheld)

theorem writeVal_pstate {s : State} (hlive : s.det.replay = false) (v : Int) :
    writeVal s pstateRow 0x2F00 3 v = { objSet s 0x2F00 3 v with
      od := { (objSet s 0x2F00 3 v).od with pendW := s.od.pendW ++ [(0x2F00, 3, v, s.now)] } } := by
  have hdisc : discards s 0x2F00 = false := by rw [discards, hlive]; rfl
  rw [writeVal, hdisc]
  rfl

theorem writeVal_pstate_replay {s : State} (hreplay : s.det.replay = true) (v : Int) : writeVal s pstateRow 0x2F00 3 v = s :=
  if_pos (by rw [discards, hreplay]; decide)

/-- Settles O48: the stores of parameters, a power state refused, kept and in replay, and the device reset made and refused. -/
theorem parametersStoreAndDeviceResets : Obligations.ParametersStoreAndDeviceResets := by
  unfold Obligations.ParametersStoreAndDeviceResets
  intro s hup aborted svc
  refine ⟨fun hs => ⟨?_, ?_⟩, fun hs hheld => ?_, fun hs v h => ⟨fun hlive => ?_, fun hreplay => ?_⟩, fun hopen hlow => ?_, fun hs h => ?_⟩
  · exact runIo_next_settled rfl hup hs
  · exact runIo_next_settled rfl hup hs
  · refine runIo_next_settled ?_ hup hs
    exact congrArg sdoEnd ((writeOne_pstate (answer s .none) 1).trans (pstateWrite_held (s := answer s .none) hheld))
  · refine runIo_next_settled ?_ hup hs
    exact congrArg sdoEnd ((writeOne_pstate (answer s .none) v).trans ((pstateWrite_taken (s := answer s .none) h).trans
      (congrArg did (writeVal_pstate (s := answer s .none) hlive _))))
  · refine runIo_next_settled ?_ hup hs
    exact congrArg sdoEnd ((writeOne_pstate (answer s .none) v).trans ((pstateWrite_taken (s := answer s .none) h).trans
      (congrArg did (writeVal_pstate_replay (s := answer s .none) hreplay _))))
  · obtain ⟨hboot, hcause, -, -, -, hraised⟩ := deviceReset_effect (answer s .none)
    obtain ⟨hstep, hphu, hmem, hod, hpar, hbox⟩ := deviceReset_kept (answer s .none)
    exact ⟨_, runIo_next (congrArg sdoEnd (resetCommand_open (s := answer s .none) hopen hlow)) hup, hboot, hstep, hcause, hraised, hphu, hmem, hod,
      hpar, hbox, rfl⟩
  · exact runIo_next_settled (congrArg sdoEnd (resetCommand_refused (s := answer s .none) h)) hup hs

/-! ### Resets (R443, R473) and the release (R474, R475) -/

theorem aonPorstRelease_reset {s : State} (h : s.cpm.boot = .aonReset) : aonPorstRelease s =
    { unitUpd s huskId (fun r => { r with st := .test, ep := true }) with
      cpm := { s.cpm with boot := .mainReset, watchOk := true, aonTick := s.now } } := if_neg (not_not_intro h)

theorem aonPorstRelease_other {s : State} (h : s.cpm.boot ≠ .aonReset) : aonPorstRelease s = s := if_pos h

theorem aonUp_boot {s : State} (h : aonUp s = true) : s.cpm.boot ≠ .aonReset := by
  intro hboot
  rw [aonUp, hboot, Bool.and_false] at h
  exact Bool.false_ne_true h

theorem porstLow_powered {s : State} (h : aonUp s = true) : porstLow s = resetTo s false 2 := if_neg (aonUp_boot h)

theorem reachTick_now (s : State) (t : Nat) : t ≤ (reachTick s t).now := by
  rw [reachTick, advance_now]
  omega

/-- Time that passes until a tick moves the time and the PHU only. -/
theorem reachTick_form (s : State) (t : Nat) : ∃ now phu, reachTick s t = { s with now := now, phu := phu } ∧ t ≤ now := by
  obtain ⟨phu, h⟩ := advance_form s (t - s.now)
  exact ⟨_, phu, h, by omega⟩

theorem porstRelease_reset {s : State} (h : s.cpm.boot = .mainReset) (bootSel : Bool) :
    let t := porstRelease s bootSel
    t.cpm.boot = .booting ∧ t.cpm.step = 0 ∧ t.cpm.bootSel = bootSel ∧ s.cpm.aonTick + 900000 ≤ t.now ∧
      Raised t 0x1208 0xFFFF s.cpm.cause 0 ∧ t.units = s.units ∧ t.mem = s.mem := by
  intro t
  obtain ⟨now, phu, hreach, hnow⟩ := reachTick_form s (s.cpm.aonTick + 900000)
  have ht : t = bootStart { s with now := now, phu := phu } bootSel := (if_pos h).trans (by rw [hreach])
  rw [ht, bootStart]
  rw [raise_cpm, raise_now, raise_units, raise_mem]
  exact ⟨rfl, rfl, rfl, hnow, raised_here .., rfl, rfl⟩

theorem porstRelease_other {s : State} (h : s.cpm.boot ≠ .mainReset) (bootSel : Bool) : porstRelease s bootSel = s := if_neg h

/-! ### REFCLK and the PLLs (R462) -/

theorem refclkStable_first {s : State} (hboot : s.cpm.boot = .booting) (href : s.cpm.refOk = false) :
    ∃ now phu, refclkStable s = { s with cpm := { s.cpm with refOk := true, step := 1 }, now := now, phu := phu } ∧
      s.cpm.bootTick + 23592960 ≤ now := by
  obtain ⟨now, phu, hreach, hnow⟩ := reachTick_form s (s.cpm.bootTick + 23592960)
  refine ⟨now, phu, (if_pos ⟨hboot, by rw [href]; rfl⟩).trans ?_, hnow⟩
  rw [hreach]

theorem refclkStable_other {s : State} (h : s.cpm.boot ≠ .booting ∨ s.cpm.refOk = true) : refclkStable s = s := by
  refine if_neg ?_
  rintro ⟨hboot, href⟩
  rcases h with h | h
  · exact h hboot
  · rw [h] at href
    exact Bool.false_ne_true href

/-- The device after a count of the PLLs: the time, the locks and whether the OS image is good. -/
def pllCounted (s : State) (locks : Nat) (osOk : Bool) : State :=
  let a := advance s 5898240
  { a with cpm := { a.cpm with pllLock := locks, osOk := osOk } }

theorem pllCounted_form (s : State) (locks : Nat) (osOk : Bool) : ∃ now phu, pllCounted s locks osOk =
    { s with cpm := { s.cpm with pllLock := locks, osOk := osOk }, now := now, phu := phu } := by
  obtain ⟨phu, h⟩ := advance_form s 5898240
  exact ⟨_, phu, by rw [pllCounted, h]⟩

theorem pllLockCheck_turn {s : State} (hboot : s.cpm.boot = .booting) (href : s.cpm.refOk = true) (hstep : s.cpm.step = 1) (locks : Nat)
    (imageOk osOk : Bool) : pllLockCheck s locks imageOk osOk =
      let c := pllCounted s locks osOk
      if locks = 15 then bootFirmware { c with cpm := { c.cpm with step := 2 } } imageOk
      else if c.cpm.lockTries < 3 then { c with cpm := { c.cpm with lockTries := c.cpm.lockTries + 1 } }
      else raise { c with cpm := { c.cpm with boot := .stopped } } 0x1206 0xFFFF 2 1 := if_pos ⟨hboot, href, hstep⟩

theorem pllLockCheck_other {s : State} (h : s.cpm.boot ≠ .booting ∨ s.cpm.refOk = false ∨ s.cpm.step ≠ 1) (locks : Nat) (imageOk osOk : Bool) :
    pllLockCheck s locks imageOk osOk = s := by
  refine if_neg ?_
  rintro ⟨hboot, href, hstep⟩
  exact h.elim (· hboot) fun h => h.elim (fun h => Bool.false_ne_true (h.symm.trans href)) (· hstep)

/-! ### The firmware starts (R475, R489) -/

/-- The slave's record but for its objects and its process data out. -/
def slaveOf (d : Od) : Od := { d with obj := [], force := [], tx := [], txWrites := 0 }

/-- What the load of the objects, the clock gates, the source and the tests of the units leave, beside what they raise. -/
structure BootFrame (s t : State) : Prop where
  cpm : t.cpm = s.cpm
  slave : slaveOf t.od = slaveOf s.od
  svc : t.svc = s.svc
  bytes : t.mem.bytes = s.mem.bytes
  added : ∃ l, t.logs.buf = s.logs.buf ++ l

namespace BootFrame

theorem of_eq {s t : State} (hcpm : t.cpm = s.cpm) (hslave : slaveOf t.od = slaveOf s.od) (hsvc : t.svc = s.svc)
    (hbytes : t.mem.bytes = s.mem.bytes) (hlogs : t.logs = s.logs) : BootFrame s t :=
  ⟨hcpm, hslave, hsvc, hbytes, [], by rw [hlogs, List.append_nil]⟩

theorem refl (s : State) : BootFrame s s := of_eq rfl rfl rfl rfl rfl

theorem trans {s t u : State} (h : BootFrame s t) (h' : BootFrame t u) : BootFrame s u :=
  ⟨h'.cpm.trans h.cpm, h'.slave.trans h.slave, h'.svc.trans h.svc, h'.bytes.trans h.bytes, added_trans h.added h'.added⟩

theorem foldl {α : Type} {f : State → α → State} (h : ∀ s x, BootFrame s (f s x)) (l : List α) (s : State) :
    BootFrame s (l.foldl f s) := by
  induction l generalizing s with
  | nil => exact refl s
  | cons x l ih => exact (h s x).trans (ih (f s x))

theorem ite {s t u : State} (c : Prop) [Decidable c] (h : BootFrame s t) (h' : BootFrame s u) : BootFrame s (if c then t else u) := by
  split
  · exact h
  · exact h'

theorem al {s t : State} (h : BootFrame s t) : t.od.al = s.od.al := (congrArg Od.al h.slave :)
theorem phyReset {s t : State} (h : BootFrame s t) : t.od.phyReset = s.od.phyReset := (congrArg Od.phyReset h.slave :)

end BootFrame

theorem raise_bootFrame (s : State) (c u a b : Nat) : BootFrame s (raise s c u a b) :=
  ⟨raise_cpm .., by rw [raise_od], raise_svc .., by rw [raise_mem], (raise_eventFrame ..).added⟩

theorem loadField_bootFrame (s : State) (reg lo w v : Nat) : BootFrame s (loadField s reg lo w v) :=
  .ite _ (.refl s) (.of_eq rfl rfl rfl rfl rfl)

theorem loadObj_bootFrame (s : State) (idx sub : Nat) : BootFrame s (loadObj s idx sub) := by
  refine .ite _ (.refl s) ?_
  have hfields : BootFrame s ((rowsFor idx sub).foldl (fun t r => loadField t r.reg r.lo r.w (r.enc.of r.w (objF s idx sub))) s) :=
    .foldl (fun t _ => loadField_bootFrame t ..) _ s
  exact .ite _ (hfields.trans ((loadField_bootFrame ..).trans (loadField_bootFrame ..))) hfields

theorem loadObjs_bootFrame (l : List (Nat × Nat)) (s : State) : BootFrame s (l.foldl (fun s (p : Nat × Nat) => loadObj s p.1 p.2) s) :=
  .foldl (fun s _ => loadObj_bootFrame s ..) l s

theorem latchRegs_bootFrame (s : State) : BootFrame s { s with regsF := s.regs } := .of_eq rfl rfl rfl rfl rfl

theorem loadAll_bootFrame (s : State) : BootFrame s (loadAll s) := by
  unfold loadAll
  generalize loadList ++ [(0x2D00, 2)] = l
  exact (loadObjs_bootFrame l s).trans (latchRegs_bootFrame _)

theorem gateWrite_bootFrame (s : State) (v : Nat) : BootFrame s (gateWrite s v) := .of_eq rfl rfl rfl rfl rfl

theorem regLoad_bootFrame (s : State) (o v : Nat) : BootFrame s (regLoad s o v) := .of_eq rfl rfl rfl rfl rfl

theorem ungateEnabled_bootFrame (s : State) : BootFrame s (ungateEnabled s) := by
  unfold ungateEnabled
  dsimp only
  generalize loadList.filter _ = l
  exact (gateWrite_bootFrame ..).trans (loadObjs_bootFrame l _)

theorem objSet_bootFrame (s : State) (i j : Nat) (v : Int) : BootFrame s (objSet s i j v) := .of_eq rfl rfl rfl rfl rfl

/-- The areas of the store as a lay-out gives them; without one the settings in force stand, with event 0x0C0A. -/
def layOutWith (areas : Option (List Nat)) (s : State) : State :=
  match areas with
  | some l => { s with mem := { s.mem with areas := l } }
  | none =>
    let s := areaSettings.foldl (fun s p => objSet s p.1 p.2 (objF s p.1 p.2)) s
    raise s 0x0C0A 0xFFFF 0 1

theorem layOut_eq (s : State) : layOut s = layOutWith (layAreas secureOff (areaSizes s)) s := rfl

theorem layOut_bootFrame (s : State) : BootFrame s (layOut s) := by
  have hback : ∀ l : List (Nat × Nat), BootFrame s (raise (l.foldl (fun t p => objSet t p.1 p.2 (objF t p.1 p.2)) s) 0x0C0A 0xFFFF 0 1) :=
    fun l => .trans (.foldl (fun t p => objSet_bootFrame t ..) l s) (raise_bootFrame ..)
  rw [layOut_eq]
  generalize layAreas secureOff (areaSizes s) = areas
  cases areas with
  | some l => exact .of_eq rfl rfl rfl rfl rfl
  | none => exact hback areaSettings

theorem barDrive_bootFrame (s : State) : BootFrame s (barDrive s) := by
  obtain ⟨_, _, _, _, _, h⟩ := barDrive_eq s
  rw [h]
  exact .of_eq rfl rfl rfl rfl rfl

theorem srcSelect_bootFrame (s : State) (v : Nat) : BootFrame s (srcSelect s v) := by
  unfold srcSelect
  split
  · exact .trans (by exact .of_eq rfl rfl rfl rfl rfl) (barDrive_bootFrame _)
  · exact .ite _ (.of_eq rfl rfl rfl rfl rfl) (.trans (by exact .of_eq rfl rfl rfl rfl rfl) (barDrive_bootFrame _))
  · exact .refl s

theorem unitEvent_bootFrame (s : State) (u : Nat) (e : UEvent) : BootFrame s (unitEvent s u e) := by
  refine .of_eq ?_ (congrArg slaveOf ?_) ?_ (congrArg Mem.bytes (unitEvent_mem ..)) ?_
  · simp [unitEvent, apply_ite State.cpm]
  · simp [unitEvent, apply_ite State.od]
  · simp [unitEvent, apply_ite State.svc]
  · simp [unitEvent, apply_ite State.logs]

theorem testAll_bootFrame (s : State) : BootFrame s (testAll s) :=
  .foldl (fun s u => .ite _ (.refl s) (unitEvent_bootFrame s u .enable)) allUnits s

/-- The state with which the image of stack k starts. -/
def imageTaken (s : State) (k : Nat) : State :=
  let v := { s.svc with run := if k = 0 then s.svc.img0 else s.svc.img1, repair := some (1 - k) }
  { s with svc := if k = 0 then { v with store1 := .writing } else { v with store0 := .writing }
           mem := { s.mem with svcMask0 := 3, svcMask1 := 3 }
           od := { s.od with al := .init, phyReset := false }
           peers := { s.peers with pubSeq := (s.peers.pubStore + 65536) % 2 ^ 32 } }

/-- The registers, gates and areas of a boot, from the objects. -/
def bootLoaded (s : State) : State :=
  let s := ungateEnabled (layOut (loadAll (gateWrite (bootObjects s) 0xC00)))
  regLoad s Reg.podMargin (s.safety.par.mP * 2 ^ 16 + s.safety.par.mS)

/-- The source and the tests of the units at the end of step 3. -/
def bootTests (s : State) : State :=
  let src := field (regGet s Reg.phuCtrl) 0 2
  testAll (if src = 1 ∨ src = 2 then srcSelect s src else s)

theorem bootFirmware_recovery {s : State} {imageOk : Bool} (h : s.cpm.bootSel = true ∨ imageOk = false ∨ bootCopy s = none) :
    bootFirmware s imageOk = bootRecovery s := by
  have hnone : (if s.cpm.bootSel = true ∨ (!imageOk) = true then none else bootCopy s) = none := by
    split
    · rfl
    · rename_i hno
      rw [not_or] at hno
      exact h.elim (fun h => absurd h hno.1) fun h => h.elim (fun h => absurd (by rw [h]; rfl) hno.2) id
  unfold bootFirmware
  rw [hnone]

/-- The end of step 3, with the registers loaded. -/
def bootFinish (s : State) : State := bootTests { s with cpm := { s.cpm with step := 3 } }

theorem bootFirmware_image {s : State} {k : Nat} (hsel : s.cpm.bootSel = false) (hcopy : bootCopy s = some k) :
    bootFirmware s true = bootFinish (bootLoaded (imageTaken s k)) := by
  have hsome : (if s.cpm.bootSel = true ∨ (!true) = true then none else bootCopy s) = some k :=
    (if_neg (by rw [hsel]; decide)).trans hcopy
  unfold bootFirmware
  rw [hsome]
  rfl

theorem bootObjects_bootFrame (s : State) : BootFrame s (bootObjects s) := .of_eq rfl rfl rfl rfl rfl

theorem bootLoaded_bootFrame (s : State) : BootFrame s (bootLoaded s) := by
  unfold bootLoaded
  exact ((bootObjects_bootFrame s).trans ((gateWrite_bootFrame ..).trans ((loadAll_bootFrame _).trans ((layOut_bootFrame _).trans
    (ungateEnabled_bootFrame _))))).trans (regLoad_bootFrame ..)

theorem bootFinish_effect (s : State) :
    (bootFinish s).cpm = { s.cpm with step := 3 } ∧ (bootFinish s).od.al = s.od.al ∧ (bootFinish s).od.phyReset = s.od.phyReset ∧
      (bootFinish s).svc = s.svc := by
  have hframe : BootFrame { s with cpm := { s.cpm with step := 3 } } (bootFinish s) := by
    unfold bootFinish bootTests
    dsimp only
    exact (BootFrame.ite _ (srcSelect_bootFrame ..) (.refl _)).trans (testAll_bootFrame _)
  exact ⟨hframe.cpm, hframe.al, hframe.phyReset, hframe.svc⟩

theorem imageTaken_effect (s : State) (k : Nat) :
    (imageTaken s k).cpm = s.cpm ∧ (imageTaken s k).od.al = .init ∧ (imageTaken s k).od.phyReset = false ∧
      (imageTaken s k).svc.run = (if k = 0 then s.svc.img0 else s.svc.img1) := by
  refine ⟨rfl, rfl, rfl, ?_⟩
  unfold imageTaken
  dsimp only
  split <;> rfl

/-- Step 3 has been taken, and the image of stack k runs. -/
theorem bootFirmware_started {s : State} {k : Nat} (hsel : s.cpm.bootSel = false) (hcopy : bootCopy s = some k) :
    (bootFirmware s true).cpm.step = 3 ∧ (bootFirmware s true).cpm.boot = s.cpm.boot ∧ (bootFirmware s true).od.al = .init ∧
      (bootFirmware s true).od.phyReset = false ∧ (bootFirmware s true).svc.run = (if k = 0 then s.svc.img0 else s.svc.img1) := by
  have hload := bootLoaded_bootFrame (imageTaken s k)
  rw [bootFirmware_image hsel hcopy]
  generalize bootLoaded (imageTaken s k) = b at hload ⊢
  obtain ⟨hcpm, hal, hphy, hsvc⟩ := bootFinish_effect b
  obtain ⟨hcpm', hal', hphy', hrun⟩ := imageTaken_effect s k
  rw [hcpm, hal, hphy, hsvc, hload.cpm, hload.al, hload.phyReset, hload.svc, hcpm', hal', hphy', hrun]
  exact ⟨rfl, rfl, rfl, rfl, rfl⟩

theorem bootCopy_congr {s t : State} (h : t.svc = s.svc) : bootCopy t = bootCopy s := by rw [bootCopy, bootCopy, h]

section PllTurn

variable {s : State} (hboot : s.cpm.boot = .booting) (href : s.cpm.refOk = true) (hstep : s.cpm.step = 1)
include hboot href hstep

theorem pllLockCheck_again {locks : Nat} (hlocks : locks ≠ 15) (htries : s.cpm.lockTries < 3) (imageOk osOk : Bool) :
    ∃ now phu, pllLockCheck s locks imageOk osOk =
      { s with cpm := { s.cpm with pllLock := locks, osOk := osOk, lockTries := s.cpm.lockTries + 1 }, now := now, phu := phu } := by
  obtain ⟨now, phu, hcount⟩ := pllCounted_form s locks osOk
  refine ⟨now, phu, (pllLockCheck_turn hboot href hstep locks imageOk osOk).trans ?_⟩
  dsimp only
  rw [if_neg hlocks, hcount]
  exact if_pos htries

theorem pllLockCheck_stopped {locks : Nat} (hlocks : locks ≠ 15) (htries : 3 ≤ s.cpm.lockTries) (imageOk osOk : Bool) :
    let t := pllLockCheck s locks imageOk osOk
    t.cpm.boot = .stopped ∧ Raised t 0x1206 0xFFFF 2 1 ∧ t.units = s.units ∧ t.mem = s.mem := by
  intro t
  obtain ⟨now, phu, hcount⟩ := pllCounted_form s locks osOk
  have ht : t = raise { pllCounted s locks osOk with cpm := { (pllCounted s locks osOk).cpm with boot := .stopped } } 0x1206 0xFFFF 2 1 :=
    (pllLockCheck_turn hboot href hstep locks imageOk osOk).trans ((if_neg hlocks).trans (if_neg (by rw [hcount]; exact Nat.not_lt.mpr htries)))
  rw [ht, hcount]
  rw [raise_cpm, raise_units, raise_mem]
  exact ⟨rfl, raised_here .., rfl, rfl⟩

theorem pllLockCheck_recovery {imageOk : Bool} (h : s.cpm.bootSel = true ∨ imageOk = false ∨ bootCopy s = none) (osOk : Bool) :
    let t := pllLockCheck s 15 imageOk osOk
    t.cpm.boot = .recovery ∧ t.od.al = .boot ∧ t.od.phyReset = false ∧ t.units = s.units ∧ t.mem.bytes = s.mem.bytes := by
  intro t
  obtain ⟨now, phu, hcount⟩ := pllCounted_form s 15 osOk
  have ht : t = bootFirmware { pllCounted s 15 osOk with cpm := { (pllCounted s 15 osOk).cpm with step := 2 } } imageOk :=
    (pllLockCheck_turn hboot href hstep 15 imageOk osOk).trans (if_pos rfl)
  rw [hcount] at ht
  have hrec := bootFirmware_recovery (imageOk := imageOk) (s := { s with
    cpm := { s.cpm with pllLock := 15, osOk := osOk, step := 2 }, now := now, phu := phu })
    (h.imp id (Or.imp id ((bootCopy_congr (by rfl)).trans ·)))
  rw [ht.trans hrec]
  exact ⟨rfl, rfl, rfl, rfl, rfl⟩

theorem pllLockCheck_image {k : Nat} (hsel : s.cpm.bootSel = false) (hcopy : bootCopy s = some k) (osOk : Bool) :
    let t := pllLockCheck s 15 true osOk
    t.cpm.step = 3 ∧ t.cpm.boot = .booting ∧ t.od.al = .init ∧ t.od.phyReset = false ∧
      t.svc.run = (if k = 0 then s.svc.img0 else s.svc.img1) := by
  intro t
  obtain ⟨now, phu, hcount⟩ := pllCounted_form s 15 osOk
  have ht : t = bootFirmware { pllCounted s 15 osOk with cpm := { (pllCounted s 15 osOk).cpm with step := 2 } } true :=
    (pllLockCheck_turn hboot href hstep 15 true osOk).trans (if_pos rfl)
  rw [hcount] at ht
  obtain ⟨hstep3, hboot3, hal, hphy, hrun⟩ := bootFirmware_started (s := { s with
    cpm := { s.cpm with pllLock := 15, osOk := osOk, step := 2 }, now := now, phu := phu }) hsel ((bootCopy_congr (by rfl)).trans hcopy)
  rw [ht]
  exact ⟨hstep3, hboot3.trans hboot, hal, hphy, hrun⟩

end PllTurn

/-- Settles O49: the resets, the release, REFCLK and the counts of the PLLs, with the firmware's start and the recovery. -/
theorem resetAndBootSequence : Obligations.ResetAndBootSequence := by
  unfold Obligations.ResetAndBootSequence
  refine fun s => ⟨⟨_, rfl, rfl, rfl, ⟨rfl, rfl, rfl, rfl⟩, rfl, rfl, rfl, rfl, rfl, rfl, rfl, rfl⟩,
    fun h => congrArg _ (aonPorstRelease_reset h), fun h => congrArg _ (aonPorstRelease_other h), fun hup => ?_, fun hdown => ?_,
    fun b hup => ⟨fun h => ?_, fun h hs => ?_⟩, fun hup hs hboot href => ?_, fun hup hs h => ?_, fun locks imageOk osOk hup => ⟨fun h hs => ?_,
      fun hboot href hstep => ⟨fun hlocks htries hs => ?_, fun hlocks htries => ?_, fun hlocks h => ?_, fun k hlocks hsel himage hcopy => ?_⟩⟩⟩
  · exact ⟨_, congrArg Host.Outcome.next ((if_pos hup).trans (porstLow_powered hup)), rfl, rfl, ⟨rfl, rfl, rfl, rfl⟩, rfl, rfl, rfl, rfl⟩
  · have hno : ¬ aonUp s = true := by rw [hdown]; decide
    exact ⟨congrArg _ (if_neg hno), congrArg _ (if_neg hno), fun b => congrArg _ (if_neg hno)⟩
  · exact ⟨_, runAon_next rfl hup, porstRelease_reset (s := answer s .none) h b⟩
  · exact runAon_next_settled (porstRelease_other (s := answer s .none) h b) hup hs
  · obtain ⟨now, phu, hstable, hnow⟩ := refclkStable_first (s := answer s .none) hboot href
    exact ⟨_, runAon_next_settled hstable hup hs, rfl, rfl, hnow⟩
  · exact runAon_next_settled (refclkStable_other (s := answer s .none) h) hup hs
  · exact runAon_next_settled (pllLockCheck_other (s := answer s .none) h _ _ _) hup hs
  · obtain ⟨now, phu, hagain⟩ := pllLockCheck_again (s := answer s .none) hboot href hstep (locks := locks.toNat)
      (fun h => hlocks (BitVec.eq_of_toNat_eq h)) htries imageOk osOk
    exact ⟨_, runAon_next_settled hagain hup hs, rfl, rfl⟩
  · exact ⟨_, runAon_next rfl hup, pllLockCheck_stopped (s := answer s .none) hboot href hstep (fun h => hlocks (BitVec.eq_of_toNat_eq h))
      htries imageOk osOk⟩
  · subst hlocks
    exact ⟨_, runAon_next rfl hup, pllLockCheck_recovery (s := answer s .none) hboot href hstep h osOk⟩
  · subst hlocks himage
    exact ⟨_, runAon_next rfl hup, pllLockCheck_image (s := answer s .none) hboot href hstep hsel hcopy osOk⟩

end Sys2Proof.Machine

/-!
Clocks and power (R461 to R472): failed and restored sources, the clock gates, DVFS and the power cap, and the proof of ClocksGatesAndPower.
-/
namespace Sys2Proof.Machine

/-! ### A failed source (R464) -/

theorem clkFail_known {s : State} {src : Nat} (h : srcFailed s src = true) : clkFail s src = s := if_pos h

theorem clkFail_effect {s : State} {src : Nat} (h : srcFailed s src = false) :
    let t := clkFail s src
    t.safety.permitA = false ∧ t.safety.permitB = false ∧ t.safety.faultN = false ∧
      (s.safety.permit = true ∨ s.safety.grant = true → PermitLow t ∧ t.safety.cause = 4 ∧ Raised t 0x0D04 huskId 4 s.phu.cycle) ∧
      Raised t 0x1201 0xFFFF src s.phu.cycle ∧ t.cpm.failed = s.cpm.failed ++ [(src, s.now)] ∧ t.mem = s.mem ∧ t.units = s.units := by
  intro t
  have ht : t = _ := if_neg (by rw [h]; decide)
  have hnow : (lapse s 4).now = s.now := by
    unfold lapse
    split
    · rw [raise_now]
      split <;> rfl
    · rfl
  have hlow : (clockLow s).safety = { (lapse s 4).safety with permitA := false, permitB := false, faultN := false } := rfl
  have hphu : (clockLow s).phu = s.phu := lapse_phu ..
  have hcpm : (clockLow s).cpm = s.cpm := lapse_cpm ..
  have hmem : (clockLow s).mem = s.mem := lapse_mem ..
  have hunits : (clockLow s).units = s.units := lapse_units ..
  have hnow' : (clockLow s).now = s.now := hnow
  have hsafety : t.safety = (clockLow s).safety := by rw [ht, raise_safety]
  rw [hlow] at hsafety
  refine ⟨congrArg Safety.permitA hsafety, congrArg Safety.permitB hsafety, congrArg Safety.faultN hsafety, fun held => ?_, ?_, ?_,
    by rw [ht, raise_mem, hmem], by rw [ht, raise_units, hunits]⟩
  · obtain ⟨⟨hp, hg, -, -⟩, hraised⟩ := lapse_held held 4
    refine ⟨⟨(congrArg Safety.permit hsafety).trans hp, (congrArg Safety.grant hsafety).trans hg, congrArg Safety.permitA hsafety,
      congrArg Safety.permitB hsafety⟩, (congrArg Safety.cause hsafety).trans (lapse_cause held 4), ?_⟩
    rw [ht]
    exact raised_raise (s := clockLow s) hraised ..
  · rw [ht, ← hphu]
    exact raised_here ..
  · rw [ht]
    dsimp only
    rw [raise_cpm, raise_now, hcpm, hnow']

/-! ### A restored source (R464) -/

/-- What the failure of the tasks of stopped units leaves. -/
structure StopFrame (s t : State) : Prop where
  cpm : t.cpm = s.cpm
  phu : t.phu = s.phu
  bytes : t.mem.bytes = s.mem.bytes
  added : ∃ l, t.logs.buf = s.logs.buf ++ l

namespace StopFrame

theorem refl (s : State) : StopFrame s s := ⟨rfl, rfl, rfl, [], (List.append_nil _).symm⟩

theorem trans {s t u : State} (h : StopFrame s t) (h' : StopFrame t u) : StopFrame s u :=
  ⟨h'.cpm.trans h.cpm, h'.phu.trans h.phu, h'.bytes.trans h.bytes, added_trans h.added h'.added⟩

theorem foldl {α : Type} {f : State → α → State} (h : ∀ s x, StopFrame s (f s x)) (l : List α) (s : State) :
    StopFrame s (l.foldl f s) := by
  induction l generalizing s with
  | nil => exact refl s
  | cons x l ih => exact (h s x).trans (ih (f s x))

theorem of_work {s t : State} (h : WorkFrame s t) (hphu : t.phu = s.phu) : StopFrame s t :=
  ⟨congrArg Bystanders.cpm h.bystanders, hphu, congrArg Mem.bytes h.mem, h.added⟩

end StopFrame

theorem failExec_stopFrame (s : State) (u : Nat) : StopFrame s (failExec s u) := by
  unfold failExec
  split
  · exact .refl s
  · next t _ =>
    have hslot := slotNext_workFrame (dropStalls s u) u
    have hrun := failRun_workFrame (slotNext (dropStalls s u) u) t u
    have hphu := (slotNext_taskFrame (dropStalls s u) u).phu
    have hphu' := (failRun_taskFrame (slotNext (dropStalls s u) u) t u).phu
    exact .trans (t := dropStalls s u) ⟨rfl, rfl, rfl, [], (List.append_nil _).symm⟩ ((StopFrame.of_work hslot hphu).trans (.of_work hrun hphu'))

theorem evalFail_stopFrame (s : State) (e : Eval) (u : Nat) : StopFrame s (evalFail s e u) :=
  .trans (t := dropEval s e.task.rid) ⟨rfl, rfl, rfl, [], (List.append_nil _).symm⟩
    (.of_work (clkDecs_workFrame ..) (clkDecs_taskFrame ..).phu)

/-- A unit that stopped with its source fails the task that it has begun. -/
def failBegun (s : State) (u : Nat) : State :=
  match (unitOf s u).exec with
  | some t => if t.began then failExec s u else s
  | none => s

theorem failBegun_stopFrame (s : State) (u : Nat) : StopFrame s (failBegun s u) := by
  unfold failBegun
  split
  · split
    · exact failExec_stopFrame ..
    · exact .refl s
  · exact .refl s

theorem failStopped_eq (s : State) (src : Nat) : failStopped s src =
    let t := (stoppedUnits src).foldl failBegun s
    if src = 1 ∨ src = 2 then (t.pod.evals.filter (·.started)).foldl (fun s e => evalFail s e 0xFFFF) t else t := rfl

theorem failStopped_stopFrame (s : State) (src : Nat) : StopFrame s (failStopped s src) := by
  rw [failStopped_eq]
  have hunits := StopFrame.foldl failBegun_stopFrame (stoppedUnits src) s
  dsimp only
  split
  · exact hunits.trans (.foldl (fun s e => evalFail_stopFrame s e 0xFFFF) _ _)
  · exact hunits

theorem failStopped_none {s : State} {src : Nat} (hunits : stoppedUnits src = []) (hsrc : ¬ (src = 1 ∨ src = 2)) : failStopped s src = s := by
  rw [failStopped_eq, hunits]
  exact if_neg hsrc

/-- The device as the source's count has ended: time has passed and the source has left the list. -/
def srcBack (s : State) (src dt failedAt : Nat) : State :=
  let s := advance s dt
  let rest := s.cpm.failed.filter (fun (x : Nat × Nat) => x.1 != src)
  let lock := if src = 1 then 15 else s.cpm.pllLock ||| 2 ^ (src - 2)
  let c := { s.cpm with failed := rest, refOk := s.cpm.refOk || src == 1
                        pllLock := rest.foldl (fun l (x : Nat × Nat) => lostLocks x.1 l) lock }
  raise { s with cpm := c } 0x1202 0xFFFF src ((s.now - failedAt) / 9000)

/-- FAULT_N rises where the lock is set and no source is left failed. -/
def faultRise (s : State) : State :=
  if s.safety.lock ∧ s.cpm.failed.isEmpty then { s with safety := { s.safety with faultN := true } } else s

/-- The phase of a restored source, and FAULT_N. -/
def rejoin (s : State) (src : Nat) : State :=
  faultRise (if (src = 1 ∨ src = 2) ∧ s.phu.st ≠ .off then toAcquire s false none else s)

theorem clkRestored_failed {s : State} {src : Nat} {p : Nat × Nat} (h : s.cpm.failed.find? (fun p => p.1 == src) = some p) (dt : Nat) :
    clkRestored s src dt = rejoin (failStopped (srcBack s src dt p.2) src) src := by
  unfold clkRestored
  rw [h]
  rfl

theorem clkRestored_good {s : State} {src : Nat} (h : s.cpm.failed.find? (fun p => p.1 == src) = none) (dt : Nat) :
    clkRestored s src dt = s := by
  unfold clkRestored
  rw [h]

theorem srcBack_form (s : State) (src dt failedAt : Nat) :
    (srcBack s src dt failedAt).cpm.failed = s.cpm.failed.filter (fun x => x.1 != src) ∧
    Raised (srcBack s src dt failedAt) 0x1202 0xFFFF src ((s.now + dt - failedAt) / 9000) ∧ (srcBack s src dt failedAt).mem = s.mem ∧
    (srcBack s src dt failedAt).phu.st = s.phu.st ∧ (srcBack s src dt failedAt).safety = s.safety ∧
    (srcBack s src dt failedAt).units = s.units := by
  have hst : (advance s dt).phu.st = s.phu.st := by
    unfold advance
    split <;> rfl
  unfold srcBack
  dsimp only
  rw [raise_cpm, raise_mem, raise_phu, raise_safety, raise_units]
  refine ⟨by simp only [advance_cpm], ?_, advance_mem .., hst, advance_safety .., advance_units ..⟩
  rw [advance_now]
  exact raised_here ..

theorem toAcquire_effect (s : State) (held : Bool) (first : Option Nat) :
    (toAcquire s held first).phu.st = .acquire ∧ ∃ phu, toAcquire s held first = { s with phu := phu } := by
  obtain ⟨out, bar, launch, fall, ret, h⟩ := barDrive_eq { s with phu := { s.phu with
    st := .acquire, held := held, lastEdge := first, inRange := false, inTol := 0, outTol := 0, edges := if first.isSome then 1 else 0 } }
  rw [show toAcquire s held first = _ from h]
  exact ⟨rfl, _, rfl⟩

theorem faultRise_kept (s : State) :
    (faultRise s).cpm = s.cpm ∧ (faultRise s).logs = s.logs ∧ (faultRise s).mem = s.mem ∧ (faultRise s).units = s.units ∧
    (faultRise s).phu = s.phu := by
  unfold faultRise
  split <;> exact ⟨rfl, rfl, rfl, rfl, rfl⟩

theorem rejoin_effect (s : State) (src : Nat) :
    (rejoin s src).cpm = s.cpm ∧ (rejoin s src).logs = s.logs ∧ (rejoin s src).mem = s.mem ∧ (rejoin s src).units = s.units ∧
    (src = 1 ∨ src = 2 → s.phu.st ≠ .off → (rejoin s src).phu.st = .acquire) := by
  unfold rejoin
  obtain ⟨hst, phu, h⟩ := toAcquire_effect s false none
  by_cases hsrc : (src = 1 ∨ src = 2) ∧ s.phu.st ≠ .off
  · obtain ⟨hcpm, hlogs, hmem, hunits, hphu⟩ := faultRise_kept (toAcquire s false none)
    rw [if_pos hsrc, hcpm, hlogs, hmem, hunits, hphu]
    refine ⟨?_, ?_, ?_, ?_, fun _ _ => hst⟩ <;> rw [h]
  · obtain ⟨hcpm, hlogs, hmem, hunits, -⟩ := faultRise_kept s
    rw [if_neg hsrc]
    exact ⟨hcpm, hlogs, hmem, hunits, fun h1 h2 => absurd ⟨h1, h2⟩ hsrc⟩

theorem rejoin_alone {s : State} {src : Nat} (hsrc : ¬ (src = 1 ∨ src = 2)) (hlock : s.safety.lock = true) (hempty : s.cpm.failed = []) :
    (rejoin s src).safety = { s.safety with faultN := true } := by
  unfold rejoin faultRise
  rw [if_neg (show ¬ ((src = 1 ∨ src = 2) ∧ s.phu.st ≠ .off) from fun h => hsrc h.1), if_pos ⟨hlock, by rw [hempty]; rfl⟩]

/-- A restored source leaves the list of the failed, and the logic rejoins. -/
theorem clkRestored_effect {s : State} {src : Nat} {p : Nat × Nat} (h : s.cpm.failed.find? (fun p => p.1 == src) = some p) (dt : Nat) :
    let t := clkRestored s src dt
    t.cpm.failed = s.cpm.failed.filter (fun x => x.1 != src) ∧ Raised t 0x1202 0xFFFF src ((s.now + dt - p.2) / 9000) ∧
      t.mem.bytes = s.mem.bytes ∧ (src = 1 ∨ src = 2 → s.phu.st ≠ .off → t.phu.st = .acquire) := by
  intro t
  obtain ⟨hfailed, hraised, hmem, hst, -, -⟩ := srcBack_form s src dt p.2
  have hstop := failStopped_stopFrame (srcBack s src dt p.2) src
  rw [show t = _ from clkRestored_failed h dt]
  generalize failStopped (srcBack s src dt p.2) src = r at hstop ⊢
  obtain ⟨hcpm, hlogs, hmem', -, hacq⟩ := rejoin_effect r src
  refine ⟨by rw [hcpm, hstop.cpm, hfailed], raised_same (raised_more hraised hstop.added) (congrArg Logs.buf hlogs),
    by rw [hmem', hstop.bytes, hmem], fun hsrc hoff => hacq hsrc ?_⟩
  rw [hstop.phu, hst]
  exact hoff

/-- The source of code 4 stops no unit that executes descriptors: with it restored alone only FAULT_N rises. -/
theorem clkRestored_alone {s : State} {p : Nat × Nat} (h : s.cpm.failed.find? (fun p => p.1 == 4) = some p) (dt : Nat)
    (hlock : s.safety.lock = true) (halone : s.cpm.failed = [p]) :
    let t := clkRestored s 4 dt
    t.safety = { s.safety with faultN := true } ∧ t.mem = s.mem ∧ t.units = s.units := by
  intro t
  obtain ⟨hfailed, -, hmem, -, hsafety, hunits⟩ := srcBack_form s 4 dt p.2
  have hp : (p.1 == 4) = true := List.find?_some (p := fun (x : Nat × Nat) => x.1 == 4) h
  have hempty : (srcBack s 4 dt p.2).cpm.failed = [] := by
    rw [hfailed, halone]
    simp [bne, hp]
  rw [show t = _ from clkRestored_failed h dt, failStopped_none (by decide) (by decide)]
  obtain ⟨-, -, hmem', hunits', -⟩ := rejoin_effect (srcBack s 4 dt p.2) 4
  refine ⟨?_, by rw [hmem', hmem], by rw [hunits', hunits]⟩
  rw [rejoin_alone (by decide) (by rw [hsafety]; exact hlock) hempty, hsafety]

/-! ### Clock gates (R467) -/

theorem smap_filter_regGet {m : Smap (BitVec 32)} (hm : Smap.wf regReset m = true) {on : Nat → Bool} (o : Nat) :
    Smap.get regReset (m.filter (fun p => on p.1)) o = if on o = true then Smap.get regReset m o else regReset o := by
  cases h : on o with
  | true => exact smap_get_filter regReset hm h
  | false => exact smap_get_filtered regReset m h

/-- Whether the block of a register has its clock under the gates v. -/
def gateKeeps (v o : Nat) : Bool := (gateBitOf o).elim true (bit v)

/-- The word that a write gives the register of the gates. -/
def gateWord (v : Nat) : BitVec 32 := BitVec.ofNat 32 (v % 2 ^ 14)

theorem gateWord_toNat (v : Nat) : (gateWord v).toNat = v % 2 ^ 14 := by
  have hlt : v % 2 ^ 14 < 2 ^ 32 := Nat.lt_of_lt_of_le (Nat.mod_lt v (Nat.two_pow_pos 14)) (Nat.pow_le_pow_right Nat.two_pos (by decide))
  rw [gateWord, BitVec.toNat_ofNat, Nat.mod_eq_of_lt hlt]

theorem gateWrite_regs (s : State) (v : Nat) : (gateWrite s v).regs =
    (Smap.set regReset s.regs Reg.cpmGate (gateWord v)).filter (fun p => gateKeeps v p.1) := by
  have hkeeps : (fun o => match gateBitOf o with | some b => bit v b | none => true) = gateKeeps v := by
    funext o
    rw [gateKeeps]
    cases gateBitOf o <;> rfl
  rw [← hkeeps]
  rfl

theorem gateBitOf_gate : gateBitOf Reg.cpmGate = none := by decide

theorem gateKeeps_ungated {o : Nat} (h : gateBitOf o = none) (v : Nat) : gateKeeps v o = true := congrArg (Option.elim · true (bit v)) h

theorem gateKeeps_gated {o b : Nat} (h : gateBitOf o = some b) (v : Nat) : gateKeeps v o = bit v b := congrArg (Option.elim · true (bit v)) h

section Gated

variable {m : Smap (BitVec 32)} (hm : Smap.wf regReset m = true) {g v : Nat} (w : BitVec 32)
include hm

theorem gated_get_gate (hg : gateBitOf g = none) :
    Smap.get regReset ((Smap.set regReset m g w).filter (fun p => gateKeeps v p.1)) g = w := by
  rw [smap_filter_regGet (smap_set_wf regReset m g w hm), if_pos (gateKeeps_ungated hg v), smap_get_set_same regReset m 0 g w hm]

theorem gated_get_block (hg : gateBitOf g = none) {o b : Nat} (hb : gateBitOf o = some b) :
    Smap.get regReset ((Smap.set regReset m g w).filter (fun p => gateKeeps v p.1)) o =
      if bit v b = true then Smap.get regReset m o else regReset o := by
  have hne : o ≠ g := by
    rintro rfl
    exact nomatch hg.symm.trans hb
  rw [smap_filter_regGet (smap_set_wf regReset m g w hm), gateKeeps_gated hb, smap_get_set_other regReset m 0 g o w hm hne]

end Gated

/-- A gate write: the gates take their bits, and a gated block's registers read their reset values. -/
theorem gateWrite_effect {s : State} (hs : RegsOk s) (v : Nat) :
    let t := gateWrite s v
    regGet t Reg.cpmGate = v % 2 ^ 14 ∧ (∀ o b, gateBitOf o = some b → regGet t o = if bit v b then regGet s o else (regReset o).toNat) ∧
      t = { s with regs := t.regs, regsF := t.regsF, pins := t.pins, peers := t.peers } := by
  intro t
  have hget : ∀ o, regGet t o = _ := fun o => congrArg (fun m => (Smap.get regReset m o).toNat) (gateWrite_regs s v)
  refine ⟨?_, fun o b hb => ?_, rfl⟩
  · exact (hget _).trans ((congrArg BitVec.toNat (gated_get_gate hs.1 _ gateBitOf_gate)).trans (gateWord_toNat v))
  · refine (hget o).trans ((congrArg BitVec.toNat (gated_get_block hs.1 _ gateBitOf_gate hb)).trans ?_)
    split <;> rfl

/-! ### DVFS and the power cap (R471, R472) -/

theorem pointSet_same {s : State} {p : Nat} (h : s.cpm.point = p) (why : Nat) : pointSet s p why = s := if_pos h

theorem pointSet_point (s : State) (p why : Nat) : (pointSet s p why).cpm.point = p := by
  unfold pointSet
  split
  · assumption
  · rw [raise_cpm]

/-- A change of the point: its event and what it leaves. -/
theorem pointSet_effect (s : State) (p why : Nat) :
    (s.cpm.point ≠ p → Raised (pointSet s p why) 0x1203 0xFFFF p why ∧ (pointSet s p why).cpm.upTo = none) ∧
    (pointSet s p why).cpm.volt = s.cpm.volt ∧ (pointSet s p why).cpm.avg = s.cpm.avg ∧ (pointSet s p why).mem = s.mem ∧
    (pointSet s p why).units = s.units := by
  unfold pointSet
  split
  · exact ⟨fun h => absurd (by assumption) h, rfl, rfl, rfl, rfl⟩
  · rw [raise_cpm, raise_mem, raise_units]
    exact ⟨fun _ => ⟨raised_here .., rfl⟩, rfl, rfl, rfl, rfl⟩

theorem goDown_effect (s : State) (why : Nat) :
    (goDown s why).cpm.point = min 2 (s.cpm.point + 1) ∧ (goDown s why).cpm.avg = s.cpm.avg ∧
    (s.cpm.point < 2 → Raised (goDown s why) 0x1203 0xFFFF (s.cpm.point + 1) why) ∧ (goDown s why).mem = s.mem ∧
    (goDown s why).units = s.units := by
  obtain ⟨hraised, -, havg, hmem, hunits⟩ := pointSet_effect { s with cpm := { s.cpm with
      upTo := none, coolMs := 0, voltAt := if min 2 (s.cpm.point + 1) = s.cpm.point then s.cpm.voltAt else some s.now } }
    (min 2 (s.cpm.point + 1)) why
  refine ⟨pointSet_point .., havg, fun hlt => ?_, hmem, hunits⟩
  have hmin : min 2 (s.cpm.point + 1) = s.cpm.point + 1 := by omega
  have h := (hraised (by show s.cpm.point ≠ _; omega)).1
  rw [hmin] at h
  rw [goDown, hmin]
  exact h

/-- The power monitor with a peak counted. -/
def peaked (s : State) (est : Nat) : State := { s with cpm := { s.cpm with peakCur := max s.cpm.peakCur est } }

theorem capEstimate_none {s : State} {est : Nat} (h : est ≤ capNow s) : capEstimate s est none = peaked s est :=
  if_neg (show ¬ capNow (peaked s est) < est from Nat.not_lt.mpr h)

theorem capEstimate_some {s : State} {est : Nat} (h : est ≤ capNow s) (avg : Nat) :
    capEstimate s est (some avg) = capAverage (peaked s est) avg :=
  congrArg (capAverage · avg) (if_neg (show ¬ capNow (peaked s est) < est from Nat.not_lt.mpr h))

theorem capEstimate_high {s : State} {est : Nat} (h : capNow s < est) :
    let t := capEstimate s est none
    t.cpm.point = min 2 (s.cpm.point + 1) ∧ Raised t 0x1204 0xFFFF est (min 2 (s.cpm.point + 1)) ∧
      (s.cpm.point < 2 → Raised t 0x1203 0xFFFF (s.cpm.point + 1) 1) ∧ t.mem = s.mem ∧ t.units = s.units := by
  intro t
  obtain ⟨hpoint, -, hraised, hmem, hunits⟩ := goDown_effect (peaked s est) 1
  have ht : t = raise (goDown (peaked s est) 1) 0x1204 0xFFFF est (goDown (peaked s est) 1).cpm.point := if_pos h
  rw [ht, raise_cpm, raise_mem, raise_units]
  refine ⟨hpoint, ?_, fun hlt => raised_raise (hraised hlt) .., hmem, hunits⟩
  rw [hpoint]
  exact raised_here ..

/-- The averages below CAP − 5 W in a row, with a new one. -/
def coolNow (s : State) (avg : Nat) : Nat := if avg + 50 < capNow s then min 100 (s.cpm.coolMs + 1) else 0

/-- The power monitor with an average counted. -/
def averaged (s : State) (avg : Nat) : State := { s with cpm := { s.cpm with avg := avg, coolMs := coolNow s avg } }

theorem capAverage_eq (s : State) (avg : Nat) : capAverage s avg =
    let t := averaged s avg
    if capNow s < avg + 20 then goDown t 1
    else if 100 ≤ t.cpm.coolMs ∧ t.cpm.upTo.isNone ∧ max t.cpm.capCeil (dvfsCeil t) < t.cpm.point then
      { t with cpm := { t.cpm with upTo := some (t.cpm.point - 1), voltAt := some t.now } }
    else t := rfl

theorem capAverage_cool {s : State} {avg : Nat} (hcap : avg + 20 ≤ capNow s) (hcool : coolNow s avg < 100) :
    capAverage s avg = averaged s avg := by
  rw [capAverage_eq]
  exact (if_neg (Nat.not_lt.mpr hcap)).trans (if_neg fun h => absurd h.1 (Nat.not_le.mpr hcool))

theorem capAverage_up {s : State} {avg : Nat} (hcool : coolNow s avg = 100) (hnone : s.cpm.upTo = none)
    (hceil : max s.cpm.capCeil (dvfsCeil s) < s.cpm.point) : capAverage s avg =
      { s with cpm := { s.cpm with avg := avg, coolMs := 100, upTo := some (s.cpm.point - 1), voltAt := some s.now } } := by
  have hcap : ¬ capNow s < avg + 20 := by
    intro hlt
    have hzero : coolNow s avg = 0 := if_neg (by omega)
    rw [hzero] at hcool
    exact absurd hcool (by decide)
  rw [capAverage_eq]
  have hnone' : (averaged s avg).cpm.upTo.isNone = true := Option.isNone_iff_eq_none.mpr hnone
  refine (if_neg hcap).trans ((if_pos ⟨hcool.symm ▸ Nat.le_refl _, hnone', hceil⟩).trans ?_)
  rw [averaged, hcool]

theorem capAverage_down {s : State} {avg : Nat} (hcap : capNow s < avg + 20) (hpoint : s.cpm.point < 2) :
    let t := capAverage s avg
    t.cpm.point = s.cpm.point + 1 ∧ t.cpm.avg = avg ∧ Raised t 0x1203 0xFFFF (s.cpm.point + 1) 1 ∧ t.mem = s.mem := by
  intro t
  obtain ⟨hp, havg, hraised, hmem, -⟩ := goDown_effect (averaged s avg) 1
  rw [show t = goDown (averaged s avg) 1 from if_pos hcap]
  refine ⟨hp.trans ?_, havg, hraised hpoint, hmem⟩
  exact Nat.min_eq_right (by exact hpoint)

theorem voltageDone_same {s : State} (h : s.cpm.upTo.getD s.cpm.point = s.cpm.point) :
    voltageDone s = { s with cpm := { s.cpm with volt := s.cpm.point, voltAt := none } } := by
  unfold voltageDone
  dsimp only
  rw [h]
  exact pointSet_same rfl 4

theorem voltageDone_up {s : State} {p : Nat} (h : s.cpm.upTo = some p) (hne : s.cpm.point ≠ p) :
    let t := voltageDone s
    t.cpm.point = p ∧ t.cpm.volt = p ∧ t.cpm.upTo = none ∧ Raised t 0x1203 0xFFFF p 4 ∧ t.mem = s.mem ∧ t.units = s.units := by
  intro t
  have ht : t = pointSet { s with cpm := { s.cpm with volt := p, voltAt := none } } p 4 := by
    simp only [t, voltageDone, h, Option.getD_some]
  obtain ⟨hraised, hvolt, -, hmem, hunits⟩ := pointSet_effect { s with cpm := { s.cpm with volt := p, voltAt := none } } p 4
  obtain ⟨hevent, hup⟩ := hraised hne
  rw [ht]
  exact ⟨pointSet_point .., hvolt, hup, hevent, hmem, hunits⟩

/-- Settles O50: a failed and a restored source, the gates, the estimate and the average against CAP, and the voltage. -/
theorem clocksGatesAndPower : Obligations.ClocksGatesAndPower := by
  unfold Obligations.ClocksGatesAndPower
  refine fun s hup => ⟨fun n h => ?_, fun n h hs => ?_, fun n dt p h => ?_, fun n dt h hs => ?_, fun hs => ?_,
    fun w v hs => ⟨fun hout => ?_, fun hin hregs => ?_⟩, fun est => ?_, fun hio => ⟨fun h hs => ?_, fun p h hne => ?_⟩⟩
  · exact ⟨_, run_next rfl hup, clkFail_effect (s := answer s .none) h⟩
  · exact run_next_settled (clkFail_known (s := answer s .none) h) hup hs
  · obtain ⟨hfailed, hraised, hbytes, hacq⟩ := clkRestored_effect (s := answer s .none) h dt.toNat
    refine ⟨_, run_next rfl hup, hfailed, hraised, hbytes, fun hn hoff => hacq (by omega) hoff, fun hn hlock halone => ?_⟩
    have hsrc : n.val + 1 = 4 := by omega
    rw [hsrc] at h ⊢
    exact clkRestored_alone (s := answer s .none) h dt.toNat hlock halone
  · exact run_next_settled (clkRestored_good (s := answer s .none) h dt.toNat) hup hs
  · exact run_next_settled rfl hup hs
  · exact run_next_settled (if_pos hout) hup hs
  · have hwrite : (if lockedOut (answer s .none) w = true then answer s .none
        else gateWrite (answer s .none) (gateIn s.svc.life v.toNat)) = gateWrite (answer s .none) (gateIn s.svc.life v.toNat) :=
      if_neg fun h => Bool.false_ne_true (hin.symm.trans h)
    exact ⟨_, run_next_settled hwrite hup hs, gateWrite_effect (s := answer s .none) hregs _⟩
  · intro c
    refine ⟨fun hle hs => ?_, fun hlt => ?_, fun avg hle => ?_⟩
    · exact run_next_settled (capEstimate_none (s := answer s .none) hle) hup hs
    · exact ⟨_, run_next rfl hup, capEstimate_high (s := answer s .none) hlt⟩
    intro cool
    refine ⟨fun hcap hcool hs => ?_, fun hcool hnone hceil hs => ?_, fun hcap hpoint => ?_⟩
    · exact run_next_settled ((capEstimate_some (s := answer s .none) hle avg.toNat).trans
        (capAverage_cool (s := peaked (answer s .none) est.toNat) hcap hcool)) hup hs
    · exact run_next_settled ((capEstimate_some (s := answer s .none) hle avg.toNat).trans
        (capAverage_up (s := peaked (answer s .none) est.toNat) hcool hnone hceil)) hup hs
    · exact ⟨_, run_next (capEstimate_some (s := answer s .none) hle avg.toNat) hup,
        capAverage_down (s := peaked (answer s .none) est.toNat) hcap hpoint⟩
  · exact runIo_next_settled (voltageDone_same (s := answer s .none) h) hio hs
  · exact ⟨_, runIo_next rfl hio, voltageDone_up (s := answer s .none) h hne⟩

end Sys2Proof.Machine

/-!
The EtherCAT slave (R415 to R434): the AL states, the slave controller's registers, the ports and the RxPDO, and the proofs of AlStatesFollowTable
and SlaveControllerTakesFrames.
-/
namespace Sys2Proof.Machine

section EcatWrappers

variable {s t : State} {f : State → State} (hf : f (answer s .none) = t) (hphy : s.od.phyReset = false)
include hf hphy

theorem runEcat_next (hup : ioUp s = true) : (.next (runEcat s f) : Host.Outcome State Fault Refusal) = .next (flush t) :=
  (congrArg Host.Outcome.next (if_neg (by rw [hphy]; decide))).trans (runIo_next hf hup)
theorem runEcat_next_settled (hup : ioUp s = true) (ht : Settled t) :
    (.next (runEcat s f) : Host.Outcome State Fault Refusal) = .next t :=
  (runEcat_next hf hphy hup).trans (congrArg _ (flush_quiet t ht))

end EcatWrappers

theorem runEcat_held {s : State} (hphy : s.od.phyReset = true) (f : State → State) : runEcat s f = s := if_pos hphy

/-! ### What a change of the AL state leaves -/

theorem lapse_slave (s : State) (cause : Nat) : slaveOf (lapse s cause).od = slaveOf s.od := by
  unfold lapse
  dsimp only
  split
  · rw [raise_od]
    split <;> rfl
  · rfl

theorem lapse_bootFrame (s : State) (cause : Nat) : BootFrame s (lapse s cause) :=
  ⟨lapse_cpm .., lapse_slave .., lapse_svc .., congrArg Mem.bytes (lapse_mem ..), lapse_added ..⟩

theorem srcOff_bootFrame (s : State) (v : Nat) : BootFrame s (srcOff s v) :=
  (BootFrame.trans (by exact .of_eq rfl rfl rfl rfl rfl) (barDrive_bootFrame _)).trans (lapse_bootFrame ..)

theorem objWrite_bootFrame (s : State) (idx sub : Nat) : BootFrame s (objWrite s idx sub) := by
  unfold objWrite
  dsimp only
  split
  · exact .ite _ (srcSelect_bootFrame ..) (srcOff_bootFrame ..)
  · exact .ite _ ((loadObj_bootFrame ..).trans (barDrive_bootFrame _)) (loadObj_bootFrame ..)

theorem objPut_bootFrame (s : State) (idx sub : Nat) (v : Int) : BootFrame s (objPut s idx sub v) := .of_eq rfl rfl rfl rfl rfl

/-- A record of the recorder is no part of the frame. -/
theorem record_bootFrame (s : State) (r : List InRec) : BootFrame s { s with det := { s.det with recs := r } } := .of_eq rfl rfl rfl rfl rfl

theorem objTake_bootFrame (s : State) (ph : Nat) (x : Nat × Nat × Int) : BootFrame s (objTake s ph x) :=
  ((objPut_bootFrame ..).trans (objWrite_bootFrame ..)).trans (record_bootFrame ..)

theorem leavePreop_bootFrame (s : State) : BootFrame s (leavePreop s) := by
  unfold leavePreop
  dsimp only
  exact ((layOut_bootFrame s).trans (.foldl (fun t x => objTake_bootFrame t ..) _ _)).trans (ungateEnabled_bootFrame _)

/-- The AL state, its code and error flag, and whether an RxPDO has been seen. -/
def alKept (d : Od) : AlSt × Nat × Bool × Bool := (d.al, d.alCode, d.alErr, d.rxSeen)

/-- What the ends of FSoE and FoE with the AL state leave. -/
structure AlFrame (s t : State) : Prop where
  kept : alKept t.od = alKept s.od
  mem : t.mem = s.mem
  units : t.units = s.units
  added : ∃ l, t.logs.buf = s.logs.buf ++ l

theorem AlFrame.refl (s : State) : AlFrame s s := ⟨rfl, rfl, rfl, [], (List.append_nil _).symm⟩

theorem AlFrame.trans {s t u : State} (h : AlFrame s t) (h' : AlFrame t u) : AlFrame s u :=
  ⟨h'.kept.trans h.kept, h'.mem.trans h.mem, h'.units.trans h.units, added_trans h.added h'.added⟩

theorem raise_alFrame (s : State) (c u a b : Nat) : AlFrame s (raise s c u a b) :=
  ⟨by rw [raise_od], raise_mem .., raise_units .., (raise_eventFrame ..).added⟩

theorem alKept_of_slave {s t : State} (h : slaveOf t.od = slaveOf s.od) : alKept t.od = alKept s.od := (congrArg alKept h :)

theorem fsoeCheck_effect (s : State) : slaveOf (fsoeCheck s).od = slaveOf s.od ∧ AlFrame s (fsoeCheck s) := by
  unfold fsoeCheck
  split
  · have hslave : slaveOf (lapse (raise s 0x0D0A huskId 1 0) 2).od = slaveOf s.od := (lapse_slave ..).trans (by rw [raise_od])
    exact ⟨hslave, alKept_of_slave hslave, by rw [lapse_mem, raise_mem], by rw [lapse_units, raise_units],
      added_trans (raise_eventFrame ..).added (lapse_added ..)⟩
  · exact ⟨rfl, .refl s⟩

/-- A reset of the connection: its state, the open transfer, and what it leaves. -/
theorem fsoeReset_effect (s : State) (reason : Nat) :
    (fsoeReset s reason).od.fsoe.st = .reset ∧ (fsoeReset s reason).od.foe = s.od.foe ∧ AlFrame s (fsoeReset s reason) := by
  unfold fsoeReset
  split
  · next h => exact ⟨h, rfl, .refl s⟩
  · extract_lets code was f safety od dropped
    obtain ⟨hslave, hframe⟩ := fsoeCheck_effect (raise dropped 0x1005 0x6800 reason code)
    have hod : slaveOf (raise dropped 0x1005 0x6800 reason code).od = slaveOf dropped.od := by rw [raise_od]
    exact ⟨(congrArg (·.fsoe.st) (hslave.trans hod) :), (congrArg Od.foe (hslave.trans hod) :),
      .trans (t := dropped) ⟨rfl, rfl, rfl, [], (List.append_nil _).symm⟩ ((raise_alFrame ..).trans hframe)⟩

/-- An open transfer ends, and nothing of the AL state or the connection moves. -/
theorem foeAbandon_effect (s : State) :
    (foeAbandon s).od.foe = none ∧ (foeAbandon s).od.fsoe = s.od.fsoe ∧ AlFrame s (foeAbandon s) := by
  unfold foeAbandon
  split
  · next h => exact ⟨h, rfl, .refl s⟩
  · dsimp only
    rw [raise_od]
    refine ⟨rfl, rfl, .trans ?_ (raise_alFrame ..)⟩
    exact ⟨rfl, rfl, rfl, [], (List.append_nil _).symm⟩

/-! ### The change of the AL state (R417, R418) -/

/-- The AL record of a change. -/
def alPut (s : State) (n : AlSt) (code : Nat) (err : Bool) : State :=
  { s with od := { s.od with al := n, alCode := code, alErr := err, rxSeen := s.od.rxSeen && (s.od.al == n || n != .safeop) } }

/-- The connection and the open transfer as a change from `old` to `n` leaves them. -/
def alEnds (s : State) (old n : AlSt) : State :=
  let s := if old = .op then fsoeReset s 0 else s
  if n = .init ∨ n = .boot then foeAbandon s else s

theorem alSet_change {s : State} {n : AlSt} (hne : s.od.al ≠ n) (code : Nat) (err : Bool) : alSet s n code err =
    let e := alEnds (raise (alPut s n code err) 0x1001 ecatId (alCodeOf n) code) s.od.al n
    if s.od.al = .preop then leavePreop e else e := if_neg hne

theorem alSet_same {s : State} {n : AlSt} (h : s.od.al = n) (code : Nat) (err : Bool) :
    alSet s n code err = { s with od := { s.od with alCode := code, alErr := err } } := by
  subst h
  have hput : alPut s s.od.al code err = { s with od := { s.od with alCode := code, alErr := err } } := by
    rw [alPut, beq_self_eq_true, Bool.true_or, Bool.and_true]
  exact (if_pos rfl).trans hput

theorem alEnds_effect (s : State) (old n : AlSt) :
    (old = .op → (alEnds s old n).od.fsoe.st = .reset) ∧ (n = .init → (alEnds s old n).od.foe = none) ∧ AlFrame s (alEnds s old n) := by
  obtain ⟨hreset, -, hfsoe⟩ := fsoeReset_effect s 0
  have hdrop : AlFrame s (if old = .op then fsoeReset s 0 else s) := by
    split
    · exact hfsoe
    · exact .refl s
  have hst : old = .op → (if old = .op then fsoeReset s 0 else s).od.fsoe.st = .reset := fun h => by rw [if_pos h, hreset]
  unfold alEnds
  dsimp only
  generalize (if old = .op then fsoeReset s 0 else s) = d at hdrop hst ⊢
  obtain ⟨hnone, hsame, hfoe⟩ := foeAbandon_effect d
  split
  · exact ⟨fun h => by rw [hsame, hst h], fun _ => hnone, hdrop.trans hfoe⟩
  · next h => exact ⟨hst, fun hinit => absurd (Or.inl hinit) h, hdrop⟩

/-- A change to another AL state. -/
theorem alSet_effect {s : State} {n : AlSt} (hne : s.od.al ≠ n) (code : Nat) (err : Bool) :
    let t := alSet s n code err
    t.od.al = n ∧ t.od.alCode = code ∧ t.od.alErr = err ∧ Raised t 0x1001 ecatId (alCodeOf n) code ∧ (n = .safeop → t.od.rxSeen = false) ∧
      (s.od.al = .op → t.od.fsoe.st = .reset) ∧ (n = .init → t.od.foe = none) ∧
      (s.od.al ≠ .preop → t.mem = s.mem ∧ t.units = s.units) := by
  intro t
  have ht : t = _ := alSet_change hne code err
  obtain ⟨hreset, hnone, hkept, hmem, hunits, hadded⟩ :=
    alEnds_effect (raise (alPut s n code err) 0x1001 ecatId (alCodeOf n) code) s.od.al n
  have hraised : Raised (alEnds (raise (alPut s n code err) 0x1001 ecatId (alCodeOf n) code) s.od.al n) 0x1001 ecatId (alCodeOf n) code :=
    raised_more (raised_here ..) hadded
  rw [raise_mem] at hmem
  rw [raise_units] at hunits
  rw [raise_od] at hkept
  generalize alEnds (raise (alPut s n code err) 0x1001 ecatId (alCodeOf n) code) s.od.al n = e at ht hreset hnone hkept hmem hunits hraised
  have hseen : n = .safeop → e.od.rxSeen = false := by
    rintro rfl
    have hput : (alPut s .safeop code err).od.rxSeen = false := by
      have hbeq : (s.od.al == AlSt.safeop) = false := beq_false_of_ne hne
      rw [alPut, hbeq]
      exact Bool.and_false _
    exact (congrArg (·.2.2.2) hkept).trans hput
  have hend : AlFrame e e := .refl e
  have hlast : BootFrame e t ∧ (s.od.al ≠ .preop → t = e) := by
    dsimp only at ht
    rw [ht]
    split
    · next h => exact ⟨leavePreop_bootFrame e, fun h' => absurd h h'⟩
    · exact ⟨.refl e, fun _ => rfl⟩
  obtain ⟨⟨-, hslave, -, -, hadded'⟩, hsame⟩ := hlast
  have hkept' : alKept t.od = alKept (alPut s n code err).od := (alKept_of_slave hslave).trans hkept
  refine ⟨congrArg (·.1) hkept', congrArg (·.2.1) hkept', congrArg (·.2.2.1) hkept', raised_more hraised hadded', fun h => ?_, fun h => ?_, fun h => ?_,
    fun h => ?_⟩
  · exact (congrArg Od.rxSeen hslave :).trans (hseen h)
  · exact (congrArg (·.fsoe.st) hslave :).trans (hreset h)
  · exact (congrArg Od.foe hslave :).trans (hnone h)
  · rw [hsame h]
    exact ⟨hmem, hunits⟩

theorem alRequest_granted {s : State} {r : Nat} (h : alJudge s r = 0) : alRequest s r = alSet s (alOf r) 0 false := by
  unfold alRequest
  split
  · rfl
  · next hne => exact absurd h hne

theorem alRequest_refused {s : State} {r : Nat} (h : alJudge s r ≠ 0) :
    alRequest s r = { s with od := { s.od with alCode := alJudge s r, alErr := true } } := by
  unfold alRequest
  split
  · next h0 => exact absurd h0 h
  · rfl

/-! ### The judgement of a request (R417) -/

/-- The table of R417 for a request of another state than INIT and the present one. -/
def alTable (s : State) (al : AlSt) (t : Nat) : Nat :=
  match al, t with
  | .init, 2 => if smIs s.od.sm0 0x1000 1024 true && smIs s.od.sm1 0x1400 1024 true then 0 else 0x16
  | .init, 3 => if s.cpm.boot = .recovery then 0 else 0x11
  | .preop, 4 =>
    if !(smIs s.od.sm2 0x1800 199 false && smIs s.od.sm3 0x1C00 (1031 + 8 * objW s 0x1A01 0) false) then 0x17
    else if objW s 0x1C13 0 ≠ 3 ∧ objW s 0x1A01 0 ≠ 0 then 0x1E
    else if objW s 0x2100 1 = 1 ∧ !s.od.sync0 then 0x30
    else if objW s 0x2100 1 = 1 ∧ s.od.sync0Ns ≠ objW s 0x2100 2 then 0x35
    else 0
  | .safeop, 8 => if !s.od.rxSeen then 0x19 else if s.phu.st ≠ .locked then 0x1A else 0
  | _, _ => 0x11

theorem alJudge_eq (s : State) (t : Nat) : alJudge s t = if t = 1 ∨ t = alCodeOf s.od.al then 0 else alTable s s.od.al t := rfl

theorem alJudge_init (s : State) : alJudge s 1 = 0 := (alJudge_eq s 1).trans (if_pos (Or.inl rfl))

theorem alJudge_of {s : State} {al : AlSt} {t : Nat} (hal : s.od.al = al) (h1 : t ≠ 1) (h : t ≠ alCodeOf al) :
    alJudge s t = alTable s al t := by
  rw [alJudge_eq, hal]
  exact if_neg (not_or.mpr ⟨h1, h⟩)

theorem alJudge_init_preop {s : State} (hal : s.od.al = .init) :
    alJudge s 2 = if smIs s.od.sm0 0x1000 1024 true && smIs s.od.sm1 0x1400 1024 true then 0 else 0x16 :=
  alJudge_of hal (by decide) (by decide)

theorem alJudge_init_boot {s : State} (hal : s.od.al = .init) : alJudge s 3 = if s.cpm.boot = .recovery then 0 else 0x11 :=
  alJudge_of hal (by decide) (by decide)

section Preop

variable {s : State} (hal : s.od.al = .preop)
include hal

theorem alJudge_preop_safeop : alJudge s 4 =
    if !(smIs s.od.sm2 0x1800 199 false && smIs s.od.sm3 0x1C00 (1031 + 8 * objW s 0x1A01 0) false) then 0x17
    else if objW s 0x1C13 0 ≠ 3 ∧ objW s 0x1A01 0 ≠ 0 then 0x1E
    else if objW s 0x2100 1 = 1 ∧ !s.od.sync0 then 0x30
    else if objW s 0x2100 1 = 1 ∧ s.od.sync0Ns ≠ objW s 0x2100 2 then 0x35
    else 0 := alJudge_of hal (by decide) (by decide)

theorem alJudge_preop_managers
    (hsm : (smIs s.od.sm2 0x1800 199 false && smIs s.od.sm3 0x1C00 (1031 + 8 * objW s 0x1A01 0) false) = false) : alJudge s 4 = 0x17 :=
  (alJudge_preop_safeop hal).trans (if_pos (by rw [hsm]; rfl))

theorem alJudge_preop_clock
    (hsm : (smIs s.od.sm2 0x1800 199 false && smIs s.od.sm3 0x1C00 (1031 + 8 * objW s 0x1A01 0) false) = true)
    (hmap : objW s 0x1C13 0 = 3 ∨ objW s 0x1A01 0 = 0) :
    alJudge s 4 = if objW s 0x2100 1 = 1 ∧ s.od.sync0 = false then 0x30
      else if objW s 0x2100 1 = 1 ∧ s.od.sync0Ns ≠ objW s 0x2100 2 then 0x35 else 0 := by
  refine (alJudge_preop_safeop hal).trans ((if_neg (by rw [hsm]; decide)).trans ((if_neg ?_).trans ?_))
  · rintro ⟨h3, h0⟩
    exact hmap.elim h3 h0
  · simp only [Bool.not_eq_true']

end Preop

theorem alJudge_safeop_op {s : State} (hal : s.od.al = .safeop) :
    alJudge s 8 = if s.od.rxSeen = false then 0x19 else if s.phu.st ≠ .locked then 0x1A else 0 := by
  refine (alJudge_of hal (by decide) (by decide)).trans ?_
  rw [alTable]
  simp only [Bool.not_eq_true']

/-- From OP and BOOT only INIT and the present state are granted. -/
theorem alJudge_end {s : State} {t : Nat} (hal : s.od.al = .op ∨ s.od.al = .boot) (h1 : t ≠ 1) (h : t ≠ alCodeOf s.od.al) :
    alJudge s t = 0x11 := by
  rw [alJudge_of rfl h1 h]
  rcases hal with hal | hal <;> rw [hal] <;> rfl

/-- No request but those of the table is granted. -/
theorem alTable_unknown (s : State) (al : AlSt) {t : Nat} (h2 : t ≠ 2) (h3 : t ≠ 3) (h4 : t ≠ 4) (h8 : t ≠ 8) : alTable s al t = 0x11 := by
  unfold alTable
  split
  · exact absurd rfl h2
  · exact absurd rfl h3
  · exact absurd rfl h4
  · exact absurd rfl h8
  · rfl

/-- A granted request is for a state that has a code. -/
theorem alCodeOf_granted {s : State} {r : Nat} (h : alJudge s r = 0) : alCodeOf (alOf r) = r := by
  by_cases hr : r = 1 ∨ r = 2 ∨ r = 3 ∨ r = 4 ∨ r = 8
  · obtain rfl | rfl | rfl | rfl | rfl := hr <;> rfl
  · simp only [not_or] at hr
    obtain ⟨h1, h2, h3, h4, h8⟩ := hr
    have hcode : r ≠ alCodeOf s.od.al := by
      cases s.od.al <;> assumption
    rw [alJudge_of rfl h1 hcode, alTable_unknown s s.od.al h2 h3 h4 h8] at h
    exact absurd h (by decide)

theorem alOf_alCodeOf (al : AlSt) : alOf (alCodeOf al) = al := by cases al <;> rfl

theorem alJudge_answer (s : State) (r : Resp) (t : Nat) : alJudge (answer s r) t = alJudge s t := rfl

theorem sm2Watchdog_op {s : State} (h : s.od.al = .op) : sm2Watchdog s = alSet s .safeop 0x1B true := if_pos h

theorem sm2Watchdog_other {s : State} (h : s.od.al ≠ .op) : sm2Watchdog s = s := if_neg h

/-- Settles O43: requests refused, for the present state and granted, the table's rows, and the watchdog of SM2. -/
theorem alStatesFollowTable : Obligations.AlStatesFollowTable := by
  unfold Obligations.AlStatesFollowTable
  refine fun s hup => ⟨fun hphy r => congrArg _ (runEcat_held hphy _), fun hphy => ⟨fun r hs h => ?_, fun r hs h hsame => ?_, fun r h => ?_,
    alJudge_init s, alJudge_init_preop, alJudge_init_boot, alJudge_preop_managers, alJudge_preop_clock, alJudge_safeop_op,
    fun r hal h1 hcode => alJudge_end hal h1 hcode⟩, fun hop => ?_, fun hop hs => ?_⟩
  · exact runEcat_next_settled (alRequest_refused (s := answer s .none) h) hphy hup hs
  · refine runEcat_next_settled ((alRequest_granted (s := answer s .none) h).trans ?_) hphy hup hs
    exact alSet_same (s := answer s .none) hsame.symm 0 false
  · have hrun := runEcat_next (f := fun s => alRequest s r.toNat) (alRequest_granted (s := answer s .none) h) hphy hup
    by_cases hne : s.od.al = alOf r.toNat
    · rw [alSet_same (s := answer s .none) hne 0 false] at hrun
      exact ⟨_, hrun, hne, rfl, rfl, fun h' => absurd hne h', fun h' => absurd hne h', fun h1 h2 => absurd (hne.symm.trans h1) h2,
        fun h' => Or.inr (hne.trans h'), fun _ => ⟨rfl, rfl⟩⟩
    · obtain ⟨hal, hcode, herr, hraised, hseen, hreset, hfoe, hkept⟩ := alSet_effect (s := answer s .none) hne 0 false
      rw [alCodeOf_granted h] at hraised
      exact ⟨_, hrun, hal, hcode, herr, fun _ => hraised, fun _ => hseen, fun h1 _ => hreset h1, fun h' => Or.inl (hfoe h'), hkept⟩
  · obtain ⟨hal, hcode, herr, hraised, hseen, hreset, -, hkept⟩ :=
      alSet_effect (s := answer s .none) (n := .safeop) (by rw [answer_od, hop]; decide) 0x1B true
    obtain ⟨hmem, hunits⟩ := hkept (by rw [answer_od, hop]; decide)
    exact ⟨_, runIo_next (sm2Watchdog_op (s := answer s .none) hop) hup, hal, hcode, herr, hraised, hreset hop, hseen rfl, hmem, hunits⟩
  · exact runIo_next_settled (sm2Watchdog_other (s := answer s .none) hop) hup hs

/-! ### Registers, buffers and links (R415, R424, R427, R433) -/

theorem smSet_eq (s : State) (n : Fin 4) (c : SmCfg) : smSet s n.val c = { s with
    od := { s.od with sm0 := if n = 0 then c else s.od.sm0, sm1 := if n = 1 then c else s.od.sm1, sm2 := if n = 2 then c else s.od.sm2
                      sm3 := if n = 3 then c else s.od.sm3 } } := by
  match n with
  | 0 | 1 | 2 | 3 => rfl

theorem escAccess_rxError (s : State) (p : Fin 2) : escAccess s (.rxError p) = { s with
    od := { s.od with err0 := if p = 0 then satInc 32 s.od.err0 else s.od.err0, err1 := if p = 0 then s.od.err1 else satInc 32 s.od.err1 } } := by
  match p with
  | 0 | 1 => rfl

theorem rxDone_taken {s : State} (h : s.od.al = .safeop ∨ s.od.al = .op) (b : Bytes) : rxDone s b =
    rxPush { s with od := { s.od with rxSeen := true } } s.now (if s.det.replay then none else some (fit 192 b)) (some (fit 7 (b.drop 192))) :=
  if_neg fun hno => h.elim hno.1 hno.2

theorem rxDone_other {s : State} (hsafeop : s.od.al ≠ .safeop) (hop : s.od.al ≠ .op) (b : Bytes) : rxDone s b = s := if_pos ⟨hsafeop, hop⟩

/-- The link of a port. -/
def ecatPortUp (s : State) (p : Nat) : Bool := if p = 0 then s.od.link0 else s.od.link1

theorem ecatLink_still {s : State} {p : Nat} {up : Bool} (h : s.od.phyReset = true ∨ ecatPortUp s p = up) : ecatLink s p up = s := if_pos h

theorem ecatLink_rise {s : State} {p : Nat} (hphy : s.od.phyReset = false) (hdown : ecatPortUp s p = false) :
    ecatLink s p true = { s with od := { s.od with link0 := p = 0 || s.od.link0, link1 := p ≠ 0 || s.od.link1 } } := by
  have hno : ¬ (s.od.phyReset = true ∨ ecatPortUp s p = true) := by
    rw [hphy, hdown]
    decide
  refine (if_neg hno).trans ?_
  by_cases hp : p = 0
  · simp [hp]
  · simp [hp]

/-- A lost link: its event, its count and what it leaves. -/
theorem ecatLink_fall {s : State} {p : Nat} (hphy : s.od.phyReset = false) (hup : ecatPortUp s p = true) :
    let t := ecatLink s p false
    Raised t 0x1004 ecatId p 0 ∧ ecatPortUp t p = false ∧
      (if p = 0 then t.od.lost0 = satInc 8 s.od.lost0 else t.od.lost1 = satInc 8 s.od.lost1) ∧ t.mem = s.mem ∧ t.safety = s.safety := by
  intro t
  have hno : ¬ (s.od.phyReset = true ∨ ecatPortUp s p = false) := by
    rw [hphy, hup]
    decide
  have ht : t = _ := (if_neg hno).trans (if_neg Bool.false_ne_true)
  rw [ht, ecatPortUp, raise_od, raise_mem, raise_safety]
  refine ⟨raised_here .., ?_, ?_, rfl, rfl⟩
  · by_cases hp : p = 0 <;> simp [hp]
  · by_cases hp : p = 0 <;> simp [hp]

/-- Settles O44: registers, the SII, buffers and links, with the PHYs in reset and out of it. -/
theorem slaveControllerTakesFrames : Obligations.SlaveControllerTakesFrames := by
  unfold Obligations.SlaveControllerTakesFrames
  refine fun s hup => ⟨fun hphy => ⟨fun a => congrArg _ (runEcat_held hphy _), fun b => congrArg _ (runEcat_held hphy _),
      congrArg _ (runEcat_held hphy _), fun hs p up => runIo_next_settled (ecatLink_still (s := answer s .none) (Or.inl hphy)) hup hs⟩,
    fun hphy hs => ⟨fun n st len mb on => ?_, fun on ns => runEcat_next_settled rfl hphy hup hs, fun v => runEcat_next_settled rfl hphy hup hs,
      fun p => runEcat_next_settled (escAccess_rxError (answer s .none) p) hphy hup hs, fun b hal => ?_, fun b h1 h2 => ?_⟩,
    fun hphy => ⟨⟨_, runEcat_next rfl hphy hup, raised_here .., raise_od .., raise_mem ..⟩,
      fun a => ⟨_, runEcat_next rfl hphy hup, raised_here .., raise_od .., raise_mem ..⟩⟩, fun p hphy => ?_⟩
  · exact runEcat_next_settled (smSet_eq (answer s .none) n _) hphy hup hs
  · exact runEcat_next_settled (rxDone_taken (s := answer s .none) hal b) hphy hup hs
  · exact runEcat_next_settled (rxDone_other (s := answer s .none) h1 h2 b) hphy hup hs
  · intro link
    exact ⟨fun h => ⟨_, runIo_next rfl hup, ecatLink_fall (s := answer s .none) hphy h⟩,
      fun h hs => runIo_next_settled (ecatLink_rise (s := answer s .none) hphy h) hup hs,
      fun up h hs => runIo_next_settled (ecatLink_still (s := answer s .none) (Or.inr h)) hup hs⟩

end Sys2Proof.Machine

/-!
Files over EtherCAT (R431, R435, R496): opening, storing and reading, and the proof of FilesOverEthercat.
-/
namespace Sys2Proof.Machine

theorem withFoe_up {s : State} (h : s.od.al ≠ .init) (f : State → State) : withFoe s f = f s := by
  have hup : foeUp s = true := bne_iff_ne.mpr h
  exact if_pos hup

theorem withFoe_down {s : State} (h : s.od.al = .init) (f : State → State) : withFoe s f = answer s .noMailbox := by
  have hdown : ¬ foeUp s = true := fun hup => bne_iff_ne.mp hup h
  exact if_neg hdown

/-! ### The end of a transfer -/

theorem foeFail_effect (s : State) (file code : Nat) :
    let t := foeFail s file code
    t.resp = .foeError code ∧ Raised t 0x1007 ecatId file code ∧ t.od.foe = none ∧ t.mem = s.mem := by
  intro t
  refine ⟨rfl, raised_here .., ?_, raise_mem ..⟩
  rw [show t.od = _ from raise_od ..]

theorem foeDone_effect (s : State) (file n : Nat) :
    let t := foeDone s file n
    t.od.foe = none ∧ t.od.foeStatus = 2 ∧ t.mem = s.mem ∧ t.safety = s.safety ∧ Raised t 0x1006 ecatId file n := by
  intro t
  rw [show t.od = _ from raise_od ..]
  exact ⟨rfl, rfl, raise_mem .., raise_safety .., raised_here ..⟩

theorem foeAbandon_none {s : State} (h : s.od.foe = none) : foeAbandon s = s := by
  unfold foeAbandon
  rw [h]

/-- The end of an open transfer: its event, and its record without a transfer. -/
theorem foeAbandon_open {s : State} {y : FoeX} (h : s.od.foe = some y) :
    ∃ c f, foeAbandon s = raise { s with od := { s.od with foe := none, foeStatus := 3, foeErr := c }, freeCtr := f } 0x1007 ecatId y.file c := by
  unfold foeAbandon
  rw [h]
  exact ⟨_, _, rfl⟩

/-- What of the device the judgement of a request and the target of a file read. -/
structure FoeView (s t : State) : Prop where
  regsF : t.regsF = s.regsF
  svc : t.svc = s.svc
  plan : t.plan = s.plan
  cob : t.cob = s.cob
  cand : t.cand = s.cand
  model : t.model = s.model
  cpm : t.cpm = s.cpm
  mem : t.mem = s.mem
  al : t.od.al = s.od.al
  obj : t.od.obj = s.od.obj

theorem foeAbandon_view (s : State) : FoeView s (foeAbandon s) := by
  cases h : s.od.foe with
  | none =>
    rw [foeAbandon_none h]
    exact ⟨rfl, rfl, rfl, rfl, rfl, rfl, rfl, rfl, rfl, rfl⟩
  | some y =>
    obtain ⟨c, f, hopen⟩ := foeAbandon_open h
    rw [hopen]
    constructor <;> simp

theorem foeRefuse_view {s t : State} (h : FoeView s t) (n : FoeName) (write : Bool) (pw : Nat) : foeRefuse t n write pw = foeRefuse s n write pw := by
  have hbusy : ∀ k, foeBusy t k = foeBusy s k := fun k => by simp only [foeBusy, h.svc, h.plan, h.cob, h.cand, h.model]
  have hreg : regF t Reg.ecatCtrl = regF s Reg.ecatCtrl := by rw [regF, regF, h.regsF]
  simp only [foeRefuse, hbusy, hreg, h.al]

theorem foeTarget_view {s t : State} (h : FoeView s t) (k : Nat) : foeTarget t k = foeTarget s k := by
  have hobj : ∀ i j, objW t i j = objW s i j := fun i j => by simp only [objW, objGet, h.obj]
  have hddr : ddrBytes t = ddrBytes s := by simp only [ddrBytes, regF, h.regsF]
  simp only [foeTarget, hobj, hddr, h.cpm]

/-! ### Opening (R431) -/

/-- The transfer that an accepted request opens. -/
def foeOpened (s : State) (n : FoeName) : FoeX :=
  { file := foeNo n, base := (foeTarget s (foeNo n)).1, room := (foeTarget s (foeNo n)).2, packet := 1, got := 0 }

/-- The state with a new transfer. -/
def foeTake (s : State) (x : FoeX) : State :=
  answer { s with od := { s.od with foe := some x, foeStatus := 1, foeFile := x.file, foeBytes := 0 } } .foeAck

theorem foeOpen_taken {s : State} {n : FoeName} {pw : Nat} (h : foeRefuse s n true pw = 0) :
    foeOpen s n pw = foeTake (foeAbandon s) (foeOpened s n) := by
  have hview := foeAbandon_view s
  rw [← foeRefuse_view hview] at h
  rw [foeOpened, ← foeTarget_view hview]
  unfold foeOpen
  dsimp only
  split
  · rfl
  · next hne => exact absurd h hne

theorem foeOpen_refused {s : State} {n : FoeName} {pw : Nat} (h : foeRefuse s n true pw ≠ 0) :
    foeOpen s n pw = foeFail (foeAbandon s) (foeNo n) (foeRefuse s n true pw) := by
  rw [← foeRefuse_view (foeAbandon_view s)] at h ⊢
  unfold foeOpen
  dsimp only
  split
  · next h0 => exact absurd h0 h
  · rfl

theorem foeOpen_free {s : State} (hfoe : s.od.foe = none) {n : FoeName} {pw : Nat} (h : foeRefuse s n true pw = 0) :
    foeOpen s n pw = foeTake s (foeOpened s n) := by rw [foeOpen_taken h, foeAbandon_none hfoe]

/-- A new request ends the open transfer. -/
theorem foeOpen_over {s : State} {y : FoeX} (hfoe : s.od.foe = some y) {n : FoeName} {pw : Nat} (h : foeRefuse s n true pw = 0) :
    let t := foeOpen s n pw
    ∃ c, t.od.foe = some (foeOpened s n) ∧ Raised t 0x1007 ecatId y.file c ∧ t.resp = .foeAck ∧ t.mem = s.mem := by
  intro t
  obtain ⟨c, f, hopen⟩ := foeAbandon_open hfoe
  have hmem : t.mem = (foeAbandon s).mem := by rw [show t = _ from foeOpen_taken h]; rfl
  refine ⟨c, by rw [show t = _ from foeOpen_taken h]; rfl, ?_, by rw [show t = _ from foeOpen_taken h]; rfl,
    hmem.trans (foeAbandon_view s).mem⟩
  rw [show t = _ from foeOpen_taken h, hopen]
  exact raised_here ..

/-! ### Storing (R431) -/

theorem foeData_none {s : State} (h : s.od.foe = none) (k : Nat) (b : Bytes) : foeData s k b = answer s (.foeError 0x8005) := by
  unfold foeData
  rw [h]

section Packet

variable {s : State} {x : FoeX} (hfoe : s.od.foe = some x) {b : Bytes}
include hfoe

theorem foeData_full (h : x.room < x.got + b.length) (k : Nat) : foeData s k b = foeFail s x.file 0x8003 := by
  unfold foeData
  rw [hfoe]
  exact if_pos h

theorem foeData_order (h : x.got + b.length ≤ x.room) {k : Nat} (hk : k ≠ x.packet) : foeData s k b = foeFail s x.file 0x8005 := by
  unfold foeData
  rw [hfoe]
  exact (if_neg (Nat.not_lt.mpr h)).trans (if_pos hk)

/-- The state with a packet stored. -/
def foeStored (s : State) (x : FoeX) (b : Bytes) : State := { memPut s (x.base + x.got) b with
  od := { s.od with foe := some { x with packet := x.packet + 1, got := x.got + b.length }, foeBytes := x.got + b.length } }

theorem foeData_stored (h : x.got + b.length ≤ x.room) {k : Nat} (hk : k = x.packet) : foeData s k b =
    if b.length < 1012 then
      answer (foeLength (foeDone (foeStored s x b) x.file (x.got + b.length)) x.file (x.got + b.length)) .foeAck
    else answer (foeStored s x b) .foeAck := by
  unfold foeData
  rw [hfoe, hk]
  exact (if_neg (Nat.not_lt.mpr h)).trans (if_neg (not_not_intro rfl))

end Packet

theorem foeLength_kept (s : State) (file n : Nat) :
    (foeLength s file n).od.foe = s.od.foe ∧ (foeLength s file n).od.foeStatus = s.od.foeStatus ∧ (foeLength s file n).mem = s.mem ∧
      (foeLength s file n).logs = s.logs := by
  unfold foeLength
  dsimp only
  split <;> exact ⟨rfl, rfl, rfl, rfl⟩

/-- A short packet is the last of its transfer. -/
theorem foeData_last {s : State} {x : FoeX} (hfoe : s.od.foe = some x) {b : Bytes} (h : x.got + b.length ≤ x.room) {k : Nat}
    (hk : k = x.packet) (hlast : b.length < 1012) :
    let t := foeData s k b
    t.od.foe = none ∧ t.od.foeStatus = 2 ∧ t.mem.bytes = cellPut s.mem.bytes (x.base + x.got) b ∧
      Raised t 0x1006 ecatId x.file (x.got + b.length) := by
  intro t
  obtain ⟨hnone, hstatus, hmem, -, hraised⟩ := foeDone_effect (foeStored s x b) x.file (x.got + b.length)
  have ht : t = _ := (foeData_stored hfoe h hk).trans (if_pos hlast)
  generalize foeDone (foeStored s x b) x.file (x.got + b.length) = d at hnone hstatus hmem hraised ht
  obtain ⟨hfoe', hstatus', hmem', hlogs⟩ := foeLength_kept d x.file (x.got + b.length)
  rw [ht]
  exact ⟨hfoe'.trans hnone, hstatus'.trans hstatus, (congrArg Mem.bytes (hmem'.trans hmem)).trans rfl,
    raised_same hraised (congrArg Logs.buf hlogs)⟩

/-! ### Reading (R431, R496) -/

theorem foeRead_box {s : State} {n : FoeName} {pw : Nat} (h : foeRefuse s n false pw = 0) :
    let t := foeRead s n pw
    ∃ b, t.resp = .foeData b ∧ t.od.foeStatus = 2 ∧ Raised t 0x1006 ecatId 6 b.length ∧ t.mem = s.mem ∧ t.safety = s.safety := by
  intro t
  obtain ⟨-, hstatus, hmem, hsafety, hraised⟩ := foeDone_effect (boxFile s).2 6 (boxFile s).1.length
  have ht : t = answer (foeDone (boxFile s).2 6 (boxFile s).1.length) (.foeData (boxFile s).1) := by
    change foeRead s n pw = _
    unfold foeRead
    split
    · rfl
    · next hne => exact absurd h hne
  have hbox : (boxFile s).2.mem = s.mem ∧ (boxFile s).2.safety = s.safety := ⟨rfl, rfl⟩
  generalize boxFile s = f at hstatus hmem hsafety hraised ht hbox
  rw [ht]
  exact ⟨f.1, rfl, hstatus, hraised, hmem.trans hbox.1, hsafety.trans hbox.2⟩

theorem foeRead_refused {s : State} {n : FoeName} {pw : Nat} (h : foeRefuse s n false pw ≠ 0) :
    foeRead s n pw = foeFail s (foeNo n) (foeRefuse s n false pw) := by
  unfold foeRead
  split
  · next h0 => exact absurd h0 h
  · rfl

/-- Settles O46: without the mailbox, a request taken, over an open transfer and refused, each kind of packet, and the black box. -/
theorem filesOverEthercat : Obligations.FilesOverEthercat := by
  unfold Obligations.FilesOverEthercat
  refine fun s hup hphy => ⟨fun hinit hs => ⟨fun n pw => ⟨?_, ?_⟩, fun k b => ?_⟩, fun hal => ⟨fun n pw => ?_, fun x k b hfoe => ?_,
    fun hfoe hs k b => ?_, fun n pw => ⟨fun h => ?_, fun h => ?_⟩⟩⟩
  · exact runEcat_next_settled (withFoe_down (s := answer s .none) hinit _) hphy hup hs
  · exact runEcat_next_settled (withFoe_down (s := answer s .none) hinit _) hphy hup hs
  · exact runEcat_next_settled (withFoe_down (s := answer s .none) hinit _) hphy hup hs
  · intro x
    refine ⟨fun hfoe hs h => ?_, fun y hfoe h => ?_, fun h => ?_⟩
    · exact runEcat_next_settled ((withFoe_up (s := answer s .none) hal _).trans (foeOpen_free (s := answer s .none) hfoe h)) hphy hup hs
    · obtain ⟨c, hover⟩ := foeOpen_over (s := answer s .none) hfoe h
      exact ⟨_, c, runEcat_next (withFoe_up (s := answer s .none) hal _) hphy hup, hover⟩
    · obtain ⟨hresp, hraised, hnone, hmem⟩ := foeFail_effect (foeAbandon (answer s .none)) (foeNo n) (foeRefuse s n true pw.toNat)
      exact ⟨_, runEcat_next ((withFoe_up (s := answer s .none) hal _).trans (foeOpen_refused (s := answer s .none) h)) hphy hup, hresp, hraised,
        hnone, hmem.trans (foeAbandon_view (answer s .none)).mem⟩
  · refine ⟨fun hroom hk hs hlong => ?_, fun hroom hk hshort => ?_, fun hroom hk => ?_, fun hfull => ?_⟩
    · exact runEcat_next_settled ((withFoe_up (s := answer s .none) hal _).trans ((foeData_stored (s := answer s .none) hfoe hroom hk).trans
        (if_neg (Nat.not_lt.mpr hlong)))) hphy hup hs
    · exact ⟨_, runEcat_next (withFoe_up (s := answer s .none) hal _) hphy hup, foeData_last (s := answer s .none) hfoe hroom hk hshort⟩
    · obtain ⟨hresp, hraised, hnone, hmem⟩ := foeFail_effect (answer s .none) x.file 0x8005
      exact ⟨_, runEcat_next ((withFoe_up (s := answer s .none) hal _).trans (foeData_order (s := answer s .none) hfoe hroom hk)) hphy hup, hnone,
        hresp, hraised, hmem⟩
    · obtain ⟨hresp, hraised, hnone, hmem⟩ := foeFail_effect (answer s .none) x.file 0x8003
      exact ⟨_, runEcat_next ((withFoe_up (s := answer s .none) hal _).trans (foeData_full (s := answer s .none) hfoe hfull _)) hphy hup, hnone,
        hresp, hraised, hmem⟩
  · exact runEcat_next_settled ((withFoe_up (s := answer s .none) hal _).trans (foeData_none (s := answer s .none) hfoe _ b)) hphy hup hs
  · obtain ⟨b, hread⟩ := foeRead_box (s := answer s .none) h
    exact ⟨_, b, runEcat_next (withFoe_up (s := answer s .none) hal _) hphy hup, hread⟩
  · obtain ⟨hresp, hraised, -, hmem⟩ := foeFail_effect (answer s .none) (foeNo n) (foeRefuse s n false pw.toNat)
    exact ⟨_, runEcat_next ((withFoe_up (s := answer s .none) hal _).trans (foeRead_refused (s := answer s .none) h)) hphy hup, hresp, hraised, hmem⟩

end Sys2Proof.Machine

/-!
The physical map and the registers (R6, R7, R22 to R24, R368, R466, R467): writes under the access codes, and the proof of
RegisterWritesFollowAccessCodes.
-/
namespace Sys2Proof.Machine

/-- Whether a writer's part of the device runs. -/
def writerUp (s : State) (who : Writer) : Bool := match who with | .cluster _ => appUp s | .firmware _ => ioUp s

section RegisterWrappers

variable {s t : State} {who : Writer} {o : BitVec 40} {v : BitVec 32} (h : registerWrite (answer s .none) who o.toNat v.toNat = t)
  (hup : arithUp s = true) (hwho : writerUp s who = true)
include h hup hwho

theorem execRegisterWrite_next : exec (.registerWrite who o v) s = .next (flush t) := by
  cases who with
  | cluster c => exact runApp_next (f := fun s => registerWrite s (.cluster c) o.toNat v.toNat) h hwho hup
  | firmware i =>
    exact (congrArg Host.Outcome.next (if_pos hwho)).trans (runArith_next (f := fun s => registerWrite s (.firmware i) o.toNat v.toNat) h hup)

theorem execRegisterWrite_settled (ht : Settled t) : exec (.registerWrite who o v) s = .next t :=
  (execRegisterWrite_next h hup hwho).trans (congrArg _ (flush_quiet t ht))

end RegisterWrappers

/-! ### The access codes (R7) -/

section Access

variable {s : State} {who : Writer} {o v : Nat}

theorem registerWrite_gated {b : Nat} (h : gatedBlock s o = some b) : registerWrite s who o v = gatedAccess s who b := by
  unfold registerWrite
  rw [h]

theorem registerWrite_none (h : gatedBlock s o = none) (hnone : regFind o = none) : registerWrite s who o v = answer s .busError := by
  unfold registerWrite
  rw [h]
  exact if_neg (by rw [hnone]; decide)

theorem registerWrite_row (h : gatedBlock s o = none) (hrow : (regFind o).isSome = true) :
    registerWrite s who o v = answer (regWrite s who o v) .busOk := by
  unfold registerWrite
  rw [h]
  exact if_pos hrow

theorem regWrite_unitGated (h : (regUnit o).any (clockGated s) = true) : regWrite s who o v = s := if_pos h

/-- What a row's access code does with a word. -/
def accWrite (s : State) (who : Writer) (o v : Nat) (r : Config.RegDef) : State :=
  match r.acc with
  | .ro => s
  | .wo => woWrite s o v
  | .w1c => w1cClear s o (v &&& r.mask)
  | .rw => rwWrite s o v r.mask
  | .rwl => if lockedOut s who then s else rwWrite s o v r.mask

theorem regWrite_row {r : Config.RegDef} (h : (regUnit o).any (clockGated s) = false) (hrow : regFind o = some r) :
    regWrite s who o v = accWrite s who o v r := by
  refine (if_neg (by rw [h]; decide)).trans ?_
  rw [hrow]
  rfl

theorem accWrite_rw {r : Config.RegDef} (h : r.acc = .rw ∨ (r.acc = .rwl ∧ lockedOut s who = false)) :
    accWrite s who o v r = rwWrite s o v r.mask := by
  unfold accWrite
  rcases h with h | ⟨h, hin⟩
  · rw [h]
  · rw [h]
    exact if_neg (by rw [hin]; decide)

theorem accWrite_kept {r : Config.RegDef} (h : r.acc = .ro ∨ (r.acc = .rwl ∧ lockedOut s who = true)) : accWrite s who o v r = s := by
  unfold accWrite
  rcases h with h | ⟨h, hout⟩
  · rw [h]
  · rw [h]
    exact if_pos hout

theorem accWrite_w1c {r : Config.RegDef} (h : r.acc = .w1c) : accWrite s who o v r = w1cClear s o (v &&& r.mask) := by
  unfold accWrite
  rw [h]

theorem accWrite_wo {r : Config.RegDef} (h : r.acc = .wo) : accWrite s who o v r = woWrite s o v := by
  unfold accWrite
  rw [h]

/-- A register of no special meaning stores the bits that software can change. -/
theorem rwWrite_plain (hsel : o ≠ Reg.uctlUnitSel) (hphu : o ≠ Reg.phuCtrl) (hgate : o ≠ Reg.cpmGate) (hlo : o ≠ Reg.qmgrQtabLo)
    (hhi : o ≠ Reg.qmgrQtabHi) (hbar : o ≠ Reg.phuBarCtrl) (mask : Nat) : rwWrite s o v mask = regSet s o (v &&& mask) :=
  (if_neg hsel).trans ((if_neg hphu).trans ((if_neg hgate).trans ((if_neg fun h => h.1.elim hlo hhi).trans (if_neg hbar))))

end Access

theorem gatedAccess_effect (s : State) (who : Writer) (b : Nat) :
    let t := gatedAccess s who b
    t.resp = .busError ∧ Raised t 0x1207 (writerUnit who) b (writerUnit who) ∧ t.mem = s.mem := ⟨rfl, raised_here .., raise_mem ..⟩

theorem w1cClear_quiet {s : State} {o : Nat} (h : Smap.get (fun _ => 0) (clkNow s).w1c o = 0) (v : Nat) :
    w1cClear s o v = regSet s o (regGet s o - (regGet s o &&& v)) := by
  unfold w1cClear
  dsimp only
  rw [h, Nat.and_zero, Nat.add_zero]

/-- Settles O36, by the access code: read-write and its plain registers, read-only, write-1-to-clear and write-only; a gated unit, an offset
without a register and a gated block. -/
theorem registerWritesFollowAccessCodes : Obligations.RegisterWritesFollowAccessCodes := by
  unfold Obligations.RegisterWritesFollowAccessCodes
  intro s who o v hup hwho s0
  refine ⟨fun r hblock hunit hrow => ?_, fun hblock hunit hrow hs => ?_, fun hblock hnone hs => ?_, fun b hblock => ?_⟩
  · have hwrite : registerWrite (answer s .none) who o.toNat v.toNat = answer (accWrite (answer s .none) who o.toNat v.toNat r) .busOk :=
      (registerWrite_row (s := answer s .none) hblock (by rw [hrow]; rfl)).trans
        (congrArg (answer · .busOk) (regWrite_row (s := answer s .none) hunit hrow))
    intro taken
    refine ⟨fun hrw => ?_, fun hrw hs hsel hphu hgate hlo hhi hbar => ?_, fun hro hs => ?_, fun hw1c hs => ?_, fun _ hquiet => ?_, fun hwo => ?_⟩
    · exact execRegisterWrite_next (hwrite.trans (congrArg (answer · .busOk) (accWrite_rw (s := answer s .none) hrw))) hup hwho
    · exact execRegisterWrite_settled (hwrite.trans (congrArg (answer · .busOk) ((accWrite_rw (s := answer s .none) hrw).trans
        (rwWrite_plain hsel hphu hgate hlo hhi hbar r.mask)) :)) hup hwho hs
    · exact execRegisterWrite_settled (hwrite.trans (congrArg (answer · .busOk) (accWrite_kept (s := answer s .none) hro) :)) hup hwho hs
    · exact execRegisterWrite_settled (hwrite.trans (congrArg (answer · .busOk) (accWrite_w1c (s := answer s .none) hw1c) :)) hup hwho hs
    · exact w1cClear_quiet hquiet _
    · exact execRegisterWrite_next (hwrite.trans (congrArg (answer · .busOk) (accWrite_wo (s := answer s .none) hwo))) hup hwho
  · exact execRegisterWrite_settled ((registerWrite_row (s := answer s .none) hblock hrow).trans
      (congrArg (answer · .busOk) (regWrite_unitGated (s := answer s .none) hunit) :)) hup hwho hs
  · exact execRegisterWrite_settled (registerWrite_none (s := answer s .none) hblock hnone) hup hwho hs
  · exact ⟨_, execRegisterWrite_next (registerWrite_gated (s := answer s .none) hblock) hup hwho, gatedAccess_effect (answer s .none) who b⟩

end Sys2Proof.Machine

/-!
Verification of a plan image (R299, R300, R303): the install of its banks, its refusal, and the proof of PlanVerificationStagesOrRefuses.
-/
namespace Sys2Proof.Machine

/-! ### The checks do not read the answer -/

section Answer

variable (s : State) (r : Resp) (i : Img)

theorem imgBadHeader_answer (n : Nat) : imgBadHeader (answer s r) i n = imgBadHeader s i n := rfl
theorem imgBadSig_answer : imgBadSig (answer s r) i = imgBadSig s i := rfl
theorem imgBadModel_answer : imgBadModel (answer s r) i = imgBadModel s i := rfl
theorem imgBadContent_answer : imgBadContent (answer s r) i = imgBadContent s i := rfl
theorem imgSchedReason_answer (k : List (Nat × List Nat)) : imgSchedReason (answer s r) i k = imgSchedReason s i k := rfl
theorem imgBadRegions_answer : imgBadRegions (answer s r) i = imgBadRegions s i := rfl
theorem imgShort_answer : imgShort (answer s r) i = imgShort s i := rfl
theorem imgAt_answer (a : Nat) : imgAt (answer s r) a = imgAt s a := rfl
theorem imgPlan_answer : imgPlan (answer s r) i = imgPlan s i := rfl

theorem imgReason_answer (k : List (Nat × List Nat)) : imgReason (answer s r) k = imgReason s k := by
  have hgrade : ∀ a, memGet (answer s r) a = memGet s a := fun _ => rfl
  have hdecl : declNs (answer s r) = declNs s := rfl
  have hle : ∀ a n, memLe (answer s r) a n = memLe s a n := fun _ _ => rfl
  have hobj : ∀ i j, objN (answer s r) i j = objN s i j := fun _ _ => rfl
  simp only [imgReason, answer_plan, answer_svc, imgAt_answer, imgBadHeader_answer, imgBadSig_answer, imgBadModel_answer, imgBadContent_answer,
    imgSchedReason_answer, imgBadRegions_answer, imgShort_answer, hgrade, hdecl, hle, hobj]

end Answer

/-! ### The install of a bank (R299) -/

/-- Memory alone has changed. -/
def MemOnly (s t : State) : Prop := t = { s with mem := t.mem }

theorem MemOnly.trans {s t u : State} (h : MemOnly s t) (h' : MemOnly t u) : MemOnly s u := by
  unfold MemOnly at *
  rw [h'] at *
  rw [h]

theorem memPut_memOnly (s : State) (a : Nat) (l : Bytes) : MemOnly s (memPut s a l) := rfl

theorem MemOnly.foldl {α : Type} {f : State → α → State} (h : ∀ s x, MemOnly s (f s x)) (l : List α) (s : State) : MemOnly s (l.foldl f s) := by
  induction l generalizing s with
  | nil => rfl
  | cons x l ih => exact (h s x).trans (ih (f s x))

/-- One address field of a task's block, relocated in a bank and in its copy of the parameters. -/
def imgFieldPut (s : State) (i : Img) (k : Nat) (t : State) (p : Nat × Nat) : State :=
  let base := ssBase k + bankOff s
  let par := base + i.paramOff
  memPutLe (memPutLe t (par + p.1) 8 (addrOf s i par p.2)) (base + i.total + p.1) 8 (addrOf s i (base + i.total) p.2)

theorem imgFieldPut_answer (s : State) (i : Img) (k : Nat) (r : Resp) (t : State) (p : Nat × Nat) :
    imgFieldPut (answer s r) i k (answer t r) p = answer (imgFieldPut s i k t p) r := rfl

/-- One task's descriptor and fields, relocated into a bank. -/
def imgTaskPut (s : State) (i : Img) (k : Nat) (t : State) (o : Nat) : State :=
  let base := ssBase k + bankOff s
  let par := base + i.paramOff
  let d := imgDesc s i o
  (blockFields s i d).foldl (imgFieldPut s i k) (memPutLe t (base + o + 8) 8 (addrOf s i par d.param))

/-- A bank with the image and the copy of its parameters, before the relocation. -/
def imgCopied (s : State) (i : Img) (k : Nat) : State :=
  let base := ssBase k + bankOff s
  memPut (memPut s base (memBytes s i.addr i.total)) (base + i.total) (memBytes s (i.addr + i.paramOff) i.paramLen)

theorem imgInstall_eq (s : State) (i : Img) (k : Nat) : imgInstall s i k = (imgTasks s i).foldl (imgTaskPut s i k) (imgCopied s i k) := rfl

theorem imgTaskPut_memOnly (s : State) (i : Img) (k : Nat) (t : State) (o : Nat) : MemOnly t (imgTaskPut s i k t o) :=
  (memPut_memOnly ..).trans (.foldl (fun _ _ => (memPut_memOnly ..).trans (memPut_memOnly ..)) _ _)

theorem imgInstall_memOnly (s : State) (i : Img) (k : Nat) : MemOnly s (imgInstall s i k) := by
  rw [imgInstall_eq]
  exact ((memPut_memOnly ..).trans (memPut_memOnly ..)).trans (.foldl (imgTaskPut_memOnly s i k) _ _)

theorem foldl_answer {α : Type} {f g : State → α → State} {r : Resp} (h : ∀ t x, f (answer t r) x = answer (g t x) r) (l : List α) (t : State) :
    l.foldl f (answer t r) = answer (l.foldl g t) r := by
  induction l generalizing t with
  | nil => rfl
  | cons x l ih => rw [List.foldl_cons, List.foldl_cons, h, ih]

theorem imgTaskPut_answer (s : State) (i : Img) (k : Nat) (r : Resp) (t : State) (o : Nat) :
    imgTaskPut (answer s r) i k (answer t r) o = answer (imgTaskPut s i k t o) r := by
  have hblock : blockFields (answer s r) i (imgDesc (answer s r) i o) = blockFields s i (imgDesc s i o) := rfl
  rw [imgTaskPut, imgTaskPut, hblock]
  exact foldl_answer (imgFieldPut_answer s i k r) _
    (memPutLe t (ssBase k + bankOff s + o + 8) 8 (addrOf s i (ssBase k + bankOff s + i.paramOff) (imgDesc s i o).param))

theorem imgInstall_answer (s : State) (i : Img) (k : Nat) (r : Resp) : imgInstall (answer s r) i k = answer (imgInstall s i k) r := by
  have htasks : imgTasks (answer s r) i = imgTasks s i := rfl
  rw [imgInstall_eq, imgInstall_eq, htasks]
  exact foldl_answer (imgTaskPut_answer s i k r) _ (imgCopied s i k)

/-! ### Verification (R299, R300) -/

theorem planVerifyDone_other {s : State} (h : s.plan.status ≠ .verifying) (k : List (Nat × List Nat)) : planVerifyDone s k = s := if_pos h

/-- Both banks with the image at address `a` installed. -/
def planBanks (s : State) (a : Nat) : State := imgInstall (imgInstall s (imgAt s a) 0) (imgAt s a) 1

theorem planBanks_memOnly (s : State) (a : Nat) : MemOnly s (planBanks s a) := (imgInstall_memOnly s _ 0).trans (imgInstall_memOnly _ _ 1)

theorem planBanks_answer (s : State) (a : Nat) (r : Resp) : planBanks (answer s r) a = answer (planBanks s a) r := by
  rw [planBanks, planBanks, imgAt_answer, imgInstall_answer, imgInstall_answer]

theorem planVerifyDone_staged {s : State} {k : List (Nat × List Nat)} (h : s.plan.status = .verifying) (hr : (imgReason s k).1 = 0) :
    planVerifyDone s k = { planBanks s s.plan.pendAddr with
      plan := { s.plan with status := .staged, pend := some (imgPlan s (imgAt s s.plan.pendAddr)), stagedAt := s.phu.bcount } } := by
  have hplan : (planBanks s s.plan.pendAddr).plan = s.plan := by rw [planBanks_memOnly s s.plan.pendAddr]
  have hphu : (planBanks s s.plan.pendAddr).phu = s.phu := by rw [planBanks_memOnly s s.plan.pendAddr]
  refine (if_neg (not_not_intro h)).trans ((if_neg (not_not_intro hr)).trans ?_)
  dsimp only
  rw [← planBanks, hplan, hphu]

theorem planVerifyDone_refused {s : State} {k : List (Nat × List Nat)} (h : s.plan.status = .verifying) (hr : (imgReason s k).1 ≠ 0) :
    planVerifyDone s k = planRefuse (if (imgReason s k).1 = 7 then raise s 0x0808 0xFFFF (imgReason s k).2 0 else s) (imgReason s k).1
      (imgReason s k).2 := (if_neg (not_not_intro h)).trans (if_pos hr)

/-- A refused image, with the model that is tied to it. -/
theorem planRefuse_effect (s : State) (reason sub : Nat) :
    (planRefuse s reason sub).plan = { s.plan with status := .refused, reason := reason, pend := none, deferrals := 0 } ∧
    Raised (planRefuse s reason sub) 0x0B01 0xFFFF reason sub ∧ (planRefuse s reason sub).mem = s.mem ∧
    ∃ l, (planRefuse s reason sub).logs.buf = s.logs.buf ++ l := by
  have honly : (planRefuseOnly s reason sub).plan = { s.plan with status := .refused, reason := reason, pend := none, deferrals := 0 } :=
    raise_plan ..
  obtain ⟨-, hmem, -, -, hraised⟩ := planRefuseOnly_effect s reason sub
  have hadded : ∃ l, (planRefuseOnly s reason sub).logs.buf = s.logs.buf ++ l := (raise_eventFrame ..).added
  unfold planRefuse
  dsimp only
  split
  · exact ⟨(modelRefuseOnly_plan ..).trans honly, raised_more hraised (raise_eventFrame ..).added, (modelRefuseOnly_mem ..).trans hmem,
      added_trans hadded (raise_eventFrame ..).added⟩
  · exact ⟨honly, hraised, hmem, hadded⟩

theorem planVerifyDone_refused_effect {s : State} {k : List (Nat × List Nat)} (h : s.plan.status = .verifying) (hr : (imgReason s k).1 ≠ 0) :
    let t := planVerifyDone s k
    t.plan = { s.plan with status := .refused, reason := (imgReason s k).1, pend := none, deferrals := 0 } ∧
      Raised t 0x0B01 0xFFFF (imgReason s k).1 (imgReason s k).2 ∧
      ((imgReason s k).1 = 7 → Raised t 0x0808 0xFFFF (imgReason s k).2 0) ∧ t.mem = s.mem := by
  intro t
  rw [show t = _ from planVerifyDone_refused h hr]
  by_cases h7 : (imgReason s k).1 = 7
  · rw [if_pos h7]
    obtain ⟨hplan, hraised, hmem, hadded⟩ := planRefuse_effect (raise s 0x0808 0xFFFF (imgReason s k).2 0) (imgReason s k).1 (imgReason s k).2
    exact ⟨by rw [hplan, raise_plan], hraised, fun _ => raised_more (raised_here ..) hadded, by rw [hmem, raise_mem]⟩
  · rw [if_neg h7]
    obtain ⟨hplan, hraised, hmem, -⟩ := planRefuse_effect s (imgReason s k).1 (imgReason s k).2
    exact ⟨hplan, hraised, fun h => absurd h h7, hmem⟩

/-- Settles O33: a verified image staged, one refused, and nothing to verify. -/
theorem planVerificationStagesOrRefuses : Obligations.PlanVerificationStagesOrRefuses := by
  unfold Obligations.PlanVerificationStagesOrRefuses
  refine fun s k hup => ⟨fun h => ?_, fun h hs => runIo_next_settled (planVerifyDone_other (s := answer s .none) h _) hup hs⟩
  intro r i
  have hreason := imgReason_answer s .none (k.map (fun x => (x.1.toNat, x.2.map (·.toNat))))
  refine ⟨fun hr hs => ?_, fun hr => ?_⟩
  · have hstaged := planVerifyDone_staged (s := answer s .none) h ((congrArg Prod.fst hreason).trans hr)
    rw [imgPlan_answer, planBanks_answer] at hstaged
    exact runIo_next_settled hstaged hup (settled_of_logs (s := s) (congrArg State.logs (planBanks_memOnly s s.plan.pendAddr) :) hs)
  · have heffect := planVerifyDone_refused_effect (s := answer s .none) h (by rw [hreason]; exact hr)
    rw [hreason] at heffect
    exact ⟨_, runIo_next rfl hup, heffect⟩

end Sys2Proof.Machine

/-!
Loads and stores of the application cluster (R22 to R24, R317 to R320, R324, R328): the turns at a bank, the areas of the map, and the proof of
ClusterLoadsAndStores.
-/
namespace Sys2Proof.Machine

/-! ### The areas of the map (R22) -/

section Areas

variable {s : State} {a n : Nat}

theorem mapArea_high (h : ¬a < 0x2000000000) : mapArea s a ≠ .ddr := by
  rw [mapArea, if_neg h]
  dsimp only
  split
  · split <;> exact nofun
  · repeat (split; · exact nofun)
    exact nofun

theorem mapArea_low (h : a < 0x2000000000) : mapArea s a = .ddr ∨ mapArea s a = .none := by
  rw [mapArea, if_pos h]
  split
  · exact .inl rfl
  · exact .inr rfl

theorem accessArea_start {x : MapArea} (h : accessArea s a n = x) (hx : x ≠ .none) : mapArea s a = x := by
  unfold accessArea at h
  dsimp only at h
  split at h
  · exact h
  · exact absurd h.symm hx

theorem ddr_low (h : accessArea s a n = .ddr) : a < 0x2000000000 :=
  Decidable.by_contra fun hhigh => mapArea_high hhigh (accessArea_start h nofun)

/-- An area that is not DDR5 lies above it. -/
theorem area_high {x : MapArea} (h : accessArea s a n = x) (hx : x ≠ .none) (hddr : x ≠ .ddr) : ¬a < 0x2000000000 := fun hlow =>
  (mapArea_low hlow).elim (fun h' => hddr ((accessArea_start h hx).symm.trans h')) (fun h' => hx ((accessArea_start h hx).symm.trans h'))

end Areas

/-! ### Which accesses wait (R461, R464) -/

theorem busWaits_load {s : State} {a : BitVec 40} (h : ¬a.toNat < 0x2000000000) (n : BitVec 7) (e : Option Bool) :
    busWaits s (.load a n e) = false := (congrArg (srcFailed s 4 && ·) (decide_eq_false h)).trans (Bool.and_false _)

theorem busWaits_store {s : State} {a : BitVec 40} (h : ¬a.toNat < 0x2000000000) (b : Bytes) :
    busWaits s (.store a b) = false := (congrArg (srcFailed s 4 && ·) (decide_eq_false h)).trans (Bool.and_false _)

theorem busWaits_running {s : State} (h : srcFailed s 4 = false) (op : BusOp) : busWaits s op = false := by
  unfold busWaits
  rw [h, Bool.false_and]

section Access

variable {s t : State} {c : Fin 8} {op : BusOp} {r : List BankReq} (happ : appUp s = true) (hup : arithUp s = true)
include happ hup

theorem execBusAccess_waits (h : busWaits s op = true) (hs : Settled s) : exec (.busAccess c op r) s = .next { s with resp := .none } :=
  runApp_next_settled (f := fun s => if busWaits s op then s else busAccess s c op r) (if_pos h) happ hup hs

theorem execBusAccess_next (h : busWaits s op = false) (ht : busAccess (answer s .none) c op r = t) :
    exec (.busAccess c op r) s = .next (flush t) :=
  runApp_next (f := fun s => if busWaits s op then s else busAccess s c op r) ((if_neg (by rw [Bool.not_eq_true]; exact h)).trans ht) happ hup

theorem execBusAccess_settled (h : busWaits s op = false) (ht : busAccess (answer s .none) c op r = t) (hs : Settled t) :
    exec (.busAccess c op r) s = .next t := (execBusAccess_next happ hup h ht).trans (congrArg _ (flush_quiet t hs))

end Access

/-! ### An access by its area -/

section ByArea

variable {s : State} {c : Fin 8} {a n : Nat} {e : Option Bool} {r : List BankReq} {b : Bytes}

theorem busLoad_ddr (h : accessArea s a n = .ddr) :
    busLoad s c a n e r = if ddrServes s a n then memRead s a n e else answer s .busError := by rw [busLoad, h]

theorem busLoad_store {k : Nat} (h : accessArea s a n = .store k) :
    busLoad s c a n e r =
      bankRun (bankTurn s c.val a .read).2 c.val a .read (fun t => storeLoad t (bankTurn s c.val a .read).1 a n e) r := by rw [busLoad, h]

theorem busLoad_secure {k : Nat} (h : accessArea s a n = .secure k) : busLoad s c a n e r = secureAccess s c k (.busData 0) := by
  rw [busLoad, h]

theorem busLoad_local (h : accessArea s a n = .local') : busLoad s c a n e r = localRead s a n := by rw [busLoad, h]

theorem busLoad_sync (h : accessArea s a n = .sync) (hn : n = 8 ∧ a % 8 = 0) :
    busLoad s c a n e r = answer s (.busData (ctrShown s ((a - ctrlBase - 0x300000) / 8))) := by
  rw [busLoad, h]
  exact if_pos hn

theorem busLoad_reg (h : accessArea s a n = .reg) (hn : n = 4 ∧ a % 4 = 0) : busLoad s c a n e r = registerRead s c (a - ctrlBase) := by
  rw [busLoad, h]
  exact if_pos hn

theorem busLoad_emram (h : accessArea s a n = .emram) : busLoad s c a n e r = emramRead s a n := by rw [busLoad, h]

theorem busLoad_none (h : accessArea s a n = .none) : busLoad s c a n e r = answer s .busError := by rw [busLoad, h]

theorem busStore_ddr (h : accessArea s a b.length = .ddr) :
    busStore s c a b r = if ddrServes s a b.length then answer (memPut s a b) .busOk else answer s .busError := by rw [busStore, h]

theorem busStore_store {k : Nat} (h : accessArea s a b.length = .store k) :
    busStore s c a b r = bankRun (bankTurn s c.val a (storeAct a b.length)).2 c.val a (storeAct a b.length)
      (fun s => answer (memPut s a b) .busOk) r := by rw [busStore, h]

theorem busStore_secure {k : Nat} (h : accessArea s a b.length = .secure k) : busStore s c a b r = secureAccess s c k .busOk := by
  rw [busStore, h]

theorem busStore_reg (h : accessArea s a b.length = .reg) (hn : b.length = 4 ∧ a % 4 = 0) :
    busStore s c a b r = registerWrite s (.cluster c) (a - ctrlBase) (ofLe b) := by
  rw [busStore, h]
  exact if_pos hn

theorem busStore_refused (h : accessArea s a b.length = .none ∨ accessArea s a b.length = .local' ∨ accessArea s a b.length = .emram) :
    busStore s c a b r = answer s .busError := by
  obtain h | h | h := h <;> rw [busStore, h]

theorem localRead_settled {s : State} (hs : Settled s) : Settled (localRead s a n) := by
  unfold localRead
  dsimp only
  split
  · exact hs
  · split
    · exact hs
    · exact hs

theorem secureAccess_effect (s : State) (c : Fin 8) (k : Nat) (r : Resp) :
    (secureAccess s c k r).resp = r ∧ Raised (secureAccess s c k r) 0x0C0B 0xFFFF (coreId c.val) k ∧ (secureAccess s c k r).mem = s.mem :=
  ⟨rfl, raised_here .., raise_mem ..⟩

end ByArea

/-! ### Reads of memory (R323, R324, R334) -/

theorem shownBytes_form (s : State) (a n : Nat) : ∃ ctr, (shownBytes s a n).2 = { s with freeCtr := ctr } := by
  unfold shownBytes
  split
  · exact ⟨_, rfl⟩
  · exact ⟨s.freeCtr, rfl⟩

theorem memRead_clean {s : State} {a n : Nat} (h : ueAt s a = false) (h' : ueAt s (a + n - 1) = false) :
    memRead s a n none = answer (shownBytes s a n).2 (.busData (ofLe (shownBytes s a n).1)) := if_neg (by simp [h, h'])

theorem memRead_uncorrectable (s : State) (a n : Nat) : memRead s a n (some true) = answer (readUncorrectable s a) .busError := by
  rw [memRead, if_pos (.inl rfl), if_neg (by simp)]


theorem chanUpd_bytes (s : State) (n : Nat) (f : Chan → Chan) : (chanUpd s n f).mem.bytes = s.mem.bytes := by
  unfold chanUpd
  dsimp only
  split <;> rfl

/-- The pages that a DDR5 error retires or marks. -/
theorem ddrUncorrectable_bytes (s : State) (a : Nat) : (ddrUncorrectable s a).mem.bytes = s.mem.bytes := by
  unfold ddrUncorrectable
  extract_lets s' m listed page pages t
  have hlisted : listed.bytes = s'.mem.bytes := by dsimp only [listed, m]; split <;> rfl
  have hpages : pages.bytes = listed.bytes := by
    dsimp only [pages]
    split
    · rfl
    · split
      · split <;> rfl
      · rfl
  rw [raise_mem]
  exact (hpages.trans hlisted).trans (chanUpd_bytes ..)

theorem ddrUncorrectable_raised (s : State) (a : Nat) :
    Raised (ddrUncorrectable s a) 0x0C07 (chanUnit (ddrChan a)) (ddrChan a) (a / 256) := raised_here ..

theorem memRead_ddr_error {s : State} {a n : Nat} (h : a < 0x2000000000) :
    (memRead s a n (some true)).resp = .busError ∧ (memRead s a n (some true)).mem.bytes = s.mem.bytes ∧
      Raised (memRead s a n (some true)) 0x0C07 (chanUnit (ddrChan a)) (ddrChan a) (a / 256) := by
  have hread : readUncorrectable s a = ddrUncorrectable s a := if_neg (Nat.not_le.mpr h)
  rw [memRead_uncorrectable, hread]
  exact ⟨rfl, ddrUncorrectable_bytes s a, ddrUncorrectable_raised s a⟩

/-! ### A core's turn at its bank (R317, R318) -/

/-- The bank's record of a turn. -/
def turnPut (s : State) (a : Nat) (act : BankAct) (x : BankUse) : State :=
  let c := clkNow s
  let h := s.mem.held.filter (fun y => y.1 != bankKey a)
  { s with clk := { c with banks := x :: c.banks.filter (fun y => y.bank != bankKey a) }
           mem := { s.mem with held := if actHolds act then (bankKey a, s.now) :: h else h } }

/-- The first turn of a clk at a bank. -/
def firstUse (s : State) (core a : Nat) (act : BankAct) : BankUse :=
  { bank := bankKey a, word := (ssWord a).2 / 512, cores := [core],
    before := if actWrites act then some (viewBytes s (a / 64 * 64) 64) else none }

section Turn

variable {s : State} {core a : Nat} {act : BankAct}

theorem bankFree_idle (h : s.mem.held.find? (fun x => x.1 == bankKey a) = none) : bankFree s a = s := by rw [bankFree, h]

theorem bankTurn_first (hidle : s.mem.held.find? (fun x => x.1 == bankKey a) = none)
    (hturn : (clkNow s).banks.find? (fun x => x.bank == bankKey a) = none) :
    bankTurn s core a act = (none, turnPut s a act (firstUse s core a act)) := by
  unfold bankTurn
  dsimp only
  rw [bankFree_idle hidle, hturn]
  rfl

theorem bankTurn_sameWord {x : BankUse} (hidle : s.mem.held.find? (fun x => x.1 == bankKey a) = none)
    (hturn : (clkNow s).banks.find? (fun x => x.bank == bankKey a) = some x) (hword : x.word = (ssWord a).2 / 512)
    (hcore : x.cores.contains core = false) :
    bankTurn s core a .read = (x.before, turnPut s a .read { x with cores := core :: x.cores }) := by
  unfold bankTurn
  dsimp only
  rw [bankFree_idle hidle, hturn]
  refine (if_pos ?_ :)
  rw [hcore]
  exact ⟨hword, rfl, rfl⟩

theorem bankTurn_otherWord {x : BankUse} (hidle : s.mem.held.find? (fun x => x.1 == bankKey a) = none)
    (hturn : (clkNow s).banks.find? (fun x => x.bank == bankKey a) = some x) (hword : x.word ≠ (ssWord a).2 / 512) :
    bankTurn s core a act = (none, turnPut (nextClk s) a act (firstUse s core a act)) := by
  have hnext : bankFree (nextClk s) a = nextClk s := bankFree_idle (by rw [nextClk, advance_mem]; exact hidle)
  unfold bankTurn
  dsimp only
  rw [bankFree_idle hidle, hturn]
  refine (if_neg (fun h => hword h.1)).trans ?_
  rw [hnext]
  rfl

/-- A bank that nothing holds keeps its list of holds in a read. -/
theorem turnPut_read (hidle : s.mem.held.find? (fun x => x.1 == bankKey a) = none) (x : BankUse) :
    turnPut s a .read x = { s with clk := (turnPut s a .read x).clk } := by
  have hheld : s.mem.held.filter (fun y => y.1 != bankKey a) = s.mem.held := by
    rw [List.filter_eq_self]
    intro y hy
    have := List.find?_eq_none.mp hidle y hy
    simpa using this
  have hmem : (turnPut s a .read x).mem = s.mem := congrArg (fun h => ({ s.mem with held := h } : Mem)) hheld
  exact (congrArg (fun m => ({ turnPut s a .read x with mem := m } : State)) hmem :)

end Turn

/-- A word's bytes before this clk's write, as a load of them finds them (R318). -/
theorem word_slice {w : Bytes} {a n : Nat} (hw : w.length = 64) (hn : a % 64 + n ≤ 64) (v : Nat) :
    (List.range n).map (fun i => if (a + i) / 64 = a / 64 then w.getD ((a + i) % 64) 0 else v / 2 ^ (8 * i) % 256) = slice w (a % 64) n := by
  have hlen : n ≤ (w.drop (a % 64)).length := by rw [List.length_drop]; omega
  rw [slice, fit, Nat.sub_eq_zero_of_le hlen]
  refine List.ext_getElem (by simp [zeros]; omega) fun i hi hi' => ?_
  have hlt : i < n := by simpa using hi
  have hdiv : (a + i) / 64 = a / 64 := by omega
  have hmod : (a + i) % 64 = a % 64 + i := by omega
  have hin : a % 64 + i < w.length := by omega
  simp [zeros, hdiv, hmod, hin]

/-! ### Loads of the shared store (R318) -/

section StoreLoad

variable {s : State} {a n : Nat}

theorem storeLoad_now {e : Option Bool} : storeLoad s none a n e = memRead s a n e := rfl

theorem storeLoad_before {w : Bytes} (h : ueAt s a = false) (h' : ueAt s (a + n - 1) = false) (hw : w.length = 64) (hn : a % 64 + n ≤ 64) :
    storeLoad s (some w) a n none = answer (shownBytes s a n).2 (.busData (ofLe (slice w (a % 64) n))) := by
  rw [← word_slice hw hn (ofLe (shownBytes s a n).1)]
  unfold storeLoad
  dsimp only
  rw [memRead_clean h h']
  rfl

end StoreLoad

/-! ### The bank among rivals (R319, R320) -/

/-- What the reads of other units leave. -/
structure ReadsOnly (s t : State) : Prop where
  bytes : t.mem.bytes = s.mem.bytes
  resp : t.resp = s.resp
  now : t.now = s.now
  ticks : ticksPerClk t = ticksPerClk s

namespace ReadsOnly

theorem refl (s : State) : ReadsOnly s s := ⟨rfl, rfl, rfl, rfl⟩

theorem trans {s t u : State} (h : ReadsOnly s t) (h' : ReadsOnly t u) : ReadsOnly s u :=
  ⟨h'.bytes.trans h.bytes, h'.resp.trans h.resp, h'.now.trans h.now, h'.ticks.trans h.ticks⟩

end ReadsOnly

theorem raise_readsOnly (s : State) (c u a b : Nat) : ReadsOnly s (raise s c u a b) :=
  ⟨congrArg Mem.bytes (raise_mem ..), raise_resp .., raise_now .., by rw [ticksPerClk, raise_cpm, raise_svc, ticksPerClk]⟩

theorem bankStall_readsOnly (s : State) (u clk : Nat) : ReadsOnly s (bankStall s u clk) := by
  unfold bankStall
  split
  · dsimp only
    have hmem : ReadsOnly s { s with mem := if idStack u = 0 then { s.mem with stall0 := max s.mem.stall0 clk }
        else { s.mem with stall1 := max s.mem.stall1 clk } } := ⟨by dsimp only; split <;> rfl, rfl, rfl, rfl⟩
    split
    · exact hmem.trans (raise_readsOnly ..)
    · exact hmem
  · exact .refl s

theorem rivalServed_read {s : State} {k bank : Nat} {r : BankWait} (h : r.act = .read) : ReadsOnly s (rivalServed s k bank r) := by
  unfold rivalServed
  rw [h]
  dsimp only
  split
  · exact raise_readsOnly ..
  · exact .refl s

/-- A request that is another unit's read. -/
def RivalRead (r : BankWait) : Prop := r.own = false ∧ r.act = .read

theorem bankServe_reads {k bank : Nat} {own : State → State} {l : List BankWait} (h : ∀ r ∈ l, RivalRead r) (s : State) :
    ReadsOnly s (bankServe s k bank own l) := by
  unfold bankServe
  induction l generalizing s with
  | nil => exact .refl s
  | cons r l ih =>
    obtain ⟨hown, hact⟩ := h r List.mem_cons_self
    rw [List.foldl_cons, if_neg (by rw [hown]; exact nofun)]
    exact (rivalServed_read hact).trans (ih (fun x hx => h x (List.mem_cons_of_mem _ hx)) _)

theorem presented_subset (clk : Nat) (l : List BankWait) (seen : List Nat) : ∀ r ∈ presented clk l seen, r ∈ l := by
  induction l generalizing seen with
  | nil => exact fun _ h => h
  | cons x l ih =>
    intro r hr
    unfold presented at hr
    split at hr
    · exact List.mem_cons_of_mem _ (ih _ r hr)
    · obtain rfl | hr := List.mem_cons.mp hr
      · exact List.mem_cons_self
      · exact List.mem_cons_of_mem _ (ih _ r hr)

/-- A bank where only other units' reads wait serves some of them. -/
theorem bankServes_reads {b : BankSt} (h : ∀ r ∈ b.wait, RivalRead r) (limit : Nat) : ∀ r ∈ bankServes limit b, RivalRead r := by
  unfold bankServes
  split
  · exact nofun
  · dsimp only
    split
    · exact nofun
    · next w _ =>
      generalize hcan : (presented b.clk b.wait []).filter (fun r => !b.top || decide (3 ≤ busClass r.u)) = can
      have hall : ∀ r ∈ can, RivalRead r := fun r hr => h r (presented_subset _ _ _ r (List.mem_filter.mp (hcan ▸ hr)).1)
      have hwrites : (can.filter (fun r => r.word == w.word)).filter (fun r => actWrites r.act) = [] := by
        rw [List.filter_eq_nil_iff]
        exact fun r hr => by rw [(hall r (List.mem_filter.mp hr).1).2]; exact nofun
      intro r hr
      rw [hwrites] at hr
      obtain hr | hr := List.mem_append.mp hr
      · exact hall r (List.mem_filter.mp (List.mem_filter.mp hr).1).1
      · exact absurd hr List.not_mem_nil

theorem bankNext_reads {b : BankSt} (h : ∀ r ∈ b.wait, RivalRead r) (l : List BankWait) : ∀ r ∈ (bankNext b l).wait, RivalRead r := by
  intro r hr
  obtain ⟨x, hx, rfl⟩ := List.mem_map.mp hr
  have hxr := h x (List.mem_filter.mp hx).1
  split
  · exact hxr
  · exact hxr

/-- Once the core's own access has been served, the rest are reads of other units. -/
theorem bankGo_reads {k bank : Nat} {own : State → State} {b : BankSt} (h : ∀ r ∈ b.wait, RivalRead r) (n : Nat) (s : State) :
    ReadsOnly s (bankGo k bank own n s b) := by
  induction n generalizing s b with
  | zero => exact bankStall_readsOnly ..
  | succ n ih =>
    rw [bankGo]
    split
    · exact bankStall_readsOnly ..
    · have hnext := bankNext_reads h (bankServes (field (regF s Reg.sscCtrl) 8 8) b)
      have hown : ¬(bankNext b (bankServes (field (regF s Reg.sscCtrl) 8 8) b)).wait.any (·.own) = true := by
        rw [List.any_eq_true]
        rintro ⟨r, hr, hr'⟩
        rw [(hnext r hr).1] at hr'
        exact absurd hr' (by decide)
      dsimp only
      rw [if_neg hown]
      exact (bankServe_reads (bankServes_reads h _) s).trans (ih hnext _)

/-- Two requests that have stalled alike are ordered by class and unit. -/
theorem wins_ahead {limit : Nat} {a b : BankWait} (h : a.stall = b.stall) : a.wins limit b = a.ahead b := by
  unfold BankWait.wins
  split
  · rfl
  · next hclass =>
    rw [not_or, Nat.not_le, Nat.not_le] at hclass
    have haged : a.aged limit = b.aged limit := by
      rw [BankWait.aged, BankWait.aged, h, decide_eq_true (show 3 ≤ busClass a.u from hclass.1),
        decide_eq_true (show 3 ≤ busClass b.u from hclass.2)]
    rw [haged, Bool.and_self, Bool.or_self]
    split
    · simp [h]
    · rfl

/-- A request that waits alone is served. -/
theorem bankServes_alone {b : BankSt} {o : BankWait} (hwait : b.wait = [o]) (hhold : b.hold = false) (hclk : ¬b.clk < o.clk)
    (hcls : 3 ≤ busClass o.u) (limit : Nat) : bankServes limit b = [o] := by
  have hcan : (presented b.clk [o] []).filter (fun r => !b.top || decide (3 ≤ busClass r.u)) = [o] := by simp [presented, hclk, hcls]
  unfold bankServes
  rw [hhold, if_neg (by decide), hwait, hcan]
  cases hact : actWrites o.act <;> simp [bankWinner, hact]

/-- The core's access, when it waits alone. -/
theorem bankGo_alone {k bank : Nat} {own : State → State} {b : BankSt} {o : BankWait} (hwait : b.wait = [o]) (hown : o.own = true)
    (hserves : ∀ limit, bankServes limit b = [o]) (n : Nat) (s : State) : ReadsOnly (own s) (bankGo k bank own (n + 1) s b) := by
  have hnext : (bankNext b [o]).wait = [] := by simp [bankNext, hwait]
  have hserve : bankServe s k bank own [o] = own s := if_pos hown
  rw [bankGo, if_neg (by simp [hwait]), hserves]
  dsimp only
  rw [if_neg (by rw [hnext]; exact nofun), hserve]
  exact bankGo_reads (by rw [hnext]; exact nofun) n _

section TwoRequests

variable {k bank limit : Nat} {o r : BankWait}

/-- A bank at which two requests stand in their first clk. -/
def twoWait (o r : BankWait) : BankSt := { clk := 0, wait := [o, r], top := false, hold := false, worst := 0 }

/-- The core's own write or read-modify-write, and a read of another word by a unit of another class. -/
structure Rivals (o r : BankWait) : Prop where
  own : o.own = true
  writes : actWrites o.act = true
  read : RivalRead r
  word : r.word ≠ o.word
  cls : busClass o.u = 10
  rival : busClass r.u ≠ 10
  clk : o.clk = 0 ∧ r.clk = 0
  stall : o.stall = 0 ∧ r.stall = 0

namespace Rivals

variable (h : Rivals o r)
include h

theorem presented : presented 0 [o, r] [] = [o, r] := by
  have hu : r.u ≠ o.u := fun hu => h.rival (hu ▸ h.cls)
  simp [Machine.presented, h.clk.1, h.clk.2, hu]

theorem no_ne : o ≠ r := fun hor => absurd h.own (by rw [hor, h.read.1]; decide)

theorem wins : o.wins limit r = decide (10 < busClass r.u) := by
  rw [wins_ahead (h.stall.1.trans h.stall.2.symm), BankWait.ahead, h.cls, beq_false_of_ne h.rival.symm, Bool.false_and, Bool.or_false]

theorem serves_own (hclass : 10 < busClass r.u) : bankServes limit (twoWait o r) = [o] := by
  have hwins : o.wins limit r = true := h.wins.trans (decide_eq_true hclass)
  simp [bankServes, twoWait, h.presented, bankWinner, hwins, h.word, h.writes]

theorem serves_rival (hclass : ¬10 < busClass r.u) : bankServes limit (twoWait o r) = [r] := by
  have hwins : o.wins limit r = false := h.wins.trans (decide_eq_false hclass)
  have hread : actWrites r.act = false := by rw [h.read.2]; rfl
  simp [bankServes, twoWait, h.presented, bankWinner, hwins, h.word.symm, hread]

theorem next_own : (bankNext (twoWait o r) [o]).wait = [{ r with stall := r.stall + 1 }] := by
  simp [bankNext, twoWait, h.presented, h.no_ne.symm]

theorem next_rival : (bankNext (twoWait o r) [r]).wait = [{ o with stall := o.stall + 1 }] := by
  simp [bankNext, twoWait, h.presented, h.no_ne]

/-- The core goes first: its access, then the other unit's read. -/
theorem go_own {own : State → State} (hclass : 10 < busClass r.u) (n : Nat) (s : State) :
    ReadsOnly (own s) (bankGo k bank own (n + 1) s (twoWait o r)) := by
  have hwait := h.next_own
  rw [bankGo, if_neg (by simp [twoWait]), h.serves_own hclass]
  have hserve : bankServe s k bank own [o] = own s := if_pos h.own
  have hrest : ∀ x ∈ (bankNext (twoWait o r) [o]).wait, RivalRead x := by
    rw [hwait]
    exact fun x hx => List.mem_singleton.mp hx ▸ h.read
  have hown : ¬(bankNext (twoWait o r) [o]).wait.any (·.own) = true := by
    rw [hwait]
    simp [BankWait.own, show ¬r.no = 0 from fun h' => absurd h.read.1 (by rw [BankWait.own, h']; decide)]
  dsimp only
  rw [if_neg hown, hserve]
  exact bankGo_reads hrest n _

/-- The other unit's read goes first, and the core's access after one clk. -/
theorem go_rival {own : State → State} (hclass : ¬10 < busClass r.u) (n : Nat) (s : State) :
    ∃ t, ReadsOnly s t ∧ ReadsOnly (own (nextClk t)) (bankGo k bank own (n + 2) s (twoWait o r)) := by
  have hwait := h.next_rival
  have hserve : ReadsOnly s (bankServe s k bank own [r]) := bankServe_reads (fun x hx => List.mem_singleton.mp hx ▸ h.read) s
  have hown : (bankNext (twoWait o r) [r]).wait.any (·.own) = true := by
    rw [hwait]
    exact (Bool.or_false _).trans h.own
  have hhold : (bankNext (twoWait o r) [r]).hold = false := by
    show ([r].any fun r => actHolds r.act) = false
    rw [List.any_cons, h.read.2]
    rfl
  refine ⟨_, hserve, ?_⟩
  rw [bankGo, if_neg (by simp [twoWait]), h.serves_rival hclass]
  dsimp only
  rw [if_pos hown]
  exact bankGo_alone hwait h.own (bankServes_alone hwait hhold (by rw [h.clk.1]; exact Nat.not_lt_zero _) (by rw [h.cls]; decide)) n _

end Rivals

end TwoRequests

/-! ### A load of the shared store at its bank (R317, R318) -/

theorem bankRun_alone (s : State) (core a : Nat) (act : BankAct) (own : State → State) : bankRun s core a act own [] = own s := rfl

theorem shownBytes_fst (s : State) (a n : Nat) : (shownBytes s a n).1 =
    if (List.range n).any (fun i => unlaid s (a + i)) then
      (List.range n).map (fun i => if unlaid s (a + i) then (takeFreeBytes s n).1.getD i 0 else viewByte s (a + i))
    else viewBytes s a n := by
  unfold shownBytes
  split <;> rfl

theorem shownBytes_clk (s : State) (c : ClkSt) (r : Resp) (a n : Nat) :
    (shownBytes { s with clk := c, resp := r } a n).1 = (shownBytes s a n).1 := by
  rw [shownBytes_fst, shownBytes_fst]
  rfl

section StoreTurns

variable {s : State} {c : Fin 8} {a n k : Nat} (harea : accessArea s a n = .store k) (hue : ueAt s a = false) (hue' : ueAt s (a + n - 1) = false)
  (hidle : s.mem.held.find? (fun x => x.1 == bankKey a) = none)
include harea hue hue' hidle

theorem busLoad_first (hturn : (clkNow s).banks.find? (fun x => x.bank == bankKey a) = none) :
    ∃ clk ctr, busLoad s c a n none [] = { s with clk := clk, freeCtr := ctr, resp := .busData (ofLe (shownBytes s a n).1) } := by
  rw [busLoad_store harea, bankTurn_first hidle hturn, bankRun_alone]
  dsimp only
  rw [turnPut_read hidle]
  generalize (turnPut s a .read (firstUse s c.val a .read)).clk = clk
  rw [storeLoad_now, memRead_clean (s := { s with clk := clk }) hue hue']
  obtain ⟨ctr, hctr⟩ := shownBytes_form { s with clk := clk } a n
  have hbytes := shownBytes_clk s clk s.resp a n
  exact ⟨clk, ctr, by rw [hctr, hbytes]; rfl⟩

theorem busLoad_sameWord {x : BankUse} {w : Bytes} (hturn : (clkNow s).banks.find? (fun x => x.bank == bankKey a) = some x)
    (hword : x.word = (ssWord a).2 / 512) (hcore : x.cores.contains c.val = false) (hbefore : x.before = some w) (hw : w.length = 64)
    (hn : a % 64 + n ≤ 64) :
    ∃ clk ctr, busLoad s c a n none [] = { s with clk := clk, freeCtr := ctr, resp := .busData (ofLe (slice w (a % 64) n)) } := by
  rw [busLoad_store harea, bankTurn_sameWord hidle hturn hword hcore, bankRun_alone, hbefore]
  dsimp only
  rw [turnPut_read hidle]
  generalize (turnPut s a .read _).clk = clk
  rw [storeLoad_before (s := { s with clk := clk }) hue hue' hw hn]
  obtain ⟨ctr, hctr⟩ := shownBytes_form { s with clk := clk } a n
  exact ⟨clk, ctr, by rw [hctr]; rfl⟩

theorem busLoad_otherWord {x : BankUse} (hturn : (clkNow s).banks.find? (fun x => x.bank == bankKey a) = some x)
    (hword : x.word ≠ (ssWord a).2 / 512) :
    ∃ phu clk ctr v, busLoad s c a n none [] =
      { s with now := s.now + ticksPerClk s, phu := phu, clk := clk, freeCtr := ctr, resp := .busData v } := by
  obtain ⟨phu, hphu⟩ := advance_form s (ticksPerClk s)
  have hnext : nextClk s = { s with now := s.now + ticksPerClk s, phu := phu } := hphu
  rw [busLoad_store harea, bankTurn_otherWord hidle hturn hword, bankRun_alone, hnext]
  dsimp only
  rw [turnPut_read (s := { s with now := s.now + ticksPerClk s, phu := phu }) hidle]
  generalize (turnPut _ a .read _).clk = clk
  rw [storeLoad_now, memRead_clean (s := { s with now := s.now + ticksPerClk s, phu := phu, clk := clk }) hue hue']
  obtain ⟨ctr, hctr⟩ := shownBytes_form { s with now := s.now + ticksPerClk s, phu := phu, clk := clk } a n
  exact ⟨phu, clk, ctr, _, by rw [hctr]; rfl⟩

end StoreTurns

/-! ### A store at its bank -/

section Stores

variable {s : State} {c : Fin 8} {a k : Nat} {b : Bytes} (harea : accessArea s a b.length = .store k)
  (hidle : s.mem.held.find? (fun x => x.1 == bankKey a) = none) (hturn : (clkNow s).banks.find? (fun x => x.bank == bankKey a) = none)
include harea hidle hturn

theorem busStore_first : ∃ clk mem, busStore s c a b [] = { s with clk := clk, mem := mem, resp := .busOk } ∧
    mem.bytes = cellPut s.mem.bytes a b := by
  rw [busStore_store harea, bankTurn_first hidle hturn, bankRun_alone]
  exact ⟨_, _, rfl, rfl⟩

/-- The core's own access as a request at its bank, and a read of word `w` by unit `u`. -/
def ownWait (c : Fin 8) (a : Nat) (act : BankAct) : BankWait :=
  { no := 0, u := coreId c.val, word := (ssWord a).2 / 512, act := act, clk := 0, stall := 0 }

def rivalWait (u : BitVec 16) (w : BitVec 12) : BankWait := { no := 1, u := u.toNat, word := w.toNat, act := .read, clk := 0, stall := 0 }

omit harea hidle hturn in
theorem bankRun_two (s : State) (c : Fin 8) (a : Nat) (act : BankAct) (own : State → State) (u : BitVec 16) (w : BitVec 12) :
    bankRun s c.val a act own [⟨u, w, .read, 0⟩] =
      bankGo (ssWord a).1 (wordBank (ssWord a).2) own 6 s (twoWait (ownWait c a act) (rivalWait u w)) := by
  have hfuel : [ownWait c a act, rivalWait u w].foldl (fun m r => max m r.clk) 0 + 2 * 2 + 2 = 6 := rfl
  exact (if_neg nofun).trans
    (congrArg (fun n => bankGo (ssWord a).1 (wordBank (ssWord a).2) own n s (twoWait (ownWait c a act) (rivalWait u w))) hfuel)

omit harea hidle hturn in
theorem storeAct_writes (a n : Nat) : actWrites (storeAct a n) = true := by
  unfold storeAct
  split <;> rfl

omit harea hidle hturn in
theorem coreId_class (c : Fin 8) : busClass (coreId c.val) = 10 := by
  revert c
  decide

omit harea hidle hturn in
theorem rivals {u : BitVec 16} {w : BitVec 12} (hw : w.toNat ≠ (ssWord a).2 / 512) (hu : busClass u.toNat ≠ 10) :
    Rivals (ownWait c a (storeAct a b.length)) (rivalWait u w) :=
  ⟨rfl, storeAct_writes .., ⟨rfl, rfl⟩, hw, coreId_class c, hu, ⟨rfl, rfl⟩, rfl, rfl⟩

theorem busStore_rival {u : BitVec 16} {w : BitVec 12} (hw : w.toNat ≠ (ssWord a).2 / 512) (hu : busClass u.toNat ≠ 10) :
    let t := busStore s c a b [⟨u, w, .read, 0⟩]
    t.mem.bytes = cellPut s.mem.bytes a b ∧ t.resp = .busOk ∧ t.now = if busClass u.toNat < 10 then s.now + ticksPerClk s else s.now := by
  have hr : Rivals (ownWait c a (storeAct a b.length)) (rivalWait u w) := rivals hw hu
  intro t
  have ht : t = bankGo (ssWord a).1 (wordBank (ssWord a).2) (fun s => answer (memPut s a b) .busOk) 6
      (turnPut s a (storeAct a b.length) (firstUse s c.val a (storeAct a b.length)))
      (twoWait (ownWait c a (storeAct a b.length)) (rivalWait u w)) := by
    rw [show t = _ from busStore_store harea, bankTurn_first hidle hturn, bankRun_two]
  rw [ht]
  by_cases hclass : busClass u.toNat < 10
  · obtain ⟨t, hread, hown⟩ := hr.go_rival (k := (ssWord a).1) (bank := wordBank (ssWord a).2) (own := fun s => answer (memPut s a b) .busOk)
      (Nat.not_lt.mpr (Nat.le_of_lt hclass)) 4 (turnPut s a (storeAct a b.length) (firstUse s c.val a (storeAct a b.length)))
    have hbytes : (nextClk t).mem.bytes = s.mem.bytes := (congrArg Mem.bytes (advance_mem ..)).trans hread.bytes
    have hnow : (nextClk t).now = s.now + ticksPerClk s := (advance_now ..).trans (by rw [hread.now, hread.ticks]; rfl)
    exact ⟨hown.bytes.trans (congrArg (cellPut · a b) hbytes), hown.resp, (hown.now.trans hnow).trans (if_pos hclass).symm⟩
  · have hown := hr.go_own (k := (ssWord a).1) (bank := wordBank (ssWord a).2) (own := fun s => answer (memPut s a b) .busOk)
      (Nat.lt_of_le_of_ne (Nat.not_lt.mp hclass) hu.symm) 5 (turnPut s a (storeAct a b.length) (firstUse s c.val a (storeAct a b.length)))
    exact ⟨hown.bytes, hown.resp, hown.now.trans (if_neg hclass).symm⟩

end Stores

/-- Settles O35: an access by its area of the map, in the shared store at its bank's turn. -/
theorem clusterLoadsAndStores : Obligations.ClusterLoadsAndStores := by
  unfold Obligations.ClusterLoadsAndStores
  intro s c a happ hup s0 turn idle word
  refine ⟨fun n k hs harea hue hue' hidle => ?_, fun b k harea => ⟨fun hs hturn hidle => ?_, fun hturn hidle u w hw hu => ?_, fun r => ?_⟩,
    fun n harea => ?_, fun b hs hmem harea hserves r => ?_, fun k r => ⟨fun n harea e => ?_, fun b harea => ?_⟩,
    fun r hs hhigh => ?_, fun r hhigh ha => ⟨fun e harea => ?_, fun b hb harea => ?_⟩⟩
  · refine ⟨fun hturn => ?_, fun x w hturn hword hcore hbefore hw hn => ?_, fun x hturn hword => ?_⟩
    · obtain ⟨clk, ctr, h⟩ := busLoad_first (s := s0) (c := c) harea hue hue' hidle hturn
      exact ⟨_, execBusAccess_settled happ hup (busWaits_load (area_high harea nofun nofun) n none) h hs,
        congrArg (fun b => Resp.busData (ofLe b)) (shownBytes_clk s s.clk .none ..), rfl⟩
    · obtain ⟨clk, ctr, h⟩ := busLoad_sameWord (s := s0) (c := c) harea hue hue' hidle hturn hword hcore hbefore hw hn
      exact ⟨_, execBusAccess_settled happ hup (busWaits_load (area_high harea nofun nofun) n none) h hs, rfl, rfl, rfl⟩
    · obtain ⟨phu, clk, ctr, v, h⟩ := busLoad_otherWord (s := s0) (c := c) harea hue hue' hidle hturn hword
      exact ⟨_, v, execBusAccess_settled happ hup (busWaits_load (area_high harea nofun nofun) n none) h hs, rfl, rfl, rfl⟩
  · obtain ⟨clk, mem, h, hbytes⟩ := busStore_first (s := s0) (c := c) harea hidle hturn
    exact ⟨_, execBusAccess_settled happ hup (busWaits_store (area_high harea nofun nofun) b) h hs, hbytes, rfl, rfl⟩
  · exact ⟨_, execBusAccess_next happ hup (busWaits_store (area_high harea nofun nofun) b) rfl,
      busStore_rival (s := s0) (c := c) harea hidle hturn hw hu⟩
  · exact execBusAccess_next happ hup (busWaits_store (area_high harea nofun nofun) b) (busStore_store (s := s0) harea)
  · refine ⟨fun hmem hs e r => ?_, fun hmem hserves => ⟨fun hue hue' hs r => ?_, fun r => ?_⟩, fun hmem hserves hs e r => ?_⟩
    · exact execBusAccess_waits happ hup
        ((congrArg (· && decide (a.toNat < 0x2000000000)) hmem).trans ((Bool.true_and _).trans (decide_eq_true (ddr_low harea)))) hs
    · have hload : busLoad s0 c a.toNat n.toNat none r =
          answer (shownBytes s0 a.toNat n.toNat).2 (.busData (ofLe (shownBytes s0 a.toNat n.toNat).1)) :=
        (busLoad_ddr (s := s0) harea).trans ((if_pos hserves).trans (memRead_clean (s := s0) hue hue'))
      rw [shownBytes_clk s s.clk .none] at hload
      obtain ⟨ctr, hctr⟩ := shownBytes_form s0 a.toNat n.toNat
      exact execBusAccess_settled happ hup (busWaits_running hmem _) hload (settled_of_logs (s := s)
        (congrArg State.logs hctr :) hs)
    · have hload : busLoad s0 c a.toNat n.toNat (some true) r = memRead s0 a.toNat n.toNat (some true) :=
        (busLoad_ddr (s := s0) harea).trans (if_pos hserves)
      exact ⟨_, execBusAccess_next happ hup (busWaits_running hmem _) hload, memRead_ddr_error (s := s0) (ddr_low harea)⟩
    · exact execBusAccess_settled happ hup (busWaits_running hmem _)
        ((busLoad_ddr (s := s0) harea).trans (if_neg (by rw [Bool.not_eq_true]; exact hserves))) hs
  · exact execBusAccess_settled happ hup (busWaits_running hmem _) ((busStore_ddr (s := s0) harea).trans (if_pos hserves)) hs
  · exact ⟨_, execBusAccess_next happ hup (busWaits_load (area_high harea nofun nofun) n e) (busLoad_secure (s := s0) harea),
      secureAccess_effect ..⟩
  · exact ⟨_, execBusAccess_next happ hup (busWaits_store (area_high harea nofun nofun) b) (busStore_secure (s := s0) harea),
      secureAccess_effect ..⟩
  · have hload : ∀ n e, busWaits s (.load a n e) = false := busWaits_load (Nat.not_lt.mpr hhigh)
    refine ⟨fun n harea e => ?_, fun n harea hn ha e => ?_, fun n harea e => ?_, fun n harea e => ?_, fun b harea => ?_⟩
    · exact execBusAccess_settled happ hup (hload n e) (busLoad_local (s := s0) harea) (localRead_settled hs)
    · exact execBusAccess_settled happ hup (hload n e) (busLoad_sync (s := s0) harea ⟨by rw [hn]; rfl, ha⟩) hs
    · exact execBusAccess_settled happ hup (hload n e) (busLoad_none (s := s0) harea) hs
    · exact execBusAccess_settled happ hup (hload n e) (busLoad_emram (s := s0) harea) hs
    · exact execBusAccess_settled happ hup (busWaits_store (Nat.not_lt.mpr hhigh) b) (busStore_refused (s := s0) harea) hs
  · exact execBusAccess_next happ hup (busWaits_load (Nat.not_lt.mpr hhigh) 4 e) (busLoad_reg (s := s0) (n := 4) harea ⟨rfl, ha⟩)
  · exact execBusAccess_next happ hup (busWaits_store (Nat.not_lt.mpr hhigh) b) (busStore_reg (s := s0) (by rw [hb]; exact harea) ⟨hb, ha⟩)

end Sys2Proof.Machine

/-!
The upkeep of memory (R321, R325 to R327, R329, R334 to R337): a bank's stalls, the background test, the wipe of the secure region, the DDR5
scrub, refresh and calibration, and the proof of MemoryUpkeep.
-/
namespace Sys2Proof.Machine

section Wrappers

variable {s t : State} {f : State → State} (hf : f (answer s .none) = t) (hup : memUp s = true)
include hf hup

theorem runMem_next : (.next (runMem s f) : Host.Outcome State Fault Refusal) = .next (flush t) :=
  hf ▸ congrArg Host.Outcome.next (if_pos hup)

theorem runMem_next_settled (ht : Settled t) : (.next (runMem s f) : Host.Outcome State Fault Refusal) = .next t :=
  (runMem_next hf hup).trans (congrArg _ (flush_quiet t ht))

end Wrappers

/-! ### Stalls of a bank (R321) -/

section Stall

variable {s : State} {u clk : Nat}

theorem bankStall_other (h : ¬(idClass u = 0x0A ∧ unitExists u = true)) : bankStall s u clk = s := if_neg h

theorem bankStall_mem (hclass : idClass u = 0x0A) (hexists : unitExists u = true) :
    (bankStall s u clk).mem =
      if idStack u = 0 then { s.mem with stall0 := max s.mem.stall0 clk } else { s.mem with stall1 := max s.mem.stall1 clk } := by
  rw [bankStall, if_pos ⟨hclass, hexists⟩]
  dsimp only
  split
  · exact raise_mem ..
  · rfl

theorem bankStall_raised (hclass : idClass u = 0x0A) (hexists : unitExists u = true) (hlong : 1024 < clk) :
    Raised (bankStall s u clk) 0x0C0A u clk 0 := by
  rw [bankStall, if_pos ⟨hclass, hexists⟩]
  dsimp only
  rw [if_pos hlong]
  exact raised_here ..

end Stall

/-! ### The background test (R325 to R327) -/

/-- A stack's background test and the places that wait out of turn. -/
def bgOf (m : Mem) (k : Nat) : BgTest := if k = 0 then m.bg0 else m.bg1
def turnOf (m : Mem) (k : Nat) : List Nat := if k = 0 then m.turn0 else m.turn1

section Background

variable {s : State} {k : Nat}

theorem bgStart_idle (h : bit (regF s Reg.sscCtrl) 0 = false ∨ (bgOf s.mem k).busy = true) : bgStart s k = s := by
  refine if_pos (h.imp (fun h => by rw [h]; rfl) fun h => ?_)
  rw [← apply_ite BgTest.busy]
  exact h

theorem bgStart_effect (hon : bit (regF s Reg.sscCtrl) 0 = true) (hbusy : (bgOf s.mem k).busy = false) :
    ∃ mem, bgStart s k = { s with mem := mem } ∧ (bgOf mem k).busy = true ∧ mem.bytes = s.mem.bytes ∧
      ∀ p rest, turnOf s.mem k = p :: rest → (bgOf mem k).place = p := by
  have hidle : ¬((!bit (regF s Reg.sscCtrl) 0) = true ∨ (if k = 0 then s.mem.bg0.busy else s.mem.bg1.busy) = true) := by
    rw [hon, ← apply_ite BgTest.busy, show (if k = 0 then s.mem.bg0 else s.mem.bg1) = bgOf s.mem k from rfl, hbusy]
    decide
  rw [bgStart, if_neg hidle]
  dsimp only
  by_cases hk : k = 0
  · simp only [if_pos hk, bgOf, turnOf]
    split
    · next h => exact ⟨_, rfl, rfl, rfl, fun p rest hturn => (List.cons.inj (h.symm.trans hturn)).1⟩
    · next h => exact ⟨_, rfl, rfl, rfl, fun p rest hturn => absurd (h.symm.trans hturn) nofun⟩
  · simp only [if_neg hk, bgOf, turnOf]
    split
    · next h => exact ⟨_, rfl, rfl, rfl, fun p rest hturn => (List.cons.inj (h.symm.trans hturn)).1⟩
    · next h => exact ⟨_, rfl, rfl, rfl, fun p rest hturn => absurd (h.symm.trans hturn) nofun⟩

/-- The end of a pass moves the test's position and its count of passes. -/
structure PassFrame (s t : State) (k : Nat) : Prop where
  form : ∃ mem, t = { s with mem := mem }
  bg : bgOf t.mem k = bgOf s.mem k
  bytes : t.mem.bytes = s.mem.bytes
  retired : t.mem.retired = s.mem.retired
  remap : t.mem.remap = s.mem.remap
  sparesOut : t.mem.sparesOut = s.mem.sparesOut

theorem passEnd_frame (s : State) (k : Nat) : PassFrame s (passEnd s k) k := by
  unfold passEnd
  extract_lets m early p
  split
  · exact ⟨⟨_, rfl⟩, rfl, rfl, rfl, rfl, rfl⟩
  · by_cases hk : k = 0
    · simp only [if_pos hk]
      exact ⟨⟨_, rfl⟩, by simp only [bgOf, if_pos hk]; rfl, rfl, rfl, rfl, rfl⟩
    · simp only [if_neg hk]
      exact ⟨⟨_, rfl⟩, by simp only [bgOf, if_neg hk]; rfl, rfl, rfl, rfl, rfl⟩

theorem passEnd_logs (s : State) (k : Nat) : (passEnd s k).logs = s.logs := by
  obtain ⟨mem, h⟩ := (passEnd_frame s k).form
  rw [h]

/-- A region's test is over. -/
def bgEnded (s : State) (k : Nat) : State :=
  let b := bgOf s.mem k
  { s with mem := if k = 0 then { s.mem with bg0 := ⟨b.place, false⟩ } else { s.mem with bg1 := ⟨b.place, false⟩ } }

theorem bgEnded_kept (s : State) (k : Nat) : bgOf (bgEnded s k).mem k = ⟨(bgOf s.mem k).place, false⟩ ∧
    (bgEnded s k).mem.bytes = s.mem.bytes ∧ (bgEnded s k).mem.retired = s.mem.retired ∧ (bgEnded s k).mem.remap = s.mem.remap := by
  unfold bgEnded
  by_cases hk : k = 0
  · simp only [if_pos hk, bgOf, and_self]
  · simp only [if_neg hk, bgOf, and_self]

theorem bgDone_idle (h : (bgOf s.mem k).busy = false) (failed : Bool) : bgDone s k failed = s := if_pos (congrArg (!·) h)

theorem bgDone_busy (h : (bgOf s.mem k).busy = true) (failed : Bool) : bgDone s k failed =
    passEnd (if failed then retirePlace (bgEnded s k) k (bgOf s.mem k).place else bgEnded s k) k := by
  refine if_neg ?_
  rw [show (if k = 0 then s.mem.bg0 else s.mem.bg1).busy = true from h]
  decide

theorem bgDone_passed (h : (bgOf s.mem k).busy = true) : ∃ mem, bgDone s k false = { s with mem := mem } ∧
    bgOf mem k = ⟨(bgOf s.mem k).place, false⟩ ∧ mem.bytes = s.mem.bytes ∧ mem.retired = s.mem.retired := by
  obtain ⟨hbg, hbytes, hretired, -⟩ := bgEnded_kept s k
  have frame := passEnd_frame (bgEnded s k) k
  obtain ⟨mem, hmem⟩ := frame.form
  have hbg' := frame.bg
  have hbytes' := frame.bytes
  have hretired' := frame.retired
  rw [hmem] at hbg' hbytes' hretired'
  exact ⟨mem, (bgDone_busy h false).trans hmem, hbg'.trans hbg, hbytes'.trans hbytes, hretired'.trans hretired⟩

/-- The event of a retired region, and that of one with no spare left. -/
def regionEvent (s : State) (code k p : Nat) : State :=
  raise s code (bankGroup k (placeBank p)) (bankGroup k (placeBank p)) (placeBank p % 64 * 256 + placeRegion p)

/-- A region retired onto spare `q`. -/
def regionSpared (s : State) (k p q : Nat) : State :=
  recordWrite { s with mem := { s.mem with
    retired := s.mem.retired ++ [placeKey k p], remap := cntPut s.mem.remap (placeKey k q) (p + 1) } }

theorem regionEvent_effect (s : State) (code k p : Nat) : (regionEvent s code k p).mem = s.mem ∧
    Raised (regionEvent s code k p) code (bankGroup k (placeBank p)) (bankGroup k (placeBank p)) (placeBank p % 64 * 256 + placeRegion p) :=
  ⟨raise_mem .., raised_here ..⟩

section Retire

variable {p : Nat} (hp : p < 131072) (hretired : isRetired s k p = false)
include hp hretired

theorem retirePlace_spare {q : Nat} (hspare : nextSpare s k (placeBank p) = some q) :
    retirePlace s k p = regionEvent (regionSpared s k p q) 0x0C03 k p := by
  rw [retirePlace, if_neg (by rw [hretired]; decide), placeServes, if_pos hp]
  dsimp only
  rw [hspare]
  rfl

theorem retirePlace_noSpare (hspare : nextSpare s k (placeBank p) = none) :
    retirePlace s k p = regionEvent { s with mem := { s.mem with sparesOut := true } } 0x0C04 k p := by
  rw [retirePlace, if_neg (by rw [hretired]; decide), placeServes, if_pos hp]
  dsimp only
  rw [hspare]
  rfl

end Retire

theorem isRetired_bgEnded (s : State) (k j p : Nat) : isRetired (bgEnded s k) j p = isRetired s j p := by
  rw [isRetired, (bgEnded_kept s k).2.2.1, isRetired]

theorem nextSpare_bgEnded (s : State) (k j b : Nat) : nextSpare (bgEnded s k) j b = nextSpare s j b := by
  have hfree : spareFree (bgEnded s k) j = spareFree s j := by
    funext p
    rw [spareFree, isRetired_bgEnded, (bgEnded_kept s k).2.2.2, spareFree]
  rw [nextSpare, hfree, nextSpare]

section Failed

variable (hbusy : (bgOf s.mem k).busy = true) (hp : (bgOf s.mem k).place < 131072) (hretired : isRetired s k (bgOf s.mem k).place = false)
include hbusy hp hretired

theorem bgDone_spare {q : Nat} (hspare : nextSpare s k (placeBank (bgOf s.mem k).place) = some q) :
    let r := (bgOf s.mem k).place
    let t := bgDone s k true
    bgOf t.mem k = ⟨r, false⟩ ∧ t.mem.bytes = s.mem.bytes ∧ t.mem.retired = s.mem.retired ++ [placeKey k r] ∧
      t.mem.remap = cntPut s.mem.remap (placeKey k q) (r + 1) ∧
      Raised t 0x0C03 (bankGroup k (placeBank r)) (bankGroup k (placeBank r)) (placeBank r % 64 * 256 + placeRegion r) := by
  intro r t
  obtain ⟨hbg, hbytes, hret, hremap⟩ := bgEnded_kept s k
  have hretire := retirePlace_spare (s := bgEnded s k) hp ((isRetired_bgEnded ..).trans hretired) ((nextSpare_bgEnded ..).trans hspare)
  have ht : t = passEnd (retirePlace (bgEnded s k) k r) k := bgDone_busy hbusy true
  obtain ⟨hmem, hraised⟩ := regionEvent_effect (regionSpared (bgEnded s k) k r q) 0x0C03 k r
  have frame := passEnd_frame (regionEvent (regionSpared (bgEnded s k) k r q) 0x0C03 k r) k
  rw [ht, hretire]
  refine ⟨frame.bg.trans (by rw [hmem]; exact hbg), frame.bytes.trans (by rw [hmem]; exact hbytes), frame.retired.trans ?_,
    frame.remap.trans ?_, raised_same hraised (congrArg Logs.buf (passEnd_logs ..))⟩
  · rw [hmem, ← hret]
    rfl
  · rw [hmem, ← hremap]
    rfl

theorem bgDone_noSpare (hspare : nextSpare s k (placeBank (bgOf s.mem k).place) = none) :
    let r := (bgOf s.mem k).place
    let t := bgDone s k true
    t.mem.sparesOut = true ∧ t.mem.bytes = s.mem.bytes ∧
      Raised t 0x0C04 (bankGroup k (placeBank r)) (bankGroup k (placeBank r)) (placeBank r % 64 * 256 + placeRegion r) := by
  intro r t
  obtain ⟨-, hbytes, -, -⟩ := bgEnded_kept s k
  have hretire := retirePlace_noSpare (s := bgEnded s k) hp ((isRetired_bgEnded ..).trans hretired) ((nextSpare_bgEnded ..).trans hspare)
  have ht : t = passEnd (retirePlace (bgEnded s k) k r) k := bgDone_busy hbusy true
  obtain ⟨hmem, hraised⟩ := regionEvent_effect { bgEnded s k with mem := { (bgEnded s k).mem with sparesOut := true } } 0x0C04 k r
  have frame := passEnd_frame (regionEvent { bgEnded s k with mem := { (bgEnded s k).mem with sparesOut := true } } 0x0C04 k r) k
  rw [ht, hretire]
  exact ⟨frame.sparesOut.trans (congrArg Mem.sparesOut hmem), frame.bytes.trans ((congrArg Mem.bytes hmem).trans hbytes),
    raised_same hraised (congrArg Logs.buf (passEnd_logs ..))⟩

end Failed

end Background

/-! ### The wipe of the secure region (R329) -/

def wipingOf (m : Mem) (k : Nat) : Nat := if k = 0 then m.wiping0 else m.wiping1

theorem wipeDone_idle {s : State} {k : Nat} (h : wipingOf s.mem k = 0) : wipeDone s k = s := if_pos h

theorem wipeDone_effect {s : State} {k : Nat} (h : wipingOf s.mem k ≠ 0) :
    (wipeDone s k).mem = (if k = 0 then { s.mem with wiping0 := 0, wipes0 := satInc 16 s.mem.wipes0 }
      else { s.mem with wiping1 := 0, wipes1 := satInc 16 s.mem.wipes1 }) ∧
    Raised (wipeDone s k) 0x0C09 0xFFFF k (wipingOf s.mem k) := by
  rw [wipeDone, if_neg (show ¬(if k = 0 then s.mem.wiping0 else s.mem.wiping1) = 0 from h)]
  exact ⟨raise_mem .., raised_here ..⟩

/-! ### DDR5 channels (R334 to R337) -/

section Channels

variable {s : State} {n : Nat}

theorem chanGet_chanUpd (hn : n < 4) (f : Chan → Chan) (m : Nat) (hm : m < 4) :
    chanGet (chanUpd s n f) m = if m = n then f (chanGet s m) else chanGet s m := by
  obtain rfl | rfl | rfl | rfl : n = 0 ∨ n = 1 ∨ n = 2 ∨ n = 3 := by omega
  all_goals obtain rfl | rfl | rfl | rfl : m = 0 ∨ m = 1 ∨ m = 2 ∨ m = 3 := by omega
  all_goals rfl

theorem chanUpd_form (s : State) (n : Nat) (f : Chan → Chan) : ∃ mem, chanUpd s n f = { s with mem := mem } ∧ mem.bytes = s.mem.bytes :=
  ⟨_, rfl, chanUpd_bytes s n f⟩

theorem chanGet_same {t : State} (h : t.mem = s.mem) (n : Nat) : chanGet t n = chanGet s n := by
  unfold chanGet
  rw [h]

theorem chanGet_stored {t : State} (h : stored t = stored s) (n : Nat) : chanGet t n = chanGet s n := by
  rw [stored, stored, Prod.mk.injEq, Prod.mk.injEq, Prod.mk.injEq, Prod.mk.injEq] at h
  obtain ⟨-, h0, h1, h2, h3⟩ := h
  unfold chanGet
  split
  · exact h0
  · exact h1
  · exact h2
  · exact h3

/-! #### The scrub -/

/-- The next burst of a channel that is scrubbed. -/
def scrubNext (s : State) (c : Chan) : Chan := { c with scrubPos := if subBursts s ≤ c.scrubPos + 1 then 0 else c.scrubPos + 1 }

def scrubChan (s : State) (n : Nat) : State := if (chanGet s n).trained then chanUpd s n (scrubNext s) else s

theorem scrubTick_eq (h : bit (regF s Reg.ddrCtrl) 0 = true) (errs : List (Nat × Bool)) :
    scrubTick s errs = errs.foldl (fun s e => if inDdr s e.1 1 then (if e.2 then ddrUncorrectable s e.1 else ddrCorrected s e.1) else s)
      ((List.range 4).foldl scrubChan s) := if_neg (by rw [h]; decide)

theorem scrubTick_off (h : bit (regF s Reg.ddrCtrl) 0 = false) (errs : List (Nat × Bool)) : scrubTick s errs = s :=
  if_pos (by rw [h]; rfl)

/-- What the scrub of some channels leaves, and where it takes those that are trained. -/
structure ScrubFrame (s t : State) : Prop where
  form : ∃ mem, t = { s with mem := mem }
  bytes : t.mem.bytes = s.mem.bytes

theorem scrubChan_frame (s : State) (n : Nat) : ScrubFrame s (scrubChan s n) := by
  unfold scrubChan
  split
  · exact ⟨⟨_, rfl⟩, chanUpd_bytes ..⟩
  · exact ⟨⟨s.mem, rfl⟩, rfl⟩

theorem ScrubFrame.next {t : State} (h : ScrubFrame s t) (c : Chan) : scrubNext t c = scrubNext s c := by
  obtain ⟨mem, rfl⟩ := h.form
  rfl

theorem scrubAll_frame (l : List Nat) (s : State) : ScrubFrame s (l.foldl scrubChan s) := by
  induction l generalizing s with
  | nil => exact ⟨⟨s.mem, rfl⟩, rfl⟩
  | cons n l ih =>
    have h := scrubChan_frame s n
    have h' := ih (scrubChan s n)
    obtain ⟨mem, hmem⟩ := h.form
    obtain ⟨mem', hmem'⟩ := h'.form
    exact ⟨⟨mem', by rw [List.foldl_cons, hmem', hmem]⟩, h'.bytes.trans h.bytes⟩

theorem scrubChan_chan {m : Nat} (hn : n < 4) (hm : m < 4) :
    chanGet (scrubChan s n) m = if m = n ∧ (chanGet s m).trained then scrubNext s (chanGet s m) else chanGet s m := by
  unfold scrubChan
  split
  · next h =>
    rw [chanGet_chanUpd hn _ m hm]
    split
    · next hmn => rw [if_pos ⟨hmn, hmn ▸ h⟩]
    · next hmn => rw [if_neg (fun h => hmn h.1)]
  · next h => rw [if_neg]; rintro ⟨rfl, h'⟩; exact h h'

theorem scrubAll_other {l : List Nat} (hl : ∀ i ∈ l, i < 4) {m : Nat} (hm : m < 4) (hnot : m ∉ l) (s : State) :
    chanGet (l.foldl scrubChan s) m = chanGet s m := by
  induction l generalizing s with
  | nil => rfl
  | cons n l ih =>
    rw [List.mem_cons, not_or] at hnot
    rw [List.foldl_cons, ih (fun i hi => hl i (List.mem_cons_of_mem _ hi)) hnot.2,
      scrubChan_chan (hl n List.mem_cons_self) hm, if_neg (fun h => hnot.1 h.1)]

theorem scrubAll_chan {l : List Nat} (hl : ∀ i ∈ l, i < 4) (hdup : l.Nodup) {m : Nat} (hm : m ∈ l) (htrained : (chanGet s m).trained = true) :
    chanGet (l.foldl scrubChan s) m = scrubNext s (chanGet s m) := by
  induction l generalizing s with
  | nil => exact absurd hm List.not_mem_nil
  | cons n l ih =>
    obtain ⟨hn, hdup⟩ := List.nodup_cons.mp hdup
    have hlt := hl m hm
    have hchan := scrubChan_chan (s := s) (hl n List.mem_cons_self) hlt
    have hrest : ∀ i ∈ l, i < 4 := fun i hi => hl i (List.mem_cons_of_mem _ hi)
    rw [List.foldl_cons]
    obtain rfl | hm := List.mem_cons.mp hm
    · rw [scrubAll_other hrest hlt hn, hchan, if_pos ⟨rfl, htrained⟩]
    · rw [if_neg (not_and_of_not_left _ fun h : m = n => hn (h ▸ hm))] at hchan
      rw [ih hrest hdup hm (by rw [hchan]; exact htrained), hchan, (scrubChan_frame s n).next]

theorem scrubTick_chan (h : bit (regF s Reg.ddrCtrl) 0 = true) (hn : n < 4) (htrained : (chanGet s n).trained = true) :
    ∃ mem, scrubTick s [] = { s with mem := mem } ∧ mem.bytes = s.mem.bytes ∧
      (chanGet (scrubTick s []) n).scrubPos = if subBursts s ≤ (chanGet s n).scrubPos + 1 then 0 else (chanGet s n).scrubPos + 1 := by
  have frame := scrubAll_frame (List.range 4) s
  obtain ⟨mem, hmem⟩ := frame.form
  have hbytes := frame.bytes
  rw [hmem] at hbytes
  rw [scrubTick_eq h]
  refine ⟨mem, hmem, hbytes, congrArg Chan.scrubPos (scrubAll_chan (fun i hi => List.mem_range.mp hi) List.nodup_range ?_ htrained)⟩
  exact List.mem_range.mpr hn

theorem ddrCorrected_effect (s : State) (a : Nat) : (ddrCorrected s a).mem.bytes = s.mem.bytes ∧
    Raised (ddrCorrected s a) 0x0C06 (chanUnit (ddrChan a)) (ddrChan a) (a / 256) :=
  ⟨(congrArg Mem.bytes (raise_mem ..)).trans (chanUpd_bytes ..), raised_here ..⟩

theorem scrubTick_error {a : Nat} {ue : Bool} (h : bit (regF s Reg.ddrCtrl) 0 = true) (ha : inDdr s a 1 = true) :
    (scrubTick s [(a, ue)]).mem.bytes = s.mem.bytes ∧
      Raised (scrubTick s [(a, ue)]) (if ue then 0x0C07 else 0x0C06) (chanUnit (ddrChan a)) (ddrChan a) (a / 256) := by
  have frame := scrubAll_frame (List.range 4) s
  have hbytes := frame.bytes
  have hin : inDdr ((List.range 4).foldl scrubChan s) a 1 = true := by
    obtain ⟨mem, hmem⟩ := frame.form
    rw [hmem]
    exact ha
  rw [scrubTick_eq h, List.foldl_cons, List.foldl_nil, if_pos hin]
  cases ue
  · obtain ⟨hmem, hraised⟩ := ddrCorrected_effect ((List.range 4).foldl scrubChan s) a
    exact ⟨hmem.trans hbytes, hraised⟩
  · exact ⟨(ddrUncorrectable_bytes ..).trans hbytes, ddrUncorrectable_raised ..⟩

/-! #### Refresh, calibration and the failure of a channel -/

theorem ddrRefresh_cool (h : (chanGet s n).trained = true) (tw : Bool) :
    ddrRefresh s n tw false = chanUpd s n (fun c => { c with refreshes := c.refreshes + 1, ref2x := tw }) := by
  rw [ddrRefresh, if_neg (by rw [h]; decide)]
  rfl

theorem ddrRefresh_hot (h : (chanGet s n).trained = true) (hn : n < 4) (tw : Bool) :
    Raised (ddrRefresh s n tw true) 0x0C08 (chanUnit n) n 2 ∧ (chanGet (ddrRefresh s n tw true) n).refreshes = (chanGet s n).refreshes + 1 ∧
      (ddrRefresh s n tw true).mem.bytes = s.mem.bytes := by
  rw [ddrRefresh, if_neg (by rw [h]; decide)]
  refine ⟨raised_here .., (congrArg Chan.refreshes (chanGet_same (raise_mem ..) n)).trans ?_,
    (congrArg Mem.bytes (raise_mem ..)).trans (chanUpd_bytes ..)⟩
  rw [chanGet_chanUpd hn _ n hn, if_pos rfl]

theorem ddrRefresh_closed (h : (chanGet s n).trained = false) (tw hot : Bool) : ddrRefresh s n tw hot = s := if_pos (by rw [h]; rfl)

theorem ddrOsc_small {d : Int} (h : (chanGet s n).trained = true ∧ bit (regF s Reg.ddrCtrl) 2 = true) (hd : d.natAbs ≤ 16) :
    ddrOsc s n d = chanUpd s n (fun c => { c with drift := d }) := (if_pos h).trans (if_neg (Nat.not_lt.mpr hd))

theorem ddrOsc_large {d : Int} (h : (chanGet s n).trained = true ∧ bit (regF s Reg.ddrCtrl) 2 = true) (hd : 16 < d.natAbs) :
    Raised (ddrOsc s n d) 0x0C08 (chanUnit n) n 1 ∧ (ddrOsc s n d).mem.bytes = s.mem.bytes := by
  rw [show ddrOsc s n d = _ from (if_pos h).trans (if_pos hd)]
  exact ⟨raised_here .., (congrArg Mem.bytes (raise_mem ..)).trans (chanUpd_bytes ..)⟩

theorem chanFail_effect (hn : n < 4) : (chanGet (chanFail s n) n).sc0 = false ∧ (chanGet (chanFail s n) n).sc1 = false ∧
    (chanFail s n).mem.bytes = s.mem.bytes := by
  have frame := faultOut_outFrame (chanUpd s n (fun c => { c with sc0 := false, sc1 := false })) (chanUnit n)
  have hchan : chanGet (chanFail s n) n = { chanGet s n with sc0 := false, sc1 := false } :=
    (chanGet_stored frame.stored n).trans ((chanGet_chanUpd hn _ n hn).trans (if_pos rfl))
  exact ⟨by rw [hchan], by rw [hchan], frame.bytes.trans (chanUpd_bytes ..)⟩

end Channels

/-! ### The obligation -/

theorem stack_cases (k : Fin 2) : k = 0 ∨ k = 1 := by decide +revert

/-- Settles O37: the upkeep of the shared store and of the DDR5 channels, command by command. -/
theorem memoryUpkeep : Obligations.MemoryUpkeep := by
  unfold Obligations.MemoryUpkeep
  intro s
  refine ⟨fun hup => ⟨fun u clk hclass hexists => ?_, fun u clk hother hs => ?_, fun k => ?_⟩, fun hup hon a ue ha => ?_,
    fun hup hs hoff l => ?_, fun n => ⟨fun hup hs htrained => ?_, fun hup hs hclosed => ?_, fun hup => ?_⟩⟩
  · exact ⟨_, runArith_next rfl hup, bankStall_mem (s := answer s .none) hclass hexists, bankStall_raised (s := answer s .none) hclass hexists⟩
  · refine runArith_next_settled (bankStall_other (s := answer s .none) fun h => ?_) hup hs
    obtain hclass | hnone := hother
    · exact hclass h.1
    · exact absurd (hnone.symm.trans h.2) (by decide)
  · intro bg turn wipe r
    have hbg : bg = fun m => bgOf m k.val := by
      funext m
      obtain rfl | rfl := stack_cases k
      · rfl
      · rfl
    have hturn : turn = turnOf s.mem k.val := by
      obtain rfl | rfl := stack_cases k
      · rfl
      · rfl
    have hwipe : wipe = wipingOf s.mem k.val := by
      obtain rfl | rfl := stack_cases k
      · rfl
      · rfl
    have hr : r = (bgOf s.mem k.val).place := congrArg (fun f => (f s.mem).place) hbg
    rw [hbg, hturn, hwipe, hr]
    refine ⟨fun hs hon hbusy => ?_, fun hs hidle => ?_, fun hs hbusy => ?_, fun q hbusy hp hretired hspare => ?_,
      fun hbusy hp hretired hspare => ?_, fun hs hbusy f => ?_, fun hwiping => ?_, fun hwiping hs => ?_⟩
    · obtain ⟨mem, hmem, hstart, hbytes, hplace⟩ := bgStart_effect (s := answer s .none) hon hbusy
      exact ⟨_, runArith_next_settled hmem hup hs, hstart, hbytes, hplace, rfl⟩
    · exact runArith_next_settled (bgStart_idle (s := answer s .none) hidle) hup hs
    · obtain ⟨mem, hmem, hplace, hbytes, hretired⟩ := bgDone_passed (s := answer s .none) hbusy
      exact ⟨_, runArith_next_settled hmem hup hs, hplace, hbytes, hretired, rfl⟩
    · exact ⟨_, runArith_next rfl hup, bgDone_spare (s := answer s .none) hbusy hp hretired hspare⟩
    · exact ⟨_, runArith_next rfl hup, bgDone_noSpare (s := answer s .none) hbusy hp hretired hspare⟩
    · exact runArith_next_settled (bgDone_idle (s := answer s .none) hbusy f) hup hs
    · obtain ⟨hmem, hraised⟩ := wipeDone_effect (s := answer s .none) hwiping
      refine ⟨_, runArith_next rfl hup, hmem.trans ?_, hraised⟩
      obtain rfl | rfl := stack_cases k
      · rfl
      · rfl
    · exact runArith_next_settled (wipeDone_idle (s := answer s .none) hwiping) hup hs
  · obtain ⟨hbytes, hraised⟩ := scrubTick_error (s := answer s .none) (a := a.toNat) (ue := ue) hon ha
    exact ⟨_, runMem_next rfl hup, hbytes, hraised⟩
  · exact runMem_next_settled (scrubTick_off (s := answer s .none) hoff _) hup hs
  · intro on
    refine ⟨fun hon => ?_, fun tw => ?_, fun tw => ?_, fun hon => ?_, fun hoff => ?_, fun hon => ?_, fun d hon hd => ?_, fun d hon hd => ?_,
      fun hoff => ⟨?_, fun d => ?_⟩⟩
    · obtain ⟨mem, hmem, hbytes, hpos⟩ := scrubTick_chan (s := answer s .none) hon n.isLt htrained
      exact ⟨_, runMem_next_settled (f := fun s => scrubTick s []) hmem hup hs, (congrArg (fun t => (chanGet t n.val).scrubPos) hmem).symm.trans hpos,
        hbytes, rfl⟩
    · exact runMem_next_settled (ddrRefresh_cool (s := answer s .none) htrained tw) hup hs
    · exact ⟨_, runMem_next rfl hup, ddrRefresh_hot (s := answer s .none) htrained n.isLt tw⟩
    · exact runMem_next_settled (if_pos ⟨htrained, hon⟩) hup hs
    · exact runMem_next_settled (if_neg fun h => hoff h.2) hup hs
    · exact runMem_next_settled (if_pos ⟨htrained, hon⟩) hup hs
    · exact runMem_next_settled (ddrOsc_small (s := answer s .none) ⟨htrained, hon⟩ hd) hup hs
    · exact ⟨_, runMem_next rfl hup, ddrOsc_large (s := answer s .none) ⟨htrained, hon⟩ hd⟩
    · exact runMem_next_settled (if_neg fun h => hoff h.2) hup hs
    · exact runMem_next_settled (if_neg fun h => hoff h.2) hup hs
  · have hnot : ∀ p : Prop, ¬((chanGet (answer s .none) n.val).trained = true ∧ p) := fun p h => absurd (hclosed.symm.trans h.1) (by decide)
    refine ⟨fun tw hot => ?_, ?_, ?_, fun d => ?_⟩
    · exact runMem_next_settled (ddrRefresh_closed (s := answer s .none) hclosed tw hot) hup hs
    · exact runMem_next_settled (if_neg (hnot _)) hup hs
    · exact runMem_next_settled (if_neg (hnot _)) hup hs
    · exact runMem_next_settled (if_neg (hnot _)) hup hs
  · exact ⟨_, run_next rfl hup, chanFail_effect n.isLt⟩

end Sys2Proof.Machine

/-!
Objects read and written (R312, R420 to R423): values, abort codes and their order over the mailbox and by the driver, and the proof of
ObjectsAreReadAndWritten.
-/
namespace Sys2Proof.Machine

section Wrappers

variable {s t : State} {f : State → State} (hf : f (answer s .none) = t) (happ : appUp s = true) (hio : ioUp s = true)
include hf happ hio

theorem runDrv_next : (.next (runDrv s f) : Host.Outcome State Fault Refusal) = .next (flush t) :=
  congrArg _ (runDrv_eq_flush hf happ hio)

theorem runDrv_next_settled (ht : Settled t) : (.next (runDrv s f) : Host.Outcome State Fault Refusal) = .next t :=
  congrArg _ (runDrv_eq_of_settled hf happ hio ht)

end Wrappers

/-! ### An access reads the state apart from its answer -/

section Answer

variable (s : State) (r : Resp)

theorem uctlRead_answer (o : Nat) : uctlRead (answer s r) o = uctlRead s o := rfl
theorem onionRead_answer (n o : Nat) : onionRead (answer s r) n o = onionRead s n o := rfl
theorem qmgrRead_answer (o : Nat) : qmgrRead (answer s r) o = qmgrRead s o := rfl
theorem mrwRead_answer (o : Nat) : mrwRead (answer s r) o = mrwRead s o := rfl
theorem podRead_answer (o : Nat) : podRead (answer s r) o = podRead s o := rfl
theorem estStat_answer : estStat (answer s r) = estStat s := rfl
theorem bgStat_answer : bgStat (answer s r) = bgStat s := rfl
theorem huskRead_answer (o : Nat) : huskRead (answer s r) o = huskRead s o := rfl
theorem cpmRead_answer (o : Nat) : cpmRead (answer s r) o = cpmRead s o := rfl
theorem sscRead_answer (o : Nat) : sscRead (answer s r) o = sscRead s o := rfl
theorem ddrRead_answer (o : Nat) : ddrRead (answer s r) o = ddrRead s o := rfl
theorem ethRead_answer (o : Nat) : ethRead (answer s r) o = ethRead s o := rfl
theorem ecatRead_answer (o : Nat) : ecatRead (answer s r) o = ecatRead s o := rfl
theorem csiStat_answer (o : Nat) : csiStat (answer s r) o = csiStat s o := rfl
theorem phuRead_answer (o : Nat) : phuRead (answer s r) o = phuRead s o := rfl
theorem detRead_answer (o : Nat) : detRead (answer s r) o = detRead s o := rfl
theorem svcRead_answer (o : Nat) : svcRead (answer s r) o = svcRead s o := rfl

theorem regState_answer (o : Nat) : regState (answer s r) o = regState s o := by
  unfold regState
  rw [uctlRead_answer, onionRead_answer, qmgrRead_answer, mrwRead_answer, podRead_answer, estStat_answer,
    bgStat_answer, huskRead_answer, cpmRead_answer, sscRead_answer, ddrRead_answer, ethRead_answer,
    ecatRead_answer, csiStat_answer, phuRead_answer, detRead_answer, svcRead_answer]

theorem regRead_answer (o : Nat) : regRead (answer s r) o = regRead s o := by
  unfold regRead
  rw [regState_answer]
  rfl

theorem roFront_answer (i k : Nat) : roFront (answer s r) i k = roFront s i k := by
  have h : regRead (answer s r) = regRead s := funext (regRead_answer s r)
  unfold roFront
  rw [h]
  rfl

theorem roMid_answer (i k : Nat) : roMid (answer s r) i k = roMid s i k := by
  have h : regRead (answer s r) = regRead s := funext (regRead_answer s r)
  unfold roMid
  rw [h]
  rfl

theorem roVal_answer (i k : Nat) : roVal (answer s r) i k = roVal s i k := by
  unfold roVal
  rw [roFront_answer, roMid_answer]
  rfl

theorem objBytes_answer (o : Config.ObjDef) (i k : Nat) : objBytes (answer s r) o i k = objBytes s o i k := by
  unfold objBytes
  rw [roVal_answer]
  rfl

theorem objReadOne_answer (i k : Nat) : objReadOne (answer s r) i k = objReadOne s i k := by
  unfold objReadOne
  simp only [objBytes_answer]

theorem readAll_answer (i k : Nat) : readAll (answer s r) i k = readAll s i k := by
  unfold readAll
  simp only [objReadOne_answer]

theorem rngOk_answer (o : Config.ObjDef) (i k : Nat) (v : Int) : rngOk (answer s r) o i k v = rngOk s o i k v := rfl

theorem accCheck_answer (via : Via) (o : Config.ObjDef) (i k : Nat) (b : Bytes) (x : Bool) :
    accCheck (answer s r) via o i k b x = accCheck s via o i k b x := rfl

theorem writeCheck_answer (o : Config.ObjDef) (via : Via) (i k : Nat) (b : Bytes) :
    writeCheck (answer s r) (withVal (answer s r) o i k b) via i k b = writeCheck s (withVal s o i k b) via i k b := by
  have hval : withVal (answer s r) o i k b = answer (withVal s o i k b) r := rfl
  unfold writeCheck
  simp only [hval, rngOk_answer, accCheck_answer]

end Answer

/-- The objects whose write is a command. -/
def commandObjects : List (Nat × Nat) := [(0x1010, 1), (0x1011, 1), (0x2300, 8), (0x2405, 3), (0x2603, 12), (0x2901, 4), (0x2B00, 4),
  (0x2F00, 3), (0x2F01, 1), (0x4001, 1), (0x4001, 2), (0x5000, 4), (0x5001, 3), (0x5002, 2), (0x5003, 2), (0x5003, 3)]

theorem applyOne_value {i k : Nat} (h : (i, k) ∉ commandObjects) (s : State) {o : Config.ObjDef} (hacc : o.acc ≠ Config.ObjAcc.rws) (b : Bytes) (ok : Bool) :
    applyOne s o i k b ok = did (writeVal s o i k (tyVal o.ty (ofLe b))) := by
  unfold applyOne
  dsimp only
  split
  case h_17 => exact if_neg hacc
  all_goals exact absurd (by decide) h

/-! ### A write by its test (R421, R422) -/

section Write

variable {s : State} {via : Via} {i k : Nat} {b : Bytes} {ok : Bool} {o : Config.ObjDef}

theorem writeOne_missing (h : objFind i k = none) :
    writeOne s via i k b ok = (if objExists i then 0x06090011 else 0x06020000, s) := by
  rw [writeOne, h]
  dsimp only
  rw [writeCheck, h]

theorem writeOne_refused (h : objFind i k = some o) (hc : writeCheck s (withVal s o i k b) via i k b ≠ 0) :
    writeOne s via i k b ok = (writeCheck s (withVal s o i k b) via i k b, s) := by
  rw [writeOne, h]
  exact if_pos hc

theorem writeOne_taken (h : objFind i k = some o) (hc : writeCheck s (withVal s o i k b) via i k b = 0) :
    writeOne s via i k b ok = applyOne s o i k b ok := by
  rw [writeOne, h]
  exact if_neg (not_not_intro hc)

theorem writeCheck_found {s' : State} (h : objFind i k = some o) :
    writeCheck s s' via i k b = accCheck s via o i k b (rngOk s' o i k (tyVal o.ty (ofLe b))) := by rw [writeCheck, h]

theorem accCheck_readOnly {x : Bool} (h : o.acc = .ro) : accCheck s via o i k b x = 0x06010002 := if_pos h

theorem accCheck_length {x : Bool} (h : o.acc ≠ .ro) (hlen : b.length ≠ tyBytes o.ty) : accCheck s via o i k b x = 0x06070010 :=
  (if_neg h).trans (if_pos hlen)

theorem accCheck_range (h : o.acc ≠ .ro) (hlen : b.length = tyBytes o.ty) : accCheck s via o i k b false = 0x06090030 :=
  (if_neg h).trans ((if_neg (not_not_intro hlen)).trans (if_pos rfl))

/-- A write that is kept for the next boundary. -/
def keptWrite (s : State) (i k : Nat) (v : Int) : State :=
  { objSet s i k v with od := { (objSet s i k v).od with pendW := s.od.pendW ++ [(i, k, v, s.now)] } }

theorem writeVal_kept (hacc : o.acc = .rw) (hdisc : discards s i = false) (v : Int) : writeVal s o i k v = keptWrite s i k v :=
  (if_neg (by rw [hdisc]; decide)).trans (if_pos hacc)

theorem writeVal_set (hacc : o.acc ≠ .rw) (hdisc : discards s i = false) (v : Int) : writeVal s o i k v = objSet s i k v :=
  (if_neg (by rw [hdisc]; decide)).trans (if_neg hacc)

end Write

/-- How a write's path answers: what runs, the answers of a taken and of a refused write, and the end of what an object has done. -/
structure WritePath (s : State) (via : Via) (i k : Nat) (run : Bytes → Bool → State → Prop) (ok' : State → State) (no : Nat → State)
    (done : Did → State) : Prop where
  run : ∀ b ok t, done (writeOne (answer s .none) via i k b ok) = t → run b ok (flush t)
  take : ∀ t, done (0, answer t .none) = ok' t
  refuse : ∀ c, c ≠ 0 → done (c, answer s .none) = no c
  okLogs : ∀ t, (ok' t).logs = t.logs
  noLogs : ∀ c, (no c).logs = s.logs

section WritePath

variable {s : State} {via : Via} {i k : Nat} {run : Bytes → Bool → State → Prop} {ok' : State → State} {no : Nat → State} {done : Did → State}
  (path : WritePath s via i k run ok' no done) (hs : Settled s) (b : Bytes) (ok : Bool)
include path hs

theorem WritePath.settled {t : State} (h : done (writeOne (answer s .none) via i k b ok) = t) (hlogs : t.logs = s.logs) : run b ok t := by
  have hrun := path.run b ok t h
  rwa [flush_quiet t (settled_of_logs (s := s) hlogs hs)] at hrun

theorem WritePath.missing (h : objFind i k = none) : run b ok (no (if objExists i then 0x06090011 else 0x06020000)) := by
  refine path.settled hs b ok ?_ (path.noLogs _)
  rw [writeOne_missing h]
  refine path.refuse _ ?_
  split <;> decide

theorem WritePath.found {o : Config.ObjDef} (h : objFind i k = some o) :
    let v := tyVal o.ty (ofLe b)
    let c := writeCheck s (withVal s o i k b) via i k b
    (c ≠ 0 → run b ok (no c)) ∧
    (c = 0 → run b ok (flush (done (applyOne (answer s .none) o i k b ok)))) ∧
    (c = 0 → (i, k) ∉ commandObjects → o.acc = .rw → discards s i = false → run b ok (ok' (keptWrite s i k v))) ∧
    (c = 0 → (i, k) ∉ commandObjects → o.acc = .rwp → discards s i = false → run b ok (ok' (objSet s i k v))) ∧
    (o.acc = .ro → c = 0x06010002) ∧ (o.acc ≠ .ro → b.length ≠ tyBytes o.ty → c = 0x06070010) ∧
    (o.acc ≠ .ro → b.length = tyBytes o.ty → rngOk (withVal s o i k b) o i k v = false → c = 0x06090030) := by
  intro v c
  have hanswer : writeCheck (answer s .none) (withVal (answer s .none) o i k b) via i k b = c := writeCheck_answer s .none o via i k b
  refine ⟨fun hc => ?_, fun hc => path.run b ok _ (by rw [writeOne_taken h (hanswer.trans hc)]), fun hc hcmd hacc hdisc => ?_,
    fun hc hcmd hacc hdisc => ?_, fun hacc => (writeCheck_found h).trans (accCheck_readOnly hacc),
    fun hacc hlen => (writeCheck_found h).trans (accCheck_length hacc hlen), fun hacc hlen hrng => (writeCheck_found h).trans ?_⟩
  · refine path.settled hs b ok ?_ (path.noLogs c)
    rw [writeOne_refused h (fun h => hc (hanswer.symm.trans h)), hanswer]
    exact path.refuse c hc
  · refine path.settled hs b ok ?_ (path.okLogs _)
    rw [writeOne_taken h (hanswer.trans hc), applyOne_value hcmd _ (by rw [hacc]; decide), writeVal_kept (s := answer s .none) hacc hdisc]
    exact path.take (keptWrite s i k v)
  · refine path.settled hs b ok ?_ (path.okLogs _)
    rw [writeOne_taken h (hanswer.trans hc), applyOne_value hcmd _ (by rw [hacc]; decide),
      writeVal_set (s := answer s .none) (by rw [hacc]; decide) hdisc]
    exact path.take (objSet s i k v)
  · rw [show rngOk (withVal s o i k b) o i k (tyVal o.ty (ofLe b)) = false from hrng]
    exact accCheck_range hacc hlen

end WritePath

theorem mailbox_writePath {s : State} (hup : ioUp s = true) (hcoe : coeUp s = true) (i : BitVec 16) (k : BitVec 8) :
    WritePath s .mailbox i.toNat k.toNat (fun b ok t => exec (.sdoDownload i k false b ok) s = .next t) (fun t => { t with resp := .sdoOk })
      (fun c => { s with od := { s.od with aborts := satInc 32 s.od.aborts }, resp := .sdoAbort (c % busyMark) }) sdoEnd where
  run _ _ _ ht := runIo_next (f := fun s => withCoe s (fun s => sdoDownload s i.toNat k.toNat false _ _)) ((withCoe_up hcoe _).trans ht) hup
  take _ := rfl
  refuse _ hc := if_neg hc
  okLogs _ := rfl
  noLogs _ := rfl

theorem driver_writePath {s : State} (happ : appUp s = true) (hio : ioUp s = true) (i : BitVec 16) (k : BitVec 8) :
    WritePath s .driver i.toNat k.toNat (fun b ok t => exec (.driverObjWrite i k b ok) s = .next t) (fun t => { t with resp := .drv 0 [] })
      (fun c => { s with resp := .drv (drvCode c) [] }) drvEnd where
  run _ _ _ ht := runDrv_next (f := fun s => drvEnd (writeOne s .driver i.toNat k.toNat _ _)) ht happ hio
  take _ := rfl
  refuse _ _ := rfl
  okLogs _ := rfl
  noLogs _ := rfl

/-! ### Reads and the information service (R420, R423) -/

section Reads

variable {s : State} {i k : Nat}

theorem sdoUpload_data {all : Bool} {b : Bytes} (h : (if all then readAll s i k else objReadOne s i k) = .inr b) :
    sdoUpload (answer s .none) i k all = answer s (.sdoData b) := by
  rw [sdoUpload, objReadOne_answer, readAll_answer, h]
  rfl

theorem sdoUpload_abort {all : Bool} {c : Nat} (h : (if all then readAll s i k else objReadOne s i k) = .inl c) :
    sdoUpload (answer s .none) i k all = sdoAbort s c := by
  rw [sdoUpload, objReadOne_answer, readAll_answer, h]
  rfl

theorem objReadOne_unknown (h : objExists i = false) : objReadOne s i k = .inl 0x06020000 := by
  have hnone : objFind i k = none := by
    rw [objFind, List.find?_eq_none]
    intro o ho hcovers
    have hidx := List.any_eq_false.mp h o ho
    simp only [objCovers, Bool.and_eq_true, decide_eq_true_eq] at hcovers hidx
    exact hidx ⟨hcovers.1.1.1, hcovers.1.1.2⟩
  rw [objReadOne, hnone]
  exact congrArg Sum.inl (if_neg (by rw [h]; decide))

theorem drvRead_data {b : Bytes} (h : objReadOne s i k = .inr b) (n : Nat) :
    drvRead (answer s .none) i k n = { s with resp := if b.length = n then .drv 0 b else .drv (-1) [] } := by
  rw [drvRead, objReadOne_answer, h]
  dsimp only
  split <;> rfl

theorem drvRead_abort {c : Nat} (h : objReadOne s i k = .inl c) (n : Nat) :
    drvRead (answer s .none) i k n = { s with resp := .drv (drvCode c) [] } := by
  rw [drvRead, objReadOne_answer, h]
  rfl

end Reads

section Info

variable {s : State} {i : BitVec 16} {k : BitVec 8}

theorem sdoInfo_object {o : Config.ObjDef} (h : (objSubs i.toNat).findSome? (fun k => objFind i.toNat k) = some o) :
    sdoInfo s (.object i) = answer s (.infoList [i.toNat, tyCode o, maxN (objSubs i.toNat)]) := by
  rw [sdoInfo, h]

theorem sdoInfo_noObject (h : (objSubs i.toNat).findSome? (fun k => objFind i.toNat k) = none) :
    sdoInfo s (.object i) = sdoAbort s 0x06020000 := by
  rw [sdoInfo, h]

theorem sdoInfo_entry {o : Config.ObjDef} (h : objFind i.toNat k.toNat = some o) :
    sdoInfo s (.entry i k) = answer s (.infoList [tyCode o, 8 * tyBytes o.ty, accBits o.acc]) := by
  rw [sdoInfo, h]

theorem sdoInfo_noEntry (h : objFind i.toNat k.toNat = none) :
    sdoInfo s (.entry i k) = sdoAbort s (if objExists i.toNat then 0x06090011 else 0x06020000) := by
  rw [sdoInfo, h]

end Info

/-- Settles O47: reads, writes by their test, and the information service, over the mailbox and by the driver. -/
theorem objectsAreReadAndWritten : Obligations.ObjectsAreReadAndWritten := by
  unfold Obligations.ObjectsAreReadAndWritten
  intro s i k hio hs s0 abort cmds kept writes
  refine ⟨fun hcoe => ?_, fun hcoe => ⟨fun a => ?_, fun a b ok => ?_, fun r => ?_⟩, fun happ => ⟨fun n => ⟨fun b h => ?_, fun c h => ?_⟩, ?_, ?_⟩⟩
  · have up {f : State → State} {t : State} (h : f (answer s .none) = t) (ht : t.logs = s.logs) :
        (.next (runIo s (fun s => withCoe s f)) : Host.Outcome State Fault Refusal) = .next t :=
      runIo_next_settled (f := fun s => withCoe s f) ((withCoe_up hcoe f).trans h) hio (settled_of_logs (s := s) ht hs)
    refine ⟨fun b h => ?_, fun c h => ?_, fun b h => ?_, fun c h => ?_, fun h => ?_, fun b ok => ⟨fun h => ?_, fun o h => ?_⟩, fun b ok => ?_, ?_,
      fun o h => ?_, fun h => ?_, fun o h => ?_, fun h => ?_⟩
    · exact up (sdoUpload_data (all := false) h) rfl
    · exact up (sdoUpload_abort (all := false) h) rfl
    · exact up (sdoUpload_data (all := true) h) rfl
    · exact up (sdoUpload_abort (all := true) h) rfl
    · exact up (sdoUpload_abort (all := false) (objReadOne_unknown h)) rfl
    · exact (mailbox_writePath hio hcoe i k).missing hs b ok h
    · exact (mailbox_writePath hio hcoe i k).found hs b ok h
    · exact runIo_next (f := fun s => withCoe s (fun s => sdoDownload s i.toNat k.toNat true b ok)) ((withCoe_up hcoe _).trans rfl) hio
    · exact up (f := fun s => sdoInfo s .list) rfl rfl
    · exact up (f := fun s => sdoInfo s (.object i)) (sdoInfo_object h) rfl
    · exact up (f := fun s => sdoInfo s (.object i)) (sdoInfo_noObject h) rfl
    · exact up (f := fun s => sdoInfo s (.entry i k)) (sdoInfo_entry h) rfl
    · exact up (f := fun s => sdoInfo s (.entry i k)) (sdoInfo_noEntry h) rfl
  · exact runIo_next_settled (withCoe_down hcoe _) hio hs
  · exact runIo_next_settled (withCoe_down hcoe _) hio hs
  · exact runIo_next_settled (withCoe_down hcoe _) hio hs
  · exact runDrv_next_settled (f := fun s => drvRead s i.toNat k.toNat n.toNat) (drvRead_data h _) happ hio hs
  · exact runDrv_next_settled (f := fun s => drvRead s i.toNat k.toNat n.toNat) (drvRead_abort h _) happ hio hs
  · exact fun b ok => ⟨(driver_writePath happ hio i k).missing hs b ok, fun o h => (driver_writePath happ hio i k).found hs b ok h⟩
  · decide +kernel

end Sys2Proof.Machine

/-!
The publication of a cycle (R360, R428, R429): its outcome, the grant that it decides and the SM3 buffer, and the proof of
PublicationOncePerCycle.
-/
namespace Sys2Proof.Machine

/-! ### The end of FW_PUBLISH tasks (R304) -/

/-- What a task's end leaves apart from memory: the safety record, the PHU and the objects; it adds to the records that wait. -/
structure EndFrame (s t : State) : Prop where
  safety : t.safety = s.safety
  phu : t.phu = s.phu
  od : t.od = s.od
  added : ∃ l, t.logs.buf = s.logs.buf ++ l

namespace EndFrame

theorem refl (s : State) : EndFrame s s := ⟨rfl, rfl, rfl, [], (List.append_nil _).symm⟩

theorem trans {s t u : State} (h : EndFrame s t) (h' : EndFrame t u) : EndFrame s u :=
  ⟨h'.safety.trans h.safety, h'.phu.trans h.phu, h'.od.trans h.od, added_trans h.added h'.added⟩

theorem foldl {α : Type} {f : State → α → State} (h : ∀ s x, EndFrame s (f s x)) (l : List α) (s : State) : EndFrame s (l.foldl f s) := by
  induction l generalizing s with
  | nil => exact refl s
  | cons x l ih => exact (h s x).trans (ih (f s x))

end EndFrame

theorem raise_endFrame (s : State) (c u a b : Nat) : EndFrame s (raise s c u a b) :=
  ⟨raise_safety .., raise_phu .., raise_od .., (raise_eventFrame ..).added⟩

theorem qOpen_od_logs (s : State) (q : Nat) : (qOpen s q).2.od = s.od ∧ (qOpen s q).2.logs = s.logs := by
  unfold qOpen
  split
  · exact ⟨rfl, rfl⟩
  · dsimp only
    split <;> exact ⟨rfl, rfl⟩

theorem qPush_endFrame (s : State) (q u : Nat) (b : Bytes) (after : List Decr) (ends : Bool) :
    EndFrame s (qPush s q u b after ends).2.2 := by
  obtain ⟨hsafety, hphu⟩ := qPush_safety_phu s q u b after ends
  obtain ⟨hod, hlogs⟩ := qOpen_od_logs s q
  unfold qPush at hsafety hphu ⊢
  split
  · exact raise_endFrame ..
  · next h =>
    rw [if_neg h] at hsafety hphu
    dsimp only at hsafety hphu ⊢
    split
    · next h' =>
      rw [if_pos h'] at hsafety hphu
      exact ⟨hsafety, hphu, hod, [], (congrArg Logs.buf hlogs).trans (List.append_nil _).symm⟩
    · next h' =>
      rw [if_neg h'] at hsafety hphu
      exact ⟨hsafety, hphu, hod, [], (congrArg Logs.buf hlogs).trans (List.append_nil _).symm⟩

theorem failExec_od (s : State) (u : Nat) : (failExec s u).od = s.od := by
  unfold failExec
  split
  · rfl
  · next t _ =>
    exact congrArg Bystanders.od ((slotNext_workFrame (dropStalls s u) u).trans (failRun_workFrame (slotNext (dropStalls s u) u) t u)).bystanders

theorem finishTask_endFrame (s : State) (u addr n : Nat) (b : Bytes) : EndFrame s (finishTask s u addr n b) := by
  obtain ⟨hsafety, hphu⟩ := finishTask_safety_phu s u addr n b
  have work (t : State) (l l' : List Decr) : WorkFrame t (slotNext (clkDecs (countDone t u) l l') u) :=
    (countDone_workFrame t u).trans ((clkDecs_workFrame ..).trans (slotNext_workFrame ..))
  suffices h : (finishTask s u addr n b).od = s.od ∧ ∃ l, (finishTask s u addr n b).logs.buf = s.logs.buf ++ l from
    ⟨hsafety, hphu, h.1, h.2⟩
  unfold finishTask
  split
  · exact ⟨rfl, [], (List.append_nil _).symm⟩
  · next t _ =>
    dsimp only
    split
    · have h := work s [] (decFor t.desc.doneCtr u)
      exact ⟨congrArg Bystanders.od h.bystanders, h.added⟩
    · have hpush := qPush_endFrame s t.desc.outQueue u (complEntry t.desc.taskId u t.cycle 0 addr n b) (decFor t.desc.doneCtr u) true
      generalize qPush s t.desc.outQueue u (complEntry t.desc.taskId u t.cycle 0 addr n b) (decFor t.desc.doneCtr u) true = r at hpush
      split
      · have h := work r.2.2 [] (r.2.1 ++ decFor t.desc.doneCtr u)
        exact ⟨(congrArg Bystanders.od h.bystanders).trans hpush.od, added_trans hpush.added h.added⟩
      · exact ⟨hpush.od, hpush.added⟩
      · have h := failExec_outFrame r.2.2 u
        exact ⟨(failExec_od r.2.2 u).trans hpush.od, added_trans hpush.added h.added⟩

theorem endPublishTasks_endFrame (s : State) : EndFrame s (endPublishTasks s) := by
  refine EndFrame.foldl (fun s u => ?_) _ s
  split
  · split
    · exact finishTask_endFrame ..
    · exact .refl s
  · exact .refl s

theorem sendFrame_endFrame (s : State) (b : Bytes) : EndFrame s (sendFrame s b) := by
  obtain ⟨hform, -⟩ := sendFrame_effect s b
  rw [hform]
  exact ⟨rfl, rfl, rfl, [], (List.append_nil _).symm⟩

theorem publishIntent_endFrame (s : State) : EndFrame s (publishIntent s) := by
  unfold publishIntent
  split
  · exact .refl s
  · split
    · exact .refl s
    · split
      · exact .refl s
      · extract_lets anchor sMs groups caps n nc i16 body h
        split
        · exact .refl s
        · split
          · exact raise_endFrame ..
          · exact sendFrame_endFrame ..

/-! ### The record and the SM3 buffer (R418, R428, R429) -/

/-- A part of the publication that takes neither the safety record nor the AL state, with what it does to the SM3 buffer and to the PHU. -/
structure RecordFrame (s t : State) : Prop where
  safety : t.safety = s.safety
  al : t.od.al = s.od.al
  added : ∃ l, t.logs.buf = s.logs.buf ++ l

theorem jShortEvent_frame (s : State) : RecordFrame s (jShortEvent s) ∧ (jShortEvent s).phu = s.phu ∧ (jShortEvent s).od.tx = s.od.tx ∧
    (jShortEvent s).od.txWrites = s.od.txWrites := by
  unfold jShortEvent
  extract_lets key
  split
  · refine ⟨⟨raise_safety .., ?_, (raise_eventFrame ..).added⟩, raise_phu .., ?_, ?_⟩ <;> rw [raise_od]
  · exact ⟨⟨rfl, rfl, [], (List.append_nil _).symm⟩, rfl, rfl, rfl⟩

theorem slaveFrame_form (s : State) : ∃ ctr sframe, slaveFrame s =
    { s with freeCtr := ctr, od := { s.od with fsoe := { s.od.fsoe with sframe := sframe } } } := ⟨_, _, rfl⟩

theorem writeTx_frame (s : State) : RecordFrame s (writeTx s) ∧ (writeTx s).phu = s.phu ∧
    (s.od.al = .safeop ∨ s.od.al = .op → (writeTx s).od.txWrites = satInc 32 s.od.txWrites) ∧
    (s.od.al ≠ .safeop → s.od.al ≠ .op → (writeTx s).od.tx = s.od.tx) := by
  unfold writeTx
  split
  · next h =>
    obtain ⟨ctr, sframe, hform⟩ := slaveFrame_form s
    dsimp only
    rw [hform]
    exact ⟨⟨rfl, rfl, [], (List.append_nil _).symm⟩, rfl, fun _ => rfl, fun hsafe hop => absurd h (not_or.mpr ⟨hsafe, hop⟩)⟩
  · next h => exact ⟨⟨rfl, rfl, [], (List.append_nil _).symm⟩, rfl, fun h' => absurd h' h, fun _ _ => rfl⟩

/-- The phase status of the record, with its provenance and the count of its nondeterministic segments. -/
def pubPhase (s : State) : State := if publishes s then { s with phu := { s.phu with pubStatus := phuStatus s.phu.st } } else s
def pubProv (s : State) (o : Nat) : State := if o ≤ 3 then { s with det := { s.det with prov := sha256 (provBytes s) } } else s
def pubNondet (s : State) (o : Nat) (carried : Option Seg) : State :=
  if o ≤ 3 ∧ (carried.map (·.nondet)).getD false then { s with det := { s.det with nondet := satInc 32 s.det.nondet } } else s

/-- The publication's record, before the SM3 buffer takes it. -/
def pubRecord (s : State) (o : Nat) (g : Option Seg) : State :=
  let carried := if o ≤ 3 then (match g with | some g => some g | none => s.safety.exe) else s.od.lastCarried
  let s := pubNondet (pubProv (pubPhase { s with od := { s.od with lastCarried := carried } }) o) o carried
  let d := safeData s carried
  { s with od := { s.od with fsoe := { s.od.fsoe with sample0 := d.1, sample1 := d.2 } } }

theorem pubPhase_form (s : State) : ∃ st, pubPhase s = { s with phu := { s.phu with pubStatus := st } } ∧
    (publishes s = true → st = phuStatus s.phu.st) := by
  unfold pubPhase
  split
  · exact ⟨_, rfl, fun _ => rfl⟩
  · next h => exact ⟨s.phu.pubStatus, rfl, fun h' => absurd h' h⟩

theorem pubProv_form (s : State) (o : Nat) : ∃ det, pubProv s o = { s with det := det } := by
  unfold pubProv
  split
  · exact ⟨_, rfl⟩
  · exact ⟨s.det, rfl⟩

theorem pubNondet_form (s : State) (o : Nat) (g : Option Seg) : ∃ det, pubNondet s o g = { s with det := det } := by
  unfold pubNondet
  split
  · exact ⟨_, rfl⟩
  · exact ⟨s.det, rfl⟩

theorem pubRecord_frame (s : State) (o : Nat) (g : Option Seg) :
    RecordFrame s (pubRecord s o g) ∧ (publishes s = true → (pubRecord s o g).phu.pubStatus = phuStatus s.phu.st) ∧
      (pubRecord s o g).od.tx = s.od.tx ∧ (pubRecord s o g).od.txWrites = s.od.txWrites := by
  unfold pubRecord
  dsimp only
  generalize (if o ≤ 3 then (match g with | some g => some g | none => s.safety.exe) else s.od.lastCarried) = carried
  obtain ⟨st, hphase, hst⟩ := pubPhase_form { s with od := { s.od with lastCarried := carried } }
  obtain ⟨det, hprov⟩ := pubProv_form (pubPhase { s with od := { s.od with lastCarried := carried } }) o
  obtain ⟨det', hnondet⟩ := pubNondet_form (pubProv (pubPhase { s with od := { s.od with lastCarried := carried } }) o) o carried
  rw [hnondet, hprov, hphase]
  exact ⟨⟨rfl, rfl, [], (List.append_nil _).symm⟩, hst, rfl, rfl⟩

/-- The rest of the publication, after the grant. -/
def pubRest (s : State) (o : Nat) (g : Option Seg) : State := endPublishTasks (publishIntent (writeTx (jShortEvent (pubRecord s o g))))

theorem pubRest_frame (s : State) (o : Nat) (g : Option Seg) :
    let t := pubRest s o g
    RecordFrame s t ∧ (publishes s = true → t.phu.pubStatus = phuStatus s.phu.st) ∧
      (s.od.al = .safeop ∨ s.od.al = .op → t.od.txWrites = satInc 32 s.od.txWrites) ∧
      (s.od.al ≠ .safeop → s.od.al ≠ .op → t.od.tx = s.od.tx) := by
  intro t
  obtain ⟨hrec, hpub, htx, hwrites⟩ := pubRecord_frame s o g
  obtain ⟨hshort, hphu, htx', hwrites'⟩ := jShortEvent_frame (pubRecord s o g)
  obtain ⟨hbuf, hphu', hdone, hleft⟩ := writeTx_frame (jShortEvent (pubRecord s o g))
  have hend : EndFrame (writeTx (jShortEvent (pubRecord s o g))) t := (publishIntent_endFrame ..).trans (endPublishTasks_endFrame ..)
  have hal := hshort.al.trans hrec.al
  refine ⟨⟨hend.safety.trans (hbuf.safety.trans (hshort.safety.trans hrec.safety)), ?_,
      added_trans hrec.added (added_trans hshort.added (added_trans hbuf.added hend.added))⟩, fun h => ?_, fun h => ?_, fun h h' => ?_⟩
  · rw [hend.od, hbuf.al, hal]
  · rw [hend.phu, hphu', hphu, hpub h]
  · rw [hend.od, hdone (by rw [hal]; exact h), hwrites', hwrites]
  · rw [hend.od, hleft (by rw [hal]; exact h) (by rw [hal]; exact h'), htx', htx]

/-! ### The grant (R361) -/

/-- What the step of the grant leaves. -/
structure GrantFrame (s t : State) : Prop where
  safety : ∃ gr br fc, t.safety = { s.safety with grant := gr, blockRun := br, firstCycle := fc }
  phu : t.phu = s.phu
  od : t.od = s.od
  added : ∃ l, t.logs.buf = s.logs.buf ++ l

/-- A grant is not decided where one stands, in the safe state, in replay or out of the OPERATIONAL state. -/
def GrantOpen (s : State) : Prop :=
  s.safety.permit = false ∧ s.safety.grant = false ∧ s.safety.safeState = false ∧ s.det.replay = false ∧ s.svc.life = 2

section Grant

variable {s : State} {g : Option Seg}

theorem grantStep_closed (h : ¬GrantOpen s) : grantStep s g = s := by
  refine if_pos (Decidable.byContradiction fun hno => ?_)
  simp only [not_or, ne_eq, Decidable.not_not, Bool.not_eq_true] at hno
  exact h hno

theorem grantStep_open (h : GrantOpen s) : grantStep s g =
    if grantFail s g = 0 then
      raise { s with safety := { s.safety with grant := true, blockRun := 0, firstCycle := s.phu.cycle + 1 } } 0x0D05 huskId (s.phu.cycle + 1) 0
    else if grantFail s g = 8 then
      if s.safety.blockRun + 1 = 16 then raise { s with safety := { s.safety with blockRun := 0 } } 0x0D09 huskId 8 0
      else { s with safety := { s.safety with blockRun := s.safety.blockRun + 1 } }
    else { s with safety := { s.safety with blockRun := 0 } } := by
  obtain ⟨hpermit, hgrant, hsafe, hreplay, hlife⟩ := h
  refine (if_neg (by simp [hpermit, hgrant, hsafe, hreplay, hlife])).trans ?_
  split
  · next h0 => rw [if_pos h0]
  · next h8 => rw [h8]; rfl
  · next h0 h8 => rw [if_neg h0, if_neg h8]

theorem grantStep_frame (s : State) (g : Option Seg) : GrantFrame s (grantStep s g) := by
  by_cases h : GrantOpen s
  · rw [grantStep_open h]
    split
    · exact ⟨⟨_, _, _, raise_safety ..⟩, raise_phu .., raise_od .., (raise_eventFrame ..).added⟩
    · split
      · split
        · exact ⟨⟨_, _, _, raise_safety ..⟩, raise_phu .., raise_od .., (raise_eventFrame ..).added⟩
        · exact ⟨⟨_, _, _, rfl⟩, rfl, rfl, [], (List.append_nil _).symm⟩
      · exact ⟨⟨_, _, _, rfl⟩, rfl, rfl, [], (List.append_nil _).symm⟩
  · rw [grantStep_closed h]
    exact ⟨⟨_, _, _, rfl⟩, rfl, rfl, [], (List.append_nil _).symm⟩

theorem grantStep_granted (h : GrantOpen s) (hg : grantFail s g = 0) :
    (grantStep s g).safety.grant = true ∧ (grantStep s g).safety.firstCycle = s.phu.cycle + 1 ∧
      Raised (grantStep s g) 0x0D05 huskId (s.phu.cycle + 1) 0 := by
  rw [grantStep_open h, if_pos hg]
  refine ⟨?_, ?_, raised_here ..⟩ <;> rw [raise_safety]

theorem grantStep_refused (h : GrantOpen s) (hg : grantFail s g ≠ 0) : (grantStep s g).safety.grant = false := by
  have ⟨_, hgrant, _⟩ := h
  rw [grantStep_open h, if_neg hg]
  split
  · split
    · rw [raise_safety]
      exact hgrant
    · exact hgrant
  · exact hgrant

end Grant

/-! ### The publication -/

/-- The publication's outcome and segment are decided. -/
def pubDecided (s : State) (o : Nat) (g : Option Seg) : State :=
  { s with safety := { s.safety with published := true, outcome := o, next := g, segNew := g.isSome } }

theorem publication_closed {s : State} (h : s.safety.published = true ∨ phaseRuns s = false) : publication s = s :=
  if_pos (h.imp_right fun h => by rw [h]; rfl)

theorem publication_eq {s : State} (hpub : s.safety.published = false) (hrun : phaseRuns s = true) :
    publication s =
      let a := reachPhase s 62259
      let g := if pubOutcome a = 0 then a.safety.next else none
      pubRest (grantStep (pubDecided a (pubOutcome a) g) g) (pubOutcome a) g :=
  if_neg (by rw [hpub, hrun]; decide)

theorem pubOutcome_unpublished {s : State} (h : installed s = true) (h' : publishes s = false) : pubOutcome s = 4 := by
  rw [pubOutcome, h, h']
  rfl

theorem grantFail_decided {s a : State} {now acc : Nat} {due at' : Bool} (h : a = { s with now := now, phu := { s.phu with
    acc := acc, boundaryDue := due, atBound := at' } }) (o : Nat) (g g' : Option Seg) : grantFail (pubDecided a o g) g' = grantFail s g' := by
  rw [h]
  rfl

theorem publication_effect {s : State} (hpub : s.safety.published = false) (hrun : phaseRuns s = true) :
    let t := publication s
    t.safety.published = true ∧
      t.safety.outcome = pubOutcome (reachPhase s 62259) ∧ t.safety.next = (if t.safety.outcome = 0 then s.safety.next else none) ∧
      t.safety.segNew = t.safety.next.isSome ∧ t.safety.permit = s.safety.permit ∧
      (installed s = true → publishes s = false → t.safety.outcome = 4 ∧ t.safety.next = none) ∧
      (s.svc.life ≠ 2 → t.safety.grant = s.safety.grant) ∧
      (s.safety.permit = false → s.safety.grant = false → s.safety.safeState = false → s.det.replay = false → s.svc.life = 2 →
        (grantFail s t.safety.next = 0 → t.safety.grant = true ∧ t.safety.firstCycle = s.phu.cycle + 1 ∧
          Raised t 0x0D05 huskId (s.phu.cycle + 1) 0) ∧
        (grantFail s t.safety.next ≠ 0 → t.safety.grant = false)) ∧
      (s.od.al = .safeop ∨ s.od.al = .op → t.od.txWrites = satInc 32 s.od.txWrites) ∧
      (s.od.al ≠ .safeop → s.od.al ≠ .op → t.od.tx = s.od.tx) ∧
      (publishes s = true → t.phu.pubStatus = phuStatus s.phu.st) := by
  intro t
  obtain ⟨now, acc, due, at', hform⟩ := reachPhase_form s 62259
  have ht : t = _ := publication_eq hpub hrun
  dsimp only at ht
  generalize hso : pubOutcome (reachPhase s 62259) = o at ht ⊢
  generalize hsg : (if o = 0 then (reachPhase s 62259).safety.next else none) = g at ht
  have hfail := grantFail_decided hform o g
  have hnext : (reachPhase s 62259).safety = s.safety := by rw [hform]
  have hstep := grantStep_frame (pubDecided (reachPhase s 62259) o g) g
  obtain ⟨gr, br, fc, hsafety⟩ := hstep.safety
  obtain ⟨hrest, hphase, htx, hleft⟩ := pubRest_frame (grantStep (pubDecided (reachPhase s 62259) o g) g) o g
  rw [← ht] at hrest hphase htx hleft
  have htsafety := hrest.safety
  have hseg : t.safety.next = g := by rw [htsafety, hsafety]; rfl
  have hout : t.safety.outcome = o := by rw [htsafety, hsafety]; rfl
  have hg : g = if o = 0 then s.safety.next else none := by rw [← hsg, hnext]
  have hphu : (grantStep (pubDecided (reachPhase s 62259) o g) g).phu.st = s.phu.st := by rw [hstep.phu, pubDecided, hform]
  have hod : (grantStep (pubDecided (reachPhase s 62259) o g) g).od = s.od := by rw [hstep.od, pubDecided, hform]
  have hpublishes : publishes (grantStep (pubDecided (reachPhase s 62259) o g) g) = publishes s := by rw [publishes, hphu, publishes]
  rw [hpublishes, hphu] at hphase
  rw [hod] at htx hleft
  have hcycle : (pubDecided (reachPhase s 62259) o g).phu.cycle = s.phu.cycle := by rw [pubDecided, hform]
  have hopen : GrantOpen (pubDecided (reachPhase s 62259) o g) = GrantOpen s := by
    rw [GrantOpen, pubDecided, hform]
    rfl
  refine ⟨by rw [htsafety, hsafety]; rfl, hout, by rw [hseg, hout, hg], by rw [htsafety, hsafety]; rfl,
    by rw [htsafety, hsafety, ← hnext]; rfl, fun hinst hnot => ?_, fun hlife => ?_, fun hpermit hgrant hsafe hreplay hlife => ?_, htx, hleft, hphase⟩
  · have ho : o = 4 := by
      rw [← hso, hform]
      exact pubOutcome_unpublished hinst hnot
    exact ⟨hout.trans ho, by rw [hseg, hg, ho]; rfl⟩
  · have hclosed : ¬GrantOpen (pubDecided (reachPhase s 62259) o g) := by
      rw [hopen]
      exact fun h => hlife h.2.2.2.2
    rw [htsafety, grantStep_closed hclosed, pubDecided, hnext]
  · have hopen' : GrantOpen (pubDecided (reachPhase s 62259) o g) := by
      rw [hopen]
      exact ⟨hpermit, hgrant, hsafe, hreplay, hlife⟩
    rw [hseg, ← hfail g]
    refine ⟨fun h0 => ?_, fun hne => by rw [htsafety]; exact grantStep_refused hopen' hne⟩
    obtain ⟨hgranted, hfirst, hraised⟩ := grantStep_granted hopen' h0
    rw [hcycle] at hfirst hraised
    exact ⟨by rw [htsafety]; exact hgranted, by rw [htsafety]; exact hfirst, raised_more hraised hrest.added⟩

/-- Settles O31: the publication of a cycle that has none yet, and one that has or where no phase runs. -/
theorem publicationOncePerCycle : Obligations.PublicationOncePerCycle := by
  unfold Obligations.PublicationOncePerCycle
  refine fun s hup => ⟨fun hrun hpub => ?_, fun h hs => runArith_next_settled (publication_closed (s := answer s .none) h) hup hs⟩
  have heffect := publication_effect (s := answer s .none) hpub hrun
  rw [reachPhase_answer] at heffect
  exact ⟨_, runArith_next rfl hup, heffect⟩

end Sys2Proof.Machine

/-!
The queue and the canonical forms of log entry 2: what every meaning keeps, and the proofs of CommandsKeepQueue and StepKeepsMemoryForm.
-/
namespace Sys2Proof.Machine

/-! ### What a meaning keeps -/

/-- The queue is left as it is, and memory, the unit records, the registers, the Pods, the streams and the limit counts keep their form. -/
structure Keeps (s t : State) : Prop where
  pending : t.pending = s.pending
  mem : MemOk s → MemOk t
  units : UnitsOk s → UnitsOk t
  regs : RegsOk s → RegsOk t
  pods : PodsOk s → PodsOk t
  streams : StreamsOk s → StreamsOk t
  limits : LimitsOk s → LimitsOk t

/-- The state but for what the forms speak of: updates that touch nothing else are equal in it. -/
def formsOf (s : State) : List Instr × List Host.Cell × Smap UnitRec × Smap (BitVec 32) × Smap (BitVec 32) × Smap Pod × Smap Stream ×
    List RingRec × Smap Nat :=
  (s.pending, s.mem.bytes, s.units, s.regs, s.regsF, s.pod.pods, s.world.streams, s.det.ring, s.pins.limitRun)

namespace Keeps

/-- An update of other fields. -/
theorem same {s t : State} (h : formsOf t = formsOf s) : Keeps s t := by
  simp only [formsOf, Prod.mk.injEq] at h
  obtain ⟨hpending, hmem, hunits, hregs, hregsF, hpods, hstreams, hring, hlimits⟩ := h
  exact ⟨hpending, fun h => by rwa [MemOk, hmem], fun h => by rwa [UnitsOk, hunits], fun h => by rwa [RegsOk, hregs, hregsF],
    fun h => by rwa [PodsOk, hpods], fun h => by rwa [StreamsOk, hstreams, hring], fun h => by rwa [LimitsOk, hlimits]⟩

theorem refl (s : State) : Keeps s s := .same rfl

theorem trans {s t u : State} (h : Keeps s t) (h' : Keeps t u) : Keeps s u :=
  ⟨h'.pending.trans h.pending, h'.mem ∘ h.mem, h'.units ∘ h.units, h'.regs ∘ h.regs, h'.pods ∘ h.pods, h'.streams ∘ h.streams,
    h'.limits ∘ h.limits⟩

/-- A step, and then an update of other fields. -/
theorem upd {s t : State} (h : Keeps s t) {now : Nat} {clk : ClkSt} {cmdResult : Nat} {phu : Phu} {sched : Sched} {plan : PlanSt} {mem : Mem}
    {world : World} {model : ModelSt} {cand : CandSt} {pod : PodSt} {peers : PeerSt} {sel : SelSt} {psn : PsnSt} {cob : CobSt} {diag : Diag}
    {logs : Logs} {safety : Safety} {det : Det} {od : Od} {cpm : Cpm} {pins : Pins} {svc : Svc} {resp : Resp} {freeCtr : Nat}
    (hforms : (mem.bytes, pod.pods, world.streams, det.ring, pins.limitRun) =
      (t.mem.bytes, t.pod.pods, t.world.streams, t.det.ring, t.pins.limitRun)) :
    Keeps s { t with
      now := now, clk := clk, cmdResult := cmdResult, phu := phu, sched := sched, plan := plan, mem := mem, world := world, model := model
      cand := cand, pod := pod, peers := peers, sel := sel, psn := psn, cob := cob, diag := diag, logs := logs, safety := safety, det := det
      od := od, cpm := cpm, pins := pins, svc := svc, resp := resp, freeCtr := freeCtr } := by
  simp only [Prod.mk.injEq] at hforms
  obtain ⟨hmem, hpods, hstreams, hring, hlimits⟩ := hforms
  exact h.trans (.same (by simp only [formsOf, hmem, hpods, hstreams, hring, hlimits]))

/-- Either branch keeps them. -/
theorem ite {s t u : State} {p : Prop} [Decidable p] (h : Keeps s t) (h' : Keeps s u) : Keeps s (if p then t else u) := by
  split
  · exact h
  · exact h'

theorem foldl {α : Type} {f : State → α → State} (h : ∀ s x, Keeps s (f s x)) (l : List α) (s : State) : Keeps s (l.foldl f s) := by
  induction l generalizing s with
  | nil => exact refl s
  | cons x l ih => exact (h s x).trans (ih (f s x))

/-- The state that comes with a value. -/
theorem of_snd {α : Type} {s t : State} {a : α} {p : α × State} (h : p = (a, t)) (hp : Keeps s p.2) : Keeps s t := by
  rw [h] at hp
  exact hp

end Keeps

/-! ### Canonical forms -/

section Smap

variable {α : Type} [DecidableEq α] (d : Nat → α)

/-- Entries changed or dropped, none to its default, keep the canonical form. -/
theorem smap_filterMap_wfFrom (f : Nat × α → Option (Nat × α))
    (hf : ∀ x y, f x = some y → x.2 ≠ d x.1 → y.1 = x.1 ∧ y.2 ≠ d y.1) (m : Smap α) (lo : Nat) (h : Smap.wfFrom d lo m = true) : Smap.wfFrom d lo
      (m.filterMap f) = true := by
  induction m generalizing lo with
  | nil => rfl
  | cons x m ih =>
    obtain ⟨k, v⟩ := x
    simp only [Smap.wfFrom, Bool.and_eq_true, decide_eq_true_eq] at h
    obtain ⟨⟨hlo, hv⟩, hm⟩ := h
    rw [List.filterMap_cons]
    split
    · exact smap_wfFrom_mono d _ (k + 1) lo (ih (k + 1) hm) (by omega)
    · next y hy =>
      obtain ⟨j, w⟩ := y
      obtain ⟨rfl, hw⟩ := hf _ _ hy hv
      simp only [Smap.wfFrom, Bool.and_eq_true, decide_eq_true_eq]
      exact ⟨⟨hlo, hw⟩, ih (j + 1) hm⟩

/-- An entry of a table that drops what has become its default. -/
theorem smap_filterMap_wf (e : α) (g : Nat × α → α) (m : Smap α) (h : Smap.wf (fun _ => e) m = true) :
    Smap.wf (fun _ => e) (m.filterMap (fun p => if g p = e then none else some (p.1, g p))) = true := by
  refine smap_filterMap_wfFrom _ _ (fun x y hxy hx => ?_) m 0 h
  split at hxy
  · cases hxy
  · next hne =>
    cases hxy
    exact ⟨rfl, hne⟩

/-- Entries changed in place, none to its default, keep the canonical form. -/
theorem smap_map_wfFrom (g : Nat × α → α) (hg : ∀ x, x.2 ≠ d x.1 → g x ≠ d x.1) (m : Smap α) (lo : Nat)
    (h : Smap.wfFrom d lo m = true) : Smap.wfFrom d lo (m.map (fun x => (x.1, g x))) = true := by
  induction m generalizing lo with
  | nil => rfl
  | cons x m ih =>
    simp only [Smap.wfFrom, Bool.and_eq_true, decide_eq_true_eq] at h
    obtain ⟨⟨hlo, hv⟩, hm⟩ := h
    simp only [List.map_cons, Smap.wfFrom, Bool.and_eq_true, decide_eq_true_eq]
    exact ⟨⟨hlo, hg x hv⟩, ih _ hm⟩

end Smap

/-! ### The updates of what has a form -/

section Updates

variable {s t : State}

/-- One block of the state has changed, and keeps its form. -/
theorem Keeps.of_mem (h : MemOk s → MemOk t) (hforms : formsOf t = formsOf { s with mem := t.mem }) : Keeps s t := by
  obtain ⟨hp, -, hu, hr, ho, hs, hl⟩ := Keeps.same hforms
  exact ⟨hp, h, hu, hr, ho, hs, hl⟩
theorem Keeps.of_units (h : UnitsOk s → UnitsOk t) (hforms : formsOf t = formsOf { s with units := t.units }) : Keeps s t := by
  obtain ⟨hp, hm, -, hr, ho, hs, hl⟩ := Keeps.same hforms
  exact ⟨hp, hm, h, hr, ho, hs, hl⟩
theorem Keeps.of_regs (h : RegsOk s → RegsOk t) (hforms : formsOf t = formsOf { s with regs := t.regs, regsF := t.regsF }) : Keeps s t := by
  obtain ⟨hp, hm, hu, -, ho, hs, hl⟩ := Keeps.same hforms
  exact ⟨hp, hm, hu, h, ho, hs, hl⟩
theorem Keeps.of_pods (h : PodsOk s → PodsOk t) (hforms : formsOf t = formsOf { s with pod := t.pod }) : Keeps s t := by
  obtain ⟨hp, hm, hu, hr, -, hs, hl⟩ := Keeps.same hforms
  exact ⟨hp, hm, hu, hr, h, hs, hl⟩
theorem Keeps.of_streams (h : StreamsOk s → StreamsOk t) (hforms : formsOf t = formsOf { s with world := t.world, det := t.det }) :
    Keeps s t := by
  obtain ⟨hp, hm, hu, hr, ho, -, hl⟩ := Keeps.same hforms
  exact ⟨hp, hm, hu, hr, ho, h, hl⟩
theorem Keeps.of_limits (h : LimitsOk s → LimitsOk t) (hforms : formsOf t = formsOf { s with pins := t.pins }) : Keeps s t := by
  obtain ⟨hp, hm, hu, hr, ho, hs, -⟩ := Keeps.same hforms
  exact ⟨hp, hm, hu, hr, ho, hs, h⟩

end Updates

/-! ### The functions of the model, those first that others call -/

theorem advance_keeps (s : State) (dt : Nat) : Keeps s (advance s dt) := .ite (.same (by rfl)) (.same (by rfl))

theorem idle_keeps (s : State) : Keeps s (idle s) := advance_keeps ..

theorem ringAdd_keeps (s : State) (r : EvRec) : Keeps s (ringAdd s r) :=
  .ite (.same (by rfl)) (.ite (.ite (.same (by rfl)) (.same (by rfl))) (.ite (.same (by rfl)) (.same (by rfl))))

theorem takeFreeBytes_keeps (s : State) (n : Nat) : Keeps s (takeFreeBytes s n).2 := .same (by rfl)

theorem regSet_keeps (s : State) (off v : Nat) : Keeps s (regSet s off v) :=
  .of_regs (fun ⟨h, h'⟩ => ⟨smap_set_wf _ _ _ _ h, h'⟩) rfl

theorem w1cSet_keeps (s : State) (o i : Nat) : Keeps s (w1cSet s o i) := .upd (regSet_keeps ..) (by rfl)

theorem setEventBits_keeps (s : State) (l : List (Nat × Nat)) : Keeps s (setEventBits s l) := .foldl (fun _ _ => w1cSet_keeps ..) ..

theorem raiseX_keeps (s : State) (stack code unit d0 d1 d2 d3 : Nat) : Keeps s (raiseX s stack code unit d0 d1 d2 d3) :=
  .trans (.same (by rfl)) (setEventBits_keeps ..)

theorem raise_keeps (s : State) (code unit d0 d1 : Nat) : Keeps s (raise s code unit d0 d1) := raiseX_keeps ..

theorem boxAdd_keeps (s : State) (btype : Nat) (b1 b2 : Bytes) : Keeps s (boxAdd s btype b1 b2) :=
  .ite (.upd (takeFreeBytes_keeps ..) (by rfl)) (.trans (.upd (takeFreeBytes_keeps ..) (by rfl)) (raise_keeps ..))

theorem stamp_keeps (s : State) (r : EvRec) : Keeps s (stamp s r) :=
  .ite (.trans (.trans (.same (by rfl)) (ringAdd_keeps ..)) (boxAdd_keeps ..)) (.trans (.same (by rfl)) (ringAdd_keeps ..))

theorem stampAll_keeps (s : State) : Keeps s (stampAll s) := .trans (.same (by rfl)) (.foldl (fun _ _ => stamp_keeps ..) ..)

theorem timingRec_keeps (s : State) (r : EvRec) : Keeps s (timingRec s r) := .ite (.same (by rfl)) (.refl _)

theorem unitSet_keeps (s : State) (u : Nat) (r : UnitRec) : Keeps s (unitSet s u r) :=
  .of_units (smap_set_wf _ _ _ _) rfl

theorem unitEvent_keeps (s : State) (u : Nat) (e : UEvent) : Keeps s (unitEvent s u e) :=
  .ite (.upd (.ite (unitSet_keeps ..) (.trans (unitSet_keeps ..) (w1cSet_keeps ..))) (by rfl)) (.ite (unitSet_keeps ..) (.trans
    (unitSet_keeps ..) (w1cSet_keeps ..)))

theorem selAgain_keeps (s : State) (u : Nat) : Keeps s (selAgain s u) := .ite (.same (by rfl)) (.refl _)

theorem svcDepart_keeps (s : State) (u : Nat) : Keeps s (svcDepart s u) := by
  unfold svcDepart
  extract_lets m
  split
  · split
    · refine .same ?_
      unfold formsOf
      dsimp only
      split <;> rfl
    · exact .refl _
  · exact .refl _

theorem unitUpd_keeps (s : State) (u : Nat) (f : UnitRec → UnitRec) : Keeps s (unitUpd s u f) := unitSet_keeps ..

theorem substitute_keeps (s : State) (u : Nat) : Keeps s (substitute s u) := by
  unfold substitute
  split
  · exact .ite (.trans (unitEvent_keeps ..) (unitUpd_keeps ..)) (unitUpd_keeps ..)
  · exact .ite (.upd (.trans (unitUpd_keeps ..) (raise_keeps ..)) (by rfl)) (unitUpd_keeps ..)

theorem departed_keeps (s : State) (u : Nat) : Keeps s (departed s u) :=
  .trans (.trans (substitute_keeps ..) (svcDepart_keeps ..)) (selAgain_keeps ..)

theorem busyAdd_keeps (s : State) (u n : Nat) : Keeps s (busyAdd s u n) := by
  unfold busyAdd
  extract_lets f
  split
  · exact .same (by rfl)
  · exact .same (by rfl)
  · exact .refl _

theorem noteBusy_keeps (s : State) (u : Nat) : Keeps s (noteBusy s u) := by
  unfold noteBusy
  split
  · exact .ite (busyAdd_keeps ..) (.refl _)
  · exact .refl _

theorem recallOne_keeps (s : State) (cls stack lvl : Nat) : Keeps s (recallOne s cls stack lvl) := by
  unfold recallOne
  split
  · exact .refl _
  · split
    · split
      · exact .upd (unitUpd_keeps ..) (by rfl)
      · exact .refl _
    · exact .refl _

theorem readyHead_keeps (s : State) (t : Task) : Keeps s (readyHead s t) := .trans (.same (by rfl)) (recallOne_keeps ..)

theorem takeFree_keeps (s : State) : Keeps s (takeFree s).2 := .same (by rfl)

theorem freeIters_keeps (s : State) (t : Task) : Keeps s (freeIters s t).2 := by
  unfold freeIters
  split
  · exact takeFree_keeps ..
  · exact .refl _

theorem cutRun_keeps (s : State) (t : Task) (unit : Nat) : Keeps s (cutRun s t unit).2 := .upd (.upd (freeIters_keeps ..) (by rfl)) (by rfl)

theorem raiseOnion_keeps (s : State) (stack code unit d0 d1 : Nat) : Keeps s (raiseOnion s stack code unit d0 d1) := raiseX_keeps ..

theorem decOne_keeps (a : ClkAcc) (d : Decr) : Keeps a.st (decOne a d).st := by
  unfold decOne
  dsimp only
  split
  · exact .refl _
  · split
    · exact .trans (.same (by rfl)) (raiseOnion_keeps ..)
    · split
      · split <;> exact .same (by rfl)
      · exact .same (by rfl)

theorem decOne_foldl_keeps (l : List Decr) (a : ClkAcc) : Keeps a.st (l.foldl decOne a).st := by
  induction l generalizing a with
  | nil => exact .refl _
  | cons d l ih => exact (decOne_keeps a d).trans (ih (decOne a d))

theorem queueRelease_keeps (s : State) (n : Nat) : Keeps s (queueRelease s n) := .ite (.same (by rfl)) (.same (by rfl))

theorem clkDecs_keeps (s : State) (gates others : List Decr) : Keeps s (clkDecs s gates others) := by
  unfold clkDecs
  extract_lets c held stay go sched cleared l old a released h0 h1 hm hm'
  have hcleared : Keeps s cleared := .same (by rfl)
  have ha : Keeps s a.st := hcleared.trans (decOne_foldl_keeps l { st := cleared, used := c.dec, rel := c.rel, wait := stay })
  exact .upd (ha.trans (.foldl (fun _ _ => queueRelease_keeps ..) ..)) (by rfl)

theorem endFailed_keeps (s : State) (t : Task) (unit : Nat) : Keeps s (endFailed s t unit) := clkDecs_keeps ..

theorem failTask_keeps (s : State) (t : Task) (unit : Nat) : Keeps s (failTask s t unit) :=
  .ite (.trans (.ite (.same (by rfl)) (.refl _)) (readyHead_keeps ..)) (endFailed_keeps ..)

theorem psnDiscard_keeps (s : State) (u : Nat) (t : Task) (iters : Nat) : Keeps s (psnDiscard s u t iters) := by
  unfold psnDiscard
  extract_lets s1
  split
  · exact .upd (raise_keeps ..) (by rfl)
  · exact .upd (raise_keeps ..) (by rfl)
  · exact raise_keeps ..

theorem failRun_keeps (s : State) (t : Task) (unit : Nat) : Keeps s (failRun s t unit) :=
  .ite (.trans (.ite (.trans (cutRun_keeps ..) (psnDiscard_keeps ..)) (cutRun_keeps ..)) (failTask_keeps ..)) (failTask_keeps ..)

theorem dropTasks_keeps (s : State) (u : Nat) : Keeps s (dropTasks s u) := by
  unfold dropTasks
  extract_lets r s1 s2
  have hs1 : Keeps s s1 := .trans (.upd (noteBusy_keeps ..) (by rfl)) (unitSet_keeps ..)
  clear_value s1
  have hs2 : Keeps s s2 := by
    dsimp only [s2]
    split
    · exact hs1.trans (readyHead_keeps ..)
    · exact hs1
  clear_value s2
  split
  · exact .ite (hs2.trans (failRun_keeps ..)) (hs2.trans (readyHead_keeps ..))
  · exact hs2

theorem podPut_keeps (s : State) (g : Nat) (p : Pod) : Keeps s (podPut s g p) :=
  .of_pods (smap_set_wf _ _ _ _) rfl

theorem podUpd_keeps (s : State) (g : Nat) (f : Pod → Pod) : Keeps s (podUpd s g f) := podPut_keeps ..

theorem wakePods_keeps (s : State) : Keeps s (wakePods s) :=
  .of_pods (smap_filterMap_wf _ (fun p : Nat × Pod => if p.2.idle then { p.2 with idle := false, asked := 0, busy := false } else p.2) _) rfl

theorem peaShort_keeps (s : State) (u : Nat) : Keeps s (peaShort s u) := .ite (raise_keeps ..) (.refl _)

theorem podFault_keeps (s : State) (u : Nat) (was : Bool) : Keeps s (podFault s u was) :=
  .ite (.trans (.ite (podUpd_keeps ..) (.trans (podUpd_keeps ..) (wakePods_keeps ..))) (raise_keeps ..)) (peaShort_keeps ..)

theorem faultOut_keeps (s : State) (u : Nat) : Keeps s (faultOut s u) :=
  .ite (.trans (.trans (.ite (.trans (unitEvent_keeps ..) (departed_keeps ..)) (unitEvent_keeps ..)) (dropTasks_keeps ..)) (podFault_keeps ..))
    (.refl _)

theorem probFail_keeps (s : State) (code : Nat) : Keeps s (probFail s code) := .ite (.same (by rfl)) (.refl _)

theorem enterSafeWith_keeps (s : State) (cause : Nat) (fixed : Bool) : Keeps s (enterSafeWith s cause fixed) := by
  unfold enterSafeWith
  split
  · exact .refl _
  · cases fixed
    · exact .upd (.trans (boxAdd_keeps ..) (raise_keeps ..)) (by rfl)
    · exact .upd (.trans (.trans (takeFreeBytes_keeps ..) (boxAdd_keeps ..)) (raise_keeps ..)) (by rfl)

theorem enterSafe_keeps (s : State) (cause : Nat) : Keeps s (enterSafe s cause) := enterSafeWith_keeps ..

theorem judgePath_keeps (s : State) (u : Nat) : Keeps s (judgePath s u) := .ite (enterSafe_keeps ..) (.refl _)

theorem countFault_keeps (s : State) (u : Nat) : Keeps s (countFault s u) := by
  unfold countFault
  extract_lets r w w2 s1 s2 s3 _ s4
  have hs2 : Keeps s s2 := .trans (unitSet_keeps ..) (faultOut_keeps ..)
  clear_value s2
  have hs4 : Keeps s s4 := .upd (.trans (.upd hs2 (by rfl)) (unitUpd_keeps ..)) (by rfl)
  clear_value s4
  exact .ite (.ite (.trans (.trans (.ite (hs4.trans (probFail_keeps ..)) hs4) (raise_keeps ..)) (judgePath_keeps ..)) (unitSet_keeps ..)) (.refl _)

theorem react_keeps (s : State) (r : EvRec) : Keeps s (react s r) := by
  unfold react
  split
  · exact countFault_keeps ..
  · exact .ite (unitUpd_keeps ..) (.refl _)
  · exact .refl _

theorem flush_keeps (s : State) : Keeps s (flush s) :=
  .trans (.trans (.trans (.foldl (fun _ _ => react_keeps ..) ..) (.foldl (fun _ _ => timingRec_keeps ..) ..)) (stampAll_keeps ..))
    (stampAll_keeps ..)

theorem runArith_keeps {f : State → State} (h : ∀ s, Keeps s (f s)) (s : State) : Keeps s (runArith s f) :=
  .ite (.trans (.same (by rfl)) ((h _).trans (flush_keeps ..))) (.refl _)

theorem disableUnit_keeps (s : State) (u : Nat) : Keeps s (disableUnit s u) :=
  .ite (.trans (.trans (unitEvent_keeps ..) (departed_keeps ..)) (peaShort_keeps ..)) (unitEvent_keeps ..)

theorem applyCmd_keeps (s : State) (u cmd : Nat) : Keeps s (applyCmd s u cmd) := by
  unfold applyCmd
  split
  · exact unitEvent_keeps ..
  · exact disableUnit_keeps ..
  · exact unitEvent_keeps ..
  · exact unitEvent_keeps ..

theorem retireRecord_keeps (s : State) (u reason : Nat) : Keeps s (retireRecord s u reason) :=
  .trans (.trans (.same (by rfl)) (raise_keeps ..)) (boxAdd_keeps ..)

theorem clusterCmd_keeps (s : State) (cmd : Nat) : Keeps s (clusterCmd s cmd) :=
  .ite (.ite (.trans (.trans (.same (by rfl)) (applyCmd_keeps ..)) (retireRecord_keeps ..)) (.trans (.same (by rfl)) (applyCmd_keeps ..)))
    (.trans (.same (by rfl)) (w1cSet_keeps ..))

theorem disableCmd_keeps (s : State) : Keeps s (disableCmd s) := by
  unfold disableCmd
  extract_lets u s1 s2
  have hs2 : Keeps s s2 := .trans (clusterCmd_keeps ..) (judgePath_keeps ..)
  clear_value s2
  exact .ite (clusterCmd_keeps ..) (.ite (hs2.trans (wakePods_keeps ..)) hs2)

theorem unitSelect_keeps (s : State) (u : Nat) : Keeps s (unitSelect s u) := .upd (regSet_keeps ..) (by rfl)

theorem runAon_keeps {f : State → State} (h : ∀ s, Keeps s (f s)) (s : State) : Keeps s (runAon s f) :=
  .ite (.trans (.same (by rfl)) ((h _).trans (flush_keeps ..))) (.refl _)

theorem fillPools_keeps (s : State) : Keeps s (fillPools s) := .foldl (fun _ _ => .ite (.trans (unitUpd_keeps ..) (w1cSet_keeps ..)) (.refl _)) ..

theorem setLock_keeps (s : State) : Keeps s (setLock s) := .ite (.same (by rfl)) (.refl _)

theorem bootTested_keeps (s : State) : Keeps s (bootTested s) := .trans (.upd (fillPools_keeps ..) (by rfl)) (setLock_keeps ..)

theorem bootMemory_keeps (s : State) : Keeps s (bootMemory s) :=
  .ite (.ite (.same (by rfl)) (.trans (.same (by rfl)) (raise_keeps ..))) (.same (by rfl))

theorem bootNext_keeps (s : State) : Keeps s (bootNext s) :=
  .ite (.refl _) (.ite (.trans (.ite (bootTested_keeps ..) (.refl _)) (bootMemory_keeps ..)) (.ite (bootTested_keeps ..) (.refl _)))

theorem chanUpd_forms (s : State) (n : Nat) (f : Chan → Chan) : formsOf (chanUpd s n f) = formsOf s := by
  unfold formsOf chanUpd
  dsimp only
  split <;> rfl
theorem chanUpd_keeps (s : State) (n : Nat) (f : Chan → Chan) : Keeps s (chanUpd s n f) := .same (chanUpd_forms s n f)

theorem localLost_keeps (s : State) (u : Nat) : Keeps s (localLost s u) := by
  unfold localLost
  split
  · exact .refl _
  · exact .of_mem (smap_filter_wfFrom _ _ _ 0) rfl

theorem bankLoad_keeps (s : State) (u : Nat) : Keeps s (bankLoad s u) := .ite (.same (by rfl)) (.same (by rfl))

theorem testNoted_keeps (s : State) (u res : Nat) : Keeps s (testNoted s u res) := unitUpd_keeps ..

theorem testFail_keeps (s : State) (u res : Nat) : Keeps s (testFail s u res) := by
  unfold testFail
  extract_lets s1
  have hs1 : Keeps s s1 := .trans (testNoted_keeps ..) (unitEvent_keeps ..)
  clear_value s1
  exact .ite (.upd hs1 (by rfl)) (.trans (hs1.trans (unitUpd_keeps ..)) (peaShort_keeps ..))

theorem testEnd_keeps (s : State) (u : Nat) (r : TestRes) : Keeps s (testEnd s u r) := by
  unfold testEnd
  split
  · exact .refl _
  · split
    · extract_lets s1 s2
      have hs2 : Keeps s s2 := .ite (.trans (localLost_keeps ..) (bankLoad_keeps ..)) (localLost_keeps ..)
      clear_value s2
      exact .trans (.trans (hs2.trans (testNoted_keeps ..)) (unitEvent_keeps ..)) (unitUpd_keeps ..)
    · exact .trans (raise_keeps ..) (testFail_keeps ..)
    · exact .trans (.trans (localLost_keeps ..) (raise_keeps ..)) (testFail_keeps ..)
    · exact .trans (.trans (.trans (localLost_keeps ..) (raise_keeps ..)) (probFail_keeps ..)) (testFail_keeps ..)
    · exact .trans (.trans (.upd (localLost_keeps ..) (by rfl)) (raise_keeps ..)) (testFail_keeps ..)

theorem chanTestEnd_keeps (s : State) (u : Nat) (r : TestRes) : Keeps s (chanTestEnd s u r) := by
  unfold chanTestEnd
  split
  · exact .refl _
  · extract_lets n
    split
    · exact .trans (testEnd_keeps ..) (chanUpd_keeps ..)
    · exact .trans (raise_keeps ..) (testFail_keeps ..)
    · exact testEnd_keeps ..

theorem unitTestEnd_keeps (s : State) (u : Nat) (r : TestRes) : Keeps s (unitTestEnd s u r) := by
  unfold unitTestEnd
  extract_lets s1
  have hs1 : Keeps s s1 := .trans (.ite (chanTestEnd_keeps ..) (testEnd_keeps ..)) (bootNext_keeps ..)
  clear_value s1
  exact .ite (hs1.trans (setLock_keeps ..)) hs1

theorem run_keeps {f : State → State} (h : ∀ s, Keeps s (f s)) (s : State) : Keeps s (run s f) :=
  .ite (.trans (.same (by rfl)) ((h _).trans (flush_keeps ..))) (.refl _)

theorem drainComplete_keeps (s : State) (u : Nat) : Keeps s (drainComplete s u) := .ite (unitEvent_keeps ..) (.refl _)

theorem launchAt_keeps (s : State) (tick : Nat) : Keeps s (launchAt s tick) := .ite (.same (by rfl)) (.refl _)

theorem barDrive_keeps (s : State) : Keeps s (barDrive s) := .ite (.same (by rfl)) (.ite (.same (by rfl)) (.ite (.refl _) (.same (by rfl))))

theorem edgeAcquire_keeps (s : State) (tick : Nat) : Keeps s (edgeAcquire s tick) := by
  unfold edgeAcquire
  extract_lets last
  clear_value last
  split
  · exact .upd (launchAt_keeps ..) (by rfl)
  · extract_lets m
    exact .ite (.trans (.upd (launchAt_keeps ..) (by rfl)) (raise_keeps ..)) (.ite (.trans (.upd (.upd (.upd (launchAt_keeps ..) (by rfl))
      (by rfl)) (by rfl)) (barDrive_keeps ..)) (.upd (.upd (.upd (launchAt_keeps ..) (by rfl)) (by rfl)) (by rfl)))

theorem lapse_keeps (s : State) (cause : Nat) : Keeps s (lapse s cause) :=
  .ite (.trans (.ite (.same (by rfl)) (.same (by rfl))) (raise_keeps ..)) (.refl _)

theorem fsoeCheck_keeps (s : State) : Keeps s (fsoeCheck s) := .ite (.trans (raise_keeps ..) (lapse_keeps ..)) (.refl _)

theorem fsoeReset_keeps (s : State) (reason : Nat) : Keeps s (fsoeReset s reason) :=
  .ite (.refl _) (.trans (.trans (.same (by rfl)) (raise_keeps ..)) (fsoeCheck_keeps ..))

theorem alCycleLoss_keeps (s : State) : Keeps s (alCycleLoss s) :=
  .ite (.trans (.trans (.same (by rfl)) (raise_keeps ..)) (fsoeReset_keeps ..)) (.refl _)

theorem toAcquire_keeps (s : State) (held : Bool) (first : Option Nat) : Keeps s (toAcquire s held first) :=
  .trans (.same (by rfl)) (barDrive_keeps ..)

theorem edgeLoop_keeps (s : State) (acc tick win : Nat) : Keeps s (edgeLoop s acc tick win) := by
  unfold edgeLoop
  extract_lets p
  split
  · exact .trans (.trans (.trans (.upd (.ite (.refl _) (raise_keeps ..)) (by rfl)) (toAcquire_keeps ..)) (alCycleLoss_keeps ..)) (raise_keeps ..)
  · split
    · exact .ite (.trans (.upd (.upd (.ite (.refl _) (raise_keeps ..)) (by rfl)) (by rfl)) (raise_keeps ..)) (.upd (.ite (.refl _)
      (raise_keeps ..)) (by rfl))
    · exact .ite (.upd (.upd (.ite (.refl _) (raise_keeps ..)) (by rfl)) (by rfl)) (.upd (.ite (.refl _) (raise_keeps ..)) (by rfl))
    · exact .ite (.upd (.upd (.ite (.refl _) (raise_keeps ..)) (by rfl)) (by rfl)) (.upd (.ite (.refl _) (raise_keeps ..)) (by rfl))
    · exact .upd (.ite (.refl _) (raise_keeps ..)) (by rfl)

theorem judgeEdge_keeps (s : State) (acc tick win : Nat) : Keeps s (judgeEdge s acc tick win) := by
  unfold judgeEdge
  split
  · exact .refl _
  · exact edgeAcquire_keeps ..
  · exact .trans (toAcquire_keeps ..) (alCycleLoss_keeps ..)
  · exact .ite (edgeLoop_keeps ..) (raise_keeps ..)

theorem syncEdge_keeps (s : State) (src dt : Nat) : Keeps s (syncEdge s src dt) := by
  unfold syncEdge
  extract_lets s1 acc tick win s2
  have hs2 : Keeps s s2 := .trans (advance_keeps ..) (advance_keeps ..)
  clear_value s2
  exact .ite hs2 (.ite (.upd hs2 (by rfl)) (hs2.trans (judgeEdge_keeps ..)))

theorem regField_keeps (s : State) (off lo n v : Nat) : Keeps s (regField s off lo n v) := regSet_keeps ..

theorem srcSelect_keeps (s : State) (v : Nat) : Keeps s (srcSelect s v) := by
  unfold srcSelect
  split
  · exact .trans (.upd (regField_keeps ..) (by rfl)) (toAcquire_keeps ..)
  · exact .ite (regField_keeps ..) (.trans (.upd (regField_keeps ..) (by rfl)) (barDrive_keeps ..))
  · exact .refl _

theorem srcOff_keeps (s : State) (v : Nat) : Keeps s (srcOff s v) :=
  .trans (.trans (.upd (regField_keeps ..) (by rfl)) (barDrive_keeps ..)) (lapse_keeps ..)

theorem reachPhase_keeps (s : State) (g : Nat) : Keeps s (reachPhase s g) := .ite (advance_keeps ..) (.refl _)

theorem windowClose_keeps (s : State) : Keeps s (windowClose s) := by
  unfold windowClose
  split
  · extract_lets s1
    split
    · exact reachPhase_keeps ..
    · split
      · exact .trans (.trans (.trans (reachPhase_keeps ..) (toAcquire_keeps ..)) (alCycleLoss_keeps ..)) (raise_keeps ..)
      · exact .trans (.upd (reachPhase_keeps ..) (by rfl)) (raise_keeps ..)
      · exact reachPhase_keeps ..
  · exact .refl _

theorem coastEntry_keeps (s : State) : Keeps s (coastEntry s) := .ite (.trans (.upd (reachPhase_keeps ..) (by rfl)) (raise_keeps ..)) (.refl _)

theorem cycleLost_keeps (s : State) : Keeps s (cycleLost s) :=
  .ite (.trans (.trans (.upd (reachPhase_keeps ..) (by rfl)) (alCycleLoss_keeps ..)) (raise_keeps ..)) (.refl _)

theorem memPut_keeps (s : State) (a : Nat) (l : Bytes) : Keeps s (memPut s a l) := .of_mem (cellPut_wf l _ a) rfl

theorem memPutLe_keeps (s : State) (a n v : Nat) : Keeps s (memPutLe s a n v) := memPut_keeps ..

theorem tableClear_keeps (s : State) (x : SelArgs) (l : List (Nat × Nat)) : Keeps s (tableClear s x l) := .foldl (fun _ _ => memPutLe_keeps ..) ..

theorem selDrop_keeps (s : State) (param cycle : Nat) : Keeps s (selDrop s param cycle) :=
  .ite (.ite (.upd (tableClear_keeps ..) (by rfl)) (.refl _)) (.upd (.ite (.upd (tableClear_keeps ..) (by rfl)) (.refl _)) (by rfl))

theorem selEnd_keeps (s : State) (k : SelWhich) : Keeps s (selEnd s k) := by
  unfold selEnd
  extract_lets l rs done s1 s2
  have hs2 : Keeps s s2 := .trans (raise_keeps ..) (.foldl (fun _ _ => selDrop_keeps ..) ..)
  clear_value s2
  split
  · exact .refl _
  · split
    · exact .upd (.upd hs2 (by rfl)) (by rfl)
    · exact .upd (.upd hs2 (by rfl)) (by rfl)
    · exact .upd hs2 (by rfl)

theorem outsideEvent_keeps (s : State) : Keeps s (outsideEvent s) := .ite (.refl _) (.trans (.same (by rfl)) (raise_keeps ..))

theorem regCount_keeps (s : State) (off : Nat) : Keeps s (regCount s off) := regSet_keeps ..

theorem evalImposed_keeps (s : State) : Keeps s (evalImposed s) :=
  .ite (.trans (.upd (.trans (.same (by rfl)) (regCount_keeps ..)) (by rfl)) (raise_keeps ..)) (.refl _)

theorem lateUnstarted_keeps (s : State) (t : Task) : Keeps s (lateUnstarted s t) := .ite (raiseOnion_keeps ..) (.refl _)

theorem dropEval_keeps (s : State) (rid : Nat) : Keeps s (dropEval s rid) :=
  .of_pods (smap_filterMap_wf _ (fun p : Nat × Pod => { p.2 with
    list := p.2.list.filter (fun r => r.rid != rid), left := p.2.left.filter (fun r => r.rid != rid)
    exec := if (match p.2.exec with | some b => !b.golden && b.rid == rid | none => false) then none else p.2.exec
    reply := p.2.reply.map (fun l => l.filter (fun r => r.rid != rid)) }) _) rfl

theorem evalFail_keeps (s : State) (e : Eval) (unit : Nat) : Keeps s (evalFail s e unit) := .trans (dropEval_keeps ..) (endFailed_keeps ..)

theorem evalMiss_keeps (s : State) (stage : Nat) (e : Eval) : Keeps s (evalMiss s stage e) := by
  unfold evalMiss
  extract_lets _ s1 _ s2 _ s3 _ s4 s5
  have hs2 : Keeps s s2 := .ite (.trans (.same (by rfl)) (raise_keeps ..)) (.trans (.upd (.trans (.same (by rfl)) (raise_keeps ..)) (by rfl))
    (regCount_keeps ..))
  clear_value s2
  have hs5 : Keeps s s5 := .ite (.upd (.ite (.upd hs2 (by rfl)) hs2) (by rfl)) (.trans (.upd (.ite (.upd hs2 (by rfl)) hs2) (by rfl))
    (lateUnstarted_keeps ..))
  clear_value s5
  exact .trans (hs5.trans (raiseOnion_keeps ..)) (evalFail_keeps ..)

theorem recheckEnd_keeps (s : State) : Keeps s (recheckEnd s) :=
  .trans (.ite (evalImposed_keeps ..) (.foldl (fun _ _ => evalMiss_keeps ..) ..)) (outsideEvent_keeps ..)

theorem startCheck_keeps (s : State) (t : Task) (u : Nat) : Keeps s (startCheck s t u) := .ite (raiseOnion_keeps ..) (.refl _)

theorem beginTask_keeps (fuel : Nat) (s : State) (u : Nat) : Keeps s (beginTask fuel s u) := by
  induction fuel generalizing s with
  | zero => exact .refl s
  | succ fuel ih =>
    unfold beginTask
    split
    · exact .refl s
    · next t _ =>
      split
      · exact .refl s
      · have checked := startCheck_keeps s t u
        dsimp only
        split
        · exact checked.trans (unitUpd_keeps ..)
        · refine checked.trans (.trans ?_ ((failTask_keeps ..).trans (ih _)))
          exact (raise_keeps ..).trans (unitUpd_keeps ..)

theorem slotNext_keeps (s : State) (u : Nat) : Keeps s (slotNext s u) := .trans (.trans (noteBusy_keeps ..) (unitUpd_keeps ..)) (beginTask_keeps ..)

theorem failExec_keeps (s : State) (u : Nat) : Keeps s (failExec s u) := by
  unfold failExec
  split
  · exact .refl _
  · exact .trans (.trans (.same (by rfl)) (slotNext_keeps ..)) (failRun_keeps ..)

theorem windowFault_keeps (s : State) (u : Nat) : Keeps s (windowFault s u) := by
  unfold windowFault
  split
  · exact .refl _
  · exact .trans (raise_keeps ..) (failExec_keeps ..)

theorem suspend_keeps (s : State) (u : Nat) (t : Task) : Keeps s (suspend s u t) :=
  .ite (windowFault_keeps ..) (.trans (.trans (.trans (takeFreeBytes_keeps ..) (memPut_keeps ..)) (readyHead_keeps ..)) (slotNext_keeps ..))

theorem unitSliceEnd_keeps (s : State) (u : Nat) : Keeps s (unitSliceEnd s u) := by
  unfold unitSliceEnd
  extract_lets s1
  have hs1 : Keeps s s1 := by
    dsimp only [s1]
    split
    · exact .ite (.trans (unitUpd_keeps ..) (readyHead_keeps ..)) (.refl _)
    · exact .refl _
  clear_value s1
  split
  · exact .ite hs1 (.ite (.trans (hs1.trans (readyHead_keeps ..)) (slotNext_keeps ..)) (.ite (hs1.trans (suspend_keeps ..)) hs1))
  · exact hs1

theorem sliceEnd_keeps (s : State) (iters : Nat) : Keeps s (sliceEnd s iters) :=
  .upd (.trans (.same (by rfl)) (.foldl (fun _ _ => unitSliceEnd_keeps ..) ..)) (by rfl)

theorem sliceStart_keeps (s : State) : Keeps s (sliceStart s) := .trans (.same (by rfl)) (wakePods_keeps ..)

theorem costDeadline_keeps (s : State) (k : Nat) : Keeps s (costDeadline s k) := .ite (.refl _) (.trans (.same (by rfl)) (raise_keeps ..))

theorem retile_keeps (s : State) (k alt n : Nat) : Keeps s (retile s k alt n) := .ite (.refl _) (.trans (.same (by rfl)) (raise_keeps ..))

theorem roleOf_keeps (s : State) (r : GateRole) : Keeps s (roleOf s r) := by
  unfold roleOf
  split
  · exact selEnd_keeps ..
  · exact selEnd_keeps ..
  · exact selEnd_keeps ..
  · exact recheckEnd_keeps ..
  · exact sliceEnd_keeps ..
  · exact sliceStart_keeps ..
  · exact costDeadline_keeps ..
  · exact retile_keeps ..

theorem evalEnd_keeps (s : State) : Keeps s (evalEnd s) := by
  unfold evalEnd
  extract_lets s1 l s2
  have hs2 : Keeps s s2 := .trans (.ite (.refl _) (evalImposed_keeps ..)) (.foldl (fun _ _ => .ite (evalMiss_keeps ..) (.trans
    (raiseOnion_keeps ..) (evalFail_keeps ..))) ..)
  clear_value s2
  exact .trans (.ite (hs2.trans (raise_keeps ..)) hs2) (outsideEvent_keeps ..)

theorem badReport_keeps (s : State) (i : Invoke) (u : Nat) : Keeps s (badReport s i u) := .ite (.refl _) (raise_keeps ..)

theorem removeTask_keeps (s : State) (t : Task) : Keeps s (removeTask s t) := by
  unfold removeTask
  extract_lets same
  split
  · exact .same (by rfl)
  · exact .ite (.trans (.same (by rfl)) (slotNext_keeps ..)) (.trans (.same (by rfl)) (unitUpd_keeps ..))

theorem invocationEnd_keeps (s : State) (i : Invoke) : Keeps s (invocationEnd s i) := by
  unfold invocationEnd
  extract_lets s1
  have hs1 : Keeps s s1 := .trans (raise_keeps ..) (regCount_keeps ..)
  clear_value s1
  exact .trans (.trans (.upd hs1 (by rfl)) (badReport_keeps ..)) (.foldl (fun _ _ => .trans (removeTask_keeps ..) (endFailed_keeps ..)) ..)

theorem slotDeadline_keeps (s : State) (k : Nat) : Keeps s (slotDeadline s k) := .foldl (fun _ _ => invocationEnd_keeps ..) ..

theorem psnDeadline_keeps (s : State) (g : Nat) : Keeps s (psnDeadline s g) :=
  .foldl (fun _ _ => .trans (.trans (.trans (.trans (cutRun_keeps ..) (psnDiscard_keeps ..)) (regCount_keeps ..)) (removeTask_keeps ..))
    (endFailed_keeps ..)) ..

theorem gateEffects_keeps (s : State) (g i n : Nat) : Keeps s (gateEffects s g i n) := by
  unfold gateEffects
  extract_lets s1
  have hs1 : Keeps s s1 := by
    dsimp only [s1]
    split
    · exact .ite (evalEnd_keeps ..) (.refl _)
    · exact .refl _
  clear_value s1
  exact .trans (hs1.trans (psnDeadline_keeps ..)) (.foldl (fun _ _ => .foldl (fun _ _ => slotDeadline_keeps ..) ..) ..)

theorem openGate_keeps (s : State) : Keeps s (openGate s).2 := by
  unfold openGate
  split
  · exact .refl _
  · exact .same (by rfl)

theorem takeGate_keeps (s : State) (g n : Nat) (roles : List GateRole) : Keeps s (takeGate s g n roles) :=
  .trans (.trans (gateEffects_keeps ..) (.foldl (fun _ _ => roleOf_keeps ..) ..)) (openGate_keeps ..)

theorem fillQueue_keeps (fuel : Nat) (s : State) : Keeps s (fillQueue fuel s) := by
  induction fuel generalizing s with
  | zero => exact .refl s
  | succ fuel ih =>
    unfold fillQueue
    split
    · exact .refl s
    · split
      · exact .refl s
      · exact (takeGate_keeps ..).trans (ih _)

theorem nextClk_keeps (s : State) : Keeps s (nextClk s) := advance_keeps ..

theorem ownClk_keeps (s : State) (a : ClkAct) : Keeps s (ownClk s a) := .upd (.ite (nextClk_keeps ..) (.refl _)) (by rfl)

theorem issueEight_keeps (s : State) : Keeps s (issueEight s) := .ite (.refl _) (.trans (.upd (ownClk_keeps ..) (by rfl)) (clkDecs_keeps ..))

theorem alignGates_keeps (fuel : Nat) (s : State) : Keeps s (alignGates fuel s) := by
  induction fuel generalizing s with
  | zero => exact .refl s
  | succ fuel ih =>
    have filled := fillQueue_keeps 8 s
    exact .ite filled (filled.trans ((issueEight_keeps ..).trans ((nextClk_keeps ..).trans (ih _))))

theorem issueAll_keeps (fuel : Nat) (s : State) : Keeps s (issueAll fuel s) := by
  induction fuel generalizing s with
  | zero => exact .refl s
  | succ fuel ih => exact .ite (.refl s) ((issueEight_keeps s).trans (ih _))

theorem restGates_keeps (fuel : Nat) (s : State) : Keeps s (restGates fuel s) := by
  induction fuel generalizing s with
  | zero => exact .refl s
  | succ fuel ih =>
    unfold restGates
    split
    · exact .refl s
    · exact (reachPhase_keeps ..).trans ((takeGate_keeps ..).trans ((issueAll_keeps ..).trans (ih _)))

theorem endGates_keeps (s : State) : Keeps s (endGates s) := .ite (alignGates_keeps ..) (.trans (issueAll_keeps ..) (restGates_keeps ..))

theorem nondetEvent_keeps (s : State) (ended : Nat) : Keeps s (nondetEvent s ended) := .ite (.refl _) (raise_keeps ..)

theorem forceRegs_keeps (s : State) : Keeps s (forceRegs s) :=
  .of_regs (fun ⟨h, _⟩ => ⟨h, smap_set_wf _ _ _ _ h⟩) rfl

theorem boundaryAcc_keeps (s : State) : Keeps s (boundaryAcc s) := by
  unfold boundaryAcc
  split
  · exact .same (by rfl)
  · exact .ite (.refl _) (.ite (.same (by rfl)) (advance_keeps ..))

theorem memBoundary_keeps (s : State) : Keeps s (memBoundary s) := .upd (.ite (.refl _) (.same (by rfl))) (by rfl)

theorem cobBoundary_keeps (s : State) : Keeps s (cobBoundary s) :=
  .upd (.trans (.trans (.trans (.trans (regSet_keeps ..) (regSet_keeps ..)) (regSet_keeps ..)) (regSet_keeps ..)) (.foldl
    (fun _ _ => regSet_keeps ..) ..)) (by rfl)

theorem psnBoundary_keeps (s : State) : Keeps s (psnBoundary s) := by
  unfold psnBoundary
  extract_lets p s1 s2 s3 s4 s5
  have hs2 : Keeps s s2 := .trans (.ite (.refl _) (raise_keeps ..)) (regSet_keeps ..)
  clear_value s2
  have hs4 : Keeps s s4 := .trans (hs2.trans (regSet_keeps ..)) (regSet_keeps ..)
  clear_value s4
  have hs5 : Keeps s s5 := hs4.trans (.foldl (fun _ _ => regSet_keeps ..) ..)
  clear_value s5
  exact .upd hs5 (by rfl)

theorem selBoundary_keeps (s : State) : Keeps s (selBoundary s) := by
  unfold selBoundary
  extract_lets s1 s2 s3 s4 s5 s6 s7
  have hs2 : Keeps s s2 := .trans (regSet_keeps ..) (regSet_keeps ..)
  clear_value s2
  have hs4 : Keeps s s4 := .trans (hs2.trans (regSet_keeps ..)) (regSet_keeps ..)
  clear_value s4
  have hs6 : Keeps s s6 := .trans (.trans (hs4.trans (regSet_keeps ..)) (regSet_keeps ..)) (regSet_keeps ..)
  clear_value s6
  have hs7 : Keeps s s7 := hs6.trans (.foldl (fun _ _ => regSet_keeps ..) ..)
  clear_value s7
  exact .upd hs7 (by rfl)

theorem podBoundary_keeps (s : State) : Keeps s (podBoundary s) := by
  unfold podBoundary
  extract_lets p s1 s2 s3 s4 s5 s6
  have hs2 : Keeps s s2 := .trans (regSet_keeps ..) (regSet_keeps ..)
  clear_value s2
  have hs4 : Keeps s s4 := .trans (hs2.trans (regSet_keeps ..)) (regSet_keeps ..)
  clear_value s4
  have hs6 : Keeps s s6 := .trans (hs4.trans (regSet_keeps ..)) (.foldl (fun _ _ => .trans (.trans (.trans (regSet_keeps ..) (regSet_keeps ..))
    (regSet_keeps ..)) (podPut_keeps ..)) ..)
  clear_value s6
  exact .upd hs6 (by rfl)

theorem peerBoundary_keeps (s : State) : Keeps s (peerBoundary s) := .upd (.ite (.refl _) (raise_keeps ..)) (by rfl)

theorem schedBoundary_keeps (s : State) : Keeps s (schedBoundary s) := by
  unfold schedBoundary
  extract_lets c stalled k s1 s2 s3
  have hs1 : Keeps s s1 := .trans (.trans (.trans (.trans (.trans (.trans (.trans (regSet_keeps ..) (regSet_keeps ..)) (regSet_keeps ..))
    (regSet_keeps ..)) (regSet_keeps ..)) (regSet_keeps ..)) (regSet_keeps ..)) (regSet_keeps ..)
  clear_value s1
  have hs3 : Keeps s s3 := .trans (hs1.trans (regSet_keeps ..)) (regSet_keeps ..)
  clear_value s3
  exact .upd (hs3.trans (regSet_keeps ..)) (by rfl)

theorem busyBoundary_keeps (s : State) : Keeps s (busyBoundary s) := by
  unfold busyBoundary
  refine .foldl (fun s x => ?_) ..
  split
  · exact .ite (busyAdd_keeps ..) (.refl _)
  · exact .refl _

theorem boundaryCounts_keeps (s : State) : Keeps s (boundaryCounts s) :=
  .trans (.trans (.trans (.trans (.trans (.trans (.upd (.trans (busyBoundary_keeps ..) (schedBoundary_keeps ..)) (by rfl))
    (peerBoundary_keeps ..)) (podBoundary_keeps ..)) (selBoundary_keeps ..)) (psnBoundary_keeps ..)) (cobBoundary_keeps ..)) (memBoundary_keeps ..)

theorem setPut_keeps (s : State) (c : Nat) (raw : List (List WCap)) (box : Level) : Keeps s (setPut s c raw box) :=
  .ite (.trans (.same (by rfl)) (raise_keeps ..)) (.same (by rfl))

theorem setBoundary_keeps (s : State) : Keeps s (setBoundary s) := by
  unfold setBoundary
  split
  · exact .refl _
  · exact .ite (.refl _) (.trans (.same (by rfl)) (setPut_keeps ..))

theorem cachesKeep_keeps (s : State) (f : Nat → Bool) : Keeps s (cachesKeep s f) :=
  .of_pods (smap_filterMap_wf _ (fun p : Nat × Pod => { p.2 with lines := p.2.lines.filter f }) _) rfl

theorem wordsReturned_keeps (s : State) (held : List Nat) : Keeps s (wordsReturned s held) := .ite (.refl _) (cachesKeep_keeps ..)

theorem freezeNow_keeps (s : State) : Keeps s (freezeNow s) := .trans (.trans (.same (by rfl)) (wordsReturned_keeps ..)) (cachesKeep_keeps ..)

theorem freeze_keeps (s : State) (bad : Option (Nat × Nat)) : Keeps s (freeze s bad) :=
  .ite (freezeNow_keeps ..) (.trans (.ite (.trans (.trans (.same (by rfl)) (raise_keeps ..)) (raise_keeps ..)) (.same (by rfl))) (raise_keeps ..))

theorem takeWord_keeps {s t : State} {used : List Nat} {n : Nat} (h : takeWord s used = some (n, t)) : Keeps s t := by
  unfold takeWord at h
  dsimp only at h
  split at h
  · cases h
  · obtain ⟨k, -, hk⟩ := Option.map_eq_some_iff.mp h
    cases hk
    exact .same (by rfl)

theorem allocOne_keeps (held : List Nat) (a : AllocAcc) (x : Nat × Bytes) : Keeps a.st (allocOne held a x).st := by
  unfold allocOne
  split
  · exact .refl _
  · split
    · exact .refl _
    · split
      · next h => exact takeWord_keeps h
      · exact .refl _

theorem allocOne_foldl_keeps (held : List Nat) (l : List (Nat × Bytes)) (a : AllocAcc) : Keeps a.st (l.foldl (allocOne held) a).st := by
  induction l generalizing a with
  | nil => exact .refl _
  | cons x l ih => exact (allocOne_keeps held a x).trans (ih _)

theorem allocate_keeps (s : State) : Keeps s (allocate s) := by
  unfold allocate
  extract_lets held _ need kept a more returned
  have halloc : Keeps s a.st := allocOne_foldl_keeps _ need ⟨s, kept, []⟩
  clear_value a
  have hreturned : Keeps s returned := .trans (.trans halloc (.same (by rfl))) (wordsReturned_keeps ..)
  exact .ite (hreturned.trans (raise_keeps ..)) hreturned

theorem rebuild_keeps (s : State) : Keeps s (rebuild s) := .trans (.same (by rfl)) (allocate_keeps ..)

theorem levelDims_keeps (s : State) : Keeps s (levelDims s) := .ite (.refl _) (.trans (.same (by rfl)) (rebuild_keeps ..))

theorem strPut_keeps (s : State) (i : Nat) (x : Stream) : Keeps s (strPut s i x) :=
  .of_streams (fun ⟨h, h'⟩ => ⟨smap_set_wf _ _ _ _ h, h'⟩) rfl

theorem fovSweep_keeps (s : State) (i : Nat) : Keeps s (fovSweep s i).2 := .trans (.same (by rfl)) (rebuild_keeps ..)

theorem streamEnable_keeps (s : State) (i : Nat) : Keeps s (streamEnable s i) :=
  .ite (strPut_keeps ..) (.ite (.trans (.upd (strPut_keeps ..) (by rfl)) (fovSweep_keeps ..)) (.refl _))

theorem strUpd_keeps (s : State) (i : Nat) (f : Stream → Stream) : Keeps s (strUpd s i f) := strPut_keeps ..

theorem streamAge_keeps (s : State) (i : Nat) : Keeps s (streamAge s i) := .ite (.refl _) (strUpd_keeps ..)

theorem recentre_keeps (s : State) (pos : List Int) : Keeps s (recentre s pos) :=
  .ite (.refl _) (.ite (.refl _) (.trans (.trans (.same (by rfl)) (rebuild_keeps ..)) (raise_keeps ..)))

theorem worldUpd_keeps (s : State) (f : World → World) (h : (f s.world).streams = s.world.streams) : Keeps s (worldUpd s f) := by
  refine .same ?_
  simp only [formsOf, worldUpd, h]

theorem startBuild_keeps (s : State) : Keeps s (startBuild s) := by
  unfold startBuild
  exact .trans (worldUpd_keeps _ _ rfl) (rebuild_keeps ..)

theorem worldBoundary_keeps (s : State) (bad : Option (Nat × Nat)) (pos : Option (List Int)) : Keeps s (worldBoundary s bad pos) := by
  unfold worldBoundary
  extract_lets begins s1 s2 s3 s4 s5
  have hs2 : Keeps s s2 := .trans (freeze_keeps ..) (levelDims_keeps ..)
  clear_value s2
  have hs3 : Keeps s s3 := hs2.trans (.foldl (fun _ _ => streamEnable_keeps ..) ..)
  clear_value s3
  have hs4 : Keeps s s4 := hs3.trans (.foldl (fun _ _ => streamAge_keeps ..) ..)
  clear_value s4
  have hs5 : Keeps s s5 := by
    dsimp only [s5]
    split
    · exact hs4.trans (recentre_keeps ..)
    · exact hs4
  clear_value s5
  exact .ite (.trans (.upd hs5 (by rfl)) (startBuild_keeps ..)) (.upd hs5 (by rfl))

theorem katRun_keeps (s : State) (bad : Option Nat) : Keeps s (katRun s bad) :=
  .ite (.refl _) (.foldl (fun _ _ => .ite (.refl _) (.ite (.trans (.same (by rfl)) (raise_keeps ..)) (.same (by rfl)))) ..)

theorem bootPlan_keeps (s : State) : Keeps s (bootPlan s) := .ite (.same (by rfl)) (.refl _)

theorem bootPermit_keeps (s : State) : Keeps s (bootPermit s) := .ite (.same (by rfl)) (.refl _)

theorem firmwareCmd_keeps (s : State) (u cmd : Nat) : Keeps s (firmwareCmd s u cmd).2 := by
  unfold firmwareCmd
  split
  · exact applyCmd_keeps ..
  · exact w1cSet_keeps ..

theorem retireAct_keeps (s : State) (u : Nat) : Keeps s (retireAct s u) := by
  unfold retireAct
  extract_lets r s1
  have hs1 : Keeps s s1 := .trans (applyCmd_keeps ..) (unitUpd_keeps ..)
  clear_value s1
  split
  · exact .refl _
  · split
    · exact hs1.trans (retireRecord_keeps ..)
    · exact hs1.trans (retireRecord_keeps ..)
    · exact firmwareCmd_keeps ..
    · exact .refl _

theorem strikeAct_keeps (s : State) (u : Nat) : Keeps s (strikeAct s u) :=
  .ite (.refl _) (.ite (.ite (.trans (unitSet_keeps ..) (firmwareCmd_keeps ..)) (unitSet_keeps ..)) (.trans (unitSet_keeps ..) (unitUpd_keeps ..)))

theorem takeStrike_keeps (s : State) (u : Nat) : Keeps s (takeStrike s u) := .ite (.trans (.same (by rfl)) (unitSet_keeps ..)) (.refl _)

theorem strikesAtBoundary_keeps (s : State) : Keeps s (strikesAtBoundary s) :=
  .foldl (fun _ _ => .trans (.trans (takeStrike_keeps ..) (strikeAct_keeps ..)) (retireAct_keeps ..)) ..

theorem weightBoundary_keeps (s : State) : Keeps s (weightBoundary s) := by
  unfold weightBoundary
  split
  · exact .refl _
  · exact .same (by rfl)

theorem planLate_keeps (s : State) : Keeps s (planLate s) := .ite (.trans (.same (by rfl)) (raise_keeps ..)) (.refl _)

theorem editWrite_keeps (s : State) (a : Nat) (x : Nat × Nat) : Keeps s (editWrite s a x) := by
  unfold editWrite
  split
  · exact memPutLe_keeps ..
  · exact .refl _

theorem editCopy_keeps (s : State) (p : Plan) (l : List (Nat × Nat)) (k : Nat) : Keeps s (editCopy s p l k) :=
  .trans (.trans (memPut_keeps ..) (.foldl (fun _ _ => memPutLe_keeps ..) ..)) (.foldl (fun _ _ => editWrite_keeps ..) ..)

theorem editBoundary_keeps (s : State) : Keeps s (editBoundary s) := by
  unfold editBoundary
  extract_lets l
  split
  · exact .refl _
  · exact .ite (.refl _) (.ite (.foldl (fun _ _ => raise_keeps ..) ..) (.upd (.trans (editCopy_keeps ..) (editCopy_keeps ..)) (by rfl)))

theorem mode2Boundary_keeps (s : State) : Keeps s (mode2Boundary s) :=
  .foldl (fun _ _ => .ite (.refl _) (.upd (.ite (.same (by rfl)) (.trans (.same (by rfl)) (raiseOnion_keeps ..))) (by rfl))) ..

theorem boundaryWorld_keeps (s : State) (bad : Option (Nat × Nat)) (kat : Option Nat) : Keeps s (boundaryWorld s bad kat) := by
  unfold boundaryWorld
  extract_lets s1
  have hs1 : Keeps s s1 := .trans (worldBoundary_keeps ..) (setBoundary_keeps ..)
  clear_value s1
  exact .trans (.trans (.trans (.trans (.trans (.trans (.trans (hs1.trans (mode2Boundary_keeps ..)) (editBoundary_keeps ..)) (planLate_keeps ..))
    (weightBoundary_keeps ..)) (strikesAtBoundary_keeps ..)) (bootPermit_keeps ..)) (bootPlan_keeps ..)) (katRun_keeps ..)

theorem linkPoses_keeps (s : State) (m : Model) : Keeps s (linkPoses s m) := .ite (.same (by rfl)) (.same (by rfl))

theorem stateLimits_keeps (s : State) (m : Model) : Keeps s (stateLimits s m) :=
  .upd (.foldl (fun _ _ => .ite (raise_keeps ..) (.refl _)) ..) (by rfl)

theorem jointTake_keeps (s : State) (check : Bool) : Keeps s (jointTake s check) := by
  unfold jointTake
  split
  · exact .same (by rfl)
  · exact .trans (.ite (.trans (.same (by rfl)) (stateLimits_keeps ..)) (.same (by rfl))) (linkPoses_keeps ..)

theorem rxLatch_keeps (s : State) : Keeps s (rxLatch s) :=
  .ite (.trans (.same (by rfl)) (memPut_keeps ..)) (.ite (.trans (.same (by rfl)) (raise_keeps ..)) (.same (by rfl)))

theorem permitBoundary_keeps (s : State) : Keeps s (permitBoundary s) :=
  .ite (.same (by rfl)) (.ite (.trans (.same (by rfl)) (lapse_keeps ..)) (.ite (.trans (.same (by rfl)) (lapse_keeps ..)) (.ite (.same (by rfl))
    (.same (by rfl)))))

theorem modelExchange_keeps (s : State) : Keeps s (modelExchange s) := by
  unfold modelExchange
  split
  · exact .refl _
  · extract_lets nj s1 _ ms rec7 _ s2 s3
    have hs3 : Keeps s s3 := .trans (.upd (.foldl (fun _ _ => .same (by rfl)) ..) (by rfl)) (raise_keeps ..)
    clear_value s3
    exact .ite (.ite (.trans (.upd hs3 (by rfl)) (raise_keeps ..)) (.upd hs3 (by rfl))) hs3

theorem replayModel_keeps (s : State) (r : InRec) : Keeps s (replayModel s r) := by
  unfold replayModel
  split
  · exact .trans (.same (by rfl)) (modelExchange_keeps ..)
  · exact .upd (memPut_keeps ..) (by rfl)
  · exact .upd (memPut_keeps ..) (by rfl)
  · exact .refl _

theorem replayInputs_keeps (s : State) : Keeps s (replayInputs s) := by
  unfold replayInputs
  split
  · exact .refl _
  · refine .foldl (fun s r => ?_) ..
    split
    · exact .ite (.refl _) (.same (by rfl))
    · exact .same (by rfl)
    · exact .same (by rfl)
    · exact replayModel_keeps ..
    · exact .refl _

theorem pointSet_keeps (s : State) (p why : Nat) : Keeps s (pointSet s p why) := .ite (.refl _) (.trans (.same (by rfl)) (raise_keeps ..))

theorem powerBoundary_keeps (s : State) : Keeps s (powerBoundary s) := by
  unfold powerBoundary
  extract_lets w _ s1 _ s2
  have hs2 : Keeps s s2 := .ite (.trans (.same (by rfl)) (raise_keeps ..)) (.same (by rfl))
  clear_value s2
  exact .ite (.trans (.upd hs2 (by rfl)) (pointSet_keeps ..)) (.ite (.upd hs2 (by rfl)) hs2)

theorem weightConv_keeps (s : State) : Keeps s (weightConv s) := .trans (.same (by rfl)) (.foldl (fun _ _ => raise_keeps ..) ..)

theorem loadField_keeps (s : State) (reg lo w v : Nat) : Keeps s (loadField s reg lo w v) := by
  unfold loadField
  split
  · exact .refl _
  · refine .of_regs (fun ⟨h, h'⟩ => ⟨smap_set_wf _ _ _ _ h, ?_⟩) rfl
    dsimp only
    split
    · exact h'
    · exact smap_set_wf _ _ _ _ h'

theorem loadRecord_keeps (s : State) : Keeps s (loadRecord s) := .trans (loadField_keeps ..) (loadField_keeps ..)

theorem loadObj_keeps (s : State) (idx sub : Nat) : Keeps s (loadObj s idx sub) :=
  .ite (.refl _) (.ite (.trans (.foldl (fun _ _ => loadField_keeps ..) ..) (loadRecord_keeps ..)) (.foldl (fun _ _ => loadField_keeps ..) ..))

theorem objWrite_keeps (s : State) (idx sub : Nat) : Keeps s (objWrite s idx sub) :=
  .ite (.ite (srcSelect_keeps ..) (srcOff_keeps ..)) (.ite (.trans (loadObj_keeps ..) (barDrive_keeps ..)) (loadObj_keeps ..))

theorem objTake_keeps (s : State) (ph : Nat) (x : Nat × Nat × Int) : Keeps s (objTake s ph x) :=
  .upd (.trans (.same (by rfl)) (objWrite_keeps ..)) (by rfl)

theorem objBoundary_keeps (s : State) : Keeps s (objBoundary s) := .trans (.same (by rfl)) (.foldl (fun _ _ => objTake_keeps ..) ..)

theorem regLoad_keeps (s : State) (off v : Nat) : Keeps s (regLoad s off v) :=
  .of_regs (fun ⟨h, h'⟩ => ⟨smap_set_wf _ _ _ _ h, smap_set_wf _ _ _ _ h'⟩) rfl

theorem sparBoundary_keeps (s : State) : Keeps s (sparBoundary s) := by
  unfold sparBoundary
  split
  · exact .refl _
  · exact .ite (.refl _) (.trans (.upd (.upd (.trans (.same (by rfl)) (regLoad_keeps ..)) (by rfl)) (by rfl)) (raise_keeps ..))

theorem wearStep_keeps (s : State) : Keeps s (wearStep s) := .ite (.refl _) (.ite (.trans (takeFree_keeps ..) (raise_keeps ..)) (takeFree_keeps ..))

theorem logLost_keeps (s : State) (k n : Nat) : Keeps s (logLost s k n) := .ite (.refl _) (.trans (.same (by rfl)) (raise_keeps ..))

theorem logBoundary_keeps (s : State) : Keeps s (logBoundary s) := .trans (.trans (.same (by rfl)) (logLost_keeps ..)) (logLost_keeps ..)

theorem wipeStart_keeps (s : State) (k cause : Nat) : Keeps s (wipeStart s k cause) := by
  have hbytes : (wipeStart s k cause).mem.bytes =
      s.mem.bytes.filter (fun c => !(decide (secureBase k ≤ c.1) && decide (c.1 < secureBase k + 0x100000))) := by
    unfold wipeStart
    dsimp only
    split <;> rfl
  refine .of_mem (fun h => ?_) rfl
  rw [MemOk, hbytes]
  exact smap_filter_wfFrom _ _ _ 0 h

theorem noPermit_keeps (s : State) : Keeps s (noPermit s) := .upd (lapse_keeps ..) (by rfl)

theorem lifePermit_keeps (s : State) (t : Nat) : Keeps s (lifePermit s t) := .ite (.refl _) (.ite (noPermit_keeps ..) (lapse_keeps ..))

theorem gateWrite_keeps (s : State) (v : Nat) : Keeps s (gateWrite s v) := by
  unfold gateWrite
  extract_lets off on
  have hoff : Keeps s off := .upd (regLoad_keeps ..) (by rfl)
  exact hoff.trans (.of_regs (fun ⟨h, h'⟩ => ⟨smap_filter_wfFrom _ _ _ 0 h, smap_filter_wfFrom _ _ _ 0 h'⟩) rfl)

theorem lifeApply_keeps (s : State) : Keeps s (lifeApply s) := by
  unfold lifeApply
  split
  · exact .refl _
  · extract_lets old s1 _ v s2
    have hs1 : Keeps s s1 := .trans (wipeStart_keeps ..) (wipeStart_keeps ..)
    clear_value s1
    have hs2 : Keeps s s2 := .trans (.trans (.trans (.upd (.upd hs1 (by rfl)) (by rfl)) (boxAdd_keeps ..)) (raise_keeps ..)) (lifePermit_keeps ..)
    clear_value s2
    exact .ite (.trans (.ite (.upd hs2 (by rfl)) hs2) (gateWrite_keeps ..)) (.ite (.upd hs2 (by rfl)) hs2)

theorem tracePoint_keeps (s : State) (u i : Nat) : Keeps s (tracePoint s u i) := .trans (.same (by rfl)) (raiseX_keeps ..)

theorem tracePoints_keeps (s : State) (u : Nat) : Keeps s (tracePoints s u) :=
  .ite (.refl _) (.trans (takeFree_keeps ..) (.foldl (fun _ _ => tracePoint_keeps ..) ..))

theorem svcBoundary_keeps (s : State) : Keeps s (svcBoundary s) := by
  unfold svcBoundary
  extract_lets _ s1
  have hs1 : Keeps s s1 := .trans (.trans (.trans (.same (by rfl)) (lifeApply_keeps ..)) (logBoundary_keeps ..)) (wearStep_keeps ..)
  clear_value s1
  exact .ite hs1 (hs1.trans (.foldl (fun _ _ => tracePoints_keeps ..) ..))

theorem pinsBoundary_keeps (s : State) : Keeps s (pinsBoundary s) := .ite (.same (by rfl)) (.trans (.same (by rfl)) (raise_keeps ..))

theorem boundaryInputs_keeps (s : State) : Keeps s (boundaryInputs s) :=
  .trans (.trans (.trans (.trans (.trans (.trans (.trans (.trans (.trans (pinsBoundary_keeps ..) (svcBoundary_keeps ..)) (sparBoundary_keeps ..))
    (objBoundary_keeps ..)) (weightConv_keeps ..)) (powerBoundary_keeps ..)) (replayInputs_keeps ..)) (permitBoundary_keeps ..))
      (rxLatch_keeps ..)) (jointTake_keeps ..)

theorem primBoundary_keeps (s : State) : Keeps s (primBoundary s) := by
  unfold primBoundary
  split
  · exact .same (by rfl)
  · exact .refl _

theorem noBaseEvent_keeps (s : State) : Keeps s (noBaseEvent s) := .trans (.same (by rfl)) (raise_keeps ..)

theorem candLatch_keeps (s : State) : Keeps s (candLatch s) := by
  unfold candLatch
  extract_lets _ s1 s2
  have hs2 : Keeps s s2 := .ite (.trans (.trans (.same (by rfl)) (primBoundary_keeps ..)) (noBaseEvent_keeps ..)) (.trans (.same (by rfl))
    (primBoundary_keeps ..))
  clear_value s2
  split
  · exact .upd hs2 (by rfl)
  · extract_lets nj
    split
    extract_lets s3
    have hs3 : Keeps s s3 := .ite (.trans (.trans (.same (by rfl)) (primBoundary_keeps ..)) (noBaseEvent_keeps ..)) (.trans (.same (by rfl))
      (primBoundary_keeps ..))
    clear_value s3
    split
    · exact .upd (.upd hs3 (by rfl)) (by rfl)
    · split
      extract_lets seedRec s5 s6 s22 s7 ranks sv s8
      have hs6 : Keeps s s6 := .ite (.trans (.upd (.upd hs3 (by rfl)) (by rfl)) (raise_keeps ..)) (.upd (.upd hs3 (by rfl)) (by rfl))
      clear_value s6
      have hs8 : Keeps s s8 := .ite (.trans (.ite (hs6.trans (raise_keeps ..)) hs6) (raise_keeps ..)) (.ite (hs6.trans (raise_keeps ..)) hs6)
      clear_value s8
      exact .upd (.ite (hs8.trans (raise_keeps ..)) hs8) (by rfl)

theorem replayLoad_keeps (s : State) : Keeps s (replayLoad s) := by
  unfold replayLoad
  split
  · exact .trans (.same (by rfl)) (noPermit_keeps ..)
  · next k hk =>
    extract_lets _ _ _ _ loaded
    have hloaded : Keeps s loaded := by
      refine .of_streams (fun h => ⟨?_, h.2⟩) rfl
      obtain ⟨x, hx, hxk⟩ := List.exists_of_findSome?_eq_some hk
      cases x with
      | ckpt c =>
        cases hxk
        exact h.2 _ hx
      | input => cases hxk
      | chain => cases hxk
    exact .trans hloaded (.trans (.foldl (fun _ _ => memPut_keeps ..) ..) (noPermit_keeps ..))

theorem replayBoundary_keeps (s : State) : Keeps s (replayBoundary s) :=
  .ite (.upd (replayLoad_keeps ..) (by rfl)) (.ite (.same (by rfl)) (.ite (.refl _) (.ite (.trans (.same (by rfl)) (raise_keeps ..)) (.same
    (by rfl)))))

theorem replayCheck_keeps (s : State) (chain : Bytes) (live : List InRec) : Keeps s (replayCheck s chain live) := by
  unfold replayCheck
  split
  · exact .refl _
  · extract_lets rec8
    split
    · exact .trans (.same (by rfl)) (raise_keeps ..)
    · split
      · exact .ite (.trans (.same (by rfl)) (raise_keeps ..)) (.refl _)
      · exact .refl _

theorem ethPortSet_keeps (s : State) (p : Nat) (x : EthPort) : Keeps s (ethPortSet s p x) := .ite (.same (by rfl)) (.same (by rfl))

theorem sendOn_keeps (s : State) (p pcp : Nat) (b : Bytes) : Keeps s (sendOn s p pcp b) := by
  unfold sendOn
  extract_lets put
  split
  · exact .same (by rfl)
  · split
    · exact .refl _
    · exact .upd (ethPortSet_keeps ..) (by rfl)

theorem streamOne_keeps {s t : State} {r : InRec} (h : streamOne s r = some t) : Keeps s t := by
  unfold streamOne at h
  dsimp only at h
  split at h
  · cases h
  · split at h
    · cases h
    · cases h
      exact .upd (.trans (.same (by rfl)) (sendOn_keeps ..)) (by rfl)

theorem streamPush_fold_keeps (l : List InRec) (x : State × Nat) : Keeps x.1 (l.foldl (fun (x : State × Nat) r =>
    match streamOne x.1 r with | some t => (t, x.2) | none => (x.1, x.2 + 1)) x).1 := by
  induction l generalizing x with
  | nil => exact .refl _
  | cons r l ih =>
    refine .trans ?_ (ih _)
    dsimp only
    split
    · next h => exact streamOne_keeps h
    · exact .refl _

theorem streamPush_keeps (s : State) (l : List InRec) : Keeps s (streamPush s l) := by
  have hfold := streamPush_fold_keeps l (s, 0)
  exact .ite (.refl _) (.ite hfold (.trans (.upd hfold (by rfl)) (raise_keeps ..)))

/-- What a trimmed ring holds it held before. -/
theorem mem_of_mem_ringTrim {cap n : Nat} {l : List RingRec} {x : RingRec} (h : x ∈ ringTrim cap n l) : x ∈ l := by
  induction n generalizing l with
  | zero => exact h
  | succ n ih =>
    unfold ringTrim at h
    split at h
    · exact h
    · exact List.mem_of_mem_drop ((List.dropWhile_sublist _).subset (ih h))

/-- Records enter the ring, any checkpoint among them with its streams in canonical form. -/
theorem ringPush_keeps_of (s : State) (l : List RingRec)
    (hl : StreamsOk s → ∀ k, RingRec.ckpt k ∈ l → Smap.wf (fun _ => Stream.off) k.world.streams = true) : Keeps s (ringPush s l) := by
  unfold ringPush
  split
  · split
    · refine .of_streams (fun h => ⟨h.1, fun k hk => ?_⟩) rfl
      rcases List.mem_append.mp (mem_of_mem_ringTrim hk) with hk | hk
      · exact h.2 k hk
      · exact hl h k hk
    · exact .ite (.refl _) (raise_keeps ..)
  · exact .refl _

/-- The inputs of a cycle and its chain value enter the ring. -/
theorem ringPush_keeps (s : State) (c : Nat) (l : List InRec) (chain : Bytes) :
    Keeps s (ringPush s (l.map (RingRec.input c) ++ [.chain c chain])) := by
  refine ringPush_keeps_of _ _ fun _ k hk => ?_
  simp at hk

theorem detBoundary_keeps (s : State) : Keeps s (detBoundary s) :=
  .upd (.ite (.trans (.trans (.upd (replayCheck_keeps ..) (by rfl)) (ringPush_keeps ..)) (streamPush_keeps ..)) (.upd (replayCheck_keeps ..)
    (by rfl))) (by rfl)

theorem waitedEdge_keeps (s : State) : Keeps s (waitedEdge s) := .trans (.same (by rfl)) (.foldl (fun _ _ => judgeEdge_keeps ..) ..)

theorem zeroGates_keeps (s : State) : Keeps s (zeroGates s) := by
  unfold zeroGates
  split
  · exact .trans (takeGate_keeps ..) (issueEight_keeps ..)
  · exact .refl _

theorem cycleBoundary_keeps (s : State) (i : BoundaryIn) : Keeps s (cycleBoundary s i) := by
  unfold cycleBoundary
  split
  · exact .refl _
  · extract_lets s1 ended s2 s3 _ s4 s5 hold s6 s7
    have hs2 : Keeps s s2 := .trans (.trans (.upd (.trans (endGates_keeps ..) (boundaryAcc_keeps ..)) (by rfl)) (forceRegs_keeps ..))
      (nondetEvent_keeps ..)
    clear_value s2
    have hs4 : Keeps s s4 := .trans (.upd (.upd hs2 (by rfl)) (by rfl)) (boundaryCounts_keeps ..)
    clear_value s4
    have hs5 : Keeps s s5 := .trans (hs4.trans (boundaryInputs_keeps ..)) (boundaryWorld_keeps ..)
    clear_value s5
    have hs6 : Keeps s s6 := .ite hs5 (hs5.trans (candLatch_keeps ..))
    clear_value s6
    have hs7 : Keeps s s7 := .trans (hs6.trans (detBoundary_keeps ..)) (replayBoundary_keeps ..)
    clear_value s7
    exact .trans (.ite hs7 (hs7.trans (zeroGates_keeps ..))) (waitedEdge_keeps ..)

theorem detRefresh_keeps (s : State) : Keeps s (detRefresh s) :=
  .ite (.refl _) (.ite (.trans (.trans (.same (by rfl)) (ringPush_keeps ..)) (streamPush_keeps ..)) (.same (by rfl)))

theorem latchIfDue_keeps (s : State) : Keeps s (latchIfDue s) := .ite (.trans (candLatch_keeps ..) (detRefresh_keeps ..)) (.refl _)

theorem gateIssue_keeps (s : State) (roles : List GateRole) : Keeps s (gateIssue s roles) := by
  unfold gateIssue
  split
  · exact .refl _
  · split
    · exact issueEight_keeps ..
    · extract_lets latched
      have hlatched : Keeps s latched := latchIfDue_keeps ..
      split
      · exact hlatched
      · exact hlatched.trans (.trans (.ite (.refl _) (reachPhase_keeps ..)) ((takeGate_keeps ..).trans (issueEight_keeps ..)))

theorem stepInFall_keeps (s : State) (dt : Nat) : Keeps s (stepInFall s dt) := by
  unfold stepInFall
  extract_lets s1
  split
  · exact .upd (advance_keeps ..) (by rfl)
  · split
    · split
      · exact .upd (advance_keeps ..) (by rfl)
      · exact .ite (.trans (.upd (.upd (advance_keeps ..) (by rfl)) (by rfl)) (raise_keeps ..)) (.upd (.upd (advance_keeps ..) (by rfl)) (by rfl))
    · exact .ite (.upd (.upd (advance_keeps ..) (by rfl)) (by rfl)) (.trans (.upd (advance_keeps ..) (by rfl)) (barDrive_keeps ..))

theorem barForward_keeps (s : State) : Keeps s (barForward s) := by
  unfold barForward
  split
  · exact .ite (.refl _) (.upd (advance_keeps ..) (by rfl))
  · exact .refl _

theorem barRelease_keeps (s : State) : Keeps s (barRelease s) := by
  unfold barRelease
  split
  · exact .ite (.trans (.upd (.upd (advance_keeps ..) (by rfl)) (by rfl)) (raise_keeps ..)) (.refl _)
  · exact .refl _

theorem tcFreeze_keeps (s : State) : Keeps s (tcFreeze s) := .ite (.same (by rfl)) (.same (by rfl))

theorem runIo_keeps {f : State → State} (h : ∀ s, Keeps s (f s)) (s : State) : Keeps s (runIo s f) :=
  .ite (.trans (.same (by rfl)) ((h _).trans (flush_keeps ..))) (.refl _)

/-- A stream with a frame under way stays one. -/
theorem asmCorrupt_keeps (s : State) (f : Nat → Bool) : Keeps s (asmCorrupt s f) := by
  refine .of_streams (fun ⟨h, h'⟩ => ⟨smap_map_wfFrom _ _ (fun x hx => ?_) _ 0 h, h'⟩) rfl
  split
  · intro heq
    apply hx
    have hasm := congrArg Stream.asm heq
    simp only [Stream.off, Option.map_eq_none_iff] at hasm
    rw [← heq, hasm, Option.map_none, ← hasm]
  · exact hx

theorem csiErrAdd_keeps (s : State) (p lo n : Nat) : Keeps s (csiErrAdd s p lo n) := regField_keeps ..

theorem csiBadHeader_keeps (s : State) (p : Nat) : Keeps s (csiBadHeader s p) := .upd (.trans (csiErrAdd_keeps ..) (asmCorrupt_keeps ..)) (by rfl)

theorem csiFrameStart_keeps (s : State) (p v num : Nat) (bad : Bool) : Keeps s (csiFrameStart s p v num bad) :=
  .ite (.refl _) (.ite (csiBadHeader_keeps ..) (.same (by rfl)))

theorem reject_keeps (s : State) (i reason : Nat) : Keeps s (reject s i reason) := .trans (strUpd_keeps ..) (raise_keeps ..)

theorem admitPosed_keeps (s : State) (f : Frame) (p : Pose) : Keeps s (admitPosed s f p) := by
  unfold admitPosed
  extract_lets i x eq run ffb moved frozen s1 s2 x2 good s3 s4
  have hs2 : Keeps s s2 := .trans (strPut_keeps ..) (reject_keeps ..)
  clear_value s2
  have hs3 : Keeps s s3 := .trans (strPut_keeps ..) (strPut_keeps ..)
  clear_value s3
  have hs4 : Keeps s s4 := .ite (.trans (hs3.trans (strUpd_keeps ..)) (raise_keeps ..)) hs3
  clear_value s4
  exact .ite (.ite (.trans (hs2.trans (strUpd_keeps ..)) (raise_keeps ..)) hs2) (.ite (.upd hs4 (by rfl)) hs4)

theorem poseTest_keeps (s : State) (f : Frame) (since : Nat) : Keeps s (poseTest s f since) := by
  unfold poseTest
  split
  · exact .trans (.ite (.refl _) (.same (by rfl))) (admitPosed_keeps ..)
  · exact .ite (strUpd_keeps ..) (reject_keeps ..)

theorem submit_keeps (s : State) (f : Frame) : Keeps s (submit s f) := .ite (reject_keeps ..) (poseTest_keeps ..)

theorem asmEnd_keeps (s : State) (i : Nat) (a : PointAsm) (complete : Bool) : Keeps s (asmEnd s i a complete) :=
  .trans (strUpd_keeps ..) (submit_keeps ..)

theorem fragmentFor_keeps (s : State) (i : Nat) (b : Bytes) (hurt : Bool) : Keeps s (fragmentFor s i b hurt) := by
  unfold fragmentFor
  extract_lets npts idx n cntr s1
  have hs1 : Keeps s s1 := by
    dsimp only [s1]
    split
    · exact .ite (asmEnd_keeps ..) (.refl _)
    · exact .refl _
  exact .ite (.refl _) (.ite (hs1.trans (asmEnd_keeps ..)) (hs1.trans (strUpd_keeps ..)))

theorem fragmentCsi_keeps (s : State) (p v : Nat) (b : Bytes) : Keeps s (fragmentCsi s p v b) := by
  unfold fragmentCsi
  split
  · exact fragmentFor_keeps ..
  · exact csiErrAdd_keeps ..

theorem csiLongPacket_keeps (s : State) (p v dt : Nat) (payload : Bytes) (bad crcOk : Bool) : Keeps s (csiLongPacket s p v dt payload bad crcOk) :=
  by
  unfold csiLongPacket
  split
  · exact .refl _
  · split
    · exact csiBadHeader_keeps ..
    · extract_lets s1
      have hs1 : Keeps s s1 := .ite (.refl _) (.trans (.upd (csiErrAdd_keeps ..) (by rfl)) (asmCorrupt_keeps ..))
      clear_value s1
      exact .ite (.ite (.upd hs1 (by rfl)) hs1) (.ite (.ite (hs1.trans (fragmentCsi_keeps ..)) hs1) (.ite (.ite (.upd hs1 (by rfl)) hs1)
        (hs1.trans (csiErrAdd_keeps ..))))

theorem csiFrameEnd_keeps (s : State) (p v : Nat) (bad : Bool) : Keeps s (csiFrameEnd s p v bad) := by
  unfold csiFrameEnd
  split
  · exact .refl _
  · split
    · exact csiBadHeader_keeps ..
    · split
      · exact .refl _
      · extract_lets s1
        split
        · exact .same (by rfl)
        · exact .trans (.same (by rfl)) (submit_keeps ..)

theorem fragmentUdp_keeps (s : State) (p : Nat) (b : Bytes) : Keeps s (fragmentUdp s p b) := by
  unfold fragmentUdp
  split
  · exact fragmentFor_keeps ..
  · exact regCount_keeps ..

theorem framePoseReady_keeps (s : State) (i : Nat) : Keeps s (framePoseReady s i) :=
  .trans (strUpd_keeps ..) (.foldl (fun _ _ => poseTest_keeps ..) ..)

theorem sceneSeen_keeps (s : State) (stream : Nat) (mask : Smap Nat) (ch : List Nat) : Keeps s (sceneSeen s stream mask ch) :=
  .foldl (fun _ _ => .foldl (fun _ _ => .ite (strUpd_keeps ..) (.refl _)) ..) ..

theorem frameFusionDone_keeps (s : State) : Keeps s (frameFusionDone s) := by
  unfold frameFusionDone
  split
  · exact .refl _
  · exact .ite (.refl _) (.trans (.upd (.trans (.trans (sceneSeen_keeps ..) (sceneSeen_keeps ..)) (strUpd_keeps ..)) (by rfl)) (rebuild_keeps ..))

theorem versionBuildDone_keeps (s : State) : Keeps s (versionBuildDone s) :=
  .ite (.refl _) (.ite (.trans (.same (by rfl)) (raise_keeps ..)) (.same (by rfl)))

theorem fusionCutoff_keeps (s : State) : Keeps s (fusionCutoff s) := by
  unfold fusionCutoff
  split
  · extract_lets s1
    refine .trans (.upd (reachPhase_keeps ..) (by rfl)) (.foldl (fun s i => ?_) ..)
    split
    · exact asmEnd_keeps ..
    · exact .refl _
  · exact .refl _

theorem streamStale_keeps (s : State) (i : Nat) : Keeps s (streamStale s i) := .ite (.trans (strPut_keeps ..) (raise_keeps ..)) (.refl _)

theorem fovDecay_keeps (s : State) (i : Nat) : Keeps s (fovDecay s i) :=
  .ite (.trans (.trans (strPut_keeps ..) (fovSweep_keeps ..)) (raise_keeps ..)) (.refl _)

theorem maskMissing_keeps (s : State) (i : Nat) : Keeps s (maskMissing s i) := by
  unfold maskMissing
  extract_lets late
  split
  · exact .refl _
  · exact .trans (.same (by rfl)) (raise_keeps ..)

theorem worldStale_keeps (s : State) : Keeps s (worldStale s) := .ite (.trans (.same (by rfl)) (raise_keeps ..)) (.refl _)

theorem modelInstall_keeps (s : State) : Keeps s (modelInstall s) :=
  .ite (.refl _) (.ite (.trans (.same (by rfl)) (raise_keeps ..)) (.same (by rfl)))

theorem planRefuseOnly_keeps (s : State) (reason sub : Nat) : Keeps s (planRefuseOnly s reason sub) := .trans (.same (by rfl)) (raise_keeps ..)

theorem modelCancel_keeps (s : State) : Keeps s (modelCancel s) :=
  .ite (.ite (.trans (.same (by rfl)) (planRefuseOnly_keeps ..)) (.same (by rfl))) (.refl _)

theorem modelRefuseOnly_keeps (s : State) (reason : Nat) : Keeps s (modelRefuseOnly s reason) := .trans (.same (by rfl)) (raise_keeps ..)

theorem modelRefuse_keeps (s : State) (reason : Nat) : Keeps s (modelRefuse s reason) :=
  .ite (.trans (modelRefuseOnly_keeps ..) (planRefuseOnly_keeps ..)) (modelRefuseOnly_keeps ..)

theorem modelStaged_keeps (s : State) : Keeps s (modelStaged s) :=
  .ite (.ite (modelRefuse_keeps ..) (.trans (.same (by rfl)) (.foldl (fun _ _ => .same (by rfl)) ..))) (.refl _)

theorem finishSwitches_keeps (s : State) : Keeps s (finishSwitches s) :=
  .ite (.refl _) (.trans (.trans (.trans (jointTake_keeps ..) (latchIfDue_keeps ..)) (detRefresh_keeps ..)) (zeroGates_keeps ..))

theorem modelDefer_keeps (s : State) (units : Nat) : Keeps s (modelDefer s units) :=
  .ite (modelRefuse_keeps ..) (.trans (.same (by rfl)) (raise_keeps ..))

theorem modelSwitch_keeps (s : State) (unstaged : Nat) : Keeps s (modelSwitch s unstaged) :=
  .ite (.refl _) (.ite (.ite (.ite (.refl _) (.same (by rfl))) (.ite (.same (by rfl)) (modelRefuse_keeps ..))) (.ite (modelDefer_keeps ..)
    (modelExchange_keeps ..)))

theorem primInstall_keeps (s : State) (njOk : Bool) : Keeps s (primInstall s njOk) :=
  .ite (.refl _) (.ite (.same (by rfl)) (.trans (.same (by rfl)) (raise_keeps ..)))

theorem primCancel_keeps (s : State) : Keeps s (primCancel s) := .ite (.same (by rfl)) (.refl _)

theorem joinInv_keeps (s : State) (k p : Nat) : Keeps s (joinInv s k p).2 := by
  unfold joinInv
  extract_lets alt n i rest _ new
  split
  · split
    · dsimp only [new]
      exact .same (by rfl)
    · exact .same (by rfl)
  · dsimp only [new]
    exact .same (by rfl)

theorem dealBatches_keeps (s : State) (rid total : Nat) (gs : List Nat) : Keeps s (dealBatches s rid total gs) :=
  .foldl (fun _ _ => podUpd_keeps ..) ..

theorem startEval_keeps (s : State) (t : Task) : Keeps s (startEval s t) := .trans (.same (by rfl)) (dealBatches_keeps ..)

theorem readyTail_keeps (s : State) (t : Task) : Keeps s (readyTail s t) := .trans (.same (by rfl)) (recallOne_keeps ..)

theorem copyOne_keeps {s t : State} {est : State → Nat → Bool} {bad : List Nat} {r : Release} {d : Desc}
    (h : copyOne s est bad r d = some t) : Keeps s t := by
  unfold copyOne at h
  extract_lets off d' k inv task _ _ begun rej at h
  have hinv : Keeps s inv.2 := by
    unfold inv
    split
    · exact joinInv_keeps ..
    · exact .refl _
  have hbegun : Keeps s begun := .upd hinv (by rfl)
  clear_value begun rej task
  split at h
  · cases h
    exact hbegun.trans ((raiseOnion_keeps ..).trans (endFailed_keeps ..))
  · split at h
    · cases h
      exact hbegun.trans (endFailed_keeps ..)
    · split at h
      · cases h
        exact hbegun.trans (endFailed_keeps ..)
      · split at h
        · cases h
          exact hbegun.trans (startEval_keeps ..)
        · split at h
          · cases h
          · cases h
            exact hbegun.trans (readyTail_keeps ..)

theorem copyMany_keeps (est : State → Nat → Bool) (bad : List Nat) (n : Nat) (s : State) (r : Release) :
    Keeps s (copyMany est bad n s r).1 := by
  induction n generalizing s r with
  | zero => exact .refl s
  | succ n ih =>
    unfold copyMany
    split
    · exact .refl s
    · split
      · exact .refl s
      · next h =>
        split
        · exact copyOne_keeps h
        · exact (copyOne_keeps h).trans (ih _ _)

theorem engineClk_keeps (s : State) (est : State → Nat → Bool) (bad : List Nat) (stack level : Nat) :
    Keeps s (engineClk s est bad stack level) := by
  unfold engineClk
  extract_lets own
  have hown : Keeps s own := ownClk_keeps ..
  split
  · exact hown
  · next r _ => exact .upd (hown.trans (copyMany_keeps est bad 4 own r)) (by rfl)

theorem releaseCopy_keeps (s : State) (stack level : Nat) : Keeps s (releaseCopy s stack level) := engineClk_keeps ..

theorem reachClk_keeps (s : State) (t n : Nat) : Keeps s (reachClk s t n) := advance_keeps ..

theorem readyStall_keeps (s : State) (stack level : Nat) : Keeps s (readyStall s stack level) := by
  unfold readyStall
  extract_lets since
  split
  · exact .refl _
  · exact .ite (.refl _) (.ite (reachClk_keeps ..) (.trans (.upd (reachClk_keeps ..) (by rfl)) (raiseOnion_keeps ..)))

theorem heldDecs_keeps (s : State) : Keeps s (heldDecs s) := .ite (.trans (nextClk_keeps ..) (clkDecs_keeps ..)) (clkDecs_keeps ..)

theorem runApp_keeps {f : State → State} (h : ∀ s, Keeps s (f s)) (s : State) : Keeps s (runApp s f) :=
  .ite (.trans (.same (by rfl)) ((h _).trans (flush_keeps ..))) (.refl _)

theorem syncCtrWrite_keeps (s : State) (n w : Nat) : Keeps s (syncCtrWrite s n w) := .ite (.refl _) (.same (by rfl))

theorem claim_keeps (s : State) (u : Nat) : Keeps s (claim s u) := by
  unfold claim
  extract_lets r
  split
  · exact .refl _
  · split
    · exact .refl _
    · exact .ite (.trans (.upd (ownClk_keeps ..) (by rfl)) (unitUpd_keeps ..)) (.trans (.upd (ownClk_keeps ..) (by rfl)) (unitUpd_keeps ..))

theorem runClocked_keeps {f : State → State} (h : ∀ s, Keeps s (f s)) (s : State) (u : Nat) : Keeps s (runClocked s u f) :=
  runArith_keeps (fun _ => .ite (.refl _) (h _)) s

theorem replayStop_keeps {s t : State} {u : Nat} {k : Task} (h : replayStop s u k = some t) : Keeps s t := by
  unfold replayStop at h
  dsimp only at h
  split at h
  · cases h
    exact (raiseOnion_keeps ..).trans (failExec_keeps ..)
  · split at h
    · cases h
      exact (raiseOnion_keeps ..).trans ((slotNext_keeps ..).trans (endFailed_keeps ..))
    · split at h
      · obtain ⟨r, -, hr⟩ := Option.map_eq_some_iff.mp h
        rw [← hr]
        exact (psnDiscard_keeps ..).trans ((slotNext_keeps ..).trans (endFailed_keeps ..))
      · split at h
        · split at h
          · cases h
            exact invocationEnd_keeps ..
          · cases h
        · cases h
      · cases h

theorem weightLoad_keeps (s : State) (u k gen a : Nat) (l : WLoad) : Keeps s (weightLoad s u k gen a l) :=
  .ite (.refl _) (.ite (memPut_keeps ..) (.upd (memPut_keeps ..) (by rfl)))

theorem weightLoads_keeps (s : State) (u : Nat) (t : Task) (l : List WLoad) : Keeps s (weightLoads s u t l) := by
  unfold weightLoads
  split
  · exact .foldl (fun _ _ => weightLoad_keeps ..) ..
  · exact .refl _

theorem sparseFail_keeps (s : State) (u : Nat) (t : Task) : Keeps s (sparseFail s u t) := .trans (raise_keeps ..) (failExec_keeps ..)

theorem abftFail_keeps (s : State) (u : Nat) (t : Task) : Keeps s (abftFail s u t) := by
  unfold abftFail
  extract_lets s1
  have hs1 : Keeps s s1 := .trans (raise_keeps ..) (regCount_keeps ..)
  clear_value s1
  split
  · exact .ite (hs1.trans (failExec_keeps ..)) (hs1.trans (invocationEnd_keeps ..))
  · exact hs1.trans (failExec_keeps ..)

theorem seedOpen_keeps (s : State) (i : Invoke) (b count : Nat) : Keeps s (seedOpen s i b count) := memPut_keeps ..

theorem seedClose_keeps (s : State) (i : Invoke) (b : Nat) : Keeps s (seedClose s i b) := .upd (memPut_keeps ..) (by rfl)

theorem maskArrives_keeps (s : State) (i t : Nat) (b : Bytes) (nd : Bool) : Keeps s (maskArrives s i t b nd) :=
  .ite (.same (by rfl)) (.trans (.same (by rfl)) (strUpd_keeps ..))

theorem roleDone_keeps (s : State) (u : Nat) (t : Task) (o : TileOut) (i : Invoke) : Keeps s (roleDone s u t o i) := by
  unfold roleDone
  extract_lets tc
  split
  · exact .refl _
  · split
    · exact .ite (seedClose_keeps ..) (.refl _)
    · exact .refl _
  · exact .ite (maskArrives_keeps ..) (.refl _)
  · exact .same (by rfl)

theorem invDone_keeps (s : State) (u : Nat) (t : Task) (bad : Nat) : Keeps s (invDone s u t bad) := by
  unfold invDone
  split
  · exact .refl _
  · exact .ite (.trans (.same (by rfl)) (badReport_keeps ..)) (.same (by rfl))

theorem tileEffects_keeps (s : State) (u : Nat) (t : Task) (o : TileOut) (x : TileRes) : Keeps s (tileEffects s u t o x) := by
  unfold tileEffects
  extract_lets tc w bad macs i s1 s2 n s3 s4 s5
  have hs1 : Keeps s s1 := by
    dsimp only [s1]
    clear_value i
    split
    · exact seedOpen_keeps ..
    · exact .refl _
  clear_value s1
  have hs2 : Keeps s s2 := hs1.trans (.foldl (fun _ _ => memPut_keeps ..) ..)
  clear_value s2
  have hs4 : Keeps s s4 := .ite (.upd hs2 (by rfl)) (.trans (.upd hs2 (by rfl)) (raise_keeps ..))
  clear_value s4
  have hs5 : Keeps s s5 := by
    dsimp only [s5]
    clear_value i
    split
    · exact hs4.trans (roleDone_keeps ..)
    · exact hs4
  clear_value s5
  exact hs5.trans (invDone_keeps ..)

theorem tileWork_keeps {k : State → State} (hk : ∀ s, Keeps s (k s)) (s : State) (u : Nat) (t : Task) (o : TileOut) :
    Keeps s (tileWork s u t o k) := by
  unfold tileWork
  split
  · exact windowFault_keeps ..
  · dsimp only
    have hloads := weightLoads_keeps s u t o.loads
    split
    · exact hloads.trans (sparseFail_keeps ..)
    · exact hloads.trans (abftFail_keeps ..)
    · exact .ite (hloads.trans (windowFault_keeps ..)) (hloads.trans ((tileEffects_keeps ..).trans (hk _)))

theorem countDone_keeps (s : State) (u : Nat) : Keeps s (countDone s u) := by
  unfold countDone
  split
  · exact .same (by rfl)
  · exact .refl _

theorem qWriteBack_keeps (s : State) (e : Nat × Nat × Nat) : Keeps s (qWriteBack s e) := .trans (memPutLe_keeps ..) (memPutLe_keeps ..)

theorem qOpen_keeps (s : State) (q : Nat) : Keeps s (qOpen s q).2 := by
  unfold qOpen
  split
  · exact .same (by rfl)
  · exact .upd (.ite (qWriteBack_keeps ..) (.refl _)) (by rfl)

theorem qPush_keeps (s : State) (q unit : Nat) (entry : Bytes) (after : List Decr) (ends : Bool) :
    Keeps s (qPush s q unit entry after ends).2.2 := by
  unfold qPush
  split
  · exact raise_keeps ..
  · dsimp only
    split
    · exact .upd (qOpen_keeps ..) (by rfl)
    · exact .upd (.upd (.trans (qOpen_keeps ..) (memPut_keeps ..)) (by rfl)) (by rfl)

theorem finishTask_keeps (s : State) (u outAddr outCnt : Nat) (op : Bytes) : Keeps s (finishTask s u outAddr outCnt op) := by
  unfold finishTask
  split
  · exact .refl _
  · extract_lets done r
    have hr : Keeps s r.2.2 := qPush_keeps ..
    clear_value r
    split
    · exact .trans (.trans (countDone_keeps ..) (clkDecs_keeps ..)) (slotNext_keeps ..)
    · split
      · exact hr.trans (.trans (.trans (countDone_keeps ..) (clkDecs_keeps ..)) (slotNext_keeps ..))
      · exact hr
      · exact hr.trans (failExec_keeps ..)

theorem residualFail_keeps (s : State) (u : Nat) (t : Task) (row iters : Nat) : Keeps s (residualFail s u t row iters) := by
  unfold residualFail
  extract_lets s1 s2
  have hs1 : Keeps s s1 := .trans (raise_keeps ..) (regCount_keeps ..)
  clear_value s1
  have hs2 : Keeps s s2 := .ite (hs1.trans (psnDiscard_keeps ..)) hs1
  clear_value s2
  exact .trans (.trans (.upd hs2 (by rfl)) (slotNext_keeps ..)) (failTask_keeps ..)

theorem noteRun_keeps (s : State) (u : Nat) (t : Task) (w : Warm) (l : Loop) : Keeps s (noteRun s u t w l) := by
  unfold noteRun
  extract_lets s1 k _ s2 s3 s4 s5
  have hs3 : Keeps s s3 := .ite (.trans (.ite (.same (by rfl)) (.same (by rfl))) (raise_keeps ..)) (.ite (.same (by rfl)) (.same (by rfl)))
  clear_value s3
  have hs4 : Keeps s s4 := by
    dsimp only [s4]
    split
    · exact hs3.trans (raise_keeps ..)
    · exact hs3
  clear_value s4
  have hs5 : Keeps s s5 := by
    dsimp only [s5]
    split
    · exact hs4.trans (raise_keeps ..)
    · exact hs4
  clear_value s5
  exact .ite (hs5.trans (raise_keeps ..)) hs5

theorem noteResult_keeps (s : State) (t : Task) (l : Loop) : Keeps s (noteResult s t l) := by
  unfold noteResult
  split <;> exact .same (by rfl)

theorem takeBase_keeps (s : State) (t : Task) (l : Loop) (newest : Option (BitVec 20 × BitVec 32)) : Keeps s (takeBase s t l newest) := by
  unfold takeBase
  split
  · exact .ite (.same (by rfl)) (.refl _)
  · exact .refl _

theorem writeResult_keeps (s : State) (t : Task) (o : SolveOut) (w : Warm) (l : Loop) : Keeps s (writeResult s t o w l) := by
  unfold writeResult
  split
  extract_lets blk rf put refined noted
  have hput : Keeps s put := memPut_keeps ..
  have hrefined : Keeps s refined := .ite (hput.trans (memPut_keeps ..)) hput
  clear_value refined
  have hnoted : Keeps s noted := hrefined.trans (.trans (.same (by rfl)) (noteResult_keeps ..))
  clear_value noted
  exact .ite (hnoted.trans (takeBase_keeps ..)) hnoted

theorem solveWork_keeps {k : State → Nat → Nat → State} (hk : ∀ s a n, Keeps s (k s a n)) (s : State) (u : Nat) (t : Task) (o : SolveOut) :
    Keeps s (solveWork s u t o k) := by
  unfold solveWork
  extract_lets w l cls src a n noted ill
  have hnoted : Keeps s noted := .trans (.same (by rfl)) (noteRun_keeps ..)
  have hill : Keeps s ill := hnoted.trans (psnDiscard_keeps ..)
  clear_value noted
  refine .ite (.trans (.same (by rfl)) (hk _ _ _)) (.ite (windowFault_keeps ..) (.ite (.trans (.same (by rfl)) (residualFail_keeps ..))
    (.ite ?_ ?_)))
  · exact hill.trans (.trans (.same (by rfl)) ((slotNext_keeps ..).trans (endFailed_keeps ..)))
  · exact hnoted.trans ((writeResult_keeps ..).trans (hk _ _ _))

theorem formWinner_keeps (s : State) (x : SelArgs) (cycle : Nat) : Keeps s (formWinner s x cycle) := by
  unfold formWinner
  split
  · exact .refl _
  · exact .foldl (fun _ _ => .ite (memPut_keeps ..) (memPut_keeps ..)) ..

theorem runStart_keeps (s : State) (x : SelArgs) (t : Task) : Keeps s (runStart s x t).2 := by
  unfold runStart
  split
  · split
    · exact tableClear_keeps ..
    · exact .refl _
  · extract_lets old s1
    have hs1 : Keeps s s1 := .ite (.refl _) (.trans (tableClear_keeps ..) (.foldl (fun _ _ => .same (by rfl)) ..))
    clear_value s1
    exact .ite (hs1.trans (formWinner_keeps ..)) hs1

/-- An entry of the table is updated, or put in. -/
theorem tableUpdate_keeps {s : State} (x : SelArgs) (a : ScanAcc) (id o key : Nat) (ha : a.st = s) : Keeps s (tableUpdate x a id o key).st := by
  subst ha
  unfold tableUpdate
  dsimp only
  split
  · exact memPutLe_keeps ..
  · split
    · exact .refl _
    · exact .trans (memPutLe_keeps ..) (raiseX_keeps ..)

theorem scanRec_keeps (x : SelArgs) (cycle : Nat) (a : ScanAcc) (p : Nat) : Keeps a.st (scanRec x cycle a p).st := by
  unfold scanRec
  dsimp only
  split
  · exact tableUpdate_keeps _ _ _ _ _ rfl
  · exact .refl _

theorem scanKey_keeps (x : SelArgs) (a : ScanAcc) (p : Nat) : Keeps a.st (scanKey x a p).st := by
  unfold scanKey
  dsimp only
  split
  · exact tableUpdate_keeps _ _ _ _ _ rfl
  · exact .refl _

theorem scan_foldl_keeps {α : Type} {f : ScanAcc → α → ScanAcc} (h : ∀ a x, Keeps a.st (f a x).st) (l : List α) (a : ScanAcc) :
    Keeps a.st (l.foldl f a).st := by
  induction l generalizing a with
  | nil => exact .refl _
  | cons x l ih => exact (h a x).trans (ih _)

theorem scanList_keeps (x : SelArgs) (cycle : Nat) (a : ScanAcc) (l : Nat × Nat) : Keeps a.st (scanList x cycle a l).st :=
  scan_foldl_keeps (fun a i => by
    split
    · exact scanRec_keeps ..
    · exact scanKey_keeps ..) _ _

theorem scanStep_keeps (s : State) (x : SelArgs) (t : Task) (final : Bool) : Keeps s (scanStep s x t final) := by
  unfold scanStep
  split
  next r s1 heq =>
  have hs1 : Keeps s s1 := .of_snd heq (runStart_keeps ..)
  extract_lets a a' new a'' bad counted stale _ shares
  have ha' : Keeps s a'.st := by
    dsimp only [a']
    split
    · exact hs1
    · exact hs1.trans (scan_foldl_keeps (fun a l => scanList_keeps ..) _ a)
  have ha'' : Keeps s a''.st := ha'.trans (scan_foldl_keeps (fun a p => scanRec_keeps ..) _ _)
  clear_value a''
  have hcounted : Keeps s counted := ha''.trans (.trans (.foldl (fun _ _ => raise_keeps ..) ..) (regSet_keeps ..))
  clear_value counted
  have hstale : Keeps s stale := .ite (hcounted.trans (raise_keeps ..)) hcounted
  clear_value stale
  have hshares : Keeps s shares := .ite (hstale.trans (.same (by rfl))) hstale
  exact hshares.trans (.same (by rfl))

theorem minStep_keeps (s : State) (x : SelArgs) (t : Task) : Keeps s (minStep s x t) := by
  unfold minStep
  split
  · exact .ite (.refl _) (.same (by rfl))
  · exact .refl _

theorem takeStep_keeps (s : State) (u : Nat) (x : SelArgs) (t : Task) (all : Bool) : Keeps s (takeStep s u x t all) := by
  unfold takeStep
  extract_lets s1
  split
  · exact .upd (.trans (minStep_keeps ..) (tableClear_keeps ..)) (by rfl)
  · exact minStep_keeps ..

theorem secureTouch_keeps (s : State) (u a n : Nat) : Keeps s (secureTouch s u a n) :=
  .ite (.foldl (fun _ _ => .ite (raise_keeps ..) (.refl _)) ..) (.refl _)

theorem taskWrite_keeps {k : State → State} (hk : ∀ s, Keeps s (k s)) (s : State) (u a : Nat) (b : Bytes) : Keeps s (taskWrite s u a b k) :=
  .ite ((memPut_keeps ..).trans (hk _)) ((secureTouch_keeps ..).trans (windowFault_keeps ..))

theorem writeRefined_keeps (s : State) (t : Task) (ranks : List (Nat × Nat)) (k : Nat) : Keeps s (writeRefined s t ranks k) := by
  unfold writeRefined
  split
  · refine .foldl (fun s r => ?_) ..
    split
    · exact memPut_keeps ..
    · exact memPutLe_keeps ..
  · exact .refl _

theorem mainDone_keeps (s : State) (x : SelArgs) (t : Task) (r : SelRun) (res : SelRes) (nd : Bool) : Keeps s (mainDone s x t r res nd) :=
  .trans (.ite (.trans (.same (by rfl)) (raise_keeps ..)) (.same (by rfl))) (writeRefined_keeps ..)

theorem winnerDone_keeps (s : State) (x : SelArgs) (res : SelRes) (nd : Bool) : Keeps s (winnerDone s x res nd) := by
  unfold winnerDone
  extract_lets _
  split
  · exact .same (by rfl)
  · split
    · extract_lets rank
      clear_value rank
      split <;> exact .same (by rfl)
    · exact .same (by rfl)

theorem selMerge_keeps {k : State → State} (hk : ∀ s, Keeps s (k s)) (s : State) (u : Nat) (x : SelArgs) (t : Task) :
    Keeps s (selMerge s u x t k) := by
  unfold selMerge
  extract_lets taken
  have htaken : Keeps s taken := takeStep_keeps ..
  split
  · exact htaken.trans (hk _)
  · extract_lets nd res
    refine htaken.trans (.trans (.same (by rfl)) (taskWrite_keeps (fun s => .trans ?_ (hk _)) ..))
    exact .ite (mainDone_keeps ..) (.ite (winnerDone_keeps ..) (.refl _))

theorem selWork_keeps {k : State → State} (hk : ∀ s, Keeps s (k s)) (s : State) (u : Nat) (t : Task) : Keeps s (selWork s u t k) := by
  unfold selWork
  extract_lets x st parts waited scanned
  have hwaited : Keeps s waited := .ite (reachPhase_keeps ..) (.refl _)
  have hscanned : Keeps s scanned := hwaited.trans (scanStep_keeps ..)
  clear_value scanned waited st
  refine .ite (hk _) (.ite (windowFault_keeps ..) (.ite (.trans (.ite (hwaited.trans (scanStep_keeps ..)) hwaited) (hk _)) ?_))
  split
  · exact hscanned.trans (hk _)
  · exact hscanned.trans ((minStep_keeps ..).trans (hk _))
  · exact hscanned.trans ((takeStep_keeps ..).trans (hk _))
  · exact hscanned.trans (selMerge_keeps hk ..)

theorem shownBytes_keeps (s : State) (a n : Nat) : Keeps s (shownBytes s a n).2 := by
  unfold shownBytes
  split
  · exact takeFreeBytes_keeps ..
  · exact .refl _

theorem taskRead_keeps (s : State) (u a n : Nat) : Keeps s (taskRead s u a n).2 := .trans (secureTouch_keeps ..) (shownBytes_keeps ..)

theorem copyWork_keeps (s : State) (u : Nat) (t : Task) : Keeps s (copyWork s u t) :=
  .trans (taskRead_keeps ..) (taskWrite_keeps (fun _ => finishTask_keeps ..) ..)

theorem hashWork_keeps (s : State) (u : Nat) (t : Task) : Keeps s (hashWork s u t) :=
  .trans (taskRead_keeps ..) (taskWrite_keeps (fun _ => finishTask_keeps ..) ..)

theorem taskComplete_keeps (s : State) (u : Nat) (w : Work) : Keeps s (taskComplete s u w) := by
  unfold taskComplete
  split
  · exact .refl _
  · split
    · exact .refl _
    · next t _ =>
      split
      · next h => exact replayStop_keeps h
      · extract_lets traced
        have htraced : Keeps s traced := .ite (tracePoints_keeps ..) (.refl _)
        clear_value traced
        refine htraced.trans ?_
        split
        · exact tileWork_keeps (fun s => finishTask_keeps ..) ..
        · exact tileWork_keeps (fun s => finishTask_keeps ..) ..
        · exact solveWork_keeps (fun s a n => finishTask_keeps ..) ..
        · exact solveWork_keeps (fun s a n => finishTask_keeps ..) ..
        · exact selWork_keeps (fun s => finishTask_keeps ..) ..
        · exact .refl _
        · exact .ite (copyWork_keeps ..) (.ite (hashWork_keeps ..) (finishTask_keeps ..))

theorem ueOther_keeps (s : State) (u : Nat) (t : Task) : Keeps s (ueOther s u t) := .ite (.trans (faultOut_keeps ..) (judgePath_keeps ..)) (.refl _)

theorem outOfTurn_keeps (s : State) (k p : Nat) : Keeps s (outOfTurn s k p) :=
  .ite (.ite (.refl _) (.same (by rfl))) (.ite (.refl _) (.same (by rfl)))

theorem ssUncorrectable_keeps (s : State) (a : Nat) : Keeps s (ssUncorrectable s a) := by
  unfold ssUncorrectable
  dsimp only
  refine .trans (.trans (.same ?_) (raise_keeps ..)) (outOfTurn_keeps ..)
  unfold formsOf
  dsimp only
  split <;> (dsimp only; split <;> rfl)

theorem ddrUncorrectable_keeps (s : State) (a : Nat) : Keeps s (ddrUncorrectable s a) := by
  unfold ddrUncorrectable
  extract_lets counted m bursts pg m' noted
  have hcounted : Keeps s counted := chanUpd_keeps ..
  have hbytes : m'.bytes = counted.mem.bytes := by
    have hbursts : bursts.bytes = counted.mem.bytes := by
      unfold bursts
      split <;> rfl
    rw [← hbursts]
    unfold m'
    split
    · rfl
    · split
      · split <;> rfl
      · rfl
  have hnoted : Keeps counted { noted with mem := m' } := by
    refine .same ?_
    simp only [formsOf, hbytes]
    unfold noted
    split <;> rfl
  exact hcounted.trans (hnoted.trans (raise_keeps ..))

theorem readUncorrectable_keeps (s : State) (a : Nat) : Keeps s (readUncorrectable s a) :=
  .ite (ssUncorrectable_keeps ..) (ddrUncorrectable_keeps ..)

theorem retirePlace_keeps (s : State) (k p : Nat) : Keeps s (retirePlace s k p) := by
  unfold retirePlace
  split
  · exact .refl _
  · split
    · exact .same (by rfl)
    · extract_lets bank
      split <;> exact .trans (.same (by rfl)) (raise_keeps ..)

theorem retireAt_keeps (s : State) (a : Nat) : Keeps s (retireAt s a) := .ite (retirePlace_keeps ..) (.refl _)

theorem ueFail_keeps (s : State) (u : Nat) (t : Task) (a : Nat) : Keeps s (ueFail s u t a) := by
  unfold ueFail
  extract_lets s1 s2
  have hs2 : Keeps s s2 := .trans (readUncorrectable_keeps ..) (unitUpd_keeps ..)
  clear_value s2
  exact .ite (.ite (.trans (hs2.trans (failExec_keeps ..)) (retireAt_keeps ..)) (.trans (.trans (hs2.trans (failExec_keeps ..))
    (faultOut_keeps ..)) (judgePath_keeps ..))) (hs2.trans (failExec_keeps ..))

theorem checkFail_keeps (s : State) (u : Nat) (k : CheckFail) : Keeps s (checkFail s u k) := by
  unfold checkFail
  split
  · exact .refl _
  · split
    · exact .ite (.trans (.trans (cutRun_keeps ..) (residualFail_keeps ..)) (ueOther_keeps ..)) (.refl _)
    · exact .ite (.trans (abftFail_keeps ..) (ueOther_keeps ..)) (.refl _)
    · exact .ite (.trans (sparseFail_keeps ..) (ueOther_keeps ..)) (.refl _)
    · exact .trans (windowFault_keeps ..) (ueOther_keeps ..)
    · exact ueFail_keeps ..

theorem reachBudget_keeps (s : State) (t : Task) : Keeps s (reachBudget s t) := .ite (reachPhase_keeps ..) (.refl _)

theorem evalBudget_keeps (s : State) (u : Nat) : Keeps s (evalBudget s u) := by
  unfold evalBudget
  split
  · exact .refl _
  · exact .ite (reachBudget_keeps ..) (.trans (.trans (.upd (reachBudget_keeps ..) (by rfl)) (raiseOnion_keeps ..)) (evalFail_keeps ..))

theorem budgetOverrun_keeps (s : State) (u : Nat) : Keeps s (budgetOverrun s u) := by
  unfold budgetOverrun
  split
  · exact evalBudget_keeps ..
  · exact .ite (reachBudget_keeps ..) (.trans (.trans (.trans (.upd (reachBudget_keeps ..) (by rfl)) (raiseOnion_keeps ..)) (failExec_keeps ..))
    (ueOther_keeps ..))

theorem reachEnd_keeps (s : State) (t : Task) : Keeps s (reachEnd s t) := .ite (reachPhase_keeps ..) (.refl _)

theorem endMissed_keeps (s : State) (id : Nat) : Keeps s (endMissed s id) := by
  unfold endMissed
  split
  · exact .refl _
  · extract_lets s1 _ s2 s3
    have hs3 : Keeps s s3 := .trans (.upd (reachEnd_keeps ..) (by rfl)) (lateUnstarted_keeps ..)
    clear_value s3
    exact .ite (reachEnd_keeps ..) (.trans (.trans (hs3.trans (raiseOnion_keeps ..)) (removeTask_keeps ..)) (endFailed_keeps ..))

theorem huskSupervision_keeps (s : State) (id : Nat) : Keeps s (huskSupervision s id) := by
  unfold huskSupervision
  split
  · exact .refl _
  · exact .ite (.refl _) (.ite (reachEnd_keeps ..) (.trans (.upd (.trans (reachEnd_keeps ..) (advance_keeps ..)) (by rfl)) (raiseOnion_keeps ..)))

theorem queuePush_keeps (s : State) (q unit : Nat) (b : Bytes) : Keeps s (queuePush s q unit b) := by
  unfold queuePush
  split
  · exact .refl _
  · extract_lets r
    split
    · refine .trans ?_ (clkDecs_keeps ..)
      dsimp only [r]
      exact qPush_keeps ..
    · dsimp only [r]
      exact qPush_keeps ..
    · refine .trans ?_ (failExec_keeps ..)
      dsimp only [r]
      exact qPush_keeps ..

theorem qPop_keeps (s : State) (q unit : Nat) : Keeps s (qPop s q unit).2 := by
  unfold qPop
  split
  · exact raise_keeps ..
  · dsimp only
    split
    · exact qOpen_keeps ..
    · exact .upd (qOpen_keeps ..) (by rfl)

theorem queuePop_keeps (s : State) (q unit : Nat) : Keeps s (queuePop s q unit) := by
  unfold queuePop
  split
  · exact .refl _
  · extract_lets r
    split
    · refine .upd ?_ (by rfl)
      dsimp only [r]
      exact qPop_keeps ..
    · split
      · refine .upd ?_ (by rfl)
        dsimp only [r]
        exact qPop_keeps ..
      · refine .trans ?_ (failExec_keeps ..)
        dsimp only [r]
        exact qPop_keeps ..

theorem pushEnds_keeps (s : State) (x : Stall) : Keeps s (pushEnds s x) :=
  .ite (.refl _) (.ite (podUpd_keeps ..) (.trans (countDone_keeps ..) (slotNext_keeps ..)))

theorem queueResume_keeps (s : State) (q : Nat) : Keeps s (queueResume s q) := by
  unfold queueResume
  split
  · exact .refl _
  · exact .ite (qOpen_keeps ..) (.trans (.trans (.trans (.upd (qOpen_keeps ..) (by rfl)) (qPush_keeps ..)) (clkDecs_keeps ..)) (pushEnds_keeps ..))

theorem queueStall_keeps (s : State) (q : Nat) : Keeps s (queueStall s q) := by
  unfold queueStall
  split
  · exact .refl _
  · exact .ite (.refl _) (.trans (.upd (reachClk_keeps ..) (by rfl)) (raise_keeps ..))

theorem evalStart_keeps (s : State) (e : Eval) (leek : Nat) : Keeps s (evalStart s e leek).2 := by
  unfold evalStart
  split
  · exact .refl _
  · extract_lets s1
    split
    · exact .upd (startCheck_keeps ..) (by rfl)
    · exact .trans (.trans (startCheck_keeps ..) (raise_keeps ..)) (evalFail_keeps ..)

theorem podBatchStart_keeps (s : State) (g : Nat) (residue : Option Nat) : Keeps s (podBatchStart s g residue) := by
  unfold podBatchStart
  extract_lets p
  split
  · exact .refl _
  · split
    · exact .refl _
    · split
      · exact .refl _
      · split
        next ok s1 heq =>
        have hs1 : Keeps s s1 := .of_snd heq (evalStart_keeps ..)
        split
        · exact hs1
        · split
          · exact hs1.trans (raise_keeps ..)
          · exact .trans (.ite (.upd hs1 (by rfl)) hs1) (podUpd_keeps ..)

theorem runPods_keeps {f : State → State} (h : ∀ s, Keeps s (f s)) (s : State) : Keeps s (runPods s f) :=
  runArith_keeps (fun _ => .ite (.refl _) (h _)) s

theorem recFault_keeps (s : State) (e : Eval) (leek : Nat) : Keeps s (recFault s e leek) := .trans (raise_keeps ..) (evalFail_keeps ..)

theorem earlyExit_keeps (s : State) (e : Eval) : Keeps s (earlyExit s e) := by
  unfold earlyExit
  extract_lets q out _ dropped rec9 noted
  have hdropped : Keeps s dropped :=
    .of_pods (smap_filterMap_wf _ (fun p : Nat × Pod => { p.2 with list := out p.2.list, left := out p.2.left, reply := p.2.reply.map out }) _) rfl
  clear_value dropped
  exact .trans (hdropped.trans (.same (by rfl))) (raise_keeps ..)

theorem writeRec_keeps (s : State) (g : Nat) (e : Eval) (c i id : Nat) (r : EvalRes) : Keeps s (writeRec s g e c i id r) := by
  unfold writeRec
  extract_lets a s1 _ s2 _ s3
  have hs1 : Keeps s s1 := .trans (memPut_keeps ..) (podUpd_keeps ..)
  clear_value s1
  have hs3 : Keeps s s3 := .ite (.upd (.ite (.upd hs1 (by rfl)) hs1) (by rfl)) (.ite (.upd hs1 (by rfl)) hs1)
  clear_value s3
  split
  · exact .ite (hs3.trans (earlyExit_keeps ..)) hs3
  · exact hs3

theorem probeRetire_keeps (s : State) (g i cand wp : Nat) (pr : ProbeKind) (residue : Option Nat) :
    Keeps s (probeRetire s g i cand wp pr residue) :=
  by
  unfold probeRetire
  extract_lets pea
  split
  · exact .refl _
  · split
    · exact .refl _
    · split
      · exact .refl _
      · split
        · exact .refl _
        · split
          · exact .refl _
          · extract_lets x s1 acc s2
            have hs2 : Keeps s s2 := .trans (podUpd_keeps ..) (podUpd_keeps ..)
            clear_value s2
            split
            · exact .refl _
            · split
              · exact .trans (podUpd_keeps ..) (raise_keeps ..)
              · exact .ite hs2 (.ite (hs2.trans (recFault_keeps ..)) (hs2.trans (writeRec_keeps ..)))

theorem evalFinish_keeps (s : State) (e : Eval) (pre : List Decr) : Keeps s (evalFinish s e pre) :=
  .trans (.ite (.upd (.upd (dropEval_keeps ..) (by rfl)) (by rfl)) (.upd (dropEval_keeps ..) (by rfl))) (clkDecs_keeps ..)

theorem batchEnd_keeps (s : State) (g : Nat) (b : Batch) (leek base count : Nat) : Keeps s (batchEnd s g b leek base count) := by
  unfold batchEnd
  split
  · exact podUpd_keeps ..
  · extract_lets last done t _ r
    have hr : Keeps s r.2.2 := qPush_keeps ..
    clear_value r
    split
    · exact .ite (.trans (podUpd_keeps ..) (evalFinish_keeps ..)) (podUpd_keeps ..)
    · split
      · exact .ite (hr.trans ((podUpd_keeps ..).trans (evalFinish_keeps ..))) (hr.trans ((podUpd_keeps ..).trans (clkDecs_keeps ..)))
      · exact .ite (hr.trans (.same (by rfl))) hr
      · exact hr.trans (evalFail_keeps ..)

theorem podBatchComplete_keeps (s : State) (g : Nat) : Keeps s (podBatchComplete s g) := by
  unfold podBatchComplete
  extract_lets p
  split
  · exact .refl _
  · split
    · exact .refl _
    · split
      · exact podUpd_keeps ..
      · exact .ite (recFault_keeps ..) (.trans (.upd (.upd (.foldl (fun _ _ => writeRec_keeps ..) ..) (by rfl)) (by rfl)) (batchEnd_keeps ..))

theorem stealRequest_keeps (s : State) (t : Nat) : Keeps s (stealRequest s t) := by
  unfold stealRequest
  extract_lets p
  split
  · exact .refl _
  · split
    · exact .ite (podUpd_keeps ..) (podUpd_keeps ..)
    · extract_lets v
      split
      extract_lets s2
      have hs2 : Keeps s s2 := .trans (podUpd_keeps ..) (podUpd_keeps ..)
      clear_value s2
      split
      · exact hs2.trans (podUpd_keeps ..)
      · exact hs2

theorem stealServe_keeps (s : State) (v : Nat) : Keeps s (stealServe s v) := by
  unfold stealServe
  split
  · exact .refl _
  · extract_lets s1
    have hs1 : Keeps s s1 := .trans (ownClk_keeps ..) (podUpd_keeps ..)
    clear_value s1
    exact .ite (hs1.trans (podUpd_keeps ..)) (.trans (.upd (hs1.trans (podUpd_keeps ..)) (by rfl)) (podUpd_keeps ..))

theorem stealReply_keeps (s : State) (t : Nat) : Keeps s (stealReply s t) := by
  unfold stealReply
  extract_lets p
  split
  · exact .refl _
  · exact .ite (podPut_keeps ..) (.ite (podPut_keeps ..) (.trans (podPut_keeps ..) (wakePods_keeps ..)))

theorem cacheRefill_keeps (s : State) (g : Nat) (l : CacheLine) : Keeps s (cacheRefill s g l) := .ite (podUpd_keeps ..) (.refl _)

theorem secCheck_keeps (s : State) (p : Nat) (sec : Option SecTag) : Keeps s (secCheck s p sec).2 := by
  unfold secCheck
  extract_lets need
  split
  · exact .refl _
  · split
    · exact .refl _
    · extract_lets pn
      split
      · exact ethPortSet_keeps ..
      · exact .refl _

theorem ringIn_keeps (s : State) (p ns : Nat) (b : Bytes) : Keeps s (ringIn s p ns b) :=
  .ite (.trans (.upd (regCount_keeps ..) (by rfl)) (regCount_keeps ..)) (.upd (regCount_keeps ..) (by rfl))

theorem ethFrameRx_keeps (s : State) (p : Nat) (sec : Option SecTag) (ns : Nat) (d : EthData) : Keeps s (ethFrameRx s p sec ns d) := by
  unfold ethFrameRx
  split
  · exact .refl _
  · split
    next pass s1 heq =>
    have hs1 : Keeps s s1 := .of_snd heq (secCheck_keeps ..)
    split
    · exact hs1.trans (regCount_keeps ..)
    · split
      · exact hs1.trans (regCount_keeps ..)
      · exact .ite (hs1.trans (regCount_keeps ..)) (.ite (.ite hs1 (hs1.trans (ringIn_keeps ..))) (.ite (hs1.trans (fragmentUdp_keeps ..))
        (hs1.trans (regCount_keeps ..))))

theorem admitNew_keeps (s : State) (b : Bytes) : Keeps s (admitNew s b) := by
  unfold admitNew
  split
  · exact .same (by rfl)
  · split
    · exact .ite (.upd (.upd (raise_keeps ..) (by rfl)) (by rfl)) (.same (by rfl))
    · exact .same (by rfl)

theorem admitOne_keeps (s : State) (e : RingEnt) : Keeps s (admitOne s e) := by
  unfold admitOne
  extract_lets b f lim
  clear_value lim
  refine .ite (.same (by rfl)) (.ite (.same (by rfl)) (.ite (.same (by rfl)) (.ite (.same (by rfl)) (.ite (.same (by rfl)) ?_))))
  split
  · exact .ite (.refl _) (admitNew_keeps ..)
  · exact .ite (.same (by rfl)) (.ite (.ite (.same (by rfl)) (.trans (.same (by rfl)) (raise_keeps ..))) (.ite (.same (by rfl)) (.ite (.trans
    (.same (by rfl)) (raise_keeps ..)) (.same (by rfl)))))

theorem intentAdmit_keeps (s : State) : Keeps s (intentAdmit s) :=
  .ite (.refl _) (.trans (.trans (.upd (.upd (reachPhase_keeps ..) (by rfl)) (by rfl)) (.foldl (fun _ _ => admitOne_keeps ..) ..)) (.foldl
    (fun _ _ => raise_keeps ..) ..))

theorem slotAge_keeps (s : State) (k tb : Nat) : Keeps s (slotAge s k tb) :=
  .ite (.refl _) (.ite (.trans (.same (by rfl)) (raise_keeps ..)) (.ite (.trans (.same (by rfl)) (raise_keeps ..)) (.same (by rfl))))

theorem compileSet_keeps (s : State) (c tb : Nat) : Keeps s (compileSet s c tb) :=
  .trans (.upd (.foldl (fun _ _ => slotAge_keeps ..) ..) (by rfl)) (setPut_keeps ..)

theorem intentCompileDone_keeps (s : State) : Keeps s (intentCompileDone s) := by
  unfold intentCompileDone
  split
  · exact .refl _
  · extract_lets s1
    refine .trans (compileSet_keeps ..) (.foldl (fun s u => ?_) ..)
    split
    · exact .ite (finishTask_keeps ..) (.refl _)
    · exact .refl _

theorem grantStep_keeps (s : State) (g : Option Seg) : Keeps s (grantStep s g) := by
  unfold grantStep
  split
  · exact .refl _
  · split
    · exact .trans (.same (by rfl)) (raise_keeps ..)
    · exact .ite (.trans (.same (by rfl)) (raise_keeps ..)) (.same (by rfl))
    · exact .same (by rfl)

theorem endPublishTasks_keeps (s : State) : Keeps s (endPublishTasks s) := by
  unfold endPublishTasks
  refine .foldl (fun s u => ?_) ..
  split
  · exact .ite (finishTask_keeps ..) (.refl _)
  · exact .refl _

theorem sendFrame_keeps (s : State) (b : Bytes) : Keeps s (sendFrame s b) :=
  .upd (.ite (.upd (.trans (.same (by rfl)) (.foldl (fun _ _ => sendOn_keeps ..) ..)) (by rfl)) (.trans (.same (by rfl)) (.foldl
    (fun _ _ => sendOn_keeps ..) ..))) (by rfl)

theorem publishIntent_keeps (s : State) : Keeps s (publishIntent s) := by
  unfold publishIntent
  split
  · exact .refl _
  · split
    · exact .refl _
    · exact .ite (.refl _) (.ite (.refl _) (.ite (raise_keeps ..) (sendFrame_keeps ..)))

theorem slaveFrame_keeps (s : State) : Keeps s (slaveFrame s) := .upd (takeFreeBytes_keeps ..) (by rfl)

theorem writeTx_keeps (s : State) : Keeps s (writeTx s) := .ite (.upd (slaveFrame_keeps ..) (by rfl)) (.refl _)

theorem jShortEvent_keeps (s : State) : Keeps s (jShortEvent s) := .ite (.trans (.same (by rfl)) (raise_keeps ..)) (.refl _)

theorem publication_keeps (s : State) : Keeps s (publication s) := by
  unfold publication
  split
  · exact .refl _
  · extract_lets s1 o g _ f s2 s3 carried _ s4 _ s5 _ s6
    have hs3 : Keeps s s3 := .trans (.upd (reachPhase_keeps ..) (by rfl)) (grantStep_keeps ..)
    clear_value s3
    have hs6 : Keeps s s6 := .ite (.upd (.ite (.upd (.upd hs3 (by rfl)) (by rfl)) (.upd hs3 (by rfl))) (by rfl)) (.ite (.upd (.upd hs3 (by rfl))
      (by rfl)) (.upd hs3 (by rfl)))
    clear_value s6
    exact .trans (.trans (.trans (.trans (.upd (.ite (.upd hs6 (by rfl)) hs6) (by rfl)) (jShortEvent_keeps ..)) (writeTx_keeps ..))
      (publishIntent_keeps ..)) (endPublishTasks_keeps ..)

theorem departure_keeps (s : State) : Keeps s (departure s) := .ite (.refl _) (.trans (takeFreeBytes_keeps ..) (sendFrame_keeps ..))

theorem sakInstall_keeps (s : State) (p w : Nat) : Keeps s (sakInstall s p w) := .ite (.refl _) (ethPortSet_keeps ..)

theorem weightInstall_keeps (s : State) : Keeps s (weightInstall s) := .ite (.refl _) (.same (by rfl))

theorem weightCheckDone_keeps (s : State) : Keeps s (weightCheckDone s) := by
  unfold weightCheckDone
  split
  · exact .refl _
  · exact .ite (.same (by rfl)) (.trans (.same (by rfl)) (raise_keeps ..))

theorem planInstall_keeps (s : State) : Keeps s (planInstall s) := .ite (.trans (.same (by rfl)) (raise_keeps ..)) (.same (by rfl))

theorem planCancel_keeps (s : State) : Keeps s (planCancel s) :=
  .ite (.ite (.trans (.same (by rfl)) (modelRefuseOnly_keeps ..)) (.same (by rfl))) (.refl _)

theorem planRefuse_keeps (s : State) (reason sub : Nat) : Keeps s (planRefuse s reason sub) :=
  .ite (.trans (planRefuseOnly_keeps ..) (modelRefuseOnly_keeps ..)) (planRefuseOnly_keeps ..)

theorem imgInstall_keeps (s : State) (i : Img) (k : Nat) : Keeps s (imgInstall s i k) := by
  unfold imgInstall
  extract_lets base par s1
  have hs1 : Keeps s s1 := .trans (memPut_keeps ..) (memPut_keeps ..)
  clear_value s1
  exact hs1.trans (.foldl (fun _ _ => .trans (memPutLe_keeps ..) (.foldl (fun _ _ => .trans (memPutLe_keeps ..) (memPutLe_keeps ..)) ..)) ..)

theorem planVerifyDone_keeps (s : State) (kernels : List (Nat × List Nat)) : Keeps s (planVerifyDone s kernels) :=
  .ite (.refl _) (.ite (.trans (.ite (raise_keeps ..) (.refl _)) (planRefuse_keeps ..)) (.upd (.trans (imgInstall_keeps ..)
    (imgInstall_keeps ..)) (by rfl)))

theorem abandon_keeps (s : State) : Keeps s (abandon s) := by
  unfold abandon
  extract_lets n2 n3 low _ s1 s2 s3
  have hs2 : Keeps s s2 := .trans (.same (by rfl)) (.foldl (fun _ _ => .ite (.trans (.upd (.ite (unitUpd_keeps ..) (.refl _)) (by rfl))
    (slotNext_keeps ..)) (.ite (unitUpd_keeps ..) (.refl _))) ..)
  clear_value s2
  have hs3 : Keeps s s3 := hs2.trans (.foldl (fun _ _ => dropEval_keeps ..) ..)
  clear_value s3
  exact .ite (.upd hs3 (by rfl)) (.trans (.upd hs3 (by rfl)) (raise_keeps ..))

theorem memZero_keeps (s : State) (a n : Nat) : Keeps s (memZero s a n) := .of_mem (smap_filter_wfFrom _ _ _ 0) rfl

theorem zeroRegions_keeps (s : State) (p : Plan) : Keeps s (zeroRegions s p) := .foldl (fun _ _ => memZero_keeps ..) ..

theorem planCounters_keeps (s : State) (p : Plan) : Keeps s (planCounters s p) :=
  .trans (.trans (.same (by rfl)) (.foldl (fun _ _ => .same (by rfl)) ..)) (raise_keeps ..)

theorem planQueues_keeps (s : State) (p : Plan) : Keeps s (planQueues s p) := .trans (.same (by rfl)) (.foldl (fun _ _ => memPut_keeps ..) ..)

theorem checkSlots_keeps (s : State) (p : Plan) : Keeps s (checkSlots s p) := .trans (.same (by rfl)) (.foldl (fun _ _ => raise_keeps ..) ..)

theorem dropEdits_keeps (s : State) : Keeps s (dropEdits s) := .trans (.same (by rfl)) (.foldl (fun _ _ => raise_keeps ..) ..)

theorem planSettings_keeps (s : State) (p : Plan) : Keeps s (planSettings s p) := by
  unfold planSettings
  refine .foldl (fun s x => ?_) ..
  split
  · exact .ite (.refl _) (.trans (.same (by rfl)) (loadObj_keeps ..))
  · exact .refl _

theorem planExchange_keeps (s : State) (p : Plan) : Keeps s (planExchange s p) := by
  unfold planExchange
  extract_lets s1 s2 _ s3 s4
  have hs2 : Keeps s s2 := .trans (.upd (abandon_keeps ..) (by rfl)) (zeroRegions_keeps ..)
  clear_value s2
  have hs4 : Keeps s s4 := .trans (.upd hs2 (by rfl)) (planCounters_keeps ..)
  clear_value s4
  exact .trans (.trans (.trans (.upd (hs4.trans (planQueues_keeps ..)) (by rfl)) (planSettings_keeps ..)) (dropEdits_keeps ..))
    (checkSlots_keeps ..)

theorem planSwitch_keeps (s : State) (unstaged : Nat) : Keeps s (planSwitch s unstaged) := by
  unfold planSwitch
  split
  · exact .refl _
  · split
    · exact .refl _
    · extract_lets t
      exact .ite (planRefuseOnly_keeps ..) (.ite (.ite (planRefuse_keeps ..) (.ite (.trans (.trans (.same (by rfl)) (raise_keeps ..))
        (modelDefer_keeps ..)) (.trans (.same (by rfl)) (raise_keeps ..)))) (.ite (.trans (planExchange_keeps ..) (modelExchange_keeps ..))
          (planExchange_keeps ..)))

theorem runDrv_keeps {f : State → State} (h : ∀ s, Keeps s (f s)) (s : State) : Keeps s (runDrv s f) :=
  .ite (.trans (.same (by rfl)) ((h _).trans (flush_keeps ..))) (.refl _)

theorem paramEdit_keeps (s : State) (cyc : Nat) (l : List (Nat × Nat)) : Keeps s (paramEdit s cyc l) :=
  .ite (.same (by rfl)) (.ite (.same (by rfl)) (.ite (.upd (raise_keeps ..) (by rfl)) (.same (by rfl))))

theorem regionError_keeps (s : State) (k w : Nat) : Keeps s (regionError s k w) :=
  .ite (.trans (.trans (.same (by rfl)) (raise_keeps ..)) (outOfTurn_keeps ..)) (.same (by rfl))

theorem ssCorrected_keeps (s : State) (a : Nat) : Keeps s (ssCorrected s a) := by
  unfold ssCorrected
  split
  next k w _ =>
  extract_lets m counted seen u
  have hcounted : Keeps s counted := by
    refine .same ?_
    unfold formsOf counted
    dsimp only
    split <;> rfl
  clear_value counted
  have hseen : Keeps s seen := hcounted.trans (regionError_keeps ..)
  clear_value seen
  exact .ite hseen (hseen.trans (.trans (.same (by rfl)) (raise_keeps ..)))

theorem ddrCorrected_keeps (s : State) (a : Nat) : Keeps s (ddrCorrected s a) := .trans (chanUpd_keeps ..) (raise_keeps ..)

theorem readCorrected_keeps (s : State) (a : Nat) : Keeps s (readCorrected s a) := .ite (ssCorrected_keeps ..) (ddrCorrected_keeps ..)

theorem memRead_keeps (s : State) (a n : Nat) (err : Option Bool) : Keeps s (memRead s a n err) :=
  .ite (.upd (readUncorrectable_keeps ..) (by rfl)) (.upd (.trans (.ite (readCorrected_keeps ..) (.refl _)) (shownBytes_keeps ..)) (by rfl))

theorem bankFree_keeps (s : State) (a : Nat) : Keeps s (bankFree s a) := by
  unfold bankFree
  split
  · exact .ite (advance_keeps ..) (.refl _)
  · exact .refl _

theorem bankTurn_keeps (s : State) (core a : Nat) (act : BankAct) : Keeps s (bankTurn s core a act).2 := by
  unfold bankTurn
  extract_lets w
  split
  · exact .upd (bankFree_keeps ..) (by rfl)
  · split
    · exact .upd (bankFree_keeps ..) (by rfl)
    · exact .upd (.trans (.trans (bankFree_keeps ..) (nextClk_keeps ..)) (bankFree_keeps ..)) (by rfl)

theorem bankStall_keeps (s : State) (u clk : Nat) : Keeps s (bankStall s u clk) := by
  unfold bankStall
  split
  · extract_lets m noted
    have hnoted : Keeps s noted := by
      refine .same ?_
      unfold formsOf noted
      dsimp only
      split <;> rfl
    exact .ite (hnoted.trans (raise_keeps ..)) hnoted
  · exact .refl _

theorem laneWrite_keeps (s : State) (a m : Nat) (b : Bytes) : Keeps s (laneWrite s a m b) :=
  .ite (memPut_keeps ..) (.foldl (fun _ _ => .ite (memPut_keeps ..) (.refl _)) ..)

theorem rivalServed_keeps (s : State) (k bank : Nat) (r : BankWait) : Keeps s (rivalServed s k bank r) := by
  unfold rivalServed
  extract_lets a
  split
  · exact .ite (raise_keeps ..) (.refl _)
  · exact .ite (.ite (raise_keeps ..) (.refl _)) (.trans (.ite (raise_keeps ..) (.refl _)) (laneWrite_keeps ..))
  · exact .ite (.ite (raise_keeps ..) (.refl _)) (.trans (.ite (raise_keeps ..) (.refl _)) (laneWrite_keeps ..))

theorem bankServe_keeps {own : State → State} (hown : ∀ s, Keeps s (own s)) (s : State) (k bank : Nat) (l : List BankWait) :
    Keeps s (bankServe s k bank own l) :=
  .foldl (fun _ _ => .ite (hown _) (rivalServed_keeps ..)) ..

theorem bankGo_keeps (k bank : Nat) {own : State → State} (hown : ∀ s, Keeps s (own s)) (n : Nat) (s : State) (b : BankSt) :
    Keeps s (bankGo k bank own n s b) := by
  induction n generalizing s b with
  | zero => exact bankStall_keeps ..
  | succ n ih =>
    unfold bankGo
    extract_lets l b' served
    have hserved : Keeps s served := bankServe_keeps hown ..
    exact .ite (bankStall_keeps ..) (.trans (.ite (hserved.trans (nextClk_keeps ..)) hserved) (ih _ _))

theorem bankRun_keeps {own : State → State} (hown : ∀ s, Keeps s (own s)) (s : State) (core a : Nat) (act : BankAct) (rivals : List BankReq) :
    Keeps s (bankRun s core a act own rivals) := .ite (hown _) (bankGo_keeps _ _ hown ..)

theorem storeLoad_keeps (s : State) (old : Option Bytes) (a n : Nat) (err : Option Bool) : Keeps s (storeLoad s old a n err) := by
  unfold storeLoad
  extract_lets t
  split
  · exact .upd (memRead_keeps ..) (by rfl)
  · exact memRead_keeps ..

theorem secureAccess_keeps (s : State) (c : Fin 8) (k : Nat) (r : Resp) : Keeps s (secureAccess s c k r) := .upd (raise_keeps ..) (by rfl)

theorem localRead_keeps (s : State) (a n : Nat) : Keeps s (localRead s a n) := .ite (.same (by rfl)) (.ite (.same (by rfl)) (.same (by rfl)))

theorem gatedAccess_keeps (s : State) (who : Writer) (b : Nat) : Keeps s (gatedAccess s who b) := .upd (raise_keeps ..) (by rfl)

theorem registerRead_keeps (s : State) (c : Fin 8) (o : Nat) : Keeps s (registerRead s c o) := by
  unfold registerRead
  split
  · exact gatedAccess_keeps ..
  · exact .ite (tcFreeze_keeps ..) (.ite (.same (by rfl)) (.ite (.same (by rfl)) (.same (by rfl))))

theorem emramRead_keeps (s : State) (a n : Nat) : Keeps s (emramRead s a n) := .upd (takeFreeBytes_keeps ..) (by rfl)

theorem busLoad_keeps (s : State) (c : Fin 8) (a n : Nat) (err : Option Bool) (rivals : List BankReq) : Keeps s (busLoad s c a n err rivals) := by
  unfold busLoad
  split
  · exact .ite (memRead_keeps ..) (.same (by rfl))
  · exact .trans (bankTurn_keeps ..) (bankRun_keeps (fun _ => storeLoad_keeps ..) ..)
  · exact secureAccess_keeps ..
  · exact localRead_keeps ..
  · exact .ite (.same (by rfl)) (.same (by rfl))
  · exact .ite (registerRead_keeps ..) (.same (by rfl))
  · exact emramRead_keeps ..
  · exact .same (by rfl)

theorem unitCommand_keeps (s : State) (cmd : Nat) : Keeps s (unitCommand s cmd) := by
  unfold unitCommand
  split
  · exact .refl _
  · exact disableCmd_keeps ..
  · exact clusterCmd_keeps ..

theorem stopRequest_keeps (s : State) : Keeps s (stopRequest s) := .trans (.trans (.same (by rfl)) (raise_keeps ..)) (lapse_keeps ..)

theorem huskStop_keeps (s : State) (v : Nat) : Keeps s (huskStop s v) := .ite (stopRequest_keeps ..) (.ite (.same (by rfl)) (.refl _))

theorem sakWrite_keeps (s : State) (p i v : Nat) : Keeps s (sakWrite s p i v) := .ite (sakInstall_keeps ..) (ethPortSet_keeps ..)

theorem woWrite_keeps (s : State) (o v : Nat) : Keeps s (woWrite s o v) :=
  .ite (unitCommand_keeps ..) (.ite (huskStop_keeps ..) (.ite (sakWrite_keeps ..) (.ite (sakWrite_keeps ..) (.refl _))))

theorem w1cClear_keeps (s : State) (o v : Nat) : Keeps s (w1cClear s o v) := regSet_keeps ..

theorem rwWrite_keeps (s : State) (o v mask : Nat) : Keeps s (rwWrite s o v mask) := by
  unfold rwWrite
  split
  · exact unitSelect_keeps ..
  · split
    · exact .ite (srcSelect_keeps ..) (srcOff_keeps ..)
    · exact .ite (gateWrite_keeps ..) (.ite (.refl _) (.ite (.trans (regSet_keeps ..) (barDrive_keeps ..)) (regSet_keeps ..)))

theorem regWrite_keeps (s : State) (who : Writer) (o v : Nat) : Keeps s (regWrite s who o v) := by
  unfold regWrite
  split
  · exact .refl _
  · split
    · exact .refl _
    · split
      · exact .refl _
      · exact woWrite_keeps ..
      · exact w1cClear_keeps ..
      · exact rwWrite_keeps ..
      · exact .ite (.refl _) (rwWrite_keeps ..)

theorem registerWrite_keeps (s : State) (who : Writer) (o v : Nat) : Keeps s (registerWrite s who o v) := by
  unfold registerWrite
  split
  · exact gatedAccess_keeps ..
  · exact .ite (.upd (regWrite_keeps ..) (by rfl)) (.same (by rfl))

theorem busStore_keeps (s : State) (c : Fin 8) (a : Nat) (b : Bytes) (rivals : List BankReq) : Keeps s (busStore s c a b rivals) := by
  unfold busStore
  extract_lets n
  split
  · exact .ite (.upd (memPut_keeps ..) (by rfl)) (.same (by rfl))
  · exact .trans (bankTurn_keeps ..) (bankRun_keeps (fun _ => .upd (memPut_keeps ..) (by rfl)) ..)
  · exact secureAccess_keeps ..
  · exact .ite (.upd (syncCtrWrite_keeps ..) (by rfl)) (.same (by rfl))
  · exact .ite (registerWrite_keeps ..) (.same (by rfl))
  · exact .same (by rfl)
  · exact .same (by rfl)
  · exact .same (by rfl)

theorem busAccess_keeps (s : State) (c : Fin 8) (op : BusOp) (rivals : List BankReq) : Keeps s (busAccess s c op rivals) := by
  unfold busAccess
  split
  · exact busLoad_keeps ..
  · exact busStore_keeps ..

theorem bgStart_keeps (s : State) (k : Nat) : Keeps s (bgStart s k) := by
  unfold bgStart
  extract_lets m turn early pos
  clear_value turn early pos
  refine .ite (.refl _) ?_
  split
  all_goals
    refine .same ?_
    unfold formsOf
    dsimp only
    split <;> rfl

theorem passEnd_keeps (s : State) (k : Nat) : Keeps s (passEnd s k) := by
  unfold passEnd
  refine .ite (.refl _) (.same ?_)
  unfold formsOf
  dsimp only
  split <;> rfl

theorem bgDone_keeps (s : State) (k : Nat) (failed : Bool) : Keeps s (bgDone s k failed) := by
  unfold bgDone
  extract_lets m b free
  have hfree : Keeps s free := by
    refine .same ?_
    unfold formsOf free
    dsimp only
    split <;> rfl
  exact .ite (.refl _) (.trans (.ite (hfree.trans (retirePlace_keeps ..)) hfree) (passEnd_keeps ..))

theorem wipeDone_keeps (s : State) (k : Nat) : Keeps s (wipeDone s k) := by
  unfold wipeDone
  refine .ite (.refl _) (.trans (.same ?_) (raise_keeps ..))
  unfold formsOf
  dsimp only
  split <;> rfl

theorem runMem_keeps {f : State → State} (h : ∀ s, Keeps s (f s)) (s : State) : Keeps s (runMem s f) :=
  .ite (.trans (.same (by rfl)) ((h _).trans (flush_keeps ..))) (.refl _)

theorem scrubTick_keeps (s : State) (errs : List (Nat × Bool)) : Keeps s (scrubTick s errs) := by
  unfold scrubTick
  split
  · exact .refl _
  · extract_lets s1
    have hs1 : Keeps s s1 := .foldl (fun _ _ => .ite (chanUpd_keeps ..) (.refl _)) ..
    clear_value s1
    exact hs1.trans (.foldl (fun _ _ => .ite (.ite (ddrUncorrectable_keeps ..) (ddrCorrected_keeps ..)) (.refl _)) ..)

theorem ddrRefresh_keeps (s : State) (n : Nat) (twice hot : Bool) : Keeps s (ddrRefresh s n twice hot) :=
  .ite (.refl _) (.ite (.trans (chanUpd_keeps ..) (raise_keeps ..)) (chanUpd_keeps ..))

theorem ddrRfm_keeps (s : State) (n : Nat) : Keeps s (ddrRfm s n) := .ite (chanUpd_keeps ..) (.refl _)

theorem ddrZq_keeps (s : State) (n : Nat) : Keeps s (ddrZq s n) := .ite (chanUpd_keeps ..) (.refl _)

theorem ddrOsc_keeps (s : State) (n : Nat) (drift : Int) : Keeps s (ddrOsc s n drift) :=
  .ite (.ite (.trans (chanUpd_keeps ..) (raise_keeps ..)) (chanUpd_keeps ..)) (.refl _)

theorem chanFail_keeps (s : State) (n : Nat) : Keeps s (chanFail s n) := .trans (chanUpd_keeps ..) (faultOut_keeps ..)

theorem chardPush_keeps (s : State) : Keeps s (chardPush s) := by
  unfold chardPush
  split
  · exact .refl _
  · exact .ite (.refl _) (.ite (.upd (reachPhase_keeps ..) (by rfl)) (.trans (.upd (.upd (reachPhase_keeps ..) (by rfl)) (by rfl))
    (readyTail_keeps ..)))

theorem chdUnitCount_keeps (s : State) (u : Nat) (blk : Bool) : Keeps s (chdUnitCount s u blk) := regSet_keeps ..

theorem chardDone_keeps (s : State) (u clk : Nat) : Keeps s (chardDone s u clk) := by
  unfold chardDone
  split
  · exact .refl _
  · split
    · exact .refl _
    · extract_lets v s1 s2
      have hs2 : Keeps s s2 := by
        dsimp only [s2]
        clear_value v
        split
        · exact .trans (regSet_keeps ..) (chdUnitCount_keeps ..)
        · exact regSet_keeps ..
      clear_value s2
      exact .ite (.upd (hs2.trans (finishTask_keeps ..)) (by rfl)) (hs2.trans (finishTask_keeps ..))

theorem chdStat_keeps (s : State) (v : Nat) : Keeps s (chdStat s v) := regSet_keeps ..

theorem chardMissing_keeps (s : State) (unit why : Nat) : Keeps s (chardMissing s unit why) :=
  .trans (.upd (.trans (regCount_keeps ..) (chdStat_keeps ..)) (by rfl)) (raise_keeps ..)

theorem chardDisagree_keeps (s : State) (w : Winner) (v : Verdict) : Keeps s (chardDisagree s w v) := by
  unfold chardDisagree
  extract_lets s1 s2 s3 l _ s4 s5
  have hs1 : Keeps s s1 := .trans (regCount_keeps ..) (chdStat_keeps ..)
  clear_value s1
  have hs2 : Keeps s s2 := .trans (hs1.trans (regSet_keeps ..)) (regSet_keeps ..)
  clear_value s2
  have hs5 : Keeps s s5 := .trans (.upd (hs2.trans (raise_keeps ..)) (by rfl)) (raise_keeps ..)
  clear_value s5
  exact .ite (.trans (.trans (.upd hs5 (by rfl)) (firmwareCmd_keeps ..)) (judgePath_keeps ..)) (.upd (hs2.trans (raise_keeps ..)) (by rfl))

theorem comparison_keeps (s : State) : Keeps s (comparison s) := by
  unfold comparison
  split
  · exact .refl _
  · extract_lets s1 _ s2 _ s3
    have hs3 : Keeps s s3 := .trans (.trans (.upd (reachPhase_keeps ..) (by rfl)) (regCount_keeps ..)) (chdStat_keeps ..)
    clear_value s3
    split
    · exact .upd (.upd (reachPhase_keeps ..) (by rfl)) (by rfl)
    · split
      · exact .trans (.upd (reachPhase_keeps ..) (by rfl)) (chardMissing_keeps ..)
      · split
        · exact .trans (.upd (reachPhase_keeps ..) (by rfl)) (chardMissing_keeps ..)
        · split
          · exact .trans (.upd (reachPhase_keeps ..) (by rfl)) (chardDisagree_keeps ..)
          · exact .ite (.trans (.upd (reachPhase_keeps ..) (by rfl)) (chardMissing_keeps ..)) (.ite (.upd hs3 (by rfl)) (.upd hs3 (by rfl)))

theorem permitBToggle_keeps (s : State) : Keeps s (permitBToggle s) := .ite (.upd (reachPhase_keeps ..) (by rfl)) (.refl _)

theorem fsoeFrame_keeps (s : State) (r : FsoeIn) : Keeps s (fsoeFrame s r) := by
  unfold fsoeFrame
  extract_lets f
  split
  · exact .refl _
  · split
    · exact .ite (.same (by rfl)) (.refl _)
    · exact .ite (.same (by rfl)) (.refl _)
    · exact .ite (.refl _) (.ite (.trans (.same (by rfl)) (fsoeReset_keeps ..)) (.ite (.trans (.same (by rfl)) (fsoeReset_keeps ..)) (.same
      (by rfl))))
    · exact .ite (.trans (.same (by rfl)) (fsoeCheck_keeps ..)) (.refl _)
    · exact fsoeReset_keeps ..

theorem withCoe_keeps {f : State → State} (h : ∀ s, Keeps s (f s)) (s : State) : Keeps s (withCoe s f) := .ite (h _) (.same (by rfl))

theorem sparRefuse_keeps (s : State) (reason : Nat) : Keeps s (sparRefuse s reason) := .trans (.same (by rfl)) (raise_keeps ..)

theorem sparUnlock_keeps (s : State) (v : Nat) : Keeps s (sparUnlock s v) :=
  .ite (.same (by rfl)) (.ite (.same (by rfl)) (.upd (.upd (sparRefuse_keeps ..) (by rfl)) (by rfl)))

theorem sparStage_keeps (s : State) (sub v : Nat) : Keeps s (sparStage s sub v) := .ite (.same (by rfl)) (.ite (.same (by rfl)) (.same (by rfl)))

theorem sparConfirm_keeps (s : State) (v : Nat) : Keeps s (sparConfirm s v) := by
  unfold sparConfirm
  split
  · exact .same (by rfl)
  · split
    · exact .same (by rfl)
    · exact .upd (.upd (sparRefuse_keeps ..) (by rfl)) (by rfl)

theorem sparTimeout_keeps (s : State) : Keeps s (sparTimeout s) := .ite (sparRefuse_keeps ..) (.refl _)

theorem safeDetect_keeps (s : State) (c : SafeCause) : Keeps s (safeDetect s c) := .ite (enterSafe_keeps ..) (.refl _)

theorem rotationStep_keeps (s : State) : Keeps s (rotationStep s) := by
  unfold rotationStep
  extract_lets n
  split
  · exact .refl _
  · split
    · exact .trans (.upd (reachPhase_keeps ..) (by rfl)) (.foldl (fun _ _ => testNoted_keeps ..) ..)
    · split
      · exact .upd (reachPhase_keeps ..) (by rfl)
      · split
        · exact .upd (reachPhase_keeps ..) (by rfl)
        · exact .ite (.trans (.upd (reachPhase_keeps ..) (by rfl)) (firmwareCmd_keeps ..)) (.trans (.trans (.upd (.ite (.trans (.trans (.upd
          (reachPhase_keeps ..) (by rfl)) (firmwareCmd_keeps ..)) (firmwareCmd_keeps ..)) (.trans (.upd (reachPhase_keeps ..) (by rfl))
            (firmwareCmd_keeps ..))) (by rfl)) (raise_keeps ..)) (judgePath_keeps ..))

theorem goldStart_keeps (s : State) (u : Nat) : Keeps s (goldStart s u) :=
  .ite (.trans (.trans (.same (by rfl)) (unitUpd_keeps ..)) (podUpd_keeps ..)) (.upd (.trans (.same (by rfl)) (unitUpd_keeps ..)) (by rfl))

theorem goldShed_keeps (s : State) (g : Nat) : Keeps s (goldShed s g) := by
  unfold goldShed
  extract_lets u
  split
  · exact .refl _
  · split
    · exact goldStart_keeps ..
    · exact .ite (.refl _) (.trans (.trans (.upd (podPut_keeps ..) (by rfl)) (raise_keeps ..)) (goldStart_keeps ..))

theorem goldenSlotOpen_keeps (s : State) (k : GoldKind) : Keeps s (goldenSlotOpen s k) := by
  unfold goldenSlotOpen
  split
  · exact .refl _
  · extract_lets s1
    split
    · exact .trans (.upd (reachPhase_keeps ..) (by rfl)) (.foldl (fun _ _ => goldShed_keeps ..) ..)
    · exact .upd (reachPhase_keeps ..) (by rfl)

theorem goldenBatchStart_keeps (s : State) (u : Nat) : Keeps s (goldenBatchStart s u) :=
  .ite (goldStart_keeps ..) (.ite (goldStart_keeps ..) (.refl _))

theorem goldBad_keeps (s : State) (u mask : Nat) : Keeps s (goldBad s u mask) := .trans (.same (by rfl)) (raise_keeps ..)

theorem goldenBatchDone_keeps (s : State) (u : Nat) (r : GoldRes) : Keeps s (goldenBatchDone s u r) := by
  unfold goldenBatchDone
  split
  · exact .refl _
  · extract_lets g
    split
    · exact .refl _
    · split
      · exact .trans (.ite (podUpd_keeps ..) (.same (by rfl))) (unitUpd_keeps ..)
      · exact .ite (.trans (.ite (podUpd_keeps ..) (.same (by rfl))) (goldBad_keeps ..)) (.ite (podUpd_keeps ..) (.same (by rfl)))
      · exact .ite (.ite (podUpd_keeps ..) (.same (by rfl))) (.ite (.trans (.ite (podUpd_keeps ..) (.same (by rfl))) (goldBad_keeps ..)) (.trans
        (.ite (podUpd_keeps ..) (.same (by rfl))) (.foldl (fun _ _ => goldBad_keeps ..) ..)))
      · exact .ite (.trans (.trans (.ite (podUpd_keeps ..) (.same (by rfl))) (unitUpd_keeps ..)) (goldBad_keeps ..)) (.ite (podUpd_keeps ..)
        (.same (by rfl)))

theorem goldDefer_keeps (s : State) (u : Nat) : Keeps s (goldDefer s u) := .ite (.trans (unitUpd_keeps ..) (raise_keeps ..)) (.refl _)

theorem goldenSlotClose_keeps (s : State) (k : GoldKind) : Keeps s (goldenSlotClose s k) := by
  unfold goldenSlotClose
  split <;> exact .ite (.refl _) (.upd (.trans (reachPhase_keeps ..) (.foldl (fun _ _ => goldDefer_keeps ..) ..)) (by rfl))

theorem checkpoint_keeps (s : State) : Keeps s (checkpoint s) := by
  unfold checkpoint
  split
  · refine .trans (.same (by rfl)) (ringPush_keeps_of _ _ fun h k hk => ?_)
    cases List.mem_singleton.mp hk
    exact h.1
  · exact .refl _

theorem runEcat_keeps {f : State → State} (h : ∀ s, Keeps s (f s)) (s : State) : Keeps s (runEcat s f) := .ite (.refl _) (runIo_keeps h s)

theorem foeAbandon_keeps (s : State) : Keeps s (foeAbandon s) := by
  unfold foeAbandon
  split
  · exact .refl _
  · exact .trans (.upd (takeFree_keeps ..) (by rfl)) (raise_keeps ..)

theorem objSets_keeps (l : List (Nat × Nat)) (s : State) : Keeps s (l.foldl (fun s p => objSet s p.1 p.2 (objF s p.1 p.2)) s) :=
  .foldl (fun _ _ => .same (by rfl)) l s

theorem layOut_keeps (s : State) : Keeps s (layOut s) := by
  rw [layOut_eq]
  generalize layAreas secureOff (areaSizes s) = areas
  cases areas with
  | some l => exact .same (by rfl)
  | none => exact .trans (objSets_keeps ..) (raise_keeps ..)

theorem ungateEnabled_keeps (s : State) : Keeps s (ungateEnabled s) := .trans (gateWrite_keeps ..) (.foldl (fun _ _ => loadObj_keeps ..) ..)

theorem leavePreop_keeps (s : State) : Keeps s (leavePreop s) :=
  .trans (.trans (layOut_keeps ..) (.foldl (fun _ _ => objTake_keeps ..) ..)) (ungateEnabled_keeps ..)

theorem alSet_keeps (s : State) (n : AlSt) (code : Nat) (err : Bool) : Keeps s (alSet s n code err) := by
  unfold alSet
  extract_lets old _ s1 s2 s3 s4
  have hs3 : Keeps s s3 := .ite (.trans (.trans (.same (by rfl)) (raise_keeps ..)) (fsoeReset_keeps ..)) (.trans (.same (by rfl)) (raise_keeps ..))
  clear_value s3
  have hs4 : Keeps s s4 := .ite (hs3.trans (foeAbandon_keeps ..)) hs3
  clear_value s4
  exact .ite (.same (by rfl)) (.ite (hs4.trans (leavePreop_keeps ..)) hs4)

theorem alRequest_keeps (s : State) (t : Nat) : Keeps s (alRequest s t) := by
  unfold alRequest
  split
  · exact alSet_keeps ..
  · exact .same (by rfl)

theorem sm2Watchdog_keeps (s : State) : Keeps s (sm2Watchdog s) := .ite (alSet_keeps ..) (.refl _)

theorem sdoUpload_keeps (s : State) (idx sub : Nat) (complete : Bool) : Keeps s (sdoUpload s idx sub complete) := by
  unfold sdoUpload
  split <;> exact .same (by rfl)

theorem sdoEnd_keeps {s : State} {r : Did} (h : Keeps s r.2) : Keeps s (sdoEnd r) := h.trans (.ite (.same (by rfl)) (.same (by rfl)))

theorem did_keeps (s : State) : Keeps s (did s).2 := .refl _

theorem instDo_keeps (busy refused : Bool) (s : State) : Keeps s (instDo busy refused s).2 := .refl _

theorem writeVal_keeps (s : State) (o : Config.ObjDef) (idx sub : Nat) (v : Int) : Keeps s (writeVal s o idx sub v) :=
  .ite (.refl _) (.ite (.same (by rfl)) (.same (by rfl)))

theorem pstateWrite_keeps (s : State) (o : Config.ObjDef) (v : Int) : Keeps s (pstateWrite s o v).2 := by
  unfold pstateWrite
  split
  · exact .refl _
  · exact .trans (writeVal_keeps ..) (did_keeps ..)

/-- After a reset every table but those that eMRAM keeps is empty. -/
theorem resetTo_keeps (s : State) (full : Bool) (cause : Nat) : Keeps s (resetTo s full cause) where
  pending := rfl
  mem _ := rfl
  units h := smap_filterMap_wf _ (fun p : Nat × UnitRec => if p.1 = huskId ∧ !full then p.2 else unitKept p.2) _ h
  regs _ := ⟨rfl, rfl⟩
  pods _ := rfl
  streams _ := ⟨rfl, fun _ hk => absurd hk List.not_mem_nil⟩
  limits h := by
    cases full
    · exact h
    · rfl

theorem bootStart_keeps (s : State) (bootSel : Bool) : Keeps s (bootStart s bootSel) := .trans (.same (by rfl)) (raise_keeps ..)

theorem deviceReset_keeps (s : State) : Keeps s (deviceReset s) := .trans (resetTo_keeps ..) (bootStart_keeps ..)

theorem resetCommand_keeps (s : State) : Keeps s (resetCommand s).2 := by
  unfold resetCommand
  split
  · exact .trans (deviceReset_keeps ..) (did_keeps ..)
  · exact .refl _

theorem codeOf_keeps {s t : State} (s0 : State) (h : Keeps s t) : Keeps s (codeOf s0 t).2 := by
  unfold codeOf
  split
  · exact .upd h (by rfl)
  · exact .upd h (by rfl)

theorem fwInstallAt_keeps (s : State) (a len : Nat) : Keeps s (fwInstallAt s a len) :=
  .ite (.same (by rfl)) (.trans (.same (by rfl)) (raise_keeps ..))

theorem fwInstall_keeps (s : State) : Keeps s (fwInstall s) := .ite (fwInstallAt_keeps ..) (fwInstallAt_keeps ..)

theorem fwCancel_keeps (s : State) : Keeps s (fwCancel s) := by
  unfold fwCancel
  split
  · exact .ite (.refl _) (.same (by rfl))
  · exact .ite (.refl _) (.same (by rfl))
  · exact .ite (.refl _) (.same (by rfl))
  · exact probFail_keeps ..
  · exact .refl _

theorem fwEndProbation_keeps (s : State) : Keeps s (fwEndProbation s) := .ite (.same (by rfl)) (.refl _)

theorem fwDo_keeps (s : State) (v : Nat) : Keeps s (fwDo s v).2 := by
  unfold fwDo
  split
  · exact .trans (fwInstall_keeps ..) (instDo_keeps ..)
  · exact .trans (fwCancel_keeps ..) (did_keeps ..)
  · exact .trans (fwEndProbation_keeps ..) (did_keeps ..)

theorem ucodeCommand_keeps (s : State) : Keeps s (ucodeCommand s) := .ite (.refl _) (.same (by rfl))

theorem ucodeCancel_keeps (s : State) : Keeps s (ucodeCancel s) := .ite (.same (by rfl)) (.refl _)

theorem lifeSet_keeps (s : State) (t : Nat) (key : Bytes) : Keeps s (lifeSet s t key) :=
  .ite (.same (by rfl)) (.trans (.same (by rfl)) (lifeApply_keeps ..))

theorem lifeCommand_keeps (s : State) (b : Bytes) : Keeps s (lifeCommand s b).2 := by
  unfold lifeCommand
  extract_lets t
  split
  · exact raise_keeps ..
  · split
    · exact .same (by rfl)
    · exact .trans (.same (by rfl)) (lifeSet_keeps ..)

theorem planKeyWrite_keeps (s : State) (key : Bytes) : Keeps s (planKeyWrite s key).2 := by
  unfold planKeyWrite
  split
  · exact lifeSet_keeps ..
  · exact .refl _

theorem applyOne_keeps (s : State) (o : Config.ObjDef) (idx sub : Nat) (b : Bytes) (ok : Bool) : Keeps s (applyOne s o idx sub b ok).2 := by
  unfold applyOne
  extract_lets n v r r2
  split
  · exact .trans (.same (by rfl)) (did_keeps ..)
  · exact .trans (.same (by rfl)) (did_keeps ..)
  · split
    · exact .trans (modelInstall_keeps ..) (instDo_keeps ..)
    · exact .trans (modelCancel_keeps ..) (did_keeps ..)
  · split
    · exact .trans (primInstall_keeps ..) (instDo_keeps ..)
    · exact .trans (primCancel_keeps ..) (did_keeps ..)
  · exact .trans (departure_keeps ..) (did_keeps ..)
  · split
    · exact .trans (weightInstall_keeps ..) (did_keeps ..)
    · exact .trans (.same (by rfl)) (did_keeps ..)
  · split
    · exact .trans (planInstall_keeps ..) (instDo_keeps ..)
    · exact .trans (planCancel_keeps ..) (did_keeps ..)
  · exact pstateWrite_keeps ..
  · exact resetCommand_keeps ..
  · exact codeOf_keeps _ (sparUnlock_keeps ..)
  · exact codeOf_keeps _ (sparConfirm_keeps ..)
  · exact fwDo_keeps ..
  · split
    · exact .trans (ucodeCommand_keeps ..) (instDo_keeps ..)
    · exact .trans (ucodeCancel_keeps ..) (did_keeps ..)
  · split
    · exact .refl _
    · exact .trans (.same (by rfl)) (did_keeps ..)
  · refine .trans ?_ (instDo_keeps ..)
    dsimp only [r]
    exact lifeCommand_keeps ..
  · refine .trans ?_ (instDo_keeps ..)
    dsimp only [r2]
    exact planKeyWrite_keeps ..
  · split
    · exact codeOf_keeps _ (sparStage_keeps ..)
    · exact .trans (writeVal_keeps ..) (did_keeps ..)

theorem caRun_keeps (s0 s' : State) (via : Via) (ok : Bool) (idx : Nat) (l : List (Nat × Bytes)) (s : State) :
    Keeps s (caRun s0 s' via ok idx l s).2 := by
  induction l generalizing s with
  | nil => exact .refl s
  | cons x l ih =>
    unfold caRun
    split
    · exact .refl s
    · next o _ =>
      have happlied := applyOne_keeps s o idx x.1 x.2 ok
      dsimp only
      split
      · exact ih s
      · split
        · exact .refl s
        · split
          · exact happlied
          · exact happlied.trans (ih _)

theorem writeAll_keeps (s : State) (via : Via) (idx start : Nat) (b : Bytes) (ok : Bool) : Keeps s (writeAll s via idx start b ok).2 := by
  unfold writeAll
  extract_lets subs l s' r
  have hs' : Keeps s s' := by
    dsimp only [s']
    refine .foldl (fun s x => ?_) ..
    split
    · exact .ite (.refl _) (.same (by rfl))
    · exact .refl _
  clear_value s'
  split
  · exact .refl _
  · split
    · exact .refl _
    · split
      · exact .refl _
      · split
        · exact .refl _
        · dsimp only [r]
          exact caRun_keeps ..

theorem writeOne_keeps (s : State) (via : Via) (idx sub : Nat) (b : Bytes) (ok : Bool) : Keeps s (writeOne s via idx sub b ok).2 := by
  unfold writeOne
  split
  · exact .refl _
  · extract_lets c
    split
    · exact .refl _
    · exact applyOne_keeps ..

theorem sdoDownload_keeps (s : State) (idx sub : Nat) (complete : Bool) (b : Bytes) (ok : Bool) :
    Keeps s (sdoDownload s idx sub complete b ok) := by
  unfold sdoDownload
  refine sdoEnd_keeps ?_
  split
  · exact writeAll_keeps ..
  · exact writeOne_keeps ..

theorem sdoInfo_keeps (s : State) (x : InfoReq) : Keeps s (sdoInfo s x) := by
  unfold sdoInfo
  split
  · exact .same (by rfl)
  · extract_lets i2
    split <;> exact .same (by rfl)
  · split <;> exact .same (by rfl)

theorem drvRead_keeps (s : State) (idx sub len : Nat) : Keeps s (drvRead s idx sub len) := by
  unfold drvRead
  split
  · exact .same (by rfl)
  · exact .ite (.same (by rfl)) (.same (by rfl))

theorem drvEnd_keeps {s : State} {r : Did} (h : Keeps s r.2) : Keeps s (drvEnd r) := h.trans (.same (by rfl))

theorem rxDone_keeps (s : State) (b : Bytes) : Keeps s (rxDone s b) := .ite (.refl _) (.same (by rfl))

theorem withFoe_keeps {f : State → State} (h : ∀ s, Keeps s (f s)) (s : State) : Keeps s (withFoe s f) := .ite (h _) (.same (by rfl))

theorem foeFail_keeps (s : State) (file code : Nat) : Keeps s (foeFail s file code) := .upd (.trans (.same (by rfl)) (raise_keeps ..)) (by rfl)

theorem foeOpen_keeps (s : State) (n : FoeName) (password : Nat) : Keeps s (foeOpen s n password) := by
  unfold foeOpen
  extract_lets s1
  split
  · exact .upd (.upd (foeAbandon_keeps ..) (by rfl)) (by rfl)
  · exact .trans (foeAbandon_keeps ..) (foeFail_keeps ..)

theorem foeLength_keeps (s : State) (file n : Nat) : Keeps s (foeLength s file n) := by
  unfold foeLength
  extract_lets w
  split
  · exact .same (by rfl)
  · exact .same (by rfl)
  · exact .refl _

theorem foeDone_keeps (s : State) (file n : Nat) : Keeps s (foeDone s file n) := .trans (.same (by rfl)) (raise_keeps ..)

theorem foeData_keeps (s : State) (packet : Nat) (b : Bytes) : Keeps s (foeData s packet b) := by
  unfold foeData
  split
  · exact .same (by rfl)
  · split
    · exact foeFail_keeps ..
    · exact .ite (foeFail_keeps ..) (.ite (.upd (.trans (.trans (.upd (memPut_keeps ..) (by rfl)) (foeDone_keeps ..)) (foeLength_keeps ..))
      (by rfl)) (.upd (.upd (memPut_keeps ..) (by rfl)) (by rfl)))

theorem boxFile_keeps (s : State) : Keeps s (boxFile s).2 := takeFreeBytes_keeps ..

theorem foeRead_keeps (s : State) (n : FoeName) (password : Nat) : Keeps s (foeRead s n password) := by
  unfold foeRead
  split
  · exact .upd (.trans (boxFile_keeps ..) (foeDone_keeps ..)) (by rfl)
  · exact foeFail_keeps ..

theorem ecatLink_keeps (s : State) (p : Nat) (up : Bool) : Keeps s (ecatLink s p up) :=
  .ite (.refl _) (.ite (.same (by rfl)) (.trans (.same (by rfl)) (raise_keeps ..)))

theorem aonPorstLow_keeps (s : State) : Keeps s (aonPorstLow s) := resetTo_keeps ..

theorem aonPorstRelease_keeps (s : State) : Keeps s (aonPorstRelease s) := .ite (.refl _) (.trans (.same (by rfl)) (unitUpd_keeps ..))

theorem porstLow_keeps (s : State) : Keeps s (porstLow s) := .ite (.refl _) (resetTo_keeps ..)

theorem reachTick_keeps (s : State) (t : Nat) : Keeps s (reachTick s t) := advance_keeps ..

theorem porstRelease_keeps (s : State) (bootSel : Bool) : Keeps s (porstRelease s bootSel) :=
  .ite (.trans (reachTick_keeps ..) (bootStart_keeps ..)) (.refl _)

theorem tamper_keeps (s : State) (n : Nat) : Keeps s (tamper s n) := by
  unfold tamper
  extract_lets s1 _ s2 s3
  have hs1 : Keeps s s1 := .trans (wipeStart_keeps ..) (wipeStart_keeps ..)
  clear_value s1
  have hs3 : Keeps s s3 := .trans (.trans (.upd (.upd hs1 (by rfl)) (by rfl)) (boxAdd_keeps ..)) (raise_keeps ..)
  clear_value s3
  exact .ite (hs3.trans (stopRequest_keeps ..)) hs3

theorem powerFail_keeps (s : State) : Keeps s (powerFail s) := .upd (.trans (boxAdd_keeps ..) (raise_keeps ..)) (by rfl)

theorem imuDrdy_keeps (s : State) (dt : Nat) : Keeps s (imuDrdy s dt) :=
  .ite (advance_keeps ..) (.ite (.upd (advance_keeps ..) (by rfl)) (.upd (advance_keeps ..) (by rfl)))

theorem imuDone_keeps (s : State) (b : Bytes) : Keeps s (imuDone s b) := .ite (.refl _) (.ite (.same (by rfl)) (.same (by rfl)))

theorem i3cIbi_keeps (s : State) (a : Nat) (err : Option Nat) : Keeps s (i3cIbi s a err) := by
  unfold i3cIbi
  split
  · exact .refl _
  · extract_lets _
    split
    · exact .same (by rfl)
    · exact .trans (.same (by rfl)) (raise_keeps ..)

theorem setPcs_keeps (s : State) (p : Nat) (b : Bool) : Keeps s (setPcs s p b) := by
  refine .same ?_
  unfold formsOf setPcs
  dsimp only
  split <;> rfl

theorem serdesLock_keeps (s : State) (p why : Nat) : Keeps s (serdesLock s p why) := .ite (.trans (setPcs_keeps ..) (raise_keeps ..)) (.refl _)

theorem runTap_keeps {f : State → State} (h : ∀ s, Keeps s (f s)) (s : State) : Keeps s (runTap s f) :=
  .ite (.refl _) (.trans (.same (by rfl)) (h _))

theorem scanOut_keeps (s : State) (i : TapIr) (preload : Bytes) : Keeps s (scanOut s i preload) :=
  .upd (.upd (.upd (takeFree_keeps ..) (by rfl)) (by rfl)) (by rfl)

theorem jtagExtest_keeps (s : State) (preload : Bytes) : Keeps s (jtagExtest s preload) := .ite (scanOut_keeps ..) (.refl _)

theorem excludeSensors_keeps (s : State) (d : Nat) : Keeps s (excludeSensors s d) := .foldl (fun _ _ => .trans (.same (by rfl)) (raise_keeps ..)) ..

theorem goDown_keeps (s : State) (why : Nat) : Keeps s (goDown s why) := .trans (.same (by rfl)) (pointSet_keeps ..)

theorem tempDown_keeps (s : State) : Keeps s (tempDown s) := .trans (.same (by rfl)) (goDown_keeps ..)

theorem dieWarn_keeps (s : State) (d : Nat) (t : Int) : Keeps s (dieWarn s d t) := by
  unfold dieWarn
  extract_lets p counted cooled
  have hcounted : Keeps s counted := .of_limits (smap_set_wf _ _ _ _) rfl
  clear_value counted
  refine hcounted.trans (.ite (.ite (.ite (.same (by rfl)) (.same (by rfl))) (.refl _)) (.ite (.trans ?_ (tempDown_keeps _)) (.refl _)))
  exact .trans (.same (by rfl)) (raise_keeps ..)

theorem dieRead_keeps (s : State) (d : Nat) : Keeps s (dieRead s d) := by
  unfold dieRead
  extract_lets s1
  split
  · exact excludeSensors_keeps ..
  · exact .trans (.upd (excludeSensors_keeps ..) (by rfl)) (dieWarn_keeps ..)

theorem railRead_keeps (s : State) (r : Nat) : Keeps s (railRead s r) :=
  .ite (.ite (.same (by rfl)) (.same (by rfl))) (.ite (.trans (.same (by rfl)) (raise_keeps ..)) (.same (by rfl)))

theorem monitorSample_keeps (s : State) (temps : List Int) (rails : List Nat) : Keeps s (monitorSample s temps rails) := by
  unfold monitorSample
  extract_lets _ s1 s2 s3
  have hs2 : Keeps s s2 := .trans (.same (by rfl)) (.foldl (fun _ _ => dieRead_keeps ..) ..)
  clear_value s2
  have hs3 : Keeps s s3 := hs2.trans (.foldl (fun _ _ => railRead_keeps ..) ..)
  clear_value s3
  exact .ite (.trans (.upd hs3 (by rfl)) (enterSafe_keeps ..)) (.ite (.trans (.upd hs3 (by rfl)) (enterSafe_keeps ..)) (.upd hs3 (by rfl)))

theorem capAverage_keeps (s : State) (avg : Nat) : Keeps s (capAverage s avg) :=
  .ite (.trans (.same (by rfl)) (goDown_keeps ..)) (.ite (.same (by rfl)) (.same (by rfl)))

theorem capEstimate_keeps (s : State) (est : Nat) (avg : Option Nat) : Keeps s (capEstimate s est avg) := by
  unfold capEstimate
  extract_lets _ s1 s2 s3
  have hs3 : Keeps s s3 := .ite (.trans (.trans (.same (by rfl)) (goDown_keeps ..)) (raise_keeps ..)) (.same (by rfl))
  clear_value s3
  split
  · exact hs3.trans (capAverage_keeps ..)
  · exact hs3

theorem voltageDone_keeps (s : State) : Keeps s (voltageDone s) := .trans (.same (by rfl)) (pointSet_keeps ..)

theorem clockLow_keeps (s : State) : Keeps s (clockLow s) := .upd (lapse_keeps ..) (by rfl)

theorem clkFail_keeps (s : State) (src : Nat) : Keeps s (clkFail s src) :=
  .ite (.refl _) (.upd (.trans (clockLow_keeps ..) (raise_keeps ..)) (by rfl))

theorem failStopped_keeps (s : State) (src : Nat) : Keeps s (failStopped s src) := by
  unfold failStopped
  extract_lets s1
  have hs1 : Keeps s s1 := by
    dsimp only [s1]
    refine .foldl (fun s u => ?_) ..
    split
    · exact .ite (failExec_keeps ..) (.refl _)
    · exact .refl _
  clear_value s1
  exact .ite (hs1.trans (.foldl (fun _ _ => evalFail_keeps ..) ..)) hs1

theorem clkRestored_keeps (s : State) (src dt : Nat) : Keeps s (clkRestored s src dt) := by
  unfold clkRestored
  split
  · exact .refl _
  · extract_lets s1 rest lock _ c s2 s3 s4
    have hs2 : Keeps s s2 := .trans (.upd (advance_keeps ..) (by rfl)) (raise_keeps ..)
    clear_value s2
    have hs4 : Keeps s s4 := .ite (.trans (hs2.trans (failStopped_keeps ..)) (toAcquire_keeps ..)) (hs2.trans (failStopped_keeps ..))
    clear_value s4
    exact .ite (.upd hs4 (by rfl)) hs4

theorem clkTimeout_keeps (s : State) (src : Nat) : Keeps s (clkTimeout s src) := by
  unfold clkTimeout
  split
  · exact .refl _
  · exact .trans (reachTick_keeps ..) (enterSafe_keeps ..)

theorem watchFail_keeps (s : State) : Keeps s (watchFail s) :=
  .ite (.refl _) (.trans (.trans (.trans (.trans (.same (by rfl)) (clockLow_keeps ..)) (raise_keeps ..)) (advance_keeps ..))
    (enterSafeWith_keeps ..))

theorem refclkStable_keeps (s : State) : Keeps s (refclkStable s) := .ite (.upd (reachTick_keeps ..) (by rfl)) (.refl _)

theorem loadObjs_keeps (l : List (Nat × Nat)) (s : State) : Keeps s (l.foldl (fun s p => loadObj s p.1 p.2) s) :=
  .foldl (fun _ _ => loadObj_keeps ..) l s

theorem loadAll_keeps (s : State) : Keeps s (loadAll s) := by
  unfold loadAll
  extract_lets loaded
  have hloaded : Keeps s loaded := loadObjs_keeps _ s
  clear_value loaded
  exact hloaded.trans (.of_regs (fun ⟨h, _⟩ => ⟨h, h⟩) rfl)

theorem testAll_keeps (s : State) : Keeps s (testAll s) := .foldl (fun _ _ => .ite (.refl _) (unitEvent_keeps ..)) ..

theorem bootFirmware_keeps (s : State) (imageOk : Bool) : Keeps s (bootFirmware s imageOk) := by
  unfold bootFirmware
  split
  · exact .same (by rfl)
  · extract_lets img _ v _ _ _ s1 s2 s3 s4
    have hs4 : Keeps s s4 := .trans (.trans (.trans (.trans (.same (by rfl)) (gateWrite_keeps ..)) (loadAll_keeps ..)) (layOut_keeps ..))
      (ungateEnabled_keeps ..)
    clear_value s4
    exact .trans (.ite (.trans (.upd (hs4.trans (regLoad_keeps ..)) (by rfl)) (srcSelect_keeps ..)) (.upd (hs4.trans (regLoad_keeps ..))
      (by rfl))) (testAll_keeps ..)

theorem pllLockCheck_keeps (s : State) (locks : Nat) (imageOk osOk : Bool) : Keeps s (pllLockCheck s locks imageOk osOk) := by
  unfold pllLockCheck
  split
  · extract_lets s1
    split
    · exact .trans (.upd (.upd (advance_keeps ..) (by rfl)) (by rfl)) (bootFirmware_keeps ..)
    · exact .ite (.upd (.upd (advance_keeps ..) (by rfl)) (by rfl)) (.trans (.upd (.upd (advance_keeps ..) (by rfl)) (by rfl)) (raise_keeps ..))
  · exact .refl _

theorem fwWatchdog_keeps (s : State) (u : Nat) : Keeps s (fwWatchdog s u) :=
  .ite (.trans (.trans (.trans (.trans (raise_keeps ..) (countFault_keeps ..)) (faultOut_keeps ..)) (probFail_keeps ..)) (unitUpd_keeps ..))
    (.refl _)

theorem fwRefuse_keeps (s : State) (reason unit : Nat) : Keeps s (fwRefuse s reason unit) := .trans (.same (by rfl)) (raise_keeps ..)

theorem fwVerifyDone_keeps (s : State) : Keeps s (fwVerifyDone s) := by
  unfold fwVerifyDone
  split
  · exact .refl _
  · extract_lets a
    split
    · exact fwRefuse_keeps ..
    · split
      · exact fwRefuse_keeps ..
      · split
        · exact fwRefuse_keeps ..
        · split
          · refine .upd ?_ (by rfl)
            exact .same (by rfl)
          · exact .same (by rfl)

theorem fwStaged_keeps (s : State) (failed : Option Nat) : Keeps s (fwStaged s failed) := by
  unfold fwStaged
  split
  · exact .refl _
  · split
    · exact fwRefuse_keeps ..
    · exact .trans (.same (by rfl)) (raise_keeps ..)

theorem fwSwitch_keeps (s : State) : Keeps s (fwSwitch s) := by
  unfold fwSwitch
  split
  · exact .refl _
  · exact .ite (.trans (.trans (.same (by rfl)) (raise_keeps ..)) (boxAdd_keeps ..)) (.refl _)

theorem probationEnd_keeps (s : State) : Keeps s (probationEnd s) := .ite (.same (by rfl)) (.refl _)

theorem fwRollback_keeps (s : State) : Keeps s (fwRollback s) := by
  unfold fwRollback
  split
  · exact .ite (.trans (.trans (.same (by rfl)) (raise_keeps ..)) (boxAdd_keeps ..)) (.refl _)
  · exact .refl _

theorem storeNext_keeps (s : State) (k : Nat) : Keeps s (storeNext s k) := by
  unfold storeNext
  split
  · exact .same (by rfl)
  · extract_lets good up _ s1 s2 s3
    have hs3 : Keeps s s3 := .ite (.trans (.ite (.same (by rfl)) (.same (by rfl))) (raise_keeps ..)) (.ite (.same (by rfl)) (.same (by rfl)))
    clear_value s3
    exact .ite (hs3.trans (deviceReset_keeps ..)) hs3

theorem storeWriteDone_keeps (s : State) (ok : Bool) : Keeps s (storeWriteDone s ok) :=
  .ite (.refl _) (.ite (.same (by rfl)) (.ite (.upd (.ite (.same (by rfl)) (raise_keeps ..)) (by rfl)) (.trans (.ite (.same (by rfl))
    (raise_keeps ..)) (storeNext_keeps ..))))

theorem ucodeSwitch_keeps (s : State) (unstaged : Nat) : Keeps s (ucodeSwitch s unstaged) :=
  .ite (.refl _) (.ite (.ite (.same (by rfl)) (.same (by rfl))) (.trans (.same (by rfl)) (raise_keeps ..)))

theorem attestDone_keeps (s : State) : Keeps s (attestDone s) :=
  .ite (.trans (.upd (takeFreeBytes_keeps ..) (by rfl)) (raise_keeps ..)) (.refl _)

theorem answered_keeps {s : State} {x : Bool × State} (h : Keeps s x.2) : Keeps s (answered x) := h.trans (.ite (.same (by rfl)) (.same (by rfl)))

theorem provisioning_keeps (s : State) : Keeps s (provisioning s) :=
  .ite (.trans (.upd (.trans (takeFreeBytes_keeps ..) (takeFreeBytes_keeps ..)) (by rfl)) (lifeSet_keeps ..)) (.refl _)

theorem snapshot_keeps (s : State) : Keeps s (snapshot s) := .ite (.trans (.same (by rfl)) (boxAdd_keeps ..)) (.refl _)

theorem agingCheck_keeps (s : State) (l : List (Nat × Nat)) : Keeps s (agingCheck s l) :=
  .ite (.foldl (fun _ _ => .ite (.refl _) (.trans (.same (by rfl)) (raise_keeps ..))) ..) (.refl _)

theorem stepInRise_keeps (s : State) : Keeps s (stepInRise s) := .trans (.same (by rfl)) (barDrive_keeps ..)

theorem ucodeStaged_keeps (s : State) : Keeps s (ucodeStaged s) := .ite (.same (by rfl)) (.refl _)

theorem pcsLock_keeps (s : State) (p : Nat) : Keeps s (pcsLock s p) := .ite (setPcs_keeps ..) (.refl _)

theorem gptpSync_keeps (s : State) (p : Nat) (on : Bool) : Keeps s (gptpSync s p on) := by
  refine .same ?_
  unfold formsOf gptpSync
  dsimp only
  split <;> rfl

theorem csiShortPacket_keeps (s : State) (p dt : Nat) (bad : Bool) : Keeps s (csiShortPacket s p dt bad) :=
  .ite (.refl _) (.ite (csiBadHeader_keeps ..) (.ite (.refl _) (csiErrAdd_keeps ..)))

theorem escAccess_keeps (s : State) (x : EscAcc) : Keeps s (escAccess s x) := by
  unfold escAccess
  split
  · exact .same (by rfl)
  · exact .same (by rfl)
  · exact .same (by rfl)
  · exact .same (by rfl)
  · exact raise_keeps ..


/-! ### Commands and steps -/

/-- Every command ends in a state that keeps the queue and the forms. -/
theorem exec_keeps (c : Instr) (s : State) : ∃ t, exec c s = .next t ∧ Keeps s t := by
  cases c with
  | uctlEnable => exact ⟨_, rfl, runArith_keeps (fun _ => clusterCmd_keeps ..) ..⟩
  | uctlDisable => exact ⟨_, rfl, runArith_keeps (fun _ => disableCmd_keeps ..) ..⟩
  | uctlTest => exact ⟨_, rfl, runArith_keeps (fun _ => clusterCmd_keeps ..) ..⟩
  | uctlRetire => exact ⟨_, rfl, runArith_keeps (fun _ => clusterCmd_keeps ..) ..⟩
  | uctlBadCommand => exact ⟨_, rfl, runArith_keeps (fun _ => clusterCmd_keeps ..) ..⟩
  | uctlUnitSelect => exact ⟨_, rfl, runArith_keeps (fun _ => unitSelect_keeps ..) ..⟩
  | unitTestEnd => exact ⟨_, rfl, .ite (runAon_keeps (fun _ => unitTestEnd_keeps ..) ..) (run_keeps (fun _ => unitTestEnd_keeps ..) ..)⟩
  | drainComplete => exact ⟨_, rfl, runArith_keeps (fun _ => drainComplete_keeps ..) ..⟩
  | syncEdge => exact ⟨_, rfl, runArith_keeps (fun _ => syncEdge_keeps ..) ..⟩
  | phuSrcSelect => exact ⟨_, rfl, runArith_keeps (fun _ => .ite (.refl _) (srcSelect_keeps ..)) ..⟩
  | phuSrcOff => exact ⟨_, rfl, runArith_keeps (fun _ => .ite (.refl _) (srcOff_keeps ..)) ..⟩
  | captureWindowClose => exact ⟨_, rfl, runArith_keeps (fun _ => windowClose_keeps ..) ..⟩
  | coastEntry => exact ⟨_, rfl, runArith_keeps (fun _ => coastEntry_keeps ..) ..⟩
  | cycleLost => exact ⟨_, rfl, runArith_keeps (fun _ => cycleLost_keeps ..) ..⟩
  | cycleBoundary => exact ⟨_, rfl, runArith_keeps (fun _ => cycleBoundary_keeps ..) ..⟩
  | gateIssue => exact ⟨_, rfl, runArith_keeps (fun _ => gateIssue_keeps ..) ..⟩
  | heldGateIssue => exact ⟨_, rfl, runArith_keeps (fun _ => .ite (issueEight_keeps ..) (.refl _)) ..⟩
  | stepInFall => exact ⟨_, rfl, runArith_keeps (fun _ => stepInFall_keeps ..) ..⟩
  | barrierForward => exact ⟨_, rfl, runArith_keeps (fun _ => barForward_keeps ..) ..⟩
  | barrierRelease => exact ⟨_, rfl, runArith_keeps (fun _ => barRelease_keeps ..) ..⟩
  | tcSnapshotRead => exact ⟨_, rfl, runArith_keeps (fun _ => tcFreeze_keeps ..) ..⟩
  | tcFlagsRead => exact ⟨_, rfl, runArith_keeps (fun _ => .same (by rfl)) ..⟩
  | csiFrameStart => exact ⟨_, rfl, runIo_keeps (fun _ => csiFrameStart_keeps ..) ..⟩
  | csiLongPacket => exact ⟨_, rfl, runIo_keeps (fun _ => csiLongPacket_keeps ..) ..⟩
  | csiFrameEnd => exact ⟨_, rfl, runIo_keeps (fun _ => csiFrameEnd_keeps ..) ..⟩
  | framePoseReady => exact ⟨_, rfl, runArith_keeps (fun _ => framePoseReady_keeps ..) ..⟩
  | frameFusionDone => exact ⟨_, rfl, runArith_keeps (fun _ => frameFusionDone_keeps ..) ..⟩
  | versionBuildDone => exact ⟨_, rfl, runArith_keeps (fun _ => versionBuildDone_keeps ..) ..⟩
  | fusionCutoff => exact ⟨_, rfl, runArith_keeps (fun _ => fusionCutoff_keeps ..) ..⟩
  | streamStale => exact ⟨_, rfl, runArith_keeps (fun _ => streamStale_keeps ..) ..⟩
  | fovDecay => exact ⟨_, rfl, runArith_keeps (fun _ => fovDecay_keeps ..) ..⟩
  | maskMissing => exact ⟨_, rfl, runArith_keeps (fun _ => maskMissing_keeps ..) ..⟩
  | worldStale => exact ⟨_, rfl, runArith_keeps (fun _ => worldStale_keeps ..) ..⟩
  | modelInstall => exact ⟨_, rfl, runIo_keeps (fun _ => modelInstall_keeps ..) ..⟩
  | modelCancel => exact ⟨_, rfl, runIo_keeps (fun _ => modelCancel_keeps ..) ..⟩
  | modelStaged => exact ⟨_, rfl, runIo_keeps (fun _ => modelStaged_keeps ..) ..⟩
  | modelSwitch => exact ⟨_, rfl, runArith_keeps (fun _ => .trans (modelSwitch_keeps ..) (finishSwitches_keeps ..)) ..⟩
  | primInstall => exact ⟨_, rfl, runIo_keeps (fun _ => primInstall_keeps ..) ..⟩
  | primCancel => exact ⟨_, rfl, runIo_keeps (fun _ => primCancel_keeps ..) ..⟩
  | releaseCopy => exact ⟨_, rfl, runArith_keeps (fun _ => releaseCopy_keeps ..) ..⟩
  | readyStall => exact ⟨_, rfl, runArith_keeps (fun _ => readyStall_keeps ..) ..⟩
  | heldDecrement => exact ⟨_, rfl, runArith_keeps (fun _ => heldDecs_keeps ..) ..⟩
  | syncCtrWrite => exact ⟨_, rfl, runApp_keeps (fun _ => .upd (syncCtrWrite_keeps ..) (by rfl)) ..⟩
  | taskClaim => exact ⟨_, rfl, runArith_keeps (fun _ => claim_keeps ..) ..⟩
  | taskStart => exact ⟨_, rfl, runArith_keeps (fun _ => beginTask_keeps ..) ..⟩
  | taskComplete => exact ⟨_, rfl, runClocked_keeps (fun _ => taskComplete_keeps ..) ..⟩
  | taskCheckFail => exact ⟨_, rfl, runClocked_keeps (fun _ => checkFail_keeps ..) ..⟩
  | budgetOverrun => exact ⟨_, rfl, runArith_keeps (fun _ => budgetOverrun_keeps ..) ..⟩
  | endMissed => exact ⟨_, rfl, runArith_keeps (fun _ => endMissed_keeps ..) ..⟩
  | huskSupervision => exact ⟨_, rfl, runArith_keeps (fun _ => huskSupervision_keeps ..) ..⟩
  | queuePush => exact ⟨_, rfl, runArith_keeps (fun _ => queuePush_keeps ..) ..⟩
  | queuePop => exact ⟨_, rfl, runArith_keeps (fun _ => queuePop_keeps ..) ..⟩
  | queuePushResume => exact ⟨_, rfl, runArith_keeps (fun _ => queueResume_keeps ..) ..⟩
  | queueStall => exact ⟨_, rfl, runArith_keeps (fun _ => queueStall_keeps ..) ..⟩
  | podBatchStart => exact ⟨_, rfl, runArith_keeps (fun _ => podBatchStart_keeps ..) ..⟩
  | probeRetire => exact ⟨_, rfl, runPods_keeps (fun _ => probeRetire_keeps ..) ..⟩
  | podBatchComplete => exact ⟨_, rfl, runPods_keeps (fun _ => podBatchComplete_keeps ..) ..⟩
  | stealRequest => exact ⟨_, rfl, runArith_keeps (fun _ => stealRequest_keeps ..) ..⟩
  | stealServe => exact ⟨_, rfl, runPods_keeps (fun _ => stealServe_keeps ..) ..⟩
  | stealReply => exact ⟨_, rfl, runPods_keeps (fun _ => stealReply_keeps ..) ..⟩
  | cacheRefillDone => exact ⟨_, rfl, runPods_keeps (fun _ => cacheRefill_keeps ..) ..⟩
  | ethFrameRx => exact ⟨_, rfl, runIo_keeps (fun _ => ethFrameRx_keeps ..) ..⟩
  | intentAdmit => exact ⟨_, rfl, runArith_keeps (fun _ => intentAdmit_keeps ..) ..⟩
  | intentCompileDone => exact ⟨_, rfl, runArith_keeps (fun _ => intentCompileDone_keeps ..) ..⟩
  | publication => exact ⟨_, rfl, runArith_keeps (fun _ => publication_keeps ..) ..⟩
  | departureCommand => exact ⟨_, rfl, runIo_keeps (fun _ => departure_keeps ..) ..⟩
  | sakInstall => exact ⟨_, rfl, runIo_keeps (fun _ => sakInstall_keeps ..) ..⟩
  | weightInstall => exact ⟨_, rfl, runIo_keeps (fun _ => weightInstall_keeps ..) ..⟩
  | weightCancel => exact ⟨_, rfl, runIo_keeps (fun _ => .same (by rfl)) ..⟩
  | weightCheckDone => exact ⟨_, rfl, runIo_keeps (fun _ => weightCheckDone_keeps ..) ..⟩
  | planInstall => exact ⟨_, rfl, runIo_keeps (fun _ => planInstall_keeps ..) ..⟩
  | planCancel => exact ⟨_, rfl, runIo_keeps (fun _ => planCancel_keeps ..) ..⟩
  | planVerifyDone => exact ⟨_, rfl, runIo_keeps (fun _ => planVerifyDone_keeps ..) ..⟩
  | planSwitch => exact ⟨_, rfl, runArith_keeps (fun _ => .trans (planSwitch_keeps ..) (finishSwitches_keeps ..)) ..⟩
  | paramEdit => exact ⟨_, rfl, runDrv_keeps (fun _ => paramEdit_keeps ..) ..⟩
  | busAccess => exact ⟨_, rfl, runApp_keeps (fun _ => .ite (.refl _) (busAccess_keeps ..)) ..⟩
  | memStallLimit => exact ⟨_, rfl, runArith_keeps (fun _ => bankStall_keeps ..) ..⟩
  | bgtestRegionStart => exact ⟨_, rfl, runArith_keeps (fun _ => bgStart_keeps ..) ..⟩
  | bgtestRegionDone => exact ⟨_, rfl, runArith_keeps (fun _ => bgDone_keeps ..) ..⟩
  | secureWipeDone => exact ⟨_, rfl, runArith_keeps (fun _ => wipeDone_keeps ..) ..⟩
  | ddrScrubTick => exact ⟨_, rfl, runMem_keeps (fun _ => scrubTick_keeps ..) ..⟩
  | ddrRefresh => exact ⟨_, rfl, runMem_keeps (fun _ => ddrRefresh_keeps ..) ..⟩
  | ddrRfmRequest => exact ⟨_, rfl, runMem_keeps (fun _ => ddrRfm_keeps ..) ..⟩
  | ddrZqCal => exact ⟨_, rfl, runMem_keeps (fun _ => ddrZq_keeps ..) ..⟩
  | ddrOscMeasure => exact ⟨_, rfl, runMem_keeps (fun _ => ddrOsc_keeps ..) ..⟩
  | ddrChannelFail => exact ⟨_, rfl, run_keeps (fun _ => chanFail_keeps ..) ..⟩
  | chardPush => exact ⟨_, rfl, runArith_keeps (fun _ => chardPush_keeps ..) ..⟩
  | chardVerdict => exact ⟨_, rfl, runArith_keeps (fun _ => chardDone_keeps ..) ..⟩
  | comparison => exact ⟨_, rfl, runArith_keeps (fun _ => comparison_keeps ..) ..⟩
  | permitBToggle => exact ⟨_, rfl, runArith_keeps (fun _ => permitBToggle_keeps ..) ..⟩
  | fsoeFrameRx => exact ⟨_, rfl, runIo_keeps (fun _ => fsoeFrame_keeps ..) ..⟩
  | fsoeWatchdog => exact ⟨_, rfl, runAon_keeps (fun _ => fsoeReset_keeps ..) ..⟩
  | hskStopRequest => exact ⟨_, rfl, runApp_keeps (fun _ => .upd (stopRequest_keeps ..) (by rfl)) ..⟩
  | hskStopRelease => exact ⟨_, rfl, runApp_keeps (fun _ => .same (by rfl)) ..⟩
  | sparamUnlock => exact ⟨_, rfl, runIo_keeps (fun _ => withCoe_keeps (fun _ => sparUnlock_keeps ..) ..) ..⟩
  | sparamStage => exact ⟨_, rfl, runIo_keeps (fun _ => withCoe_keeps (fun _ => sparStage_keeps ..) ..) ..⟩
  | sparamConfirm => exact ⟨_, rfl, runIo_keeps (fun _ => withCoe_keeps (fun _ => sparConfirm_keeps ..) ..) ..⟩
  | sparamTimeout => exact ⟨_, rfl, runIo_keeps (fun _ => sparTimeout_keeps ..) ..⟩
  | safeState => exact ⟨_, rfl, runAon_keeps (fun _ => safeDetect_keeps ..) ..⟩
  | rotationStep => exact ⟨_, rfl, runArith_keeps (fun _ => rotationStep_keeps ..) ..⟩
  | goldenSlotOpen => exact ⟨_, rfl, runArith_keeps (fun _ => goldenSlotOpen_keeps ..) ..⟩
  | goldenBatchStart => exact ⟨_, rfl, runArith_keeps (fun _ => goldenBatchStart_keeps ..) ..⟩
  | goldenBatchDone => exact ⟨_, rfl, runArith_keeps (fun _ => goldenBatchDone_keeps ..) ..⟩
  | goldenSlotClose => exact ⟨_, rfl, runArith_keeps (fun _ => goldenSlotClose_keeps ..) ..⟩
  | checkpoint => exact ⟨_, rfl, runArith_keeps (fun _ => checkpoint_keeps ..) ..⟩
  | alStateRequest => exact ⟨_, rfl, runEcat_keeps (fun _ => alRequest_keeps ..) ..⟩
  | sm2Watchdog => exact ⟨_, rfl, runIo_keeps (fun _ => sm2Watchdog_keeps ..) ..⟩
  | sdoUpload => exact ⟨_, rfl, runIo_keeps (fun _ => withCoe_keeps (fun _ => sdoUpload_keeps ..) ..) ..⟩
  | sdoDownload => exact ⟨_, rfl, runIo_keeps (fun _ => withCoe_keeps (fun _ => sdoDownload_keeps ..) ..) ..⟩
  | sdoInfo => exact ⟨_, rfl, runIo_keeps (fun _ => withCoe_keeps (fun _ => sdoInfo_keeps ..) ..) ..⟩
  | driverObjRead => exact ⟨_, rfl, runDrv_keeps (fun _ => drvRead_keeps ..) ..⟩
  | driverObjWrite => exact ⟨_, rfl, runDrv_keeps (fun _ => drvEnd_keeps (writeOne_keeps ..)) ..⟩
  | rxpdoBufferDone => exact ⟨_, rfl, runEcat_keeps (fun _ => rxDone_keeps ..) ..⟩
  | foeWriteOpen => exact ⟨_, rfl, runEcat_keeps (fun _ => withFoe_keeps (fun _ => foeOpen_keeps ..) ..) ..⟩
  | foeData => exact ⟨_, rfl, runEcat_keeps (fun _ => withFoe_keeps (fun _ => foeData_keeps ..) ..) ..⟩
  | foeRead => exact ⟨_, rfl, runEcat_keeps (fun _ => withFoe_keeps (fun _ => foeRead_keeps ..) ..) ..⟩
  | ecatLinkChange => exact ⟨_, rfl, runIo_keeps (fun _ => ecatLink_keeps ..) ..⟩
  | siiWrite => exact ⟨_, rfl, runEcat_keeps (fun _ => raise_keeps ..) ..⟩
  | storeParameters => exact ⟨_, rfl, runIo_keeps (fun _ => .same (by rfl)) ..⟩
  | restoreDefaults => exact ⟨_, rfl, runIo_keeps (fun _ => .same (by rfl)) ..⟩
  | deviceResetCommand => exact ⟨_, rfl, runIo_keeps (fun _ => sdoEnd_keeps (resetCommand_keeps ..)) ..⟩
  | aonPorstLow => exact ⟨_, rfl, aonPorstLow_keeps ..⟩
  | aonPorstRelease => exact ⟨_, rfl, aonPorstRelease_keeps ..⟩
  | porstLow => exact ⟨_, rfl, .ite (porstLow_keeps ..) (.refl _)⟩
  | porstRelease => exact ⟨_, rfl, runAon_keeps (fun _ => porstRelease_keeps ..) ..⟩
  | tamper => exact ⟨_, rfl, runAon_keeps (fun _ => tamper_keeps ..) ..⟩
  | powerFail => exact ⟨_, rfl, run_keeps (fun _ => powerFail_keeps ..) ..⟩
  | imuDrdy => exact ⟨_, rfl, runIo_keeps (fun _ => imuDrdy_keeps ..) ..⟩
  | imuSampleDone => exact ⟨_, rfl, runIo_keeps (fun _ => imuDone_keeps ..) ..⟩
  | i3cIbi => exact ⟨_, rfl, runIo_keeps (fun _ => i3cIbi_keeps ..) ..⟩
  | serdesLock => exact ⟨_, rfl, runIo_keeps (fun _ => serdesLock_keeps ..) ..⟩
  | trstLow => exact ⟨_, rfl, runTap_keeps (fun _ => .same (by rfl)) ..⟩
  | jtagIdcode => exact ⟨_, rfl, runTap_keeps (fun _ => .same (by rfl)) ..⟩
  | jtagBypass => exact ⟨_, rfl, runTap_keeps (fun _ => .same (by rfl)) ..⟩
  | jtagSamplePreload => exact ⟨_, rfl, runTap_keeps (fun _ => scanOut_keeps ..) ..⟩
  | jtagExtest => exact ⟨_, rfl, runTap_keeps (fun _ => jtagExtest_keeps ..) ..⟩
  | monitorSample => exact ⟨_, rfl, runAon_keeps (fun _ => .ite (monitorSample_keeps ..) (.refl _)) ..⟩
  | capEstimate => exact ⟨_, rfl, run_keeps (fun _ => capEstimate_keeps ..) ..⟩
  | pmicVoltageDone => exact ⟨_, rfl, runIo_keeps (fun _ => voltageDone_keeps ..) ..⟩
  | clkFail => exact ⟨_, rfl, run_keeps (fun _ => clkFail_keeps ..) ..⟩
  | clkRestored => exact ⟨_, rfl, run_keeps (fun _ => clkRestored_keeps ..) ..⟩
  | clkTimeout => exact ⟨_, rfl, run_keeps (fun _ => clkTimeout_keeps ..) ..⟩
  | watchOscFail => exact ⟨_, rfl, runAon_keeps (fun _ => watchFail_keeps ..) ..⟩
  | refclkStable => exact ⟨_, rfl, runAon_keeps (fun _ => refclkStable_keeps ..) ..⟩
  | pllLockCheck => exact ⟨_, rfl, runAon_keeps (fun _ => pllLockCheck_keeps ..) ..⟩
  | pstateRequest => exact ⟨_, rfl, runIo_keeps (fun _ => sdoEnd_keeps (writeOne_keeps ..)) ..⟩
  | cpmGateWrite => exact ⟨_, rfl, run_keeps (fun _ => .ite (.refl _) (gateWrite_keeps ..)) ..⟩
  | fwWatchdog => exact ⟨_, rfl, runIo_keeps (fun _ => fwWatchdog_keeps ..) ..⟩
  | fwInstall => exact ⟨_, rfl, runIo_keeps (fun _ => fwInstall_keeps ..) ..⟩
  | fwCancel => exact ⟨_, rfl, runIo_keeps (fun _ => fwCancel_keeps ..) ..⟩
  | fwEndProbation => exact ⟨_, rfl, runIo_keeps (fun _ => fwEndProbation_keeps ..) ..⟩
  | fwVerifyDone => exact ⟨_, rfl, runIo_keeps (fun _ => fwVerifyDone_keeps ..) ..⟩
  | fwStaged => exact ⟨_, rfl, runIo_keeps (fun _ => fwStaged_keeps ..) ..⟩
  | fwSwitch => exact ⟨_, rfl, runIo_keeps (fun _ => fwSwitch_keeps ..) ..⟩
  | probationEnd => exact ⟨_, rfl, runIo_keeps (fun _ => probationEnd_keeps ..) ..⟩
  | fwRollback => exact ⟨_, rfl, runIo_keeps (fun _ => fwRollback_keeps ..) ..⟩
  | storeWriteDone => exact ⟨_, rfl, runIo_keeps (fun _ => storeWriteDone_keeps ..) ..⟩
  | ucodeSwitchCommand => exact ⟨_, rfl, runIo_keeps (fun _ => ucodeCommand_keeps ..) ..⟩
  | ucodeCancel => exact ⟨_, rfl, runIo_keeps (fun _ => ucodeCancel_keeps ..) ..⟩
  | ucodeSwitch => exact ⟨_, rfl, runIo_keeps (fun _ => ucodeSwitch_keeps ..) ..⟩
  | attestRequest => exact ⟨_, rfl, runIo_keeps (fun _ => .same (by rfl)) ..⟩
  | attestDone => exact ⟨_, rfl, runIo_keeps (fun _ => attestDone_keeps ..) ..⟩
  | lifecycleCommand => exact ⟨_, rfl, runIo_keeps (fun _ => answered_keeps (lifeCommand_keeps ..)) ..⟩
  | planKeyWrite => exact ⟨_, rfl, runIo_keeps (fun _ => answered_keeps (planKeyWrite_keeps ..)) ..⟩
  | provisioning => exact ⟨_, rfl, runIo_keeps (fun _ => provisioning_keeps ..) ..⟩
  | telemetrySnapshot => exact ⟨_, rfl, runIo_keeps (fun _ => snapshot_keeps ..) ..⟩
  | agingCheck => exact ⟨_, rfl, runIo_keeps (fun _ => agingCheck_keeps ..) ..⟩
  | stepInRise => exact ⟨_, rfl, runArith_keeps (fun _ => stepInRise_keeps ..) ..⟩
  | ucodeStaged => exact ⟨_, rfl, runIo_keeps (fun _ => ucodeStaged_keeps ..) ..⟩
  | appClusterReset => exact ⟨_, rfl, run_keeps (fun _ => .refl _) ..⟩
  | laneSync => exact ⟨_, rfl, runIo_keeps (fun _ => .same (by rfl)) ..⟩
  | pcsLock => exact ⟨_, rfl, runIo_keeps (fun _ => pcsLock_keeps ..) ..⟩
  | gptpSync => exact ⟨_, rfl, runIo_keeps (fun _ => gptpSync_keeps ..) ..⟩
  | csiShortPacket => exact ⟨_, rfl, runIo_keeps (fun _ => csiShortPacket_keeps ..) ..⟩
  | escRegisterAccess => exact ⟨_, rfl, runEcat_keeps (fun _ => escAccess_keeps ..) ..⟩
  | pointFragment =>
    refine ⟨_, rfl, ?_⟩
    refine runIo_keeps (fun s => ?_) ..
    split
    · exact .ite (fragmentCsi_keeps ..) (.refl _)
    · exact fragmentUdp_keeps ..
  | registerWrite =>
    refine ⟨_, rfl, ?_⟩
    split
    · exact runApp_keeps (fun _ => registerWrite_keeps ..) ..
    · exact .ite (runArith_keeps (fun _ => registerWrite_keeps ..) ..) (.refl _)

/-- Settles O57: every command keeps the queue. -/
theorem commandsKeepQueue : Obligations.CommandsKeepQueue := by
  intro s t c h
  obtain ⟨u, hu, hkeeps⟩ := exec_keeps c s
  cases h.symm.trans hu
  exact hkeeps.pending

/-- Settles O59: an idle clk and every command keep the forms. -/
theorem stepKeepsMemoryForm : Obligations.StepKeepsMemoryForm := by
  intro s t h
  rcases step_next_cases h with rfl | ⟨c, rest, -, hexec⟩
  · obtain ⟨-, hmem, hunits, hregs, hpods, hstreams, hlimits⟩ := advance_keeps s (ticksPerClk s)
    exact ⟨hmem, hunits, hregs, hpods, hstreams, hlimits⟩
  · obtain ⟨u, hu, -, hmem, hunits, hregs, hpods, hstreams, hlimits⟩ := exec_keeps c { s with pending := rest }
    cases hexec.symm.trans hu
    exact ⟨hmem, hunits, hregs, hpods, hstreams, hlimits⟩

end Sys2Proof.Machine

/-!
What follows a boundary's switches (R39, R106, R301): the work of a gate, the latch of the candidates and the record's refresh leave the plan, the
model and the cycle as they are; and the proofs of ModelSwitchExchangesBanks and PlanSwitchRunsNewImage.
-/
namespace Sys2Proof.Machine

/-! ### What the work of a cycle leaves unchanged -/

/-- The model's installation: the models, its status and its generation. -/
def modelKept (m : ModelSt) : Option Model × Option Model × Option Model × Inst × Nat × Nat × Nat :=
  (m.cur, m.old, m.pend, m.status, m.reason, m.deferrals, m.gen)

/-- The cycle: its number, its status, its times, and what the next boundary takes up. -/
def cycleKept (p : Phu) : PhuSt × Nat × Option Nat × Bool × Nat × Nat × Tc × Option Nat × List Nat :=
  (p.st, p.cycle, p.cycleLoad, p.everTracked, p.bcount, p.status, p.tc, p.aligning, p.waitEdge)

def switchKept (s : State) := (s.plan, modelKept s.model, cycleKept s.phu, s.det.replay, s.od.pendW)

/-- The form of the registers and DET_CTRL, which only the cluster, the objects and replay write. -/
def CtrlKept (m m' : Smap (BitVec 32)) : Prop :=
  Smap.wf regReset m = true → Smap.wf regReset m' = true ∧ Smap.get regReset m' Reg.detCtrl = Smap.get regReset m Reg.detCtrl

/-- The plan, the model's installation, the cycle, the writes that wait and DET_CTRL stand, and records are only added to those that wait. -/
structure SwitchFrame (s t : State) : Prop where
  kept : switchKept t = switchKept s
  added : ∃ l, t.logs.buf = s.logs.buf ++ l
  ctrl : CtrlKept s.regs t.regs

/-- What an update of other fields leaves. -/
def switchForms (s : State) := (switchKept s, s.logs.buf, s.regs)

namespace SwitchFrame

theorem same {s t : State} (h : switchForms t = switchForms s) : SwitchFrame s t :=
  ⟨congrArg (·.1) h, ⟨[], by rw [List.append_nil]; exact congrArg (·.2.1) h⟩, by
    have hregs : t.regs = s.regs := congrArg (·.2.2) h
    exact fun hwf => by rw [hregs]; exact ⟨hwf, rfl⟩⟩

theorem refl (s : State) : SwitchFrame s s := .same rfl

theorem trans {s t u : State} (h : SwitchFrame s t) (h' : SwitchFrame t u) : SwitchFrame s u :=
  ⟨h'.kept.trans h.kept, added_trans h.added h'.added, fun hwf =>
    have hmid := h.ctrl hwf
    have hend := h'.ctrl hmid.1
    ⟨hend.1, hend.2.trans hmid.2⟩⟩

/-- A step, and then an update of other fields. -/
theorem upd {s t : State} (h : SwitchFrame s t) {now : Nat} {clk : ClkSt} {units : Smap UnitRec} {regs regsF : Smap (BitVec 32)}
    {cmdResult : Nat} {phu : Phu} {sched : Sched} {plan : PlanSt} {mem : Mem} {world : World} {model : ModelSt} {cand : CandSt} {pod : PodSt}
    {peers : PeerSt} {sel : SelSt} {psn : PsnSt} {cob : CobSt} {diag : Diag} {logs : Logs} {safety : Safety} {det : Det} {od : Od} {cpm : Cpm}
    {pins : Pins} {svc : Svc} {resp : Resp} {freeCtr : Nat}
    (hforms : (plan, modelKept model, cycleKept phu, det.replay, od.pendW, logs.buf, regs) =
      (t.plan, modelKept t.model, cycleKept t.phu, t.det.replay, t.od.pendW, t.logs.buf, t.regs)) :
    SwitchFrame s { t with
      now := now, clk := clk, units := units, regs := regs, regsF := regsF, cmdResult := cmdResult, phu := phu, sched := sched, plan := plan
      mem := mem, world := world, model := model, cand := cand, pod := pod, peers := peers, sel := sel, psn := psn, cob := cob, diag := diag
      logs := logs, safety := safety, det := det, od := od, cpm := cpm, pins := pins, svc := svc, resp := resp, freeCtr := freeCtr } := by
  simp only [Prod.mk.injEq] at hforms
  obtain ⟨hplan, hmodel, hphu, hreplay, hpend, hlogs, hregs⟩ := hforms
  exact h.trans (.same (by simp only [switchForms, switchKept, hplan, hmodel, hphu, hreplay, hpend, hlogs, hregs]))

theorem ite {s t u : State} {p : Prop} [Decidable p] (h : SwitchFrame s t) (h' : SwitchFrame s u) : SwitchFrame s (if p then t else u) := by
  split
  · exact h
  · exact h'

theorem foldl {α : Type} {f : State → α → State} (h : ∀ s x, SwitchFrame s (f s x)) (l : List α) (s : State) : SwitchFrame s (l.foldl f s) := by
  induction l generalizing s with
  | nil => exact refl s
  | cons x l ih => exact (h s x).trans (ih (f s x))

/-- The state that comes with a value. -/
theorem of_snd {α : Type} {s t : State} {a : α} {p : α × State} (h : p = (a, t)) (hp : SwitchFrame s p.2) : SwitchFrame s t := by
  rw [h] at hp
  exact hp

theorem plan {s t : State} (h : SwitchFrame s t) : t.plan = s.plan := congrArg (·.1) h.kept
theorem model {s t : State} (h : SwitchFrame s t) : modelKept t.model = modelKept s.model := congrArg (·.2.1) h.kept
theorem cycle {s t : State} (h : SwitchFrame s t) : cycleKept t.phu = cycleKept s.phu := congrArg (·.2.2.1) h.kept
theorem replay {s t : State} (h : SwitchFrame s t) : t.det.replay = s.det.replay := congrArg (·.2.2.2.1) h.kept
theorem pendW {s t : State} (h : SwitchFrame s t) : t.od.pendW = s.od.pendW := congrArg (·.2.2.2.2) h.kept

end SwitchFrame

/-- A write of another register than DET_CTRL. -/
theorem regSet_switchFrame (s : State) (o v : Nat) (h : Reg.detCtrl ≠ o) : SwitchFrame s (regSet s o v) :=
  ⟨rfl, ⟨[], (List.append_nil _).symm⟩, fun hwf => ⟨smap_set_wf regReset _ _ _ hwf, smap_get_set_other regReset s.regs 0 _ _ _ hwf h⟩⟩

theorem regCount_switchFrame (s : State) (o : Nat) (h : Reg.detCtrl ≠ o) : SwitchFrame s (regCount s o) := regSet_switchFrame _ _ _ h

theorem w1cSet_switchFrame (s : State) (o i : Nat) (h : Reg.detCtrl ≠ o) : SwitchFrame s (w1cSet s o i) :=
  .upd (regSet_switchFrame _ _ _ h) (by rfl)

/-- No event register is DET_CTRL. -/
theorem eventBits_reg (code stack : Nat) : ∀ p ∈ eventBits code stack, Reg.detCtrl ≠ p.1 := by
  have hone {o i : Nat} (h : Reg.detCtrl ≠ o) : ∀ p ∈ [(o, i)], Reg.detCtrl ≠ p.1 := fun p hp => by rwa [List.mem_singleton.mp hp]
  have hstack : Reg.detCtrl ≠ Reg.onionEvent + 0x10000 * stack := by
    simp only [Reg.detCtrl, Reg.onionEvent]
    omega
  unfold eventBits
  extract_lets i
  split
  case h_8 =>
    split
    · exact hone hstack
    · exact hone (by decide)
  case h_9 =>
    split
    · exact List.forall_mem_cons.mpr ⟨show Reg.detCtrl ≠ Reg.sscEvent by decide, hone (by decide)⟩
    · exact hone (by decide)
  case h_14 =>
    split
    · exact hone (by decide)
    · exact fun p hp => absurd hp List.not_mem_nil
  case h_15 => exact fun p hp => absurd hp List.not_mem_nil
  all_goals exact hone (by decide)

theorem setEventBits_switchFrame (s : State) (l : List (Nat × Nat)) (h : ∀ p ∈ l, Reg.detCtrl ≠ p.1) : SwitchFrame s (setEventBits s l) := by
  induction l generalizing s with
  | nil => exact .refl s
  | cons p l ih =>
    exact (w1cSet_switchFrame s p.1 p.2 (h p List.mem_cons_self)).trans (ih _ (fun q hq => h q (List.mem_cons_of_mem _ hq)))

theorem raiseX_switchFrame (s : State) (stack code unit d0 d1 d2 d3 : Nat) : SwitchFrame s (raiseX s stack code unit d0 d1 d2 d3) := by
  unfold raiseX
  extract_lets r
  have hraised : SwitchFrame s { s with logs := { s.logs with buf := s.logs.buf ++ [r] } } := ⟨rfl, ⟨[r], rfl⟩, fun hwf => ⟨hwf, rfl⟩⟩
  exact hraised.trans (setEventBits_switchFrame _ _ (eventBits_reg _ _))

/-! ### The functions of the model, those first that others call -/

theorem advance_switchFrame (s : State) (dt : Nat) : SwitchFrame s (advance s dt) := .ite (.same (by rfl)) (.same (by rfl))

theorem nextClk_switchFrame (s : State) : SwitchFrame s (nextClk s) := advance_switchFrame ..

theorem ownClk_switchFrame (s : State) (a : ClkAct) : SwitchFrame s (ownClk s a) := .upd (.ite (nextClk_switchFrame ..) (.refl _)) (by rfl)

theorem raiseOnion_switchFrame (s : State) (stack code unit d0 d1 : Nat) : SwitchFrame s (raiseOnion s stack code unit d0 d1) :=
  raiseX_switchFrame ..

theorem decOne_switchFrame (a : ClkAcc) (d : Decr) : SwitchFrame a.st (decOne a d).st := by
  unfold decOne
  dsimp only
  split
  · exact .refl _
  · split
    · exact .trans (.same (by rfl)) (raiseOnion_switchFrame ..)
    · split
      · split <;> exact .same (by rfl)
      · exact .same (by rfl)

theorem decOne_foldl_switchFrame (l : List Decr) (a : ClkAcc) : SwitchFrame a.st (l.foldl decOne a).st := by
  induction l generalizing a with
  | nil => exact .refl _
  | cons d l ih => exact (decOne_switchFrame a d).trans (ih (decOne a d))

theorem queueRelease_switchFrame (s : State) (n : Nat) : SwitchFrame s (queueRelease s n) := .ite (.same (by rfl)) (.same (by rfl))

theorem clkDecs_switchFrame (s : State) (gates others : List Decr) : SwitchFrame s (clkDecs s gates others) := by
  unfold clkDecs
  extract_lets c held stay go sched cleared l old a released h0 h1 hm hm'
  have hcleared : SwitchFrame s cleared := .same (by rfl)
  have ha : SwitchFrame s a.st := hcleared.trans (decOne_foldl_switchFrame l { st := cleared, used := c.dec, rel := c.rel, wait := stay })
  exact .upd (ha.trans (.foldl (fun _ _ => queueRelease_switchFrame ..) ..)) (by rfl)

theorem issueEight_switchFrame (s : State) : SwitchFrame s (issueEight s) :=
  .ite (.refl _) (.trans (.upd (ownClk_switchFrame ..) (by rfl)) (clkDecs_switchFrame ..))

theorem raise_switchFrame (s : State) (code unit d0 d1 : Nat) : SwitchFrame s (raise s code unit d0 d1) := raiseX_switchFrame ..

theorem tableClear_switchFrame (s : State) (x : SelArgs) (l : List (Nat × Nat)) : SwitchFrame s (tableClear s x l) :=
  .foldl (fun _ _ => .same (by rfl)) ..

theorem selDrop_switchFrame (s : State) (param cycle : Nat) : SwitchFrame s (selDrop s param cycle) :=
  .ite (.ite (.upd (tableClear_switchFrame ..) (by rfl)) (.refl _)) (.upd (.ite (.upd (tableClear_switchFrame ..) (by rfl)) (.refl _)) (by rfl))

theorem selEnd_switchFrame (s : State) (k : SelWhich) : SwitchFrame s (selEnd s k) := by
  unfold selEnd
  extract_lets l rs done s1 s2
  have hs2 : SwitchFrame s s2 := .trans (raise_switchFrame ..) (.foldl (fun _ _ => selDrop_switchFrame ..) ..)
  clear_value s2
  split
  · exact .refl _
  · split
    · exact .upd (.upd hs2 (by rfl)) (by rfl)
    · exact .upd (.upd hs2 (by rfl)) (by rfl)
    · exact .upd hs2 (by rfl)

theorem outsideEvent_switchFrame (s : State) : SwitchFrame s (outsideEvent s) := .ite (.refl _) (.trans (.same (by rfl)) (raise_switchFrame ..))

theorem evalImposed_switchFrame (s : State) : SwitchFrame s (evalImposed s) :=
  .ite (.trans (.upd (.trans (.same (by rfl)) (regCount_switchFrame _ _ (by decide))) (by rfl)) (raise_switchFrame ..)) (.refl _)

theorem lateUnstarted_switchFrame (s : State) (t : Task) : SwitchFrame s (lateUnstarted s t) := .ite (raiseOnion_switchFrame ..) (.refl _)

theorem endFailed_switchFrame (s : State) (t : Task) (unit : Nat) : SwitchFrame s (endFailed s t unit) := clkDecs_switchFrame ..

theorem evalFail_switchFrame (s : State) (e : Eval) (unit : Nat) : SwitchFrame s (evalFail s e unit) :=
  .trans (.same (by rfl)) (endFailed_switchFrame ..)

theorem evalMiss_switchFrame (s : State) (stage : Nat) (e : Eval) : SwitchFrame s (evalMiss s stage e) := by
  unfold evalMiss
  extract_lets _ s1 _ s2 _ s3 _ s4 s5
  have hs2 : SwitchFrame s s2 := .ite (.trans (.same (by rfl)) (raise_switchFrame ..)) (.trans (.upd (.trans (.same (by rfl))
    (raise_switchFrame ..)) (by rfl)) (regCount_switchFrame _ _ (by decide)))
  clear_value s2
  have hs5 : SwitchFrame s s5 := .ite (.upd (.ite (.upd hs2 (by rfl)) hs2) (by rfl)) (.trans (.upd (.ite (.upd hs2 (by rfl)) hs2) (by rfl))
    (lateUnstarted_switchFrame ..))
  clear_value s5
  exact .trans (hs5.trans (raiseOnion_switchFrame ..)) (evalFail_switchFrame ..)

theorem recheckEnd_switchFrame (s : State) : SwitchFrame s (recheckEnd s) :=
  .trans (.ite (evalImposed_switchFrame ..) (.foldl (fun _ _ => evalMiss_switchFrame ..) ..)) (outsideEvent_switchFrame ..)

theorem recallOne_switchFrame (s : State) (cls stack lvl : Nat) : SwitchFrame s (recallOne s cls stack lvl) := by
  unfold recallOne
  split
  · exact .refl _
  · split
    · split
      · exact .same (by rfl)
      · exact .refl _
    · exact .refl _

theorem readyHead_switchFrame (s : State) (t : Task) : SwitchFrame s (readyHead s t) := .trans (.same (by rfl)) (recallOne_switchFrame ..)

theorem startCheck_switchFrame (s : State) (t : Task) (u : Nat) : SwitchFrame s (startCheck s t u) := .ite (raiseOnion_switchFrame ..) (.refl _)

theorem failTask_switchFrame (s : State) (t : Task) (unit : Nat) : SwitchFrame s (failTask s t unit) :=
  .ite (.trans (.ite (.same (by rfl)) (.refl _)) (readyHead_switchFrame ..)) (endFailed_switchFrame ..)

theorem beginTask_switchFrame (fuel : Nat) (s : State) (u : Nat) : SwitchFrame s (beginTask fuel s u) := by
  induction fuel generalizing s with
  | zero => exact .refl s
  | succ fuel ih =>
    unfold beginTask
    split
    · exact .refl s
    · next t _ =>
      split
      · exact .refl s
      · have checked := startCheck_switchFrame s t u
        dsimp only
        split
        · exact checked.trans (.same (by rfl))
        · refine checked.trans (.trans ?_ ((failTask_switchFrame ..).trans (ih _)))
          exact (raise_switchFrame ..).trans (.same (by rfl))

theorem busyAdd_switchFrame (s : State) (u n : Nat) : SwitchFrame s (busyAdd s u n) := by
  unfold busyAdd
  extract_lets f
  split
  · exact .same (by rfl)
  · exact .same (by rfl)
  · exact .refl _

theorem noteBusy_switchFrame (s : State) (u : Nat) : SwitchFrame s (noteBusy s u) := by
  unfold noteBusy
  split
  · exact .ite (busyAdd_switchFrame ..) (.refl _)
  · exact .refl _

theorem slotNext_switchFrame (s : State) (u : Nat) : SwitchFrame s (slotNext s u) :=
  .trans (.upd (noteBusy_switchFrame ..) (by rfl)) (beginTask_switchFrame ..)

theorem takeFree_switchFrame (s : State) : SwitchFrame s (takeFree s).2 := .same (by rfl)

theorem freeIters_switchFrame (s : State) (t : Task) : SwitchFrame s (freeIters s t).2 := by
  unfold freeIters
  split
  · exact takeFree_switchFrame ..
  · exact .refl _

theorem cutRun_switchFrame (s : State) (t : Task) (unit : Nat) : SwitchFrame s (cutRun s t unit).2 :=
  .upd (.upd (freeIters_switchFrame ..) (by rfl)) (by rfl)

theorem psnDiscard_switchFrame (s : State) (u : Nat) (t : Task) (iters : Nat) : SwitchFrame s (psnDiscard s u t iters) := by
  unfold psnDiscard
  extract_lets s1
  split
  · exact .upd (raise_switchFrame ..) (by rfl)
  · exact .upd (raise_switchFrame ..) (by rfl)
  · exact raise_switchFrame ..

theorem failRun_switchFrame (s : State) (t : Task) (unit : Nat) : SwitchFrame s (failRun s t unit) :=
  .ite (.trans (.ite (.trans (cutRun_switchFrame ..) (psnDiscard_switchFrame ..)) (cutRun_switchFrame ..)) (failTask_switchFrame ..))
    (failTask_switchFrame ..)

theorem failExec_switchFrame (s : State) (u : Nat) : SwitchFrame s (failExec s u) := by
  unfold failExec
  split
  · exact .refl _
  · exact .trans (.trans (.same (by rfl)) (slotNext_switchFrame ..)) (failRun_switchFrame ..)

theorem windowFault_switchFrame (s : State) (u : Nat) : SwitchFrame s (windowFault s u) := by
  unfold windowFault
  split
  · exact .refl _
  · exact .trans (raise_switchFrame ..) (failExec_switchFrame ..)

theorem takeFreeBytes_switchFrame (s : State) (n : Nat) : SwitchFrame s (takeFreeBytes s n).2 := .same (by rfl)

theorem suspend_switchFrame (s : State) (u : Nat) (t : Task) : SwitchFrame s (suspend s u t) :=
  .ite (windowFault_switchFrame ..) (.trans (.trans (.upd (takeFreeBytes_switchFrame ..) (by rfl)) (readyHead_switchFrame ..))
    (slotNext_switchFrame ..))

theorem unitSliceEnd_switchFrame (s : State) (u : Nat) : SwitchFrame s (unitSliceEnd s u) := by
  unfold unitSliceEnd
  extract_lets s1
  have hs1 : SwitchFrame s s1 := by
    dsimp only [s1]
    split
    · exact .ite (.trans (.same (by rfl)) (readyHead_switchFrame ..)) (.refl _)
    · exact .refl _
  clear_value s1
  split
  · exact .ite hs1 (.ite (.trans (hs1.trans (readyHead_switchFrame ..)) (slotNext_switchFrame ..)) (.ite (hs1.trans (suspend_switchFrame ..)) hs1))
  · exact hs1

theorem sliceEnd_switchFrame (s : State) (iters : Nat) : SwitchFrame s (sliceEnd s iters) :=
  .upd (.trans (.same (by rfl)) (.foldl (fun _ _ => unitSliceEnd_switchFrame ..) ..)) (by rfl)

theorem costDeadline_switchFrame (s : State) (k : Nat) : SwitchFrame s (costDeadline s k) :=
  .ite (.refl _) (.trans (.same (by rfl)) (raise_switchFrame ..))

theorem retile_switchFrame (s : State) (k alt n : Nat) : SwitchFrame s (retile s k alt n) :=
  .ite (.refl _) (.trans (.same (by rfl)) (raise_switchFrame ..))

theorem roleOf_switchFrame (s : State) (r : GateRole) : SwitchFrame s (roleOf s r) := by
  unfold roleOf
  split
  · exact selEnd_switchFrame ..
  · exact selEnd_switchFrame ..
  · exact selEnd_switchFrame ..
  · exact recheckEnd_switchFrame ..
  · exact sliceEnd_switchFrame ..
  · exact .same (by rfl)
  · exact costDeadline_switchFrame ..
  · exact retile_switchFrame ..

theorem evalEnd_switchFrame (s : State) : SwitchFrame s (evalEnd s) := by
  unfold evalEnd
  extract_lets s1 l s2
  have hs2 : SwitchFrame s s2 := .trans (.ite (.refl _) (evalImposed_switchFrame ..)) (.foldl (fun _ _ => .ite (evalMiss_switchFrame ..) (.trans
    (raiseOnion_switchFrame ..) (evalFail_switchFrame ..))) ..)
  clear_value s2
  exact .trans (.ite (hs2.trans (raise_switchFrame ..)) hs2) (outsideEvent_switchFrame ..)

theorem badReport_switchFrame (s : State) (i : Invoke) (u : Nat) : SwitchFrame s (badReport s i u) := .ite (.refl _) (raise_switchFrame ..)

theorem removeTask_switchFrame (s : State) (t : Task) : SwitchFrame s (removeTask s t) := by
  unfold removeTask
  extract_lets same
  split
  · exact .same (by rfl)
  · exact .ite (.trans (.same (by rfl)) (slotNext_switchFrame ..)) (.same (by rfl))

theorem invocationEnd_switchFrame (s : State) (i : Invoke) : SwitchFrame s (invocationEnd s i) := by
  unfold invocationEnd
  extract_lets s1
  have hs1 : SwitchFrame s s1 := .trans (raise_switchFrame ..) (regCount_switchFrame _ _ (by decide))
  clear_value s1
  exact .trans (.trans (.upd hs1 (by rfl)) (badReport_switchFrame ..)) (.foldl (fun _ _ => .trans (removeTask_switchFrame ..)
    (endFailed_switchFrame ..)) ..)

theorem slotDeadline_switchFrame (s : State) (k : Nat) : SwitchFrame s (slotDeadline s k) := .foldl (fun _ _ => invocationEnd_switchFrame ..) ..

theorem psnDeadline_switchFrame (s : State) (g : Nat) : SwitchFrame s (psnDeadline s g) :=
  .foldl (fun _ _ => .trans (.trans (.trans (.trans (cutRun_switchFrame ..) (psnDiscard_switchFrame ..)) (regCount_switchFrame _ _ (by decide)))
    (removeTask_switchFrame ..)) (endFailed_switchFrame ..)) ..

theorem gateEffects_switchFrame (s : State) (g i n : Nat) : SwitchFrame s (gateEffects s g i n) := by
  unfold gateEffects
  extract_lets s1
  have hs1 : SwitchFrame s s1 := by
    dsimp only [s1]
    split
    · exact .ite (evalEnd_switchFrame ..) (.refl _)
    · exact .refl _
  clear_value s1
  exact .trans (hs1.trans (psnDeadline_switchFrame ..)) (.foldl (fun _ _ => .foldl (fun _ _ => slotDeadline_switchFrame ..) ..) ..)

theorem openGate_switchFrame (s : State) : SwitchFrame s (openGate s).2 := by
  unfold openGate
  split
  · exact .refl _
  · exact .same (by rfl)

theorem takeGate_switchFrame (s : State) (g n : Nat) (roles : List GateRole) : SwitchFrame s (takeGate s g n roles) :=
  .trans (.trans (gateEffects_switchFrame ..) (.foldl (fun _ _ => roleOf_switchFrame ..) ..)) (openGate_switchFrame ..)

theorem zeroGates_switchFrame (s : State) : SwitchFrame s (zeroGates s) := by
  unfold zeroGates
  split
  · exact .trans (takeGate_switchFrame ..) (issueEight_switchFrame ..)
  · exact .refl _

theorem ethPortSet_switchFrame (s : State) (p : Nat) (x : EthPort) : SwitchFrame s (ethPortSet s p x) := .ite (.same (by rfl)) (.same (by rfl))

theorem sendOn_switchFrame (s : State) (p pcp : Nat) (b : Bytes) : SwitchFrame s (sendOn s p pcp b) := by
  unfold sendOn
  extract_lets put
  split
  · exact .same (by rfl)
  · split
    · exact .refl _
    · exact .upd (ethPortSet_switchFrame ..) (by rfl)

theorem streamOne_switchFrame {s t : State} {r : InRec} (h : streamOne s r = some t) : SwitchFrame s t := by
  unfold streamOne at h
  dsimp only at h
  split at h
  · cases h
  · split at h
    · cases h
    · cases h
      exact .upd (.trans (.same (by rfl)) (sendOn_switchFrame ..)) (by rfl)

theorem streamPush_fold_switchFrame (l : List InRec) (x : State × Nat) : SwitchFrame x.1 (l.foldl (fun (x : State × Nat) r =>
    match streamOne x.1 r with | some t => (t, x.2) | none => (x.1, x.2 + 1)) x).1 := by
  induction l generalizing x with
  | nil => exact .refl _
  | cons r l ih =>
    refine .trans ?_ (ih _)
    dsimp only
    split
    · next h => exact streamOne_switchFrame h
    · exact .refl _

theorem streamPush_switchFrame (s : State) (l : List InRec) : SwitchFrame s (streamPush s l) := by
  have hfold := streamPush_fold_switchFrame l (s, 0)
  exact .ite (.refl _) (.ite hfold (.trans (.upd hfold (by rfl)) (raise_switchFrame ..)))

theorem ringPush_switchFrame (s : State) (l : List RingRec) : SwitchFrame s (ringPush s l) :=
  .ite (.ite (.same (by rfl)) (.ite (.refl _) (raise_switchFrame ..))) (.refl _)

theorem detRefresh_switchFrame (s : State) : SwitchFrame s (detRefresh s) :=
  .ite (.refl _) (.ite (.trans (.trans (.same (by rfl)) (ringPush_switchFrame ..)) (streamPush_switchFrame ..)) (.same (by rfl)))

theorem primBoundary_switchFrame (s : State) : SwitchFrame s (primBoundary s) := by
  unfold primBoundary
  split
  · exact .same (by rfl)
  · exact .refl _

theorem noBaseEvent_switchFrame (s : State) : SwitchFrame s (noBaseEvent s) := .trans (.same (by rfl)) (raise_switchFrame ..)

theorem candLatch_switchFrame (s : State) : SwitchFrame s (candLatch s) := by
  unfold candLatch
  extract_lets _ s1 s2
  have hs2 : SwitchFrame s s2 := .ite (.trans (.trans (.same (by rfl)) (primBoundary_switchFrame ..)) (noBaseEvent_switchFrame ..)) (.trans
    (.same (by rfl)) (primBoundary_switchFrame ..))
  clear_value s2
  split
  · exact .upd hs2 (by rfl)
  · extract_lets nj
    split
    extract_lets s3
    have hs3 : SwitchFrame s s3 := .ite (.trans (.trans (.same (by rfl)) (primBoundary_switchFrame ..)) (noBaseEvent_switchFrame ..)) (.trans
      (.same (by rfl)) (primBoundary_switchFrame ..))
    clear_value s3
    split
    · exact .upd (.upd hs3 (by rfl)) (by rfl)
    · split
      extract_lets seedRec s5 s6 s22 s7 ranks sv s8
      have hs6 : SwitchFrame s s6 := .ite (.trans (.upd (.upd hs3 (by rfl)) (by rfl)) (raise_switchFrame ..)) (.upd (.upd hs3 (by rfl)) (by rfl))
      clear_value s6
      have hs8 : SwitchFrame s s8 := .ite (.trans (.ite (hs6.trans (raise_switchFrame ..)) hs6) (raise_switchFrame ..)) (.ite (hs6.trans
        (raise_switchFrame ..)) hs6)
      clear_value s8
      exact .upd (.ite (hs8.trans (raise_switchFrame ..)) hs8) (by rfl)

theorem latchIfDue_switchFrame (s : State) : SwitchFrame s (latchIfDue s) :=
  .ite (.trans (candLatch_switchFrame ..) (detRefresh_switchFrame ..)) (.refl _)

theorem linkPoses_switchFrame (s : State) (m : Model) : SwitchFrame s (linkPoses s m) := .ite (.same (by rfl)) (.same (by rfl))

theorem stateLimits_switchFrame (s : State) (m : Model) : SwitchFrame s (stateLimits s m) :=
  .upd (.foldl (fun _ _ => .ite (raise_switchFrame ..) (.refl _)) ..) (by rfl)

theorem jointTake_switchFrame (s : State) (check : Bool) : SwitchFrame s (jointTake s check) := by
  unfold jointTake
  split
  · exact .same (by rfl)
  · exact .trans (.ite (.trans (.same (by rfl)) (stateLimits_switchFrame ..)) (.same (by rfl))) (linkPoses_switchFrame ..)

theorem reachPhase_switchFrame (s : State) (g : Nat) : SwitchFrame s (reachPhase s g) := .ite (advance_switchFrame ..) (.refl _)

theorem gateIssue_switchFrame (s : State) (roles : List GateRole) : SwitchFrame s (gateIssue s roles) := by
  unfold gateIssue
  split
  · exact .refl _
  · split
    · exact issueEight_switchFrame ..
    · extract_lets s1
      split
      · exact latchIfDue_switchFrame ..
      · exact .trans (.trans (.ite (latchIfDue_switchFrame ..) (.trans (latchIfDue_switchFrame ..) (reachPhase_switchFrame ..)))
        (takeGate_switchFrame ..)) (issueEight_switchFrame ..)

theorem fillQueue_switchFrame (fuel : Nat) (s : State) : SwitchFrame s (fillQueue fuel s) := by
  induction fuel generalizing s with
  | zero => exact .refl s
  | succ fuel ih =>
    unfold fillQueue
    split
    · exact .refl s
    · split
      · exact .refl s
      · exact (takeGate_switchFrame ..).trans (ih _)

theorem alignGates_switchFrame (fuel : Nat) (s : State) : SwitchFrame s (alignGates fuel s) := by
  induction fuel generalizing s with
  | zero => exact .refl s
  | succ fuel ih =>
    have filled := fillQueue_switchFrame 8 s
    exact .ite filled (filled.trans ((issueEight_switchFrame ..).trans ((nextClk_switchFrame ..).trans (ih _))))

theorem issueAll_switchFrame (fuel : Nat) (s : State) : SwitchFrame s (issueAll fuel s) := by
  induction fuel generalizing s with
  | zero => exact .refl s
  | succ fuel ih => exact .ite (.refl s) ((issueEight_switchFrame s).trans (ih _))

theorem restGates_switchFrame (fuel : Nat) (s : State) : SwitchFrame s (restGates fuel s) := by
  induction fuel generalizing s with
  | zero => exact .refl s
  | succ fuel ih =>
    unfold restGates
    split
    · exact .refl s
    · exact (reachPhase_switchFrame ..).trans ((takeGate_switchFrame ..).trans ((issueAll_switchFrame ..).trans (ih _)))

theorem endGates_switchFrame (s : State) : SwitchFrame s (endGates s) :=
  .ite (alignGates_switchFrame ..) (.trans (issueAll_switchFrame ..) (restGates_switchFrame ..))

end Sys2Proof.Machine

namespace Sys2Proof.Machine

/-! ### After the switches of a boundary -/

theorem finishSwitches_switchFrame (s : State) : SwitchFrame s (finishSwitches s) :=
  .ite (.refl _) ((jointTake_switchFrame ..).trans ((latchIfDue_switchFrame ..).trans ((detRefresh_switchFrame ..).trans (zeroGates_switchFrame ..))))

theorem finishSwitches_model (s : State) : modelKept (finishSwitches s).model = modelKept s.model := (finishSwitches_switchFrame s).model

/-- The parts of the model's installation after the switches. -/
theorem modelKept_eq {m n : ModelSt} (h : modelKept m = modelKept n) : m.cur = n.cur ∧ m.old = n.old ∧ m.pend = n.pend ∧ m.status = n.status ∧
    m.reason = n.reason ∧ m.deferrals = n.deferrals ∧ m.gen = n.gen := by
  simpa [modelKept] using h

theorem raised_finishSwitches {s : State} {c u a b : Nat} (h : Raised s c u a b) : Raised (finishSwitches s) c u a b :=
  raised_more h (finishSwitches_switchFrame s).added

/-! ### The switch of a robot model (R106) -/

theorem bankCopies_switchFrame (l : List Nat) (s : State) : SwitchFrame s (l.foldl bankCopy s) := .foldl (fun _ _ => .same (by rfl)) l s

/-- The pending model is in force with the next generation, and event 0x0302. -/
theorem modelExchange_effect {s : State} {m : Model} (h : s.model.pend = some m) :
    modelKept (modelExchange s).model = modelKept { s.model with
        old := s.model.cur, cur := some m, pend := none, status := .idle, deferrals := 0, gen := (s.model.gen + 1) % 2 ^ 32 } ∧
      Raised (modelExchange s) 0x0302 0xFFFF ((s.model.gen + 1) % 2 ^ 32) 0 := by
  unfold modelExchange
  split
  · next hnone => exact absurd (h.symm.trans hnone) nofun
  next m' hm =>
  cases h.symm.trans hm
  extract_lets nj copied _ ms rec7 _ noted raised had _ dropped
  have hcopied := (bankCopies_switchFrame ((classUnits 1 0 ++ classUnits 1 1).filter (isActive s)) s).model
  obtain ⟨hcur, -, -, -, hreason, -, hgen⟩ := modelKept_eq hcopied
  have hkept : modelKept ms = modelKept { s.model with
      old := s.model.cur, cur := some m, pend := none, status := .idle, deferrals := 0, gen := (s.model.gen + 1) % 2 ^ 32 } := by
    rw [← hcur, ← hgen]
    exact congrArg (fun r => (some m, copied.model.cur, none, Inst.idle, r, 0, (copied.model.gen + 1) % 2 ^ 32)) hreason
  have hraised : Raised raised 0x0302 0xFFFF ((s.model.gen + 1) % 2 ^ 32) 0 := by
    rw [← hgen]
    exact raised_here ..
  have hafter {t : State} (ht : SwitchFrame raised t) : modelKept t.model = modelKept ms ∧
      Raised t 0x0302 0xFFFF ((s.model.gen + 1) % 2 ^ 32) 0 :=
    ⟨ht.model.trans (raise_switchFrame noted ..).model, raised_more hraised ht.added⟩
  rw [← hkept]
  exact hafter (.ite (.ite (.trans (.same (by rfl)) (raise_switchFrame ..)) (.same (by rfl))) (.refl _))

theorem modelDefer_early {s : State} {n : Nat} (h : s.model.deferrals < 15) :
    modelKept (modelDefer s n).model = modelKept { s.model with status := .deferred, deferrals := s.model.deferrals + 1 } ∧
      Raised (modelDefer s n) 0x0303 0xFFFF n 0 := by
  rw [modelDefer, if_neg (by omega)]
  exact ⟨(raise_switchFrame ..).model, raised_here ..⟩

theorem modelDefer_late {s : State} {n : Nat} (h : 15 ≤ s.model.deferrals) : modelDefer s n = modelRefuse s 8 := if_pos h

section Switch

variable {s : State} (hdue : modelDue s = true)
include hdue

theorem modelSwitch_units (hplain : s.model.structural = false) (n : Nat) :
    modelSwitch s n = if n ≠ 0 then modelDefer s n else modelExchange s := by
  simp [modelSwitch, hdue, hplain]

theorem modelSwitch_alone (hstruct : s.model.structural = true) (htied : tied s = false) (hplan : s.plan.status ≠ .verifying) (n : Nat) :
    modelSwitch s n = modelRefuse s 6 := by
  simp [modelSwitch, hdue, hstruct, htied, hplan]

end Switch

/-- The command ends what the switch has begun. -/
theorem execModelSwitch_next {s t : State} {n : BitVec 8} (hup : arithUp s = true) (h : modelSwitch (answer s .none) n.toNat = t) :
    exec (.modelSwitch n) s = .next (flush (finishSwitches t)) := by
  subst h
  exact runArith_next rfl hup

/-- A refused model leaves the one in force. -/
theorem refused_after {s : State} (reason : Nat) : (finishSwitches (modelRefuse s reason)).model.cur = s.model.cur ∧
    (finishSwitches (modelRefuse s reason)).model.status = .refused ∧ (finishSwitches (modelRefuse s reason)).model.pend = none ∧
    Raised (finishSwitches (modelRefuse s reason)) 0x0301 0xFFFF reason 0 := by
  obtain ⟨hmodel, hraised, -⟩ := modelRefuse_effect s reason
  obtain ⟨hcur, -, hpend, hstatus, -, -, -⟩ := modelKept_eq (finishSwitches_model (modelRefuse s reason))
  rw [hcur, hpend, hstatus, hmodel]
  exact ⟨rfl, rfl, rfl, raised_finishSwitches hraised⟩

/-- Settles O18: a model whose units have staged is exchanged; units that have not defer it, the 16th time for good; a structural one alone is
refused. -/
theorem modelSwitchExchangesBanks : Obligations.ModelSwitchExchangesBanks := by
  intro s m n hup hdue hpend
  have hunits (hn : n ≠ 0) : n.toNat ≠ 0 := fun h => hn (BitVec.eq_of_toNat_eq h)
  refine ⟨fun hplain => ⟨?_, fun hn hfew => ?_, fun hn hmany => ?_⟩, fun hstruct htied hplan => ?_⟩
  · obtain ⟨hmodel, hraised⟩ := modelExchange_effect (s := answer s .none) hpend
    obtain ⟨hcur, hold, -, hstatus, -, -, hgen⟩ := modelKept_eq ((finishSwitches_model (modelExchange (answer s .none))).trans hmodel)
    exact ⟨_, execModelSwitch_next hup (modelSwitch_units (s := answer s .none) hdue hplain 0), hcur, hgen, hold, hstatus,
      raised_finishSwitches hraised⟩
  · have hfew' : (answer s .none).model.deferrals < 15 := hfew
    obtain ⟨hmodel, hraised⟩ := modelDefer_early (n := n.toNat) hfew'
    obtain ⟨hcur, -, -, hstatus, -, hdef, -⟩ := modelKept_eq ((finishSwitches_model (modelDefer (answer s .none) n.toNat)).trans hmodel)
    exact ⟨_, execModelSwitch_next hup ((modelSwitch_units (s := answer s .none) hdue hplain _).trans (if_pos (hunits hn))), hcur, hstatus, hdef,
      raised_finishSwitches hraised⟩
  · have hlate : modelSwitch (answer s .none) n.toNat = modelRefuse (answer s .none) 8 :=
      ((modelSwitch_units (s := answer s .none) hdue hplain _).trans (if_pos (hunits hn))).trans (modelDefer_late (s := answer s .none) hmany)
    exact ⟨_, execModelSwitch_next hup hlate, refused_after (s := answer s .none) 8⟩
  · exact ⟨_, execModelSwitch_next hup (modelSwitch_alone (s := answer s .none) hdue hstruct htied hplan _), refused_after (s := answer s .none) 6⟩

/-! ### What the log keeps of a record that waits (R483) -/

/-- The ring of stack 0 holds a record of this event, or has been filled. -/
def Logged (c d : Nat) (s : State) : Prop := ringCap ≤ s.logs.ring0.length ∨ ∃ r ∈ s.logs.ring0, r.code = c ∧ r.d1 = d

theorem logged_of_ring {c d : Nat} {s t : State} (h : t.logs.ring0 = s.logs.ring0) (hs : Logged c d s) : Logged c d t := by
  rwa [Logged, h]

/-- A record enters a ring at its end, and only a full ring drops one. -/
theorem ringAdd_ring0 (s : State) (r : EvRec) : (ringAdd s r).logs.ring0 = s.logs.ring0 ∨
    (ringAdd s r).logs.ring0 = s.logs.ring0 ++ [r] ∨
    ringCap ≤ s.logs.ring0.length ∧ (ringAdd s r).logs.ring0 = s.logs.ring0.drop 1 ++ [r] := by
  unfold ringAdd
  dsimp only
  split
  · exact .inl rfl
  · split
    · split
      · next hfull => exact .inr (.inr ⟨hfull, rfl⟩)
      · exact .inr (.inl rfl)
    · exact .inl (by split <;> rfl)

theorem ringAdd_logged {c d : Nat} {s : State} (hs : Logged c d s) (r : EvRec) : Logged c d (ringAdd s r) := by
  rcases ringAdd_ring0 s r with h | h | ⟨hfull, h⟩
  · exact logged_of_ring h hs
  · rcases hs with hfull | ⟨x, hx, hxr⟩
    · exact .inl (by rw [h, List.length_append]; omega)
    · exact .inr ⟨x, by rw [h]; exact List.mem_append_left _ hx, hxr⟩
  · refine .inl ?_
    rw [h, List.length_append, List.length_drop, List.length_singleton]
    omega

/-- A record of the whole device goes to the ring of stack 0. -/
theorem ringAdd_logs {s : State} {r : EvRec} (htrace : isTrace r.code = false) (hunit : r.unit = 0xFFFF) :
    Logged r.code r.d1 (ringAdd s r) := by
  have hstack : evStack r = 0 := if_pos hunit
  by_cases hfull : ringCap ≤ s.logs.ring0.length
  · exact ringAdd_logged (.inl hfull) r
  · refine .inr ⟨r, ?_, rfl, rfl⟩
    unfold ringAdd
    dsimp only
    rw [if_neg (by simp [htrace]), if_pos hstack, if_neg hfull]
    exact List.mem_append_right _ List.mem_cons_self

theorem raise_ring0 (s : State) (c u a b : Nat) : (raise s c u a b).logs.ring0 = s.logs.ring0 := by
  unfold raise raiseX
  simp only [setEventBits_logs]

theorem boxAdd_ring0 (s : State) (t : Nat) (b1 b2 : Bytes) : (boxAdd s t b1 b2).logs.ring0 = s.logs.ring0 := by
  unfold boxAdd
  dsimp only
  split
  · rfl
  · exact raise_ring0 ..

theorem stamp_ring0 (s : State) (r : EvRec) : ∃ n, (stamp s r).logs.ring0 =
    (ringAdd { s with logs := { s.logs with seq := n } } { r with seq := s.logs.seq }).logs.ring0 := by
  refine ⟨(s.logs.seq + 1) % 2 ^ 32, ?_⟩
  unfold stamp
  dsimp only
  split
  · exact boxAdd_ring0 ..
  · rfl

theorem stamp_logged {c d : Nat} {s : State} (hs : Logged c d s) (r : EvRec) : Logged c d (stamp s r) := by
  obtain ⟨n, h⟩ := stamp_ring0 s r
  exact logged_of_ring h (ringAdd_logged (s := { s with logs := { s.logs with seq := n } }) hs _)

theorem stamp_logs {s : State} {r : EvRec} (htrace : isTrace r.code = false) (hunit : r.unit = 0xFFFF) : Logged r.code r.d1 (stamp s r) := by
  obtain ⟨n, h⟩ := stamp_ring0 s r
  exact logged_of_ring h (ringAdd_logs (r := { r with seq := s.logs.seq }) htrace hunit)

theorem stamps_logged {c d : Nat} (l : List EvRec) {s : State} (hs : Logged c d s) : Logged c d (l.foldl stamp s) := by
  induction l generalizing s with
  | nil => exact hs
  | cons r l ih => exact ih (stamp_logged hs r)

theorem stamps_log {r : EvRec} (htrace : isTrace r.code = false) (hunit : r.unit = 0xFFFF) {l : List EvRec} (hr : r ∈ l) (s : State) :
    Logged r.code r.d1 (l.foldl stamp s) := by
  induction l generalizing s with
  | nil => cases hr
  | cons x l ih =>
    rcases List.mem_cons.mp hr with rfl | hr
    · exact stamps_logged l (stamp_logs htrace hunit)
    · exact ih hr _

theorem mem_insertBy_of {α : Type} {le : α → α → Bool} {x y : α} {l : List α} (h : y = x ∨ y ∈ l) : y ∈ insertBy le x l := by
  induction l with
  | nil => simpa [insertBy] using h
  | cons z l ih =>
    unfold insertBy
    split
    · rcases h with h | h
      · exact List.mem_cons_of_mem _ (ih (.inl h))
      · rcases List.mem_cons.mp h with rfl | h
        · exact List.mem_cons_self
        · exact List.mem_cons_of_mem _ (ih (.inr h))
    · exact List.mem_cons.mpr h

/-- Sorting drops nothing. -/
theorem mem_sortBy_of {α : Type} (le : α → α → Bool) {l : List α} {y : α} (h : y ∈ l) : y ∈ sortBy le l := by
  have hfold (l acc : List α) (h : y ∈ l ∨ y ∈ acc) : y ∈ l.foldl (fun acc x => insertBy le x acc) acc := by
    induction l generalizing acc with
    | nil => exact h.resolve_left List.not_mem_nil
    | cons x l ih =>
      refine ih _ ?_
      rcases h with h | h
      · rcases List.mem_cons.mp h with rfl | h
        · exact .inr (mem_insertBy_of (.inl rfl))
        · exact .inl h
      · exact .inr (mem_insertBy_of (.inr h))
  exact hfold l [] (.inl h)

theorem timingRec_logs (s : State) (r : EvRec) : (timingRec s r).logs = s.logs := by
  unfold timingRec
  split <;> rfl

theorem timingRecs_logs (l : List EvRec) (s : State) : (l.foldl timingRec s).logs = s.logs := by
  induction l generalizing s with
  | nil => rfl
  | cons r l ih => exact (ih _).trans (timingRec_logs s r)

/-- A waiting record of the whole device enters the ring of stack 0. -/
theorem flush_logged {s : State} {c a b : Nat} (htrace : isTrace c = false) (h : Raised s c 0xFFFF a b) : Logged c (b % 2 ^ 32) (flush s) := by
  obtain ⟨r, hr, rfl, hunit, -, hb⟩ := h
  obtain ⟨l, hl⟩ := (OutFrame.foldl react_outFrame s.logs.buf s).added
  have hwaits : r ∈ (s.logs.buf.foldl timingRec (s.logs.buf.foldl react s)).logs.buf := by
    rw [timingRecs_logs, hl]
    exact List.mem_append_left _ hr
  rw [← hb]
  exact stamps_logged _ (stamps_log htrace hunit (mem_sortBy_of evLe hwaits) _)

/-! ### A unit with two records

Log entry 2 gives every table one form, and the statement does not ask for it. Where a unit has two records, the first of which is that of an
unused unit but for the task that the switch abandons, the second one shows when the first has gone; its task begins, fails on its block (R279)
and lets a decrement go that was held when the switch began. -/

/-- A task of level 3 whose block in empty memory does not agree with it. -/
def lowTask (began : Bool) : Task := { listTask with desc := { listTask.desc with crit := 3, startBy := 0xFFFF }, began := began }

/-- A staged image at its boundary, a held decrement of counter 0, and two records of one unit. -/
def twiceState : State := { State.reset with
  cpm := { Cpm.reset with boot := .up }, phu := { State.reset.phu with atBound := true, bcount := 10 }
  units := [(unitId 2 0 0, { UnitRec.off with exec := some (lowTask true) }), (unitId 2 0 0, { UnitRec.off with exec := some (lowTask false) })]
  sched := { State.reset.sched with held0 := [⟨0, 0, 0⟩], heldTick := 5 }
  plan := { State.reset.plan with status := .staged, pend := some (regionPlan 0), stagedAt := 5 } }

theorem twiceState_exec : exec (.planSwitch 0) twiceState = .next (flush (finishSwitches (planSwitch (answer twiceState .none) 0))) := by
  have hup : arithUp twiceState = true := by decide +kernel
  exact runArith_next rfl hup

/-- The switch has dropped no decrement. -/
theorem twiceState_not_logged : ¬ Logged 0x0B02 1 (flush (finishSwitches (planSwitch (answer twiceState .none) 0))) := by
  have hlength : (flush (finishSwitches (planSwitch (answer twiceState .none) 0))).logs.ring0.length < ringCap := by decide +kernel
  have hnone : (flush (finishSwitches (planSwitch (answer twiceState .none) 0))).logs.ring0.all (fun r => !(r.code == 0x0B02 && r.d1 == 1)) = true := by
    decide +kernel
  rintro (hfull | ⟨r, hr, hc, hd⟩)
  · omega
  · simpa [hc, hd] using List.all_eq_true.mp hnone r hr

/-- Refutes O34: in `twiceState` one decrement is held for a counter of the image when the switch begins, and event 0x0B02 says that none was
dropped. -/
theorem not_planSwitchRunsNewImage : ¬ Obligations.PlanSwitchRunsNewImage := by
  intro h
  obtain ⟨-, hplan⟩ := h twiceState 0 (by decide +kernel)
  obtain ⟨-, hsound⟩ := hplan (regionPlan 0) (by decide +kernel) rfl
  obtain ⟨hswitch, -, -⟩ := hsound (.inl rfl)
  obtain ⟨t, hexec, -, -, -, -, -, -, hraised, -⟩ := hswitch (by decide +kernel)
  rw [twiceState_exec] at hexec
  have hlogged := flush_logged (by decide) hraised
  rw [← Host.Outcome.next.inj hexec] at hlogged
  exact twiceState_not_logged hlogged

end Sys2Proof.Machine

/-!
The boundary (R36, R40, R43): what its steps leave of the cycle that it opens, and the proof of BoundaryOpensNextCycle.
-/
namespace Sys2Proof.Machine

/-! ### What the steps of a boundary leave unchanged -/

/-- The cycle that the boundary has opened, the running image and replay. -/
def boundKept (s : State) : Nat × Nat × Bool × Nat × Tc × Bool × Option Plan × Bool :=
  (s.phu.cycle, s.phu.bcount, s.phu.everTracked, s.phu.status, s.phu.tc, s.phu.atBound, s.plan.run, s.det.replay)

/-- No replay runs, DET_CTRL.REPLAY is off in force and no write that waits sets it, and the registers in force have their form. -/
def ReplayOff (s : State) : Prop :=
  Smap.wf regReset s.regsF = true ∧ bit (regF s Reg.detCtrl) 3 = false ∧ s.det.replay = false ∧ ∀ x ∈ s.od.pendW, x.1 ≠ 0x2D00

/-- The opened cycle stands, an empty list of waiting edges stays empty, and replay stays off. -/
structure BoundFrame (s t : State) : Prop where
  kept : boundKept t = boundKept s
  edges : s.phu.waitEdge = [] → t.phu.waitEdge = []
  off : ReplayOff s → ReplayOff t

/-- What an update of other fields leaves. -/
def boundForms (s : State) := (boundKept s, s.phu.waitEdge, s.regsF, s.od.pendW)

namespace BoundFrame

theorem same {s t : State} (h : boundForms t = boundForms s) : BoundFrame s t := by
  simp only [boundForms, Prod.mk.injEq] at h
  obtain ⟨hkept, hedges, hregs, hpend⟩ := h
  have hreplay : t.det.replay = s.det.replay := congrArg (·.2.2.2.2.2.2.2) hkept
  exact ⟨hkept, fun he => hedges.trans he, fun ⟨hwf, hoff, hrep, hw⟩ => ⟨by rwa [hregs], by rwa [regF, hregs], hreplay.trans hrep, by rwa [hpend]⟩⟩

theorem refl (s : State) : BoundFrame s s := .same rfl

theorem trans {s t u : State} (h : BoundFrame s t) (h' : BoundFrame t u) : BoundFrame s u :=
  ⟨h'.kept.trans h.kept, h'.edges ∘ h.edges, h'.off ∘ h.off⟩

/-- A step, and then an update of other fields. -/
theorem upd {s t : State} (h : BoundFrame s t) {now : Nat} {clk : ClkSt} {units : Smap UnitRec} {regs regsF : Smap (BitVec 32)}
    {cmdResult : Nat} {phu : Phu} {sched : Sched} {plan : PlanSt} {mem : Mem} {world : World} {model : ModelSt} {cand : CandSt} {pod : PodSt}
    {peers : PeerSt} {sel : SelSt} {psn : PsnSt} {cob : CobSt} {diag : Diag} {logs : Logs} {safety : Safety} {det : Det} {od : Od} {cpm : Cpm}
    {pins : Pins} {svc : Svc} {resp : Resp} {freeCtr : Nat}
    (hforms : boundForms { t with regsF := regsF, phu := phu, plan := plan, det := det, od := od } = boundForms t) :
    BoundFrame s { t with
      now := now, clk := clk, units := units, regs := regs, regsF := regsF, cmdResult := cmdResult, phu := phu, sched := sched, plan := plan
      mem := mem, world := world, model := model, cand := cand, pod := pod, peers := peers, sel := sel, psn := psn, cob := cob, diag := diag
      logs := logs, safety := safety, det := det, od := od, cpm := cpm, pins := pins, svc := svc, resp := resp, freeCtr := freeCtr } :=
  h.trans (.same hforms)

theorem ite {s t u : State} {p : Prop} [Decidable p] (h : BoundFrame s t) (h' : BoundFrame s u) : BoundFrame s (if p then t else u) := by
  split
  · exact h
  · exact h'

theorem foldl {α : Type} {f : State → α → State} (h : ∀ s x, BoundFrame s (f s x)) (l : List α) (s : State) : BoundFrame s (l.foldl f s) := by
  induction l generalizing s with
  | nil => exact refl s
  | cons x l ih => exact (h s x).trans (ih (f s x))

/-- The state that comes with a value. -/
theorem of_snd {α : Type} {s t : State} {a : α} {p : α × State} (h : p = (a, t)) (hp : BoundFrame s p.2) : BoundFrame s t := by
  rw [h] at hp
  exact hp

end BoundFrame

/-! ### The functions of the model, those first that others call -/

theorem regSet_boundFrame (s : State) (o v : Nat) : BoundFrame s (regSet s o v) := .same (by rfl)

theorem setEventBits_boundFrame (s : State) (l : List (Nat × Nat)) : BoundFrame s (setEventBits s l) := .foldl (fun _ _ => .same (by rfl)) ..

theorem raiseX_boundFrame (s : State) (stack code unit d0 d1 d2 d3 : Nat) : BoundFrame s (raiseX s stack code unit d0 d1 d2 d3) :=
  .trans (.same (by rfl)) (setEventBits_boundFrame ..)

theorem raise_boundFrame (s : State) (code unit d0 d1 : Nat) : BoundFrame s (raise s code unit d0 d1) := raiseX_boundFrame ..

theorem nondetEvent_boundFrame (s : State) (ended : Nat) : BoundFrame s (nondetEvent s ended) := .ite (.refl _) (raise_boundFrame ..)

theorem memBoundary_boundFrame (s : State) : BoundFrame s (memBoundary s) := .upd (.ite (.refl _) (.same (by rfl))) (by rfl)

theorem cobPut_boundFrame {s t : State} (h : BoundFrame s t) (x : CobSt) : BoundFrame s { t with cob := x } := .upd h (by rfl)

theorem psnPut_boundFrame {s t : State} (h : BoundFrame s t) (x : PsnSt) : BoundFrame s { t with psn := x } := .upd h (by rfl)

theorem selPut_boundFrame {s t : State} (h : BoundFrame s t) (x : SelSt) : BoundFrame s { t with sel := x } := .upd h (by rfl)

theorem podsPut_boundFrame {s t : State} (h : BoundFrame s t) (x : PodSt) : BoundFrame s { t with pod := x } := .upd h (by rfl)

theorem cobBoundary_boundFrame (s : State) : BoundFrame s (cobBoundary s) := by
  unfold cobBoundary
  extract_lets c st s1 s2 s3 s4 s5
  have hs2 : BoundFrame s s2 := .trans (regSet_boundFrame ..) (regSet_boundFrame ..)
  clear_value s2
  have hs4 : BoundFrame s s4 := .trans (hs2.trans (regSet_boundFrame ..)) (regSet_boundFrame ..)
  clear_value s4
  have hs5 : BoundFrame s s5 := hs4.trans (.foldl (fun _ _ => regSet_boundFrame ..) ..)
  clear_value s5
  exact cobPut_boundFrame hs5 _

theorem psnBoundary_boundFrame (s : State) : BoundFrame s (psnBoundary s) := by
  unfold psnBoundary
  extract_lets p s1 s2 s3 s4 s5
  have hs2 : BoundFrame s s2 := .trans (.ite (.refl _) (raise_boundFrame ..)) (regSet_boundFrame ..)
  clear_value s2
  have hs4 : BoundFrame s s4 := .trans (hs2.trans (regSet_boundFrame ..)) (regSet_boundFrame ..)
  clear_value s4
  have hs5 : BoundFrame s s5 := hs4.trans (.foldl (fun _ _ => regSet_boundFrame ..) ..)
  clear_value s5
  exact psnPut_boundFrame hs5 _

theorem selBoundary_boundFrame (s : State) : BoundFrame s (selBoundary s) := by
  unfold selBoundary
  extract_lets s1 s2 s3 s4 s5 s6 s7
  have hs2 : BoundFrame s s2 := .trans (regSet_boundFrame ..) (regSet_boundFrame ..)
  clear_value s2
  have hs4 : BoundFrame s s4 := .trans (hs2.trans (regSet_boundFrame ..)) (regSet_boundFrame ..)
  clear_value s4
  have hs6 : BoundFrame s s6 := .trans (.trans (hs4.trans (regSet_boundFrame ..)) (regSet_boundFrame ..)) (regSet_boundFrame ..)
  clear_value s6
  have hs7 : BoundFrame s s7 := hs6.trans (.foldl (fun _ _ => regSet_boundFrame ..) ..)
  clear_value s7
  exact selPut_boundFrame hs7 _

theorem podPut_boundFrame (s : State) (g : Nat) (x : Pod) : BoundFrame s (podPut s g x) := .same (by rfl)

theorem podBoundary_boundFrame (s : State) : BoundFrame s (podBoundary s) := by
  unfold podBoundary
  extract_lets p s1 s2 s3 s4 s5 s6
  have hs2 : BoundFrame s s2 := .trans (regSet_boundFrame ..) (regSet_boundFrame ..)
  clear_value s2
  have hs4 : BoundFrame s s4 := .trans (hs2.trans (regSet_boundFrame ..)) (regSet_boundFrame ..)
  clear_value s4
  have hs6 : BoundFrame s s6 := .trans (hs4.trans (regSet_boundFrame ..)) (.foldl (fun _ _ => .trans (.trans (.trans (regSet_boundFrame ..)
    (regSet_boundFrame ..))
    (regSet_boundFrame ..)) (podPut_boundFrame ..)) ..)
  clear_value s6
  exact podsPut_boundFrame hs6 _

theorem peerBoundary_boundFrame (s : State) : BoundFrame s (peerBoundary s) := .upd (.ite (.refl _) (raise_boundFrame ..)) (by rfl)

theorem schedPut_boundFrame {s t : State} (h : BoundFrame s t) (x : Sched) : BoundFrame s { t with sched := x } := .upd h (by rfl)

theorem schedBoundary_boundFrame (s : State) : BoundFrame s (schedBoundary s) := by
  unfold schedBoundary
  extract_lets c stalled k s1 s2 s3
  have hs1 : BoundFrame s s1 := .trans (.trans (.trans (.trans (.trans (.trans (.trans (regSet_boundFrame ..) (regSet_boundFrame ..))
    (regSet_boundFrame ..))
    (regSet_boundFrame ..)) (regSet_boundFrame ..)) (regSet_boundFrame ..)) (regSet_boundFrame ..)) (regSet_boundFrame ..)
  clear_value s1
  have hs3 : BoundFrame s s3 := .trans (hs1.trans (regSet_boundFrame ..)) (regSet_boundFrame ..)
  clear_value s3
  exact schedPut_boundFrame (hs3.trans (regSet_boundFrame ..)) _

theorem busyAdd_boundFrame (s : State) (u n : Nat) : BoundFrame s (busyAdd s u n) := by
  unfold busyAdd
  extract_lets f
  split
  · exact .same (by rfl)
  · exact .same (by rfl)
  · exact .refl _

theorem busyBoundary_boundFrame (s : State) : BoundFrame s (busyBoundary s) := by
  unfold busyBoundary
  refine .foldl (fun s x => ?_) ..
  split
  · exact .ite (busyAdd_boundFrame ..) (.refl _)
  · exact .refl _

theorem candCounts_boundFrame (s : State) : BoundFrame s (candCounts s) := .same (by rfl)

theorem boundaryCounts_boundFrame (s : State) : BoundFrame s (boundaryCounts s) :=
  ((((((((busyBoundary_boundFrame s).trans (schedBoundary_boundFrame _)).trans (candCounts_boundFrame _)).trans (peerBoundary_boundFrame _)).trans
    (podBoundary_boundFrame _)).trans (selBoundary_boundFrame _)).trans (psnBoundary_boundFrame _)).trans (cobBoundary_boundFrame _)).trans
      (memBoundary_boundFrame _)

theorem linkPoses_boundFrame (s : State) (m : Model) : BoundFrame s (linkPoses s m) := .ite (.same (by rfl)) (.same (by rfl))

theorem stateLimits_boundFrame (s : State) (m : Model) : BoundFrame s (stateLimits s m) :=
  .upd (.foldl (fun _ _ => .ite (raise_boundFrame ..) (.refl _)) ..) (by rfl)

theorem jointTake_boundFrame (s : State) (check : Bool) : BoundFrame s (jointTake s check) := by
  unfold jointTake
  split
  · exact .same (by rfl)
  · exact .trans (.ite (.trans (.same (by rfl)) (stateLimits_boundFrame ..)) (.same (by rfl))) (linkPoses_boundFrame ..)

theorem rxLatch_boundFrame (s : State) : BoundFrame s (rxLatch s) :=
  .ite (.same (by rfl)) (.ite (.trans (.same (by rfl)) (raise_boundFrame ..)) (.same (by rfl)))

theorem lapse_boundFrame (s : State) (cause : Nat) : BoundFrame s (lapse s cause) :=
  .ite (.trans (.ite (.same (by rfl)) (.same (by rfl))) (raise_boundFrame ..)) (.refl _)

theorem permitBoundary_boundFrame (s : State) : BoundFrame s (permitBoundary s) :=
  .ite (.same (by rfl)) (.ite (.trans (.same (by rfl)) (lapse_boundFrame ..)) (.ite (.trans (.same (by rfl)) (lapse_boundFrame ..)) (.ite (.same
    (by rfl)) (.same (by rfl)))))

theorem modelExchange_boundFrame (s : State) : BoundFrame s (modelExchange s) := by
  unfold modelExchange
  split
  · exact .refl _
  · extract_lets nj s1 _ ms rec7 _ s2 s3
    have hs3 : BoundFrame s s3 := .trans (.upd (.foldl (fun _ _ => .same (by rfl)) ..) (by rfl)) (raise_boundFrame ..)
    clear_value s3
    exact .ite (.ite (.trans (.upd hs3 (by rfl)) (raise_boundFrame ..)) (.upd hs3 (by rfl))) hs3

theorem replayModel_boundFrame (s : State) (r : InRec) : BoundFrame s (replayModel s r) := by
  unfold replayModel
  split
  · exact .trans (.same (by rfl)) (modelExchange_boundFrame ..)
  · exact .same (by rfl)
  · exact .same (by rfl)
  · exact .refl _

theorem replayInputs_boundFrame (s : State) : BoundFrame s (replayInputs s) := by
  unfold replayInputs
  split
  · exact .refl _
  · refine .foldl (fun s r => ?_) ..
    split
    · exact .ite (.refl _) (.same (by rfl))
    · exact .same (by rfl)
    · exact .same (by rfl)
    · exact replayModel_boundFrame ..
    · exact .refl _

theorem pointSet_boundFrame (s : State) (p why : Nat) : BoundFrame s (pointSet s p why) :=
  .ite (.refl _) (.trans (.same (by rfl)) (raise_boundFrame ..))

theorem powerBoundary_boundFrame (s : State) : BoundFrame s (powerBoundary s) := by
  unfold powerBoundary
  extract_lets w _ s1 _ s2
  have hs2 : BoundFrame s s2 := .ite (.trans (.same (by rfl)) (raise_boundFrame ..)) (.same (by rfl))
  clear_value s2
  exact .ite (.trans (.upd hs2 (by rfl)) (pointSet_boundFrame ..)) (.ite (.upd hs2 (by rfl)) hs2)

theorem weightConv_boundFrame (s : State) : BoundFrame s (weightConv s) := .trans (.same (by rfl)) (.foldl (fun _ _ => raise_boundFrame ..) ..)

theorem barDrive_boundFrame (s : State) : BoundFrame s (barDrive s) :=
  .ite (.same (by rfl)) (.ite (.same (by rfl)) (.ite (.refl _) (.same (by rfl))))

theorem toAcquire_boundFrame (s : State) (held : Bool) (first : Option Nat) : BoundFrame s (toAcquire s held first) :=
  .trans (.same (by rfl)) (barDrive_boundFrame ..)

theorem srcSelect_boundFrame (s : State) (v : Nat) : BoundFrame s (srcSelect s v) := by
  unfold srcSelect
  split
  · exact .trans (.same (by rfl)) (toAcquire_boundFrame ..)
  · exact .ite (.same (by rfl)) (.trans (.same (by rfl)) (barDrive_boundFrame ..))
  · exact .refl _

theorem srcOff_boundFrame (s : State) (v : Nat) : BoundFrame s (srcOff s v) :=
  .trans (.trans (by exact ⟨rfl, fun _ => rfl, id⟩) (barDrive_boundFrame ..)) (lapse_boundFrame ..)

/-- The registers in force as a load leaves those of another register. -/
theorem replayOff_of_set {s t : State} {o : Nat} {w : BitVec 32} (ho : o ≠ Reg.detCtrl) (hregs : t.regsF = Smap.set regReset s.regsF o w)
    (hreplay : t.det.replay = s.det.replay) (hpend : t.od.pendW = s.od.pendW) (h : ReplayOff s) : ReplayOff t := by
  obtain ⟨hwf, hoff, hrep, hw⟩ := h
  refine ⟨by rw [hregs]; exact smap_set_wf _ _ _ _ hwf, ?_, hreplay.trans hrep, by rwa [hpend]⟩
  rwa [regF, hregs, smap_get_set_other regReset s.regsF 0 o Reg.detCtrl w hwf ho.symm]

theorem loadField_boundFrame (s : State) {reg : Nat} (lo w v : Nat) (h : reg ≠ Reg.detCtrl) : BoundFrame s (loadField s reg lo w v) := by
  unfold loadField
  split
  · exact .refl _
  · extract_lets f
    refine ⟨rfl, id, ?_⟩
    by_cases hreg : reg = Reg.ddrCfg
    · exact fun hs => by simpa [ReplayOff, regF, hreg] using hs
    · exact replayOff_of_set h (if_neg hreg) rfl rfl

/-- Only the objects of 0x2D00 set DET_CTRL. -/
theorem rowsFor_reg {idx sub : Nat} (h : idx ≠ 0x2D00) {r : LoadRow} (hr : r ∈ rowsFor idx sub) : r.reg ≠ Reg.detCtrl := by
  have hrows : ∀ r ∈ loadRows0 ++ loadRows1 ++ loadRows2 ++ loadRows3, r.reg = Reg.detCtrl → r.idx = 0x2D00 := by decide +kernel
  have hstream : ∀ i < 32, ∀ r ∈ streamRows i, r.reg ≠ Reg.detCtrl := by decide +kernel
  have hcsi : ∀ r ∈ (List.range 8).flatMap csiRows, r.reg ≠ Reg.detCtrl := by decide +kernel
  unfold rowsFor at hr
  obtain ⟨hmem, hidx⟩ := List.mem_filter.mp hr
  simp only [Bool.and_eq_true, beq_iff_eq] at hidx
  split at hmem
  · exact hstream _ (by omega) _ hmem
  · split at hmem
    · exact hcsi _ hmem
    · exact fun hreg => h (hidx.1 ▸ hrows _ hmem hreg)

theorem loadFields_boundFrame (f : State → LoadRow → Nat) (l : List LoadRow) (h : ∀ r ∈ l, r.reg ≠ Reg.detCtrl) (s : State) :
    BoundFrame s (l.foldl (fun s r => loadField s r.reg r.lo r.w (f s r)) s) := by
  induction l generalizing s with
  | nil => exact .refl _
  | cons r l ih => exact (loadField_boundFrame s _ _ _ (h r List.mem_cons_self)).trans (ih (fun x hx => h x (List.mem_cons_of_mem _ hx)) _)

theorem loadObj_boundFrame (s : State) {idx : Nat} (sub : Nat) (h : idx ≠ 0x2D00) : BoundFrame s (loadObj s idx sub) := by
  unfold loadObj
  refine .ite (.refl _) ?_
  extract_lets v loaded
  have hloaded : BoundFrame s loaded := loadFields_boundFrame (fun _ r => r.enc.of r.w v) _ (fun r hr => rowsFor_reg h hr) s
  rw [if_neg (fun hx => h hx.1)]
  exact hloaded

theorem objWrite_boundFrame (s : State) {idx : Nat} (sub : Nat) (h : idx ≠ 0x2D00) : BoundFrame s (objWrite s idx sub) := by
  unfold objWrite
  split
  · exact .ite (srcSelect_boundFrame ..) (srcOff_boundFrame ..)
  · have hloaded := loadObj_boundFrame s sub h
    exact .ite (hloaded.trans (barDrive_boundFrame ..)) hloaded

theorem objTake_boundFrame (s : State) (ph : Nat) (x : Nat × Nat × Int) (h : x.1 ≠ 0x2D00) : BoundFrame s (objTake s ph x) := by
  have hput : BoundFrame s (objPut s x.1 x.2.1 x.2.2) := .same (by rfl)
  exact .upd (hput.trans (objWrite_boundFrame _ _ h)) (by rfl)

theorem objTakes_boundFrame (l : List (Nat × Nat × Int)) (h : ∀ x ∈ l, x.1 ≠ 0x2D00) (s : State) :
    BoundFrame s (l.foldl (fun s x => objTake s 0 x) s) := by
  induction l generalizing s with
  | nil => exact .refl _
  | cons x l ih => exact (objTake_boundFrame s 0 x (h x List.mem_cons_self)).trans (ih (fun x hx => h x (List.mem_cons_of_mem _ hx)) _)

/-- Without a replay the boundary takes what waits. -/
theorem objBoundary_off {s : State} (h : ReplayOff s) : BoundFrame s (objBoundary s) := by
  obtain ⟨hwf, hoff, hrep, hw⟩ := h
  have hnone : objReplayed s = [] := by simp [objReplayed, hrep]
  unfold objBoundary
  rw [hnone, List.nil_append]
  extract_lets l
  have htaken : BoundFrame s { s with od := { s.od with pendW := s.od.pendW.filter (fun x => x.2.2.2 == s.now) } } :=
    ⟨rfl, id, fun _ => ⟨hwf, hoff, hrep, fun x hx => hw x (List.mem_filter.mp hx).1⟩⟩
  refine htaken.trans (objTakes_boundFrame l (fun x hx => ?_) _)
  obtain ⟨y, hy, rfl⟩ := List.mem_map.mp hx
  exact hw y (List.mem_filter.mp hy).1

theorem regLoad_boundFrame (s : State) {o : Nat} (v : Nat) (h : o ≠ Reg.detCtrl) : BoundFrame s (regLoad s o v) :=
  ⟨rfl, id, replayOff_of_set h rfl rfl rfl⟩

theorem sparBoundary_boundFrame (s : State) : BoundFrame s (sparBoundary s) := by
  unfold sparBoundary
  split
  · exact .refl _
  · split
    · exact .refl _
    · extract_lets ta
      refine .trans (.trans (.trans (.same (by rfl)) (regLoad_boundFrame _ _ ?_)) (.same (by rfl))) (raise_boundFrame ..)
      decide +kernel

theorem takeFree_boundFrame (s : State) : BoundFrame s (takeFree s).2 := .same (by rfl)

theorem wearStep_boundFrame (s : State) : BoundFrame s (wearStep s) :=
  .ite (.refl _) (.ite (.trans (takeFree_boundFrame ..) (raise_boundFrame ..)) (takeFree_boundFrame ..))

theorem logLost_boundFrame (s : State) (k n : Nat) : BoundFrame s (logLost s k n) := .ite (.refl _) (.trans (.same (by rfl)) (raise_boundFrame ..))

theorem logBoundary_boundFrame (s : State) : BoundFrame s (logBoundary s) :=
  .trans (.trans (.same (by rfl)) (logLost_boundFrame ..)) (logLost_boundFrame ..)

theorem noPermit_boundFrame (s : State) : BoundFrame s (noPermit s) := .upd (lapse_boundFrame ..) (by rfl)

theorem lifePermit_boundFrame (s : State) (t : Nat) : BoundFrame s (lifePermit s t) :=
  .ite (.refl _) (.ite (noPermit_boundFrame ..) (lapse_boundFrame ..))

theorem takeFreeBytes_boundFrame (s : State) (n : Nat) : BoundFrame s (takeFreeBytes s n).2 := .same (by rfl)

theorem boxAdd_boundFrame (s : State) (btype : Nat) (b1 b2 : Bytes) : BoundFrame s (boxAdd s btype b1 b2) :=
  .ite (.upd (takeFreeBytes_boundFrame ..) (by rfl)) (.trans (.upd (takeFreeBytes_boundFrame ..) (by rfl)) (raise_boundFrame ..))

theorem gateWrite_regsF (s : State) (v : Nat) : (gateWrite s v).regsF =
    (Smap.set regReset s.regsF Reg.cpmGate (gateWord v)).filter (fun p => gateKeeps v p.1) := by
  have hkeeps : (fun o => match gateBitOf o with | some b => bit v b | none => true) = gateKeeps v := by
    funext o
    rw [gateKeeps]
    cases gateBitOf o <;> rfl
  rw [← hkeeps]
  rfl

theorem gateWrite_boundFrame (s : State) (v : Nat) : BoundFrame s (gateWrite s v) := by
  have hgate : Reg.detCtrl ≠ Reg.cpmGate := by decide +kernel
  have hkept : gateKeeps v Reg.detCtrl = true := gateKeeps_ungated (by decide +kernel) v
  refine ⟨rfl, id, ?_⟩
  rintro ⟨hwf, hbit, hrest⟩
  have hset := smap_set_wf regReset s.regsF Reg.cpmGate (gateWord v) hwf
  refine ⟨gateWrite_regsF s v ▸ smap_filter_wfFrom _ _ _ 0 hset, ?_, hrest⟩
  rw [regF, gateWrite_regsF, smap_get_filter regReset hset hkept, smap_get_set_other regReset s.regsF 0 _ _ _ hwf hgate]
  exact hbit

theorem lifeApply_boundFrame (s : State) : BoundFrame s (lifeApply s) := by
  unfold lifeApply
  split
  · exact .refl _
  · extract_lets old s1 _ v s2
    have hs2 : BoundFrame s s2 := .trans (.trans (.trans (.same (by rfl)) (boxAdd_boundFrame ..)) (raise_boundFrame ..)) (lifePermit_boundFrame ..)
    clear_value s2
    exact .ite (.trans (.ite (.upd hs2 (by rfl)) hs2) (gateWrite_boundFrame ..)) (.ite (.upd hs2 (by rfl)) hs2)

theorem tracePoint_boundFrame (s : State) (u i : Nat) : BoundFrame s (tracePoint s u i) := .trans (.same (by rfl)) (raiseX_boundFrame ..)

theorem tracePoints_boundFrame (s : State) (u : Nat) : BoundFrame s (tracePoints s u) :=
  .ite (.refl _) (.trans (takeFree_boundFrame ..) (.foldl (fun _ _ => tracePoint_boundFrame ..) ..))

theorem svcBoundary_boundFrame (s : State) : BoundFrame s (svcBoundary s) := by
  unfold svcBoundary
  extract_lets _ s1
  have hs1 : BoundFrame s s1 := .trans (.trans (.trans (.same (by rfl)) (lifeApply_boundFrame ..)) (logBoundary_boundFrame ..))
    (wearStep_boundFrame ..)
  clear_value s1
  exact .ite hs1 (hs1.trans (.foldl (fun _ _ => tracePoints_boundFrame ..) ..))

theorem pinsBoundary_boundFrame (s : State) : BoundFrame s (pinsBoundary s) := .ite (.same (by rfl)) (.trans (.same (by rfl)) (raise_boundFrame ..))

theorem setPut_boundFrame (s : State) (c : Nat) (raw : List (List WCap)) (box : Level) : BoundFrame s (setPut s c raw box) :=
  .ite (.trans (.same (by rfl)) (raise_boundFrame ..)) (.same (by rfl))

theorem setBoundary_boundFrame (s : State) : BoundFrame s (setBoundary s) := by
  unfold setBoundary
  split
  · exact .refl _
  · exact .ite (.refl _) (.trans (.same (by rfl)) (setPut_boundFrame ..))

theorem wordsReturned_boundFrame (s : State) (held : List Nat) : BoundFrame s (wordsReturned s held) := .ite (.refl _) (.same (by rfl))

theorem freezeNow_boundFrame (s : State) : BoundFrame s (freezeNow s) := .upd (.trans (.same (by rfl)) (wordsReturned_boundFrame ..)) (by rfl)

theorem freeze_boundFrame (s : State) (bad : Option (Nat × Nat)) : BoundFrame s (freeze s bad) :=
  .ite (freezeNow_boundFrame ..) (.trans (.ite (.trans (.trans (.same (by rfl)) (raise_boundFrame ..)) (raise_boundFrame ..)) (.same (by rfl)))
    (raise_boundFrame ..))

theorem takeWord_boundFrame {s t : State} {used : List Nat} {n : Nat} (h : takeWord s used = some (n, t)) : BoundFrame s t := by
  unfold takeWord at h
  dsimp only at h
  split at h
  · cases h
  · obtain ⟨k, -, hk⟩ := Option.map_eq_some_iff.mp h
    cases hk
    exact .same (by rfl)

theorem allocOne_boundFrame (held : List Nat) (a : AllocAcc) (x : Nat × Bytes) : BoundFrame a.st (allocOne held a x).st := by
  unfold allocOne
  split
  · exact .refl _
  · split
    · exact .refl _
    · split
      · next h => exact takeWord_boundFrame h
      · exact .refl _

theorem allocOne_foldl_boundFrame (held : List Nat) (l : List (Nat × Bytes)) (a : AllocAcc) : BoundFrame a.st (l.foldl (allocOne held) a).st := by
  induction l generalizing a with
  | nil => exact .refl _
  | cons x l ih => exact (allocOne_boundFrame held a x).trans (ih _)

theorem allocate_boundFrame (s : State) : BoundFrame s (allocate s) := by
  unfold allocate
  extract_lets held _ need kept a more returned
  have halloc : BoundFrame s a.st := allocOne_foldl_boundFrame _ need ⟨s, kept, []⟩
  clear_value a
  have hreturned : BoundFrame s returned := .trans (.trans halloc (.same (by rfl))) (wordsReturned_boundFrame ..)
  exact .ite (hreturned.trans (raise_boundFrame ..)) hreturned

theorem rebuild_boundFrame (s : State) : BoundFrame s (rebuild s) := .trans (.same (by rfl)) (allocate_boundFrame ..)

theorem levelDims_boundFrame (s : State) : BoundFrame s (levelDims s) := .ite (.refl _) (.trans (.same (by rfl)) (rebuild_boundFrame ..))

theorem fovSweep_boundFrame (s : State) (i : Nat) : BoundFrame s (fovSweep s i).2 := .trans (.same (by rfl)) (rebuild_boundFrame ..)

theorem streamEnable_boundFrame (s : State) (i : Nat) : BoundFrame s (streamEnable s i) :=
  .ite (.same (by rfl)) (.ite (.trans (.same (by rfl)) (fovSweep_boundFrame ..)) (.refl _))

theorem streamAge_boundFrame (s : State) (i : Nat) : BoundFrame s (streamAge s i) := .ite (.refl _) (.same (by rfl))

theorem recentre_boundFrame (s : State) (pos : List Int) : BoundFrame s (recentre s pos) :=
  .ite (.refl _) (.ite (.refl _) (.trans (.trans (.same (by rfl)) (rebuild_boundFrame ..)) (raise_boundFrame ..)))

theorem worldUpd_boundFrame (s : State) (f : World → World) : BoundFrame s (worldUpd s f) := .same (by rfl)

theorem startBuild_boundFrame (s : State) : BoundFrame s (startBuild s) := by
  unfold startBuild
  exact .trans (worldUpd_boundFrame ..) (rebuild_boundFrame ..)

theorem worldBoundary_boundFrame (s : State) (bad : Option (Nat × Nat)) (pos : Option (List Int)) : BoundFrame s (worldBoundary s bad pos) := by
  unfold worldBoundary
  extract_lets begins s1 s2 s3 s4 s5
  have hs2 : BoundFrame s s2 := .trans (freeze_boundFrame ..) (levelDims_boundFrame ..)
  clear_value s2
  have hs3 : BoundFrame s s3 := hs2.trans (.foldl (fun _ _ => streamEnable_boundFrame ..) ..)
  clear_value s3
  have hs4 : BoundFrame s s4 := hs3.trans (.foldl (fun _ _ => streamAge_boundFrame ..) ..)
  clear_value s4
  have hs5 : BoundFrame s s5 := by
    dsimp only [s5]
    split
    · exact hs4.trans (recentre_boundFrame ..)
    · exact hs4
  clear_value s5
  exact .ite (.trans (.upd hs5 (by rfl)) (startBuild_boundFrame ..)) (.upd hs5 (by rfl))

theorem katRun_boundFrame (s : State) (bad : Option Nat) : BoundFrame s (katRun s bad) :=
  .ite (.refl _) (.foldl (fun _ _ => .ite (.refl _) (.ite (.trans (.same (by rfl)) (raise_boundFrame ..)) (.same (by rfl)))) ..)

theorem bootPlan_boundFrame (s : State) : BoundFrame s (bootPlan s) := .ite (.same (by rfl)) (.refl _)

theorem bootPermit_boundFrame (s : State) : BoundFrame s (bootPermit s) := .ite (.same (by rfl)) (.refl _)

theorem unitEvent_boundFrame (s : State) (u : Nat) (e : UEvent) : BoundFrame s (unitEvent s u e) :=
  .ite (.upd (.ite (.same (by rfl)) (.same (by rfl))) (by rfl)) (.ite (.same (by rfl)) (.same (by rfl)))

theorem peaShort_boundFrame (s : State) (u : Nat) : BoundFrame s (peaShort s u) := .ite (raise_boundFrame ..) (.refl _)

theorem selAgain_boundFrame (s : State) (u : Nat) : BoundFrame s (selAgain s u) := .ite (.same (by rfl)) (.refl _)

theorem svcDepart_boundFrame (s : State) (u : Nat) : BoundFrame s (svcDepart s u) := by
  unfold svcDepart
  extract_lets m
  split
  · split
    · exact .same (by rfl)
    · exact .refl _
  · exact .refl _

theorem substitute_boundFrame (s : State) (u : Nat) : BoundFrame s (substitute s u) := by
  unfold substitute
  split
  · exact .ite (.upd (unitEvent_boundFrame ..) (by rfl)) (.same (by rfl))
  · exact .ite (.upd (.trans (.same (by rfl)) (raise_boundFrame ..)) (by rfl)) (.same (by rfl))

theorem departed_boundFrame (s : State) (u : Nat) : BoundFrame s (departed s u) :=
  .trans (.trans (substitute_boundFrame ..) (svcDepart_boundFrame ..)) (selAgain_boundFrame ..)

theorem disableUnit_boundFrame (s : State) (u : Nat) : BoundFrame s (disableUnit s u) :=
  .ite (.trans (.trans (unitEvent_boundFrame ..) (departed_boundFrame ..)) (peaShort_boundFrame ..)) (unitEvent_boundFrame ..)

theorem applyCmd_boundFrame (s : State) (u cmd : Nat) : BoundFrame s (applyCmd s u cmd) := by
  unfold applyCmd
  split
  · exact unitEvent_boundFrame ..
  · exact disableUnit_boundFrame ..
  · exact unitEvent_boundFrame ..
  · exact unitEvent_boundFrame ..

theorem retireRecord_boundFrame (s : State) (u reason : Nat) : BoundFrame s (retireRecord s u reason) :=
  .trans (.trans (.same (by rfl)) (raise_boundFrame ..)) (boxAdd_boundFrame ..)

theorem firmwareCmd_boundFrame (s : State) (u cmd : Nat) : BoundFrame s (firmwareCmd s u cmd).2 := by
  unfold firmwareCmd
  split
  · exact applyCmd_boundFrame ..
  · exact .same (by rfl)

theorem retireAct_boundFrame (s : State) (u : Nat) : BoundFrame s (retireAct s u) := by
  unfold retireAct
  extract_lets r
  split
  · exact .refl _
  · split
    · exact .trans (.upd (applyCmd_boundFrame ..) (by rfl)) (retireRecord_boundFrame ..)
    · exact .trans (.upd (applyCmd_boundFrame ..) (by rfl)) (retireRecord_boundFrame ..)
    · exact firmwareCmd_boundFrame ..
    · exact .refl _

theorem strikeAct_boundFrame (s : State) (u : Nat) : BoundFrame s (strikeAct s u) :=
  .ite (.refl _) (.ite (.ite (.trans (.same (by rfl)) (firmwareCmd_boundFrame ..)) (.same (by rfl))) (.same (by rfl)))

theorem takeStrike_boundFrame (s : State) (u : Nat) : BoundFrame s (takeStrike s u) := .ite (.same (by rfl)) (.refl _)

theorem strikesAtBoundary_boundFrame (s : State) : BoundFrame s (strikesAtBoundary s) :=
  .foldl (fun _ _ => .trans (.trans (takeStrike_boundFrame ..) (strikeAct_boundFrame ..)) (retireAct_boundFrame ..)) ..

theorem weightBoundary_boundFrame (s : State) : BoundFrame s (weightBoundary s) := by
  unfold weightBoundary
  split
  · exact .refl _
  · exact .same (by rfl)

theorem planLate_boundFrame (s : State) : BoundFrame s (planLate s) := .ite (.trans (.same (by rfl)) (raise_boundFrame ..)) (.refl _)

theorem editWrite_boundFrame (s : State) (a : Nat) (x : Nat × Nat) : BoundFrame s (editWrite s a x) := by
  unfold editWrite
  split
  · exact .same (by rfl)
  · exact .refl _

theorem editCopy_boundFrame (s : State) (p : Plan) (l : List (Nat × Nat)) (k : Nat) : BoundFrame s (editCopy s p l k) :=
  .trans (.trans (.same (by rfl)) (.foldl (fun _ _ => .same (by rfl)) ..)) (.foldl (fun _ _ => editWrite_boundFrame ..) ..)

theorem editBoundary_boundFrame (s : State) : BoundFrame s (editBoundary s) := by
  unfold editBoundary
  extract_lets l
  split
  · exact .refl _
  · exact .ite (.refl _) (.ite (.foldl (fun _ _ => raise_boundFrame ..) ..) (.upd (.trans (editCopy_boundFrame ..) (editCopy_boundFrame ..))
    (by rfl)))

theorem raiseOnion_boundFrame (s : State) (stack code unit d0 d1 : Nat) : BoundFrame s (raiseOnion s stack code unit d0 d1) := raiseX_boundFrame ..

theorem mode2Boundary_boundFrame (s : State) : BoundFrame s (mode2Boundary s) :=
  .foldl (fun _ _ => .ite (.refl _) (.upd (.ite (.same (by rfl)) (.trans (.same (by rfl)) (raiseOnion_boundFrame ..))) (by rfl))) ..

theorem boundaryWorld_boundFrame (s : State) (bad : Option (Nat × Nat)) (kat : Option Nat) : BoundFrame s (boundaryWorld s bad kat) := by
  unfold boundaryWorld
  extract_lets s1
  have hs1 : BoundFrame s s1 := .trans (worldBoundary_boundFrame ..) (setBoundary_boundFrame ..)
  clear_value s1
  exact .trans (.trans (.trans (.trans (.trans (.trans (.trans (hs1.trans (mode2Boundary_boundFrame ..)) (editBoundary_boundFrame ..))
    (planLate_boundFrame ..)) (weightBoundary_boundFrame ..)) (strikesAtBoundary_boundFrame ..)) (bootPermit_boundFrame ..))
      (bootPlan_boundFrame ..)) (katRun_boundFrame ..)

theorem primBoundary_boundFrame (s : State) : BoundFrame s (primBoundary s) := by
  unfold primBoundary
  split
  · exact .same (by rfl)
  · exact .refl _

theorem noBaseEvent_boundFrame (s : State) : BoundFrame s (noBaseEvent s) := .trans (.same (by rfl)) (raise_boundFrame ..)

theorem candLatch_boundFrame (s : State) : BoundFrame s (candLatch s) := by
  unfold candLatch
  extract_lets _ s1 s2
  have hs2 : BoundFrame s s2 := .ite (.trans (.trans (.same (by rfl)) (primBoundary_boundFrame ..)) (noBaseEvent_boundFrame ..)) (.trans (.same
    (by rfl)) (primBoundary_boundFrame ..))
  clear_value s2
  split
  · exact .upd hs2 (by rfl)
  · extract_lets nj
    split
    extract_lets s3
    have hs3 : BoundFrame s s3 := .ite (.trans (.trans (.same (by rfl)) (primBoundary_boundFrame ..)) (noBaseEvent_boundFrame ..)) (.trans (.same
      (by rfl)) (primBoundary_boundFrame ..))
    clear_value s3
    split
    · exact .upd (.upd hs3 (by rfl)) (by rfl)
    · split
      extract_lets seedRec s5 s6 s22 s7 ranks sv s8
      have hs6 : BoundFrame s s6 := .ite (.trans (.upd (.upd hs3 (by rfl)) (by rfl)) (raise_boundFrame ..)) (.upd (.upd hs3 (by rfl)) (by rfl))
      clear_value s6
      have hs8 : BoundFrame s s8 := .ite (.trans (.ite (hs6.trans (raise_boundFrame ..)) hs6) (raise_boundFrame ..)) (.ite (hs6.trans
        (raise_boundFrame ..)) hs6)
      clear_value s8
      exact .upd (.ite (hs8.trans (raise_boundFrame ..)) hs8) (by rfl)

theorem replayCheck_boundFrame (s : State) (chain : Bytes) (live : List InRec) : BoundFrame s (replayCheck s chain live) := by
  unfold replayCheck
  split
  · exact .refl _
  · extract_lets rec8
    split
    · exact .trans (.same (by rfl)) (raise_boundFrame ..)
    · split
      · exact .ite (.trans (.same (by rfl)) (raise_boundFrame ..)) (.refl _)
      · exact .refl _

theorem ethPortSet_boundFrame (s : State) (p : Nat) (x : EthPort) : BoundFrame s (ethPortSet s p x) := .ite (.same (by rfl)) (.same (by rfl))

theorem sendOn_boundFrame (s : State) (p pcp : Nat) (b : Bytes) : BoundFrame s (sendOn s p pcp b) := by
  unfold sendOn
  extract_lets put
  split
  · exact .same (by rfl)
  · split
    · exact .refl _
    · exact .upd (ethPortSet_boundFrame ..) (by rfl)

theorem streamOne_boundFrame {s t : State} {r : InRec} (h : streamOne s r = some t) : BoundFrame s t := by
  unfold streamOne at h
  dsimp only at h
  split at h
  · cases h
  · split at h
    · cases h
    · cases h
      exact .upd (.trans (.same (by rfl)) (sendOn_boundFrame ..)) (by rfl)

theorem streamPush_fold_boundFrame (l : List InRec) (x : State × Nat) : BoundFrame x.1 (l.foldl (fun (x : State × Nat) r =>
    match streamOne x.1 r with | some t => (t, x.2) | none => (x.1, x.2 + 1)) x).1 := by
  induction l generalizing x with
  | nil => exact .refl _
  | cons r l ih =>
    refine .trans ?_ (ih _)
    dsimp only
    split
    · next h => exact streamOne_boundFrame h
    · exact .refl _

theorem streamPush_boundFrame (s : State) (l : List InRec) : BoundFrame s (streamPush s l) := by
  have hfold := streamPush_fold_boundFrame l (s, 0)
  exact .ite (.refl _) (.ite hfold (.trans (.upd hfold (by rfl)) (raise_boundFrame ..)))

theorem ringPush_boundFrame (s : State) (l : List RingRec) : BoundFrame s (ringPush s l) :=
  .ite (.ite (.same (by rfl)) (.ite (.refl _) (raise_boundFrame ..))) (.refl _)

theorem detBoundary_boundFrame (s : State) : BoundFrame s (detBoundary s) :=
  .upd (.ite (.trans (.trans (.upd (replayCheck_boundFrame ..) (by rfl)) (ringPush_boundFrame ..)) (streamPush_boundFrame ..)) (.upd
    (replayCheck_boundFrame ..) (by rfl))) (by rfl)

theorem launchAt_boundFrame (s : State) (tick : Nat) : BoundFrame s (launchAt s tick) := .ite (.same (by rfl)) (.refl _)

theorem edgeAcquire_boundFrame (s : State) (tick : Nat) : BoundFrame s (edgeAcquire s tick) := by
  unfold edgeAcquire
  extract_lets last
  clear_value last
  split
  · exact .upd (launchAt_boundFrame ..) (by rfl)
  · extract_lets m
    exact .ite (.trans (.upd (launchAt_boundFrame ..) (by rfl)) (raise_boundFrame ..)) (.ite (.trans (.upd (.upd (.upd (launchAt_boundFrame ..)
      (by rfl)) (by rfl)) (by rfl)) (barDrive_boundFrame ..)) (.upd (.upd (.upd (launchAt_boundFrame ..) (by rfl)) (by rfl)) (by rfl)))

theorem fsoeCheck_boundFrame (s : State) : BoundFrame s (fsoeCheck s) := .ite (.trans (raise_boundFrame ..) (lapse_boundFrame ..)) (.refl _)

theorem fsoeReset_boundFrame (s : State) (reason : Nat) : BoundFrame s (fsoeReset s reason) :=
  .ite (.refl _) (.trans (.trans (.same (by rfl)) (raise_boundFrame ..)) (fsoeCheck_boundFrame ..))

theorem alCycleLoss_boundFrame (s : State) : BoundFrame s (alCycleLoss s) :=
  .ite (.trans (.trans (.same (by rfl)) (raise_boundFrame ..)) (fsoeReset_boundFrame ..)) (.refl _)

theorem edgeLoop_boundFrame (s : State) (acc tick win : Nat) : BoundFrame s (edgeLoop s acc tick win) := by
  unfold edgeLoop
  extract_lets p e m ok s1 avg inT outT _ s2
  have hs2 : BoundFrame s s2 := .upd (.ite (.refl _) (raise_boundFrame ..)) (by rfl)
  clear_value s2
  split
  · exact ((hs2.trans (toAcquire_boundFrame ..)).trans (alCycleLoss_boundFrame ..)).trans (raise_boundFrame ..)
  · split
    · exact .ite (.trans (.upd hs2 (by rfl)) (raise_boundFrame ..)) hs2
    · exact .ite (.upd hs2 (by rfl)) hs2
    · exact .ite (.upd hs2 (by rfl)) hs2
    · exact hs2

theorem judgeEdge_boundFrame (s : State) (acc tick win : Nat) : BoundFrame s (judgeEdge s acc tick win) := by
  unfold judgeEdge
  split
  · exact .refl _
  · exact edgeAcquire_boundFrame ..
  · exact .trans (toAcquire_boundFrame ..) (alCycleLoss_boundFrame ..)
  · exact .ite (edgeLoop_boundFrame ..) (raise_boundFrame ..)

end Sys2Proof.Machine

/-! ### A boundary as a whole (R36, R40, R43) -/
namespace Sys2Proof.Machine

theorem boundaryInputs_off {s : State} (h : ReplayOff s) : BoundFrame s (boundaryInputs s) := by
  have hbefore : BoundFrame s (sparBoundary (svcBoundary (pinsBoundary s))) :=
    ((pinsBoundary_boundFrame s).trans (svcBoundary_boundFrame _)).trans (sparBoundary_boundFrame _)
  have hobjects := hbefore.trans (objBoundary_off (hbefore.off h))
  exact (((((hobjects.trans (weightConv_boundFrame _)).trans (powerBoundary_boundFrame _)).trans (replayInputs_boundFrame _)).trans
    (permitBoundary_boundFrame _)).trans (rxLatch_boundFrame _)).trans (jointTake_boundFrame _ true)

theorem boundaryAcc_switchFrame (s : State) : SwitchFrame s (boundaryAcc s) := by
  unfold boundaryAcc
  split
  · exact .same (by rfl)
  · exact .ite (.refl s) (.ite (.same (by rfl)) (advance_switchFrame ..))

theorem zeroGates_of_no_plan {s : State} (h : s.plan.run = none) : zeroGates s = s := by
  have hgates : gates s = [] := by rw [gates, h]
  have hnext : nextGate s = none := by rw [nextGate, hgates, List.drop_nil]
  rw [zeroGates, hnext]

/-- What the statement says of a state in which the boundary of s has opened a cycle. -/
structure Opens (s : State) (i : BoundaryIn) (t : State) : Prop where
  cycle : t.phu.cycle = (match s.phu.cycleLoad with
    | some c => c
    | none => if s.phu.everTracked then (s.phu.cycle + 1) % 2 ^ 64 else 0)
  bcount : t.phu.bcount = s.phu.bcount + 1
  tracked : t.phu.everTracked = true
  status : t.phu.status = phuStatus s.phu.st
  tcCycle : t.phu.tc.cycle = t.phu.cycle
  dc : t.phu.tc.dc = i.dcNs.toNat
  gptp : t.phu.tc.gptpS = i.gptpS.toNat
  noPlan : s.plan.run = none → t.phu.atBound = true ∧ t.plan.run = none

section Opens

variable {s t u : State} {i : BoundaryIn}

/-- The boundary's own fields of the PHU carry the statement on. -/
theorem Opens.of_eq (h : Opens s i t) (hcycle : u.phu.cycle = t.phu.cycle) (hbcount : u.phu.bcount = t.phu.bcount)
    (htracked : u.phu.everTracked = t.phu.everTracked) (hstatus : u.phu.status = t.phu.status) (htc : u.phu.tc = t.phu.tc)
    (hplan : s.plan.run = none → u.phu.atBound = true ∧ u.plan.run = none) : Opens s i u :=
  ⟨hcycle.trans h.cycle, hbcount.trans h.bcount, htracked.trans h.tracked, hstatus.trans h.status, by rw [htc, hcycle]; exact h.tcCycle,
    by rw [htc]; exact h.dc, by rw [htc]; exact h.gptp, hplan⟩

theorem Opens.of_boundKept (h : Opens s i t) (hkept : boundKept u = boundKept t) : Opens s i u := by
  simp only [boundKept, Prod.mk.injEq] at hkept
  obtain ⟨hcycle, hbcount, htracked, hstatus, htc, hbound, hrun, -⟩ := hkept
  exact h.of_eq hcycle hbcount htracked hstatus htc (fun hnone => ⟨hbound.trans (h.noPlan hnone).1, hrun.trans (h.noPlan hnone).2⟩)

theorem Opens.zeroGates (h : Opens s i t) : Opens s i (zeroGates t) := by
  have hframe := zeroGates_switchFrame t
  have hcycle := hframe.cycle
  simp only [cycleKept, Prod.mk.injEq] at hcycle
  obtain ⟨-, hnumber, -, htracked, hbcount, hstatus, htc, -⟩ := hcycle
  refine h.of_eq hnumber hbcount htracked hstatus htc (fun hnone => ?_)
  rw [zeroGates_of_no_plan (h.noPlan hnone).2]
  exact h.noPlan hnone

/-- Without a replay to begin, the boundary's replay step ends the one that ran. -/
theorem replayBoundary_off (h : ReplayOff s) : replayBoundary s = { s with det := { s.det with replay := false, replayDone := false } } := by
  unfold replayBoundary
  simp [h.2.1]

theorem Opens.replayBoundary (h : Opens s i t) (hoff : ReplayOff t) : Opens s i (replayBoundary t) := by
  rw [replayBoundary_off hoff]
  exact h.of_eq rfl rfl rfl rfl rfl h.noPlan

theorem waitedEdge_boundFrame (s : State) : BoundFrame { s with phu := { s.phu with waitEdge := [] } } (waitedEdge s) :=
  .foldl (fun _ _ => judgeEdge_boundFrame ..) ..

theorem Opens.waitedEdge (h : Opens s i t) : Opens s i (waitedEdge t) ∧ (waitedEdge t).phu.waitEdge = [] := by
  have hframe := waitedEdge_boundFrame t
  have hcleared : Opens s i { t with phu := { t.phu with waitEdge := [] } } := h.of_eq rfl rfl rfl rfl rfl h.noPlan
  exact ⟨hcleared.of_boundKept hframe.kept, hframe.edges rfl⟩

end Opens

/-- The boundary up to its time correspondence. -/
def boundaryBegun (s : State) (i : BoundaryIn) : State :=
  let e := endGates s
  boundaryTime (nondetEvent (forceRegs (boundaryOpen (boundaryAcc e))) e.phu.cycle) i

/-- The boundary's inputs, before its latch. -/
def boundaryTaken (s : State) (i : BoundaryIn) : State :=
  boundaryWorld (boundaryInputs (boundaryCounts { s with det := { s.det with dismap := disMap s } })) (badPair i) (i.katBad.map (·.val))

/-- The boundary's latch and its record. -/
def boundaryRecorded (s : State) : State := detBoundary (if switchHold s then s else candLatch s)

/-- The boundary's record, its gates of phase 0 and the edges that have waited for it. -/
def boundaryEnded (s : State) : State :=
  let r := replayBoundary (boundaryRecorded s)
  waitedEdge (if switchHold s then r else zeroGates r)

theorem cycleBoundary_eq {s : State} (h : phaseRuns s = true) (i : BoundaryIn) :
    cycleBoundary s i = boundaryEnded (boundaryTaken (boundaryBegun s i) i) := by
  unfold cycleBoundary
  rw [if_neg (by simp [h])]
  rfl

theorem dismap_boundFrame (s : State) (d : List Bool) : BoundFrame s { s with det := { s.det with dismap := d } } := .same (by rfl)

theorem boundaryTaken_boundFrame {s : State} (i : BoundaryIn) (h : ReplayOff s) : BoundFrame s (boundaryTaken s i) := by
  have hcounts := (dismap_boundFrame s (disMap s)).trans (boundaryCounts_boundFrame _)
  exact (hcounts.trans (boundaryInputs_off (hcounts.off h))).trans (boundaryWorld_boundFrame ..)

theorem boundaryRecorded_boundFrame (s : State) : BoundFrame s (boundaryRecorded s) :=
  .trans (.ite (.refl s) (candLatch_boundFrame s)) (detBoundary_boundFrame _)

theorem boundaryEnded_opens {s t : State} {i : BoundaryIn} (h : Opens s i t) (hoff : ReplayOff t) :
    Opens s i (boundaryEnded t) ∧ (boundaryEnded t).phu.waitEdge = [] := by
  have hrecorded := boundaryRecorded_boundFrame t
  have hreplayed := (h.of_boundKept hrecorded.kept).replayBoundary (hrecorded.off hoff)
  unfold boundaryEnded
  refine Opens.waitedEdge ?_
  split
  · exact hreplayed
  · exact hreplayed.zeroGates

/-- The registers in force are DET_CTRL's own where a boundary opens. -/
theorem forceRegs_off {s : State} (hwf : Smap.wf regReset s.regs = true) (hoff : bit (regGet s Reg.detCtrl) 3 = false)
    (hreplay : s.det.replay = false) (hpend : ∀ x ∈ s.od.pendW, x.1 ≠ 0x2D00) : ReplayOff (forceRegs s) := by
  refine ⟨smap_set_wf regReset s.regs _ _ hwf, ?_, hreplay, hpend⟩
  have hother : Reg.detCtrl ≠ Reg.ddrCfg := by decide
  have hget := smap_get_set_other regReset s.regs 0 Reg.ddrCfg Reg.detCtrl (Smap.get regReset s.regsF Reg.ddrCfg) hwf hother
  exact (congrArg (fun w : BitVec 32 => bit w.toNat 3) hget).trans hoff

section Begun

variable {s : State} (hregs : RegsOk s) (hctrl : bit (regGet s Reg.detCtrl) 3 = false) (hreplay : s.det.replay = false)
  (hpend : ∀ x ∈ s.od.pendW, x.1 ≠ 0x2D00) (i : BoundaryIn)
include hregs hctrl hreplay hpend

theorem boundaryBegun_opens : Opens s i (boundaryBegun s i) ∧ ReplayOff (boundaryBegun s i) := by
  have hended : SwitchFrame s (boundaryAcc (endGates s)) := (endGates_switchFrame s).trans (boundaryAcc_switchFrame _)
  obtain ⟨hwf, hget⟩ := hended.ctrl hregs.1
  have hoff : ReplayOff (forceRegs (boundaryOpen (boundaryAcc (endGates s)))) :=
    forceRegs_off hwf ((congrArg (fun w : BitVec 32 => bit w.toNat 3) hget).trans hctrl) (hended.replay.trans hreplay)
      (by show ∀ x ∈ (boundaryAcc (endGates s)).od.pendW, _; rwa [hended.pendW])
  have hevent := nondetEvent_boundFrame (forceRegs (boundaryOpen (boundaryAcc (endGates s)))) (endGates s).phu.cycle
  have hcycle := hended.cycle
  have hplan := hended.plan
  have hkept := hevent.kept
  simp only [boundKept, cycleKept, Prod.mk.injEq] at hkept hcycle
  obtain ⟨hst, hnumber, hload, htracked, hbcount, -⟩ := hcycle
  obtain ⟨kcycle, kbcount, ktracked, kstatus, -, kbound, krun, -⟩ := hkept
  refine ⟨⟨kcycle.trans ?_, kbcount.trans (congrArg (· + 1) hbcount), ktracked, kstatus.trans (congrArg phuStatus hst), rfl, rfl, rfl,
    fun hnone => ⟨kbound, krun.trans ((congrArg PlanSt.run hplan).trans hnone)⟩⟩, hevent.off hoff⟩
  rw [← hload, ← htracked, ← hnumber]
  rfl

theorem cycleBoundary_opens (hruns : phaseRuns s = true) : Opens s i (cycleBoundary s i) ∧ (cycleBoundary s i).phu.waitEdge = [] := by
  obtain ⟨hbegun, hoff⟩ := boundaryBegun_opens hregs hctrl hreplay hpend i
  have htaken := boundaryTaken_boundFrame i hoff
  rw [cycleBoundary_eq hruns]
  exact boundaryEnded_opens (hbegun.of_boundKept htaken.kept) (htaken.off hoff)

end Begun

/-- Settles O12: until the cycle is opened the ended cycle's gates leave its number and its status, what follows leaves the opened cycle,
and without a replay no record replaces its number. -/
theorem boundaryOpensNextCycle : Obligations.BoundaryOpensNextCycle := by
  unfold Obligations.BoundaryOpensNextCycle
  intro s b hup hruns hreplay hctrl hpend hregs
  have ho := cycleBoundary_opens (s := answer s .none) hregs hctrl hreplay hpend b hruns
  obtain ⟨hopens, hedges⟩ := ho
  exact ⟨_, runArith_next rfl hup, hopens.cycle, hopens.bcount, hopens.tracked, hopens.status, hopens.tcCycle, hopens.dc, hopens.gptp, hedges,
    fun hnone _ _ _ _ => (hopens.noPlan hnone).1⟩

end Sys2Proof.Machine
